-- ==== Sys2Proof/Word.lean ====
section
/-! DEFINITION. The word types of the module (R9, R10) and the data a command carries from outside
(frames, datagrams, samples, detections). Constructors of commands are in Syntax.lean. -/

namespace Sys2Proof

/-- A register, a bus word, a short time: 32 bits. -/
abbrev Word := BitVec 32

/-- The byte of R10. -/
abbrev Byte := BitVec 8

/-- A source of a stretch request (R34). -/
inductive StretchSrc where
  | droop
  | thermal
  | powerCap
deriving DecidableEq, Repr

/-- Why an island is stopped: the cases of R39 that stop one. -/
inductive StopCause where
  | idle
  | standby
  | port
  | coreOut
  | still
deriving DecidableEq, Repr

/-- What error correction finds: in a CSI-2 packet header (R71, R72), or in an HBM word that is read (R351, R382). -/
inductive EccResult where
  | clean
  | corrected
  | uncorrectable
deriving DecidableEq, Repr

/-- What a CSI-2 Frame Start or Frame End carries: its data type, its frame number, and what ECC finds in its header (Table 3-2). -/
structure ShortPacket where
  dt : BitVec 6
  num : BitVec 16
  ecc : EccResult
deriving DecidableEq, Repr

/-- What decides a read beside its opcode: whether the complement of the opcode is right, and what SEC-DED finds in words of the
HBM window, by their index in the data phase. -/
structure ReadPhase where
  compOk : Bool
  hbm : List (Nat × EccResult)
deriving DecidableEq, Repr

/-- A sample of the power-cap controller: the input power it measures in its 10 µs, and whether telemetry drops it (R454). -/
structure PowerSample where
  milliwatts : Nat
  dropped : Bool
deriving DecidableEq, Repr

/-- A twin-basin queue of R98. -/
inductive QRef where
  | ingress (s : Fin 256)
  | stage (n : Fin 128)
  | hostResult
  | hostInject
deriving DecidableEq, Repr

/-- A twin-basin queue that has a register window (R111). -/
inductive HostQ where
  | result
  | inject
deriving DecidableEq, Repr

/-- A sensor port (Table 3-1). -/
inductive PortRef where
  | csi (n : Fin 8)
  | mac (m : Fin 4)
  | spi (i : Fin 4)
  | can (j : Fin 2)
  | enc (e : Fin 8)
  | i3c (n : Fin 8)
  | fsync (n : Fin 8)
deriving DecidableEq, Repr

/-- A UDP datagram as the MAC receives it (R75, R76). `supported` is clear for a frame outside
Table 3-3 (fragmented, stacked tags, extension headers, TCP, too long); `checksumOk` is the check of
its UDP checksum; `intact` is clear for a frame with an FCS or length error (Table 3-12). Addresses are 4 or 16 bytes, most significant first. -/
structure Datagram where
  srcIp : List Byte
  dstIp : List Byte
  srcPort : BitVec 16
  dstPort : BitVec 16
  vlan : Option (BitVec 12)
  payload : List Byte
  supported : Bool
  checksumOk : Bool
  intact : Bool := true
deriving DecidableEq, Repr

/-- The PTP messages of the profiles of Table 2-3. -/
inductive PtpKind where
  | sync
  | followUp
  | delayRequest
  | delayResponse
  | peerDelayRequest
  | peerDelayResponse
  | peerDelayFollowUp
  | announce
deriving DecidableEq, Repr

/-- How a PTP message travels (Table 2-3), as TIME_PTP_CFGp.transport numbers it. -/
inductive PtpTransport where
  | layer2
  | ipv4
  | ipv6
deriving DecidableEq, Repr

/-- A PTP message as the PTP engine receives it (R60, R61): its kind, its transport and its domain. What the
standards that Table 2-3 names make of the message is the management core's, and comes with it: the
port state after it, the mean path delay, the offset, the grandmaster's time. -/
structure PtpRx where
  kind : PtpKind
  transport : PtpTransport
  domain : Byte
  delayValid : Bool
  delay : Word
  offset : Word
  gmSec : BitVec 48
  gmNs : Word
  state : BitVec 4
deriving DecidableEq, Repr

/-- A request that the NET block answers (R282); `target` is the address asked for, 4 or 16 bytes. -/
inductive NetRequest where
  | arp (target : List Byte)
  | neighbourSolicitation (target : List Byte)
  | echo (target : List Byte)
deriving DecidableEq, Repr

/-- A CAN frame valid at the end of its end-of-frame field (R78); `sof` is the short time of the
falling edge of start of frame (Table 3-5). -/
structure CanFrame where
  ident : BitVec 29
  ext : Bool
  fd : Bool
  data : List Byte
  sof : Word
deriving DecidableEq, Repr

/-- The unit kinds of SAFE_LOGi_1 (Table 14-8) and those Table 14-3 adds. -/
inductive UnitKind where
  | core
  | pointUnit
  | cluster
  | dieUnit
  | port
  | config
  | timebase
  | supervisor
  | management
  | security
deriving DecidableEq, Repr

/-- The memories whose SEC-DED corrections the always-on counters tell apart (Table 16-2). -/
inductive EccStore where
  | sram
  | hbm
  | sequencer
  | registerFile
deriving DecidableEq, Repr

/-- A detection as it reaches the safety supervisor (R351, R354). `jetFails`: the unit's test jet fails
during recovery; `again`: the same HBM word fails again during recovery (R353), with its address in
`addr`; `reloadFails`: a reloaded configuration segment does not verify (R358); `corrected`: SEC-DED has corrected the
error in this memory, so that it is counted and is no fault (R252, R351). -/
structure Detection where
  cause : Byte
  unit : UnitKind
  number : Nat
  detail : Word
  jetFails : Bool
  again : Bool
  addr : Nat
  reloadFails : Bool
  corrected : Option EccStore := none
deriving DecidableEq, Repr

/-- The owner of a scrubbed SRAM (Table 14-2): a core, a cluster, or the ingress queues. -/
inductive SramOwner where
  | core (c : Fin 32)
  | cluster (k : Fin 8)
  | ingress
deriving DecidableEq, Repr

/-- What the scrubber read (R365): where, and how the word was. -/
inductive ScrubResult where
  | cleanSram
  | correctedSram
  | correctedSeq
  | uncorrectableSram (owner : SramOwner)
  | uncorrectableSeq (cc : Fin 40)
deriving DecidableEq, Repr

/-- A monitor leaving its window (R444, R455). -/
inductive MonitorEvent where
  | supply (mv : Nat)
  | junction (sixteenths : BitVec 16)
deriving DecidableEq, Repr

/-- The op field of a transaction that neither reads nor writes: STATUS, or a value that Table 15-2 leaves out (R376). -/
inductive NoDataOp where
  | status
  | op0
  | op6
  | op7
deriving DecidableEq, Repr

/-- A transaction whose CS# rises early (R375): what had been taken of it, and of the HBM words read, by their index, those in
which SEC-DED finds an error (R382). -/
inductive Abandoned where
  | early (compOk : Bool)
  | read (a : Word) (fixed : Bool) (crc : Bool) (words : Nat) (hbm : List (Nat × EccResult))
  | write (a : Word) (fixed : Bool) (crc : Bool) (words : List Word)
deriving DecidableEq, Repr

/-! ## Plain arithmetic of words -/

/-- Bits [lo + n - 1 : lo] of a word, as a number. -/
def Word.field (w : Word) (lo n : Nat) : Nat := (w.toNat / 2 ^ lo) % 2 ^ n

/-- Bit n of a word. -/
def Word.bit (w : Word) (n : Nat) : Bool := w.getLsbD n

/-- The word with field [lo + n - 1 : lo] replaced. -/
def Word.setField (w : Word) (lo n v : Nat) : Word :=
  let mask : Word := BitVec.ofNat 32 ((2 ^ n - 1) * 2 ^ lo)
  (w &&& ~~~mask) ||| (BitVec.ofNat 32 ((v % 2 ^ n) * 2 ^ lo))

/-- The word with bit n set to b. -/
def Word.setBit (w : Word) (n : Nat) (b : Bool) : Word := Word.setField w n 1 b.toNat

/-- The n little-endian bytes of a number (R10). -/
def leBytes : Nat → Nat → List Byte
  | 0, _ => []
  | n + 1, v => BitVec.ofNat 8 v :: leBytes n (v / 256)

/-- The number that little-endian bytes spell (R10). -/
def ofLe : List Byte → Nat
  | [] => 0
  | b :: bs => b.toNat + 256 * ofLe bs

/-- Short time a is earlier than short time b (R46). -/
def before (a b : Word) : Bool := decide (0 < (b - a).toInt)

end Sys2Proof
end

