-- ==== Sys2Proof/Syntax.lean ====
section
/-! DEFINITION. The commands of the block: one constructor for each of the 270 rows of
spec/opcode_table.json, in the table's order. The table gives no operands; a constructor carries what
its rule needs from outside: a port, a queue, a group, the word written, the bytes that arrive. -/

namespace Sys2Proof

/-- A command: one step of the module, whole and indivisible (spec/95_what_each_step_holds.md). -/
inductive Instr where
  /-- NS_COUNT_TICK (R45). Each 1 GHz tick advances the 64-bit nanosecond count by 1 ns plus the accumulated rate correction. -/
  | nsCountTick
  /-- STRETCH_REQUEST (R34). A droop, thermal or power-cap source requests a longer period for an island, and the island runs at the longest period requested. -/
  | stretchRequest (i : Fin 166) (src : StretchSrc) (period : Nat)
  /-- STRETCH_WITHDRAW (R34). When every stretch request has been withdrawn, the island returns to its nominal period. -/
  | stretchWithdraw (i : Fin 166) (src : StretchSrc)
  /-- ISLAND_STOP (R37). A stop order takes effect once every sluice transfer of the island has finished, and the island then holds its state. -/
  | islandStop (i : Fin 166) (why : StopCause)
  /-- ISLAND_RESTART (R37). A restart order brings a stopped island back to its nominal or stretched period within 1 µs. -/
  | islandRestart (i : Fin 166)
  /-- SLUICE_TRANSFER (R40). A sender presents a bundle and completes the four-phase handshake with the receiving island. -/
  | sluiceTransfer (a : Fin 166) (b : Fin 166) (ch : Fin 256) (bundle : List Word) (parity : List Bool) (seqBit : Bool)
  /-- TIME_CAPTURE (R51). TIME_CTRL.capture latches the nanosecond count and the wide time of one nanosecond. -/
  | timeCapture
  /-- STEP_ARM (R53). TIME_CTRL.step_arm latches the target wide time and TIME_STEP_AT, or is refused as a bus error. -/
  | stepArm
  /-- STEP_APPLIED (R53). When short time reaches the latched TIME_STEP_AT, the anchor is set, anchored sets and step_applied rises. -/
  | stepApplied
  /-- TIME_EPOCH_RESET (R57). TIME_CTRL.epoch_reset starts a time-epoch reset: OUT_VALID falls, the epoch increments, wide time returns to zero and groups drain. -/
  | timeEpochReset
  /-- TIME_SOURCE_SELECT (R58). A TIME_CTRL write of source selects host, PTP or PPS_IN discipline, or is refused while a step is pending. -/
  | timeSourceSelect (src : BitVec 2)
  /-- RATE_CORRECTION_WRITE (R55). A TIME_RATE_HI write applies the combined 40-bit rate correction within 1 µs, or is refused. -/
  | rateCorrectionWrite (hi : Word)
  /-- TIME_OFFSET_REPORT (R56). Host software reports an offset in TIME_OFFSET_REPORT, which may raise TIME_FAR. -/
  | timeOffsetReport (off : Word)
  /-- SERVO_UPDATE (R58). The management core's servo updates the rate correction and reports the offset from PTP or PPS_IN. -/
  | servoUpdate (rate : BitVec 40) (off : Word)
  /-- PTP_MESSAGE_RX (R60). A PTP event or general message is received on a MAC, stamped at the USXGMII boundary and passed to the PTP engine. -/
  | ptpMessageRx (m : Fin 4) (msg : PtpRx)
  /-- PTP_MESSAGE_TX (R60). The PTP engine transmits a Sync, delay request or Announce message, stamped and corrected in flight for one-step. -/
  | ptpMessageTx (m : Fin 4) (msg : PtpKind)
  /-- PPS_OUT_RISE (R64). PPS_OUT rises when wide time enters a new second, as out_mode permits. -/
  | ppsOutRise
  /-- PPS_OUT_FALL (R64). PPS_OUT falls width_ms milliseconds after its rising edge. -/
  | ppsOutFall
  /-- PPS_IN_EDGE (R65). A PPS_IN edge of the selected polarity is stamped into TIME_PPSIN_STAMP, or is ignored within 100 ms of the previous accepted edge. -/
  | ppsInEdge (rising : Bool)
  /-- PPS_IN_REFERENCE_LOSS (R58). With source PPS_IN, 2 s without an accepted edge ends the servo's reference. -/
  | ppsInReferenceLoss
  /-- REFERENCE_LOST (R68). Loss of the 25 MHz reference puts the timebase into holdover, sets ref_lost and lowers OUT_VALID. -/
  | referenceLost
  /-- REFERENCE_RETURN (R68). The 25 MHz reference returns, ref_lost clears and the count continues without a step. -/
  | referenceReturn
  /-- FRAME_START (R72). A CSI-2 Frame Start short packet opens a frame, closing any open frame of the same channel and type as damaged. -/
  | frameStart (n : Fin 8) (vc : BitVec 4) (p : ShortPacket)
  /-- CSI_LONG_PACKET (R71). A CSI-2 long packet carries a line of the open frame, or is discarded and counted. -/
  | csiLongPacket (n : Fin 8) (vc : BitVec 4) (dt : BitVec 6) (line : List Byte) (ecc : EccResult) (crcOk : Bool)
  /-- FRAME_END (R72). A CSI-2 Frame End closes the frame as one item, damaged or not. -/
  | frameEnd (n : Fin 8) (vc : BitVec 4) (p : ShortPacket)
  /-- FRAME_TIMEOUT (R72). No Frame End within frame_timeout_ms of Frame Start closes the frame as damaged. -/
  | frameTimeout (n : Fin 8) (vc : BitVec 4) (dt : BitVec 6)
  /-- I3C_DATA_WRITE (R73). A write of SNS_I3C_DATAn queues 4 write bytes for the next I3C transfer. -/
  | i3cDataWrite (n : Fin 8) (v : Word)
  /-- I3C_DATA_READ (R73). A read of SNS_I3C_DATAn takes 4 read bytes in queue order. -/
  | i3cDataRead (n : Fin 8)
  /-- I3C_CMD_QUEUE (R73). A write of SNS_I3C_CMDn queues an I3C transfer, immediate or timed, or is refused. -/
  | i3cCmdQueue (n : Fin 8) (v : Word)
  /-- I3C_TRANSFER_START (R73). A queued I3C transfer starts at its time or at once, setting late when its time has passed. -/
  | i3cTransferStart (n : Fin 8)
  /-- I3C_TRANSFER_DONE (R73). An I3C transfer completes and its read bytes and status are recorded. -/
  | i3cTransferDone (n : Fin 8) (data : List Byte) (nack : Bool)
  /-- I3C_IBI (R72). An in-band interrupt is acknowledged and recorded in SNS_EVENT. -/
  | i3cIbi (n : Fin 8)
  /-- FSYNC_FIRE (R74). An FSYNC output fires its pulse at the planned short time, or a group-mode fire already past is skipped and counted. -/
  | fsyncFire (n : Fin 8)
  /-- FSYNC_PULSE_END (R74). The FSYNC pulse ends width_us microseconds after its rising edge. -/
  | fsyncPulseEnd (n : Fin 8)
  /-- FSYNC_NEXT_WRITE (R74). A write of SNS_FSYNC_NEXTn replaces the next period-mode fire, or is refused. -/
  | fsyncNextWrite (n : Fin 8) (v : Word)
  /-- FSYNC_CFG_WRITE (R74). A write of SNS_FSYNC_CFGn or SNS_FSYNC_PERIODn configures or enables an FSYNC output, subject to its checks. -/
  | fsyncCfgWrite (n : Fin 8) (period : Bool) (v : Word)
  /-- DATAGRAM_RX (R76). A UDP datagram is received, stamped at the USXGMII boundary and delivered to the stream that selects it, or dropped. -/
  | datagramRx (m : Fin 4) (d : Datagram)
  /-- MAP_BLOCK_END (R85). At the end of each 250 ms block with a minimum, the estimator updates s0, m0 and skew. -/
  | mapBlockEnd (st : Fin 256)
  /-- PAUSE_RX (R75). A received PAUSE frame is honoured on transmit. -/
  | pauseRx (m : Fin 4) (quanta : BitVec 16)
  /-- MAC_LINK_CHANGE (R75). A MAC's link comes up or goes down at the rate the PHY signals, raising mac_link. -/
  | macLinkChange (m : Fin 4) (up : Bool) (rate : BitVec 2)
  /-- NET_REQUEST_RX (R282). An ARP request, neighbour solicitation or ICMP echo is answered by the NET block when respond is 1. -/
  | netRequestRx (m : Fin 4) (r : NetRequest)
  /-- NEIGHBOUR_REFRESH (R282). Every 60 s each neighbour entry is refreshed by address resolution. -/
  | neighbourRefresh (m : Fin 4) (ip : List Byte) (answer : Option (BitVec 48))
  /-- DRDY_EDGE (R77). A DRDY edge is stamped and starts an SPI read, or is held and counted as an overrun. -/
  | drdyEdge (i : Fin 4) (rising : Bool)
  /-- SPI_READ_DONE (R77). An SPI read completes, making a sample item, and a held read starts. -/
  | spiReadDone (i : Fin 4) (data : List Byte)
  /-- CAN_FRAME_RX (R78). A CAN frame valid at the end of its end-of-frame field becomes an item. -/
  | canFrameRx (j : Fin 2) (f : CanFrame)
  /-- CAN_ERROR_FRAME (R78). A frame ended by an error frame is not an item, and error counters move towards passive or bus-off. -/
  | canErrorFrame (j : Fin 2) (tec : BitVec 9) (rec : BitVec 8)
  /-- CAN_BUSOFF_RECOVERY (R78). After 128 × 11 recessive bits the CAN controller recovers from bus-off. -/
  | canBusoffRecovery (j : Fin 2)
  /-- ENCODER_EDGE (R78). An A, B or Z edge updates the count and edge stamps, or an illegal transition is counted. -/
  | encoderEdge (e : Fin 8) (a : Bool) (b : Bool) (z : Bool)
  /-- ENCODER_SAMPLE (R78). Every sample_us the encoder port emits a sample of count and edge stamps. -/
  | encoderSample (e : Fin 8)
  /-- GPIO_EDGE (R78). An enabled GPIO input edge becomes an item, and may be a group trigger. -/
  | gpioEdge (pin : Fin 16) (level : Bool)
  /-- GPIO_TARM (R79). A write of SNS_GPIO_TARM arms the timed GPIO output, or is refused. -/
  | gpioTarm (v : Word)
  /-- GPIO_TIMED_OUTPUT (R79). When short time reaches SNS_GPIO_TAT, the armed pin is driven to its level. -/
  | gpioTimedOutput
  /-- SPILLWAY_WRITE (R91). The spillway moves a record from an ingress queue into its history ring and posts it to the Cistern and point decoder. -/
  | spillwayWrite (st : Fin 256)
  /-- STREAM_ENABLE (R94). Setting STR_CTRLs.enable starts a stream, or is refused without a queue or while draining. -/
  | streamEnable (st : Fin 256)
  /-- STREAM_DISABLE (R94). Clearing STR_CTRLs.enable stops the stream at its next item boundary and drains it. -/
  | streamDisable (st : Fin 256)
  /-- PORT_ENABLE_CHANGE (R94). Writing a port's enable stops or starts its island, closing any item in progress as damaged. -/
  | portEnableChange (p : PortRef) (on : Bool)
  /-- BASIN_SWAP (R101). The basins of a twin-basin queue swap once the draining basin is released and the filling basin is flushed or full. -/
  | basinSwap (q : QRef)
  /-- Q_READ (R104). A read of Q_RDATA takes 4 bytes at RD, or is an empty read that sets underrun. -/
  | qRead (q : HostQ)
  /-- Q_WDATA_WRITE (R280). A write of Q_WDATA adds 4 bytes to the open injection record, or is refused and discards it. -/
  | qWdataWrite (q : HostQ) (v : Word)
  /-- MARK (R105). MARK sets the mark to the read position. -/
  | mark (q : HostQ)
  /-- RELEASE (R106). RELEASE moves the release position to the mark or to the read position. -/
  | release (q : HostQ)
  /-- REWIND (R107). REWIND moves the read position back to the mark or to the release position. -/
  | rewind (q : HostQ)
  /-- FLUSH (R102). A flush sets flush_pending on a host-producer queue and ends the open record. -/
  | flush (q : HostQ)
  /-- CLEAR_UNDERRUN (R104). Q_CMD.clear_underrun clears the sticky underrun flag. -/
  | clearUnderrun (q : HostQ)
  /-- INJECTION_FORWARD (R280). The injection queue's consumer writes the next record into the named stage queue once it has credit. -/
  | injectionForward
  /-- GROUP_ENABLE (R114). Setting FUS_CTRLg.enable starts the group's schedule at k = 0, or is refused. -/
  | groupEnable (g : Fin 16)
  /-- GROUP_DISABLE (R130). Clearing FUS_CTRLg.enable stops scheduling at the next instant boundary and drains the group. -/
  | groupDisable (g : Fin 16)
  /-- HOST_TRIGGER (R115). A write of FUS_TRIGg creates the next instant of a triggered group, or is refused. -/
  | hostTrigger (g : Fin 16) (t : Word)
  /-- INSTANT_DUE (R117). Short time reaches Tk, the instant becomes pending, the next periodic instant is scheduled, and at 64 pending the oldest is forced. -/
  | instantDue (g : Fin 16)
  /-- WAIT_LIMIT_EXPIRY (R119). The wait limit of the oldest pending instant expires, so it may release without full coverage. -/
  | waitLimitExpiry (g : Fin 16)
  /-- INSTANT_RELEASE (R120). The Cistern releases an instant, writing its descriptor, raising its completion signal and updating miss counts. -/
  | instantRelease (g : Fin 16)
  /-- CAL_SWAP_REQUEST (R139). CAL_CTRL.swap validates the shadows of the swap set and sets swap_pending, or refuses the swap. -/
  | calSwapRequest
  /-- POSE_CAPTURE (R153). CAL_CTRL.pose_cap captures the newest pose entry into CAL_POSE_CAPi. -/
  | poseCapture
  /-- POSE_TICK (R144). At each millisecond plus holdoff the pose integrator computes a tick and writes the pose history entry. -/
  | poseTick
  /-- BEGIN (R180). POINT BEGIN starts instant k in a point table and sets up the group's drop accumulator entry. -/
  | pointBegin (q : Fin 256)
  /-- APPEND (R157). POINT APPEND appends entries to a point table under the Weir. -/
  | pointAppend (q : Fin 256)
  /-- VOXELISE (R161). POINT VOXELISE bins point-table entries into a voxel table and chooses samples. -/
  | voxelise (q : Fin 256)
  /-- COARSEN (R174). POINT COARSEN inserts the parent cells of one voxel table into another. -/
  | coarsen (q : Fin 256)
  /-- AGE (R164). POINT AGE ages an accumulated table and tombstones cells beyond max_age. -/
  | pointAge (q : Fin 256)
  /-- PURGE (R165). POINT PURGE tombstones or clears cells by epoch mask. -/
  | pointPurge (q : Fin 256)
  /-- LIST (R171). POINT LIST assigns row numbers and writes the cell list. -/
  | pointList (q : Fin 256)
  /-- NEIGH (R173). POINT NEIGH writes neighbour rows for each listed cell. -/
  | pointNeigh (q : Fin 256)
  /-- POINT_PROBE (R173). POINT PROBE looks up packed keys and writes their rows. -/
  | pointProbe (q : Fin 256)
  /-- RULES (R175). POINT RULES builds a submanifold or downsample rule book. -/
  | pointRules (q : Fin 256)
  /-- POINT_GATHER (R177). POINT GATHER copies input feature rows of a rule-book range into local store tiles. -/
  | pointGather (q : Fin 256)
  /-- POINT_SCATTER (R178). POINT SCATTER adds output rows from local store into a matrix by rule-book pairs. -/
  | pointScatter (q : Fin 256)
  /-- MATMUL (R195). TENSOR MATMUL runs full-mode steps into accumulator slots and drains them through the outflow. -/
  | matmul (q : Fin 256)
  /-- THIN (R214). TENSOR THIN runs thin-mode vectors against loaded weight sets. -/
  | thin (q : Fin 256)
  /-- OUTFLOW (R213). TENSOR OUTFLOW passes stored tiles through the outflow stage to the output. -/
  | outflow (q : Fin 256)
  /-- VECTOR_CHAIN (R246). VECTOR CHAIN runs a chain programme over every vector of every item. -/
  | vectorChain (q : Fin 256)
  /-- VECTOR_GATHER (R247). VECTOR GATHER reads words from a table by index. -/
  | vectorGather (q : Fin 256)
  /-- SCATTER_ADD (R248). VECTOR SCATTER_ADD adds values into a table by index. -/
  | scatterAdd (q : Fin 256)
  /-- VECTOR_PROBE (R247). VECTOR PROBE looks up packed keys in a voxel table through the point unit. -/
  | vectorProbe (q : Fin 256)
  /-- XFORM (R247). VECTOR XFORM transforms point-table entries by their slice matrices. -/
  | xform (q : Fin 256)
  /-- SORT (R247). VECTOR SORT performs one compare-exchange step over key-value pairs. -/
  | vectorSort (q : Fin 256)
  /-- SCAN (R249). VECTOR SCAN forms a prefix over each item in fixed order. -/
  | vectorScan (q : Fin 256)
  /-- REDUCE (R249). VECTOR REDUCE reduces each item to one word in fixed order. -/
  | vectorReduce (q : Fin 256)
  /-- MOVE_COPY (R301). MOVE COPY copies rows between spaces. -/
  | moveCopy (q : Fin 256)
  /-- MOVE_FILL (R301). MOVE FILL writes the fill word into the destination rows. -/
  | moveFill (q : Fin 256)
  /-- STAGE_PUT (R301). MOVE STAGE_PUT writes rows as one record into a stage queue. -/
  | stagePut (q : Fin 256)
  /-- STAGE_GET (R301). MOVE STAGE_GET copies the next whole record of a stage queue and releases it. -/
  | stageGet (q : Fin 256)
  /-- SYNC_WAIT (R303). SYNC WAIT does nothing and serves as a barrier in its queue. -/
  | syncWait (q : Fin 256)
  /-- SEM_ADD (R303). SYNC SEM_ADD adds value to a cluster semaphore. -/
  | semAdd (q : Fin 256)
  /-- SEM_SET (R303). SYNC SEM_SET sets a cluster semaphore to value. -/
  | semSet (q : Fin 256)
  /-- SIGNAL_WAIT (R303). SYNC SIGNAL_WAIT starts only once a completion signal reaches value. -/
  | signalWait (q : Fin 256)
  /-- SIGNAL_ADD (R303). SYNC SIGNAL_ADD adds value to a completion signal. -/
  | signalAdd (q : Fin 256)
  /-- META_NOP (R304). META NOP does nothing. -/
  | metaNop (q : Fin 256)
  /-- META_UNIT (R304). META UNIT marks the start of a re-execution unit for an instant. -/
  | metaUnit (q : Fin 256)
  /-- META_MARKER (R304). META MARKER writes a marker record into trace. -/
  | metaMarker (q : Fin 256)
  /-- META_STAMP (R304). META STAMP writes the short time of its start at an address. -/
  | metaStamp (q : Fin 256)
  /-- GRID_BEGIN (R259). FUSE GRID_BEGIN builds the grid copy of instant k from the previous copy, moved and decayed. -/
  | gridBegin (q : Fin 256)
  /-- GRID_EVIDENCE (R260). FUSE GRID_EVIDENCE applies one member's evidence plane to the grid. -/
  | gridEvidence (q : Fin 256)
  /-- GRID_CLOSE (R261). FUSE GRID_CLOSE ends the grid of instant k and makes it readable. -/
  | gridClose (q : Fin 256)
  /-- TRACK_ASSOC (R265). FUSE TRACK_ASSOC associates detections with predicted track slots. -/
  | trackAssoc (q : Fin 256)
  /-- TRACK_LIFE (R267). FUSE TRACK_LIFE updates slot life, births tracks and makes the new copy current. -/
  | trackLife (q : Fin 256)
  /-- EMIT (R272). FUSE EMIT frames the selected packets of an instant to Ethernet and the host result queue. -/
  | emit (q : Fin 256)
  /-- EMIT_RESUME (R272). A held EMIT proceeds once every earlier instant of its group has left egress. -/
  | emitResume (g : Fin 16)
  /-- DEADLINE_SKIP (R273). At Tk plus deadline with a later EMIT held, egress frames instant k as discarded. -/
  | deadlineSkip (g : Fin 16)
  /-- MESSAGE_DATAGRAM_RX (R281). A datagram to the message port is reassembled and a whole kind-5 packet is passed to the message stage queue or dropped. -/
  | messageDatagramRx (m : Fin 4) (d : Datagram)
  /-- REASSEMBLY_TIMEOUT (R281). A message packet not complete within 10 ms of its first datagram is dropped. -/
  | reassemblyTimeout (m : Fin 4)
  /-- HOST_DOORBELL (R291). A host write of CQ_TAILq advances TAIL, or is refused. -/
  | hostDoorbell (q : Fin 256) (tail : Word)
  /-- COMMAND_COMPLETE (R294). A command completes, incrementing ssem, raising csig, advancing DONE and tracing. -/
  | commandComplete (q : Fin 256) (n : Word)
  /-- QUEUE_ENABLE (R290). Setting CQ_CTRLq.enable starts taking commands from HEAD, or is refused. -/
  | queueEnable (q : Fin 256)
  /-- QUEUE_DISABLE (R297). Clearing CQ_CTRLq.enable stops starting commands and drains the queue. -/
  | queueDisable (q : Fin 256)
  /-- QUEUE_RESET (R296). CQ_CMDq.reset sets HEAD and DONE to TAIL and clears error on a disabled queue. -/
  | queueReset (q : Fin 256)
  /-- QUEUE_SKIP (R296). CQ_CMDq.skip completes the erring command without effect and leaves error. -/
  | queueSkip (q : Fin 256)
  /-- QUEUE_RESUME (R296). CQ_CMDq.resume takes the erring command from the ring again and continues. -/
  | queueResume (q : Fin 256)
  /-- QUEUE_STEP (R412). CQ_CMDq.step gives the queue one step credit. -/
  | queueStep (q : Fin 256)
  /-- CSIG_RAISE (R299). A write of CQ_CSIG_RAISE raises a completion signal by 1. -/
  | csigRaise (v : Word)
  /-- ADD (R309). Control-core ADD. -/
  | ccAdd (c : Fin 40) (rd : Fin 32) (ra : Fin 32) (rb : Fin 32)
  /-- SUB (R309). Control-core SUB. -/
  | ccSub (c : Fin 40) (rd : Fin 32) (ra : Fin 32) (rb : Fin 32)
  /-- AND (R309). Control-core AND. -/
  | ccAnd (c : Fin 40) (rd : Fin 32) (ra : Fin 32) (rb : Fin 32)
  /-- OR (R309). Control-core OR. -/
  | ccOr (c : Fin 40) (rd : Fin 32) (ra : Fin 32) (rb : Fin 32)
  /-- XOR (R309). Control-core XOR. -/
  | ccXor (c : Fin 40) (rd : Fin 32) (ra : Fin 32) (rb : Fin 32)
  /-- SLL (R309). Control-core logical left shift. -/
  | ccSll (c : Fin 40) (rd : Fin 32) (ra : Fin 32) (rb : Fin 32)
  /-- SRL (R309). Control-core logical right shift. -/
  | ccSrl (c : Fin 40) (rd : Fin 32) (ra : Fin 32) (rb : Fin 32)
  /-- SRA (R309). Control-core arithmetic right shift. -/
  | ccSra (c : Fin 40) (rd : Fin 32) (ra : Fin 32) (rb : Fin 32)
  /-- SLT (R309). Control-core signed set-less-than. -/
  | ccSlt (c : Fin 40) (rd : Fin 32) (ra : Fin 32) (rb : Fin 32)
  /-- SLTU (R309). Control-core unsigned set-less-than. -/
  | ccSltu (c : Fin 40) (rd : Fin 32) (ra : Fin 32) (rb : Fin 32)
  /-- MUL (R309). Control-core low 32-bit multiply. -/
  | ccMul (c : Fin 40) (rd : Fin 32) (ra : Fin 32) (rb : Fin 32)
  /-- MULHU (R309). Control-core high 32-bit unsigned multiply. -/
  | ccMulhu (c : Fin 40) (rd : Fin 32) (ra : Fin 32) (rb : Fin 32)
  /-- MIN (R309). Control-core signed minimum. -/
  | ccMin (c : Fin 40) (rd : Fin 32) (ra : Fin 32) (rb : Fin 32)
  /-- MAX (R309). Control-core signed maximum. -/
  | ccMax (c : Fin 40) (rd : Fin 32) (ra : Fin 32) (rb : Fin 32)
  /-- MINU (R309). Control-core unsigned minimum. -/
  | ccMinu (c : Fin 40) (rd : Fin 32) (ra : Fin 32) (rb : Fin 32)
  /-- MAXU (R309). Control-core unsigned maximum. -/
  | ccMaxu (c : Fin 40) (rd : Fin 32) (ra : Fin 32) (rb : Fin 32)
  /-- ADDI (R309). Control-core add immediate. -/
  | ccAddi (c : Fin 40) (rd : Fin 32) (ra : Fin 32) (imm : BitVec 16)
  /-- ANDI (R309). Control-core AND immediate. -/
  | ccAndi (c : Fin 40) (rd : Fin 32) (ra : Fin 32) (imm : BitVec 16)
  /-- ORI (R309). Control-core OR immediate; with g0 operands it is a signature checkpoint. -/
  | ccOri (c : Fin 40) (rd : Fin 32) (ra : Fin 32) (imm : BitVec 16)
  /-- XORI (R309). Control-core XOR immediate. -/
  | ccXori (c : Fin 40) (rd : Fin 32) (ra : Fin 32) (imm : BitVec 16)
  /-- SLLI (R309). Control-core left shift by immediate. -/
  | ccSlli (c : Fin 40) (rd : Fin 32) (ra : Fin 32) (imm : BitVec 16)
  /-- SRLI (R309). Control-core logical right shift by immediate. -/
  | ccSrli (c : Fin 40) (rd : Fin 32) (ra : Fin 32) (imm : BitVec 16)
  /-- SRAI (R309). Control-core arithmetic right shift by immediate. -/
  | ccSrai (c : Fin 40) (rd : Fin 32) (ra : Fin 32) (imm : BitVec 16)
  /-- SLTI (R309). Control-core signed set-less-than immediate. -/
  | ccSlti (c : Fin 40) (rd : Fin 32) (ra : Fin 32) (imm : BitVec 16)
  /-- SLTIU (R309). Control-core unsigned set-less-than immediate. -/
  | ccSltiu (c : Fin 40) (rd : Fin 32) (ra : Fin 32) (imm : BitVec 16)
  /-- LUI (R309). Control-core load upper immediate. -/
  | ccLui (c : Fin 40) (rd : Fin 32) (ra : Fin 32) (imm : BitVec 16)
  /-- LW (R309). Control-core load word. -/
  | ccLw (c : Fin 40) (rd : Fin 32) (ra : Fin 32) (imm : BitVec 16)
  /-- LH (R309). Control-core load signed halfword. -/
  | ccLh (c : Fin 40) (rd : Fin 32) (ra : Fin 32) (imm : BitVec 16)
  /-- LHU (R309). Control-core load unsigned halfword. -/
  | ccLhu (c : Fin 40) (rd : Fin 32) (ra : Fin 32) (imm : BitVec 16)
  /-- LB (R309). Control-core load signed byte. -/
  | ccLb (c : Fin 40) (rd : Fin 32) (ra : Fin 32) (imm : BitVec 16)
  /-- LBU (R309). Control-core load unsigned byte. -/
  | ccLbu (c : Fin 40) (rd : Fin 32) (ra : Fin 32) (imm : BitVec 16)
  /-- SW (R309). Control-core store word. -/
  | ccSw (c : Fin 40) (rs : Fin 32) (ra : Fin 32) (imm : BitVec 16)
  /-- SH (R309). Control-core store halfword. -/
  | ccSh (c : Fin 40) (rs : Fin 32) (ra : Fin 32) (imm : BitVec 16)
  /-- SB (R309). Control-core store byte. -/
  | ccSb (c : Fin 40) (rs : Fin 32) (ra : Fin 32) (imm : BitVec 16)
  /-- BEQ (R309). Control-core branch if equal. -/
  | ccBeq (c : Fin 40) (ra : Fin 32) (rb : Fin 32) (off : BitVec 16)
  /-- BNE (R309). Control-core branch if not equal. -/
  | ccBne (c : Fin 40) (ra : Fin 32) (rb : Fin 32) (off : BitVec 16)
  /-- BLT (R309). Control-core branch if less, signed. -/
  | ccBlt (c : Fin 40) (ra : Fin 32) (rb : Fin 32) (off : BitVec 16)
  /-- BGE (R309). Control-core branch if greater or equal, signed. -/
  | ccBge (c : Fin 40) (ra : Fin 32) (rb : Fin 32) (off : BitVec 16)
  /-- BLTU (R309). Control-core branch if less, unsigned. -/
  | ccBltu (c : Fin 40) (ra : Fin 32) (rb : Fin 32) (off : BitVec 16)
  /-- BGEU (R309). Control-core branch if greater or equal, unsigned. -/
  | ccBgeu (c : Fin 40) (ra : Fin 32) (rb : Fin 32) (off : BitVec 16)
  /-- JAL (R309). Control-core jump and link. -/
  | ccJal (c : Fin 40) (off : BitVec 26)
  /-- JALR (R309). Control-core jump and link register. -/
  | ccJalr (c : Fin 40) (rd : Fin 32) (ra : Fin 32) (imm : BitVec 16)
  /-- ISSUE (R310). ISSUE writes a command into a queue ring at TAIL and advances TAIL, waiting while the ring is full. -/
  | ccIssue (c : Fin 40) (rd : Fin 32) (ra : Fin 32) (imm : BitVec 16)
  /-- ISSUE_RESUME (R310). An ISSUE waiting on a full ring completes once DONE advances. -/
  | issueResume (c : Fin 40)
  /-- WAIT (R311). Control-core WAIT holds the core on a semaphore, signal, queue or stage condition with a deadline. -/
  | ccWait (c : Fin 40) (rd : Fin 32) (rv : Fin 32) (kind : BitVec 2) (rt : Fin 32) (obj : BitVec 8)
  /-- WAIT_RESUME (R311). A waiting control core resumes when its condition holds or its deadline comes, writing the outcome to rd. -/
  | waitResume (c : Fin 40)
  /-- SIGNAL (R309). Control-core SIGNAL adds to or sets a semaphore, or adds to a completion signal. -/
  | ccSignal (c : Fin 40) (rv : Fin 32) (kind : BitVec 2) (obj : BitVec 8)
  /-- BARRIER (R312). Control-core BARRIER waits for the cores of its mask, or halts on a mismatch. -/
  | ccBarrier (c : Fin 40) (imm : BitVec 16)
  /-- BARRIER_RELEASE (R312). When every core of the mask has arrived, all resume within 8 clocks. -/
  | barrierRelease (k : Fin 8) (n : Fin 8)
  /-- TIMEREAD (R50). TIMEREAD returns the short time. -/
  | ccTimeread (c : Fin 40) (rd : Fin 32)
  /-- TRAP (R313). TRAP halts the control core with a code. -/
  | ccTrap (c : Fin 40) (imm : BitVec 16)
  /-- CC_HALT (R315). CLU_CC_CTRLc.halt halts a control core under debug access. -/
  | ccHalt (c : Fin 40)
  /-- CC_RESUME (R315). CLU_CC_CTRLc.resume resumes a halted control core under debug access. -/
  | ccResume (c : Fin 40)
  /-- CC_STEP (R413). A write of DBG_CC_STEP makes a halted control core issue one instruction. -/
  | ccStep (v : Word)
  /-- MOVE_IN_START (R333). FPL_CTRL.start begins phase A, copying and verifying the named image. -/
  | moveInStart
  /-- MOVE_IN_ABORT (R333). FPL_CTRL.abort ends phase A with no effect. -/
  | moveInAbort
  /-- PHASE_B_CHANGEOVER (R333). Once phase A passes, phase B drains, zeroes, loads and commits the new floorplan. -/
  | phaseBChangeover
  /-- MOVE_IN_COMMITTED (R333). The first configuration pass matches, movein_done rises and the new floorplan starts. -/
  | moveInCommitted
  /-- WEIGHT_PATCH_START (R335). FPL_CTRL.wupd_start verifies a weight patch and fixes k_s for its groups. -/
  | weightPatchStart
  /-- WEIGHT_PATCH_SWITCH (R336). When earlier commands have completed, the patched layers are copied and the held UNITs released. -/
  | weightPatchSwitch (g : Fin 16)
  /-- FPL_STORE (R434). FPL_CTRL.store writes a verified image into a NAND slot. -/
  | fplStore
  /-- FPL_STORE_DONE (R434). A NAND store completes or fails and the slot directory is updated. -/
  | fplStoreDone (ok : Bool)
  /-- SHOW_HOME_REPORT (R340). Every 50 ms Show Home builds and sends a kind 4 report. -/
  | showHomeReport
  /-- STOP_NEAR_RELEASE (R341). After 100 ms without a near point, GPIO0 is driven low. -/
  | stopNearRelease
  /-- SHOW_HOME_CONFIG_WRITE (R343). A write of an FPL_SH register takes effect at the next report boundary and recommits Show Home's reference. -/
  | showHomeConfigWrite (off : BitVec 16) (v : Word)
  /-- FAULT_DETECTED (R354). A detection reaches the safety supervisor, is classed transient or permanent and its reaction begins. -/
  | faultDetected (d : Detection)
  /-- RECOVERY_TIMEOUT (R357). A recovery not complete 1 ms after detection becomes fatal. -/
  | recoveryTimeout
  /-- MGMT_FW_RESTART (R354). The management core restarts its firmware after a fault. -/
  | mgmtFwRestart
  /-- AGE_EXPIRY (R359). Short time reaches Tk plus deadline for the oldest unframed instant, which expires and begins the group's hold. -/
  | ageExpiry (g : Fin 16)
  /-- OUT_VALID_RISE (R348). OUT_VALID rises once the last hold has ended and it has been low for at least 10 µs. -/
  | outValidRise
  /-- FORCE_INVALID (R348). SAFE_CTRL.force_invalid begins or ends hold 7. -/
  | forceInvalid (on : Bool)
  /-- TEST_JET_PERIODIC (R362). A core that serves no group runs its test jet every 50 ms. -/
  | testJetPeriodic (c : Fin 32)
  /-- TEST_JET_TIMEOUT (R362). A test jet not complete within 50 µs is a fault of cause 0x14. -/
  | testJetTimeout (c : Fin 32)
  /-- SELF_TEST_SEGMENT (R363). A deep self-test segment of a core starts when the core is idle and outside safety windows. -/
  | selfTestSegment (c : Fin 32)
  /-- SELF_TEST_SEGMENT_DONE (R363). A 50 µs self-test segment ends, restoring state, or fails as a permanent fault. -/
  | selfTestSegmentDone (c : Fin 32) (pass : Bool)
  /-- SELF_TEST_REHOME (R364). A round still incomplete at 3,300 s plans a re-homing to run the remaining segments. -/
  | selfTestRehome (c : Fin 32)
  /-- CONFIG_CHECK_SEGMENT (R367). The configuration check reads and compares one segment of its 2 ms pass. -/
  | configCheckSegment
  /-- CCHK_COMMIT (R368). CCHK_CTRL.commit starts a full pass against CCHK_REF. -/
  | cchkCommit
  /-- CCHK_COMMIT_DONE (R368). The commit pass ends, locking RWL fields on a match or setting commit_failed. -/
  | cchkCommitDone
  /-- SRAM_SCRUB (R365). The scrubber reads and corrects an SRAM or sequencer-memory word in its bank slot. -/
  | sramScrub (r : ScrubResult)
  /-- HBM_RECALIBRATION (R365). A due HBM recalibration runs in an idle gap or after 128 ms. -/
  | hbmRecalibration
  /-- MONITOR_EXCURSION (R444). A supply or temperature monitor leaves its window and begins hold 10. -/
  | monitorExcursion (m : MonitorEvent)
  /-- MONITOR_RECOVERED (R444). A monitor that has stayed within its window for 1 ms ends hold 10. -/
  | monitorRecovered
  /-- READ (R376). An xSPI READ transaction returns successive words from incrementing addresses. -/
  | xspiRead (a : Word) (n : Fin 16) (crc : Bool) (r : ReadPhase)
  /-- READ_FIXED (R376). An xSPI READ_FIXED transaction returns every word from one address. -/
  | xspiReadFixed (a : Word) (n : Fin 16) (crc : Bool) (r : ReadPhase)
  /-- WRITE (R376). An xSPI WRITE transaction writes successive words to incrementing addresses. -/
  | xspiWrite (a : Word) (n : Fin 16) (data : List Word) (crc : Option (BitVec 16)) (compOk : Bool)
  /-- WRITE_FIXED (R376). An xSPI WRITE_FIXED transaction writes every word to one address. -/
  | xspiWriteFixed (a : Word) (n : Fin 16) (data : List Word) (crc : Option (BitVec 16)) (compOk : Bool)
  /-- STATUS (R376). An xSPI STATUS transaction returns the status byte for its address. The row also stands for an op value
  that Table 15-2 leaves out (log entry 127). -/
  | xspiStatus (op : NoDataOp) (a : Word) (n : Fin 16) (crc : Bool) (compOk : Bool)
  /-- TRANSACTION_ABANDON (R375). CS# rising before the last phase abandons the transaction. -/
  | transactionAbandon (t : Abandoned)
  /-- REGISTER_WRITE (R383). A write to a register without behaviour of its own takes effect, immediately or posted. -/
  | registerWrite (a : Word) (v : Word)
  /-- EVENT_WRITE_BACK (R386). A write to an SQC event register clears the masked events when its number equals seq. -/
  | eventWriteBack (a : Word) (v : Word)
  /-- ERR_CAPTURE_CLEAR (R382). HIF_ERR_CTRL.clear clears the captured error and arms capture. -/
  | errCaptureClear
  /-- ACK_RESET (R390). GCTL_CTRL.ack_reset clears BOOT. -/
  | ackReset
  /-- SOFT_RESET_ARM (R390). GCTL_CTRL.soft_reset_arm arms a soft reset for 1 ms. -/
  | softResetArm
  /-- SOFT_RESET (R390). GCTL_CTRL.soft_reset within 1 ms of arming resets the module as RESET_n does. -/
  | softReset
  /-- POWER_STATE_REQUEST (R453). A write of GCTL_PWR_STATE requests RUN, IDLE or STANDBY, or is refused. -/
  | powerStateRequest (v : Word)
  /-- POWER_STATE_REACHED (R453). The requested power state is reached and power_state rises. -/
  | powerStateReached
  /-- POWER_CAP_SAMPLE (R454). Every 10 µs the power-cap controller measures input power and raises or lowers stretch requests. -/
  | powerCapSample (p : PowerSample) (period : Nat)
  /-- CNT_SNAP (R400). CNT_CTRL.snap copies every counter into its holding register. -/
  | cntSnap
  /-- CNT_SNAP_AT (R402). CNT_CTRL.snap_at arms a snapshot at CNT_SNAP_AT. -/
  | cntSnapAt
  /-- CNT_FREEZE (R401). CNT_CTRL.freeze takes a snapshot and stops counting. -/
  | cntFreeze
  /-- CNT_FREEZE_AT (R401). CNT_CTRL.freeze_at arms a freeze at CNT_SNAP_AT. -/
  | cntFreezeAt
  /-- CNT_UNFREEZE (R401). CNT_CTRL.unfreeze restarts counting. -/
  | cntUnfreeze
  /-- TIMED_SNAPSHOT (R400). An armed snapshot or freeze is taken when short time reaches CNT_SNAP_AT. -/
  | timedSnapshot
  /-- TRACE_SYNC_RECORD (R406). A SYNC record is written for each traced control core every sync_ms. -/
  | traceSyncRecord (c : Fin 40)
  /-- CELLAR_RESTART (R404). A write of DBG_CELLAR_WR restarts a stopped full trace ring. -/
  | cellarRestart (v : Word)
  /-- STILL_TAKE (R414). DBG_STILL_CTRL.take stops the compute islands and writes the Still snapshot. -/
  | stillTake
  /-- STILL_RESUME (R414). DBG_STILL_CTRL.resume restarts islands held after a Still snapshot. -/
  | stillResume
  /-- WATCHDOG_KICK (R414). DBG_STILL_CTRL.kick restarts the Still watchdog. -/
  | watchdogKick
  /-- STILL_WATCHDOG_EXPIRY (R414). No kick for DBG_STILL_WDOG milliseconds triggers a Still snapshot. -/
  | stillWatchdogExpiry
  /-- STILL_STALL_EXPIRY (R414). No queue advancing DONE for DBG_STILL_STALL milliseconds triggers a Still snapshot. -/
  | stillStallExpiry
  /-- DEBUG_UNLOCK (R429). A signed DEBUG_UNLOCK request grants debug access for its duration. -/
  | debugUnlock
  /-- CCHK_OPEN (R368). A signed CCHK_OPEN request sets CCHK_OPEN and begins hold 8. -/
  | cchkOpen
  /-- SET_MIN_VERSION (R424). A signed SET_MIN_VERSION request burns a new owner minimum version. -/
  | setMinVersion
  /-- ENROLL_KEY (R424). An ENROLL_KEY request burns an owner key slot. -/
  | enrollKey
  /-- REVOKE_KEY (R424). A REVOKE_KEY request burns a slot's revoke bit. -/
  | revokeKey
  /-- LIFECYCLE (R427). A LIFECYCLE request burns the transition fuse, logs it and resets with wipes. -/
  | lifecycle
  /-- OWNER_PORT (R425). An OWNER_PORT request returns the port to owner privilege. -/
  | ownerPort
  /-- FW_UPDATE (R422). A FW_UPDATE request writes a verified firmware image into the copy not running. -/
  | fwUpdate
  /-- ATTEST (R432). SEC_CTRL.attest starts an attestation report over the written nonce. -/
  | attest
  /-- ATTEST_DONE (R432). The signed report appears in the SEC window and attest_done rises. -/
  | attestDone
  /-- DEBUG_ON (R426). SEC_CTRL.debug_on grants debug access in DEVELOP. -/
  | debugOn
  /-- DEBUG_OFF (R429). SEC_CTRL.debug_off ends debug access. -/
  | debugOff
  /-- DEBUG_EXPIRY (R429). The unlock duration runs out and debug access ends. -/
  | debugExpiry
  /-- TENANT_MODE (R425). A write of SEC_PRIV with tenant_mode drops the port to a tenant's privilege. -/
  | tenantMode (v : Word)
  /-- NAND_BLOCK_FAIL (R434). A failing NAND block is replaced from the spare area and nand_error rises. -/
  | nandBlockFail
  /-- POWER_ON (R444). VIN rises above VUVR, inrush is limited and internal power good follows within 50 ms. -/
  | powerOn (mv : Nat)
  /-- POWER_LOSS (R444). VIN falls below VUVF and the module turns off after hold-up. -/
  | powerLoss (mv : Nat)
  /-- OVERVOLTAGE_DISCONNECT (R444). VIN above VOV disconnects the module within 5 µs. -/
  | overvoltageDisconnect (mv : Nat)
  /-- OVERVOLTAGE_RECONNECT (R444). VIN below 60 V for 100 ms reconnects the module with a full boot. -/
  | overvoltageReconnect (mv : Nat)
  /-- RESET_ASSERT (R445). RESET_n asserted for at least 1 µs puts the module in reset. -/
  | resetAssert (width : Nat)
  /-- RESET_RELEASE (R445). RESET_n negates and reset ends once power good holds and EJECT_n has been negated 10 ms. -/
  | resetRelease
  /-- BOOT (R446). From reset end the module wipes, verifies firmware, trains and wipes HBM and moves in Show Home or the boot slot. -/
  | boot
  /-- EJECT (R450). EJECT_n asserts, hold 6 begins and egress stops at the next packet boundary. -/
  | eject
  /-- EJECT_RELEASE (R451). EJECT_n negates when the lever closes, and the module stays in hold 6 until reset. -/
  | ejectRelease
  /-- THERMAL_SHUTDOWN (R455). At 125 °C the independent comparator removes die power and holds the pins until VIN is removed. -/
  | thermalShutdown
  /-- MATCH_WINDOW_EXPIRY (R83). The match window of an FSYNC fire passes with no frame matched, and the fire is counted in STR_MISSs. -/
  | matchWindowExpiry (n : Fin 8)
  /-- CSI_LANE_SYNC_CHANGE (R71). The D-PHY data lanes of a CSI-2 receiver gain or lose synchronisation, as shown by SNS_CSI_STATn.lanes_synchronised. -/
  | csiLaneSyncChange (n : Fin 8) (on : Bool)
  /-- MANAGEMENT_CORE_DEBUG_HALT (R24). The management core is halted in debug, so telemetry, NAND management and the PTP servo stop while the other planes run on. -/
  | mgmtDebugHalt
  /-- MANAGEMENT_CORE_DEBUG_RESUME (R24). The halted management core resumes instruction issue, and the servo, paused move-in and waiting attestation continue. -/
  | mgmtDebugResume
  /-- PTP_ANNOUNCE_TIMEOUT (R59). A PTP port that stops receiving Announce or Sync messages from its master leaves SLAVE or LISTENING state under the best master clock algorithm. -/
  | ptpAnnounceTimeout (m : Fin 4) (st : BitVec 4)
deriving DecidableEq, Repr

end Sys2Proof
end

