-- ==== Sys2Proof/Decode.lean ====
section
/-! DEFINITION. The command that a word of the opcode table's bits spells. spec/opcode_table.json gives no row any
bits: the commands of this block have no encoding, so no word spells one. -/

namespace Sys2Proof

/-- The command of a table word. -/
def decodeTableWord (_nbits _w : Nat) : Option Instr := none

end Sys2Proof
end

