-- ==== Sys2Proof/Config.lean ====
section
/-! DEFINITION. What an implementation fixes and the spec does not, and the free values: opaque
constants, so that nothing can be proved of the value they take. Each is named in the assumption log. -/

namespace Sys2Proof

/-- A value the spec leaves open, fresh at each use: applied to State.freeCtr (log entry 7). -/
opaque Config.freeWord : Nat → Word

/-- The choice among the results within 1 ulp that R245 allows RCP and RSQRT (log entry 8). -/
opaque Config.ulpChoice : Word → Word

/-- The choice among the results within 2 ulp that R245 allows EXP2 (log entry 8). -/
opaque Config.exp2 : Word → Word

/-- The choice among the results within 2 ulp that R245 allows LOG2 (log entry 8). -/
opaque Config.log2 : Word → Word

/-- FP32 sine of an angle, for R89 and R147, whose arithmetic the spec does not give (log entry 9). -/
opaque Config.sin : Word → Word

/-- FP32 cosine of an angle (log entry 9). -/
opaque Config.cos : Word → Word

/-- FP32 four-quadrant arctangent, for the yaw of R259 and the angles of R147 (log entry 9). -/
opaque Config.atan2 : Word → Word → Word

/-- The hash computations of the verification of an HSS signature of the form that R420 gives (RFC 8554): key hash, message, signature
(log entry 10). -/
opaque Config.hssVerify : BitVec 256 → List Byte → List Byte → Bool

/-- SHA-256, which the spec names and does not define (log entry 10). -/
opaque Config.sha256 : List Byte → BitVec 256

/-- Byte i of the attestation signature of an index over a body, by the key tree of a device seed (R431, R432, log entry 10). -/
opaque Config.attestByte : BitVec 256 → Nat → List Byte → Nat → Byte

/-- Byte i of I and T of the device's public key, as the key tree of its seed has them (R431, log entry 10). -/
opaque Config.deviceKeyByte : BitVec 256 → Nat → Byte

/-- Cerawick's signature in the device certificate: 0, 1 or 2 for tree height 10, 15 or 20, modulo 3, and byte i (Table 17-9,
log entry 178). -/
opaque Config.certHeight : Nat
opaque Config.certByte : BitVec 256 → Nat → Byte

/-- The random request nonce after the n-th replacement (R424, log entry 10). -/
opaque Config.nonce : Nat → BitVec 64

/-- The rate error of the timebase in holdover, in 2^-48 ns a tick (R68, log entry 11). -/
opaque Config.holdover : Nat → BitVec 64

/-- What Show Home's built-in models make of a camera record: hazards and sectors (R340, log entry 12). -/
opaque Config.hazards : List Byte → Word

/-- The boot firmware image with which the module left Cerawick, in copy A (false) and copy B (true) (log entry 13). -/
opaque Config.factoryFw : Bool → List Byte

/-- Whether a boot firmware image verifies, the 16-bit version it is of, and what it puts into GCTL_FW_VER: the spec
does not give the form of a firmware image (R421, R422, log entry 13). -/
opaque Config.fwVerifies : List Byte → Bool
opaque Config.fwVersion : List Byte → BitVec 16
opaque Config.fwVer : List Byte → Word

/-- Whether Show Home verifies at boot (R421, log entry 13). -/
opaque Config.showHomeVerifies : Bool

/-- SHA-256 of the signed bytes of Show Home, for the attestation report (R432, log entry 13). -/
opaque Config.showHomeHash : BitVec 256

/-- Where in its range of Table 18-5 each input threshold of this module lies: 0 VUVR, 1 VUVF, 2 VOV (log entry 39). -/
opaque Config.threshold : Nat → Nat

/-- The 16-bit intensity of a point whose intensity field is wider than 16 bits or is a float: R89 gives only the
repetition of narrower bytes (log entry 18). -/
opaque Config.wideIntensity : List Byte → BitVec 16

/-- The order in which the elements of one command arrive: the rank of each (log entry 22). -/
opaque Config.arrival : Nat → Nat → Nat

/-- Whether the step of the count at a rate correction is rounded up to a multiple of 2^-48 ns (R45, log entry 26). -/
opaque Config.rateUp : Int → Bool

/-- The sluice channels of the die, by the key of their state: sending island, receiving island and channel (R42, R415, log
entry 41). -/
opaque Config.channels : List Nat

/-- What a counter of clocks holds at a snapshot, by the number of the snapshot among the free values and the counter (Table 16-3,
log entry 162). -/
opaque Config.clocks : Nat → Nat → BitVec 64

/-- Whether the commands that an image has queue q carry name a cluster semaphore or a cluster-memory space (R306). How an image says
so is not given (log entry 64). -/
opaque Config.namesCluster : List (BitVec 8) → Nat → Bool

/-- Whether RULES runs in submanifold mode over the rule-book region that is record n of an image's HBMMAP (R176). How an image says so
is not given (log entry 160). -/
opaque Config.submanifold : List (BitVec 8) → Nat → Bool

/-- Whether the tensor engine of a core waits for its intake at a Still snapshot, by the number of the snapshot and the core (Table
16-9, log entry 170). -/
opaque Config.intakeWaits : Nat → Nat → Bool

/-- How long a recovery takes, in ns: the spec bounds it and does not fix it (R355 to R358, log entry 24). -/
opaque Config.recoveryNs : Nat → Nat

/-- Datagram limit and UDP source port of the reports to FPL_SH_DEST, which Table 13-8 does not give (log entry 36). -/
opaque Config.shLimit : Nat
opaque Config.shPort : BitVec 16

end Sys2Proof
end

