-- ==== Sys2Proof/Machine/Float.lean ====
section
/-! DEFINITION. Floating-point formats and arithmetic of R188, R193, R194, R202, R203, R244: exact
values (sign, significand, power of two) and one rounding to nearest, ties to even. -/

namespace Sys2Proof.Machine

/-- A binary format: significand bits p, exponent field width, and whether it is E4M3. -/
structure FFmt where
  p : Nat
  ebits : Nat
  e4m3 : Bool
deriving DecidableEq, Repr

def fp32 : FFmt := { p := 24, ebits := 8, e4m3 := false }
def fp16 : FFmt := { p := 11, ebits := 5, e4m3 := false }
def bf16 : FFmt := { p := 8, ebits := 8, e4m3 := false }
def e5m2 : FFmt := { p := 3, ebits := 5, e4m3 := false }
/-- The OCP format without infinities (R188). -/
def e4m3 : FFmt := { p := 4, ebits := 4, e4m3 := true }
/-- binary64, used by the watch statistics of R410. -/
def fp64 : FFmt := { p := 53, ebits := 11, e4m3 := false }

namespace FFmt

/-- Width of the format in bits. -/
def width (f : FFmt) : Nat := f.p + f.ebits

/-- Exponent bias. -/
def bias (f : FFmt) : Int := 2 ^ (f.ebits - 1) - 1

/-- Largest exponent field of a finite value. -/
def maxField (f : FFmt) : Nat := if f.e4m3 then 2 ^ f.ebits - 1 else 2 ^ f.ebits - 2

/-- Bits of the canonical NaN (R194, R203, R244). -/
def nanBits (f : FFmt) : Nat :=
  if f.e4m3 then 0x7F else (2 ^ f.ebits - 1) * 2 ^ (f.p - 1) + 2 ^ (f.p - 2)

/-- Bits of the largest finite value. -/
def maxBits (f : FFmt) : Nat :=
  if f.e4m3 then 0x7E else (2 ^ f.ebits - 1) * 2 ^ (f.p - 1) - 1

/-- Bits of the positive infinity; E4M3 has none and its largest value stands in (R203). -/
def infBits (f : FFmt) : Nat := if f.e4m3 then 0x7E else (2 ^ f.ebits - 1) * 2 ^ (f.p - 1)

end FFmt

/-- A floating-point value: NaN, an infinity, or (−1)^neg · m · 2^e. -/
inductive FVal where
  | nan
  | inf (neg : Bool)
  | fin (neg : Bool) (m : Nat) (e : Int)
deriving DecidableEq, Repr

namespace FVal

def zero : FVal := .fin false 0 0

/-- The value that the bits b spell in format f. -/
def ofBits (f : FFmt) (b : Nat) : FVal :=
  let neg := b.testBit (f.width - 1)
  let frac := b % 2 ^ (f.p - 1)
  let ex := (b / 2 ^ (f.p - 1)) % 2 ^ f.ebits
  if ex = 0 then .fin neg frac (1 - f.bias - (f.p - 1 : Nat))
  else if f.e4m3 then
    if ex = 15 ∧ frac = 7 then .nan else .fin neg (frac + 2 ^ (f.p - 1)) (ex - f.bias - (f.p - 1 : Nat))
  else if ex = 2 ^ f.ebits - 1 then (if frac = 0 then .inf neg else .nan)
  else .fin neg (frac + 2 ^ (f.p - 1)) (ex - f.bias - (f.p - 1 : Nat))

/-- m · 2^-s rounded to the nearest integer, ties to even. -/
def rne (m s : Nat) : Nat :=
  let q := m / 2 ^ s
  let r := m % 2 ^ s
  if s = 0 then m
  else if 2 ^ (s - 1) < r ∨ (r = 2 ^ (s - 1) ∧ q % 2 = 1) then q + 1 else q

/-- Bits of the magnitude m · 2^e rounded to format f; a value beyond the largest one becomes an
infinity, or the largest value when `sat` (R203). -/
def roundMag (f : FFmt) (sat : Bool) (m : Nat) (e : Int) : Nat :=
  if m = 0 then 0 else
  let emin : Int := 1 - f.bias
  let top : Int := (Nat.log2 m : Int) + e
  let q : Int := max (top - (f.p - 1 : Nat)) (emin - (f.p - 1 : Nat))
  let m' := if q ≤ e then m * 2 ^ (e - q).toNat else rne m (q - e).toNat
  -- the significand with its exponent field: a carry out of m' moves into the field by itself
  let bits : Nat := if m' < 2 ^ (f.p - 1) then m'
    else ((q - (emin - (f.p - 1 : Nat))).toNat) * 2 ^ (f.p - 1) + m'
  if f.maxBits < bits then (if sat then f.maxBits else f.infBits) else bits

/-- Bits of a value in format f, one rounding; `sat` saturates as R203 lays down. -/
def toBitsWith (f : FFmt) (sat : Bool) : FVal → Nat
  | .nan => f.nanBits
  | .inf neg => (if sat then f.maxBits else f.infBits) + neg.toNat * 2 ^ (f.width - 1)
  | .fin neg m e => roundMag f sat m e + neg.toNat * 2 ^ (f.width - 1)

/-- Rounding to nearest even, overflow to infinity (R193, R194, R244). -/
def toBits (f : FFmt) (v : FVal) : Nat := toBitsWith f false v

/-- Conversion to a narrower format (R203). -/
def convert (f : FFmt) (v : FVal) : Nat := toBitsWith f true v

/-- Rounded to format f and read back. -/
def round (f : FFmt) (v : FVal) : FVal := ofBits f (toBits f v)

/-- Signed significand at exponent e0, for an exponent not below e0. -/
def atExp (neg : Bool) (m : Nat) (e e0 : Int) : Int :=
  let x : Int := (m * 2 ^ (e - e0).toNat : Nat)
  if neg then -x else x

/-- The exact sum; an exact zero is +0 unless both terms are −0. -/
def add : FVal → FVal → FVal
  | .nan, _ => .nan
  | _, .nan => .nan
  | .inf a, .inf b => if a = b then .inf a else .nan
  | .inf a, _ => .inf a
  | _, .inf b => .inf b
  | .fin a m e, .fin b n g =>
    let e0 := min e g
    let s := atExp a m e e0 + atExp b n g e0
    if s = 0 then .fin (a && b && m = 0 && n = 0) 0 e0 else .fin (decide (s < 0)) s.natAbs e0

/-- The exact product. -/
def mul : FVal → FVal → FVal
  | .nan, _ => .nan
  | _, .nan => .nan
  | .inf a, .inf b => .inf (a != b)
  | .inf a, .fin b m _ => if m = 0 then .nan else .inf (a != b)
  | .fin a m _, .inf b => if m = 0 then .nan else .inf (a != b)
  | .fin a m e, .fin b n g => .fin (a != b) (m * n) (e + g)

def neg : FVal → FVal
  | .nan => .nan
  | .inf a => .inf !a
  | .fin a m e => .fin (!a) m e

def abs : FVal → FVal
  | .nan => .nan
  | .inf _ => .inf false
  | .fin _ m e => .fin false m e

/-- The exact sum of a list, with one NaN or infinity rule for all (R193, R194). -/
def sum (l : List FVal) : FVal :=
  match l with
  | [] => zero
  | v :: vs => vs.foldl add v

def isNan : FVal → Bool
  | .nan => true
  | _ => false

def isFinite : FVal → Bool
  | .fin .. => true
  | _ => false

/-- a < b; false when either is NaN. -/
def lt : FVal → FVal → Bool
  | .nan, _ => false
  | _, .nan => false
  | .inf a, .inf b => a && !b
  | .inf a, _ => a
  | _, .inf b => !b
  | .fin a m e, .fin b n g =>
    let e0 := min e g
    decide (atExp a m e e0 < atExp b n g e0)

/-- a = b as numbers; false when either is NaN. -/
def eq : FVal → FVal → Bool
  | .nan, _ => false
  | _, .nan => false
  | a, b => !lt a b && !lt b a

def le (a b : FVal) : Bool := lt a b || eq a b

def isNeg : FVal → Bool
  | .nan => false
  | .inf a => a
  | .fin a _ _ => a

/-- The smaller, −0 below +0, NaN when either is NaN (R244). -/
def minV (a b : FVal) : FVal :=
  if a.isNan || b.isNan then .nan
  else if lt a b then a else if lt b a then b else if a.isNeg then a else b

def maxV (a b : FVal) : FVal :=
  if a.isNan || b.isNan then .nan
  else if lt a b then b else if lt b a then a else if a.isNeg then b else a

/-- The quotient with guard bits enough for one correct rounding to at most 53 bits; the last bit is
sticky. -/
def div : FVal → FVal → FVal
  | .nan, _ => .nan
  | _, .nan => .nan
  | .inf _, .inf _ => .nan
  | .inf a, .fin b _ _ => .inf (a != b)
  | .fin a _ _, .inf b => .fin (a != b) 0 0
  | .fin a m e, .fin b n g =>
    if n = 0 then (if m = 0 then .nan else .inf (a != b))
    else if m = 0 then .fin (a != b) 0 0
    else
      let k := 64 + Nat.log2 n
      let q := m * 2 ^ k / n
      let r := m * 2 ^ k % n
      .fin (a != b) (2 * q + (if r = 0 then 0 else 1)) (e - g - k - 1)

/-- The square root with guard bits enough for one correct rounding; the last bit is sticky. -/
def sqrt : FVal → FVal
  | .nan => .nan
  | .inf a => if a then .nan else .inf false
  | .fin a m e =>
    if m = 0 then .fin a 0 0
    else if a then .nan
    else
      let k : Nat := if e % 2 = 0 then 128 else 129
      let r := Nat.sqrt (m * 2 ^ k)
      let sticky := if r * r = m * 2 ^ k then 0 else 1
      .fin false (2 * r + sticky) ((e - k) / 2 - 1)

/-- The integer value (truncated toward minus infinity). -/
def floorInt : FVal → Int
  | .fin a m e =>
    if 0 ≤ e then (if a then -(m * 2 ^ e.toNat : Nat) else (m * 2 ^ e.toNat : Nat))
    else
      let x : Int := if a then -(m : Int) else m
      x / (2 ^ (-e).toNat : Nat)
  | _ => 0

/-- The nearest integer, ties to even. -/
def rneInt : FVal → Int
  | .fin a m e =>
    let n : Nat := if 0 ≤ e then m * 2 ^ e.toNat else rne m (-e).toNat
    if a then -(n : Int) else n
  | _ => 0

def ofInt (x : Int) : FVal := .fin (decide (x < 0)) x.natAbs 0

end FVal

/-! ## FP32 operations on words: one rounding each (R244) -/

/-- The value of an FP32 word. -/
def f32 (w : Word) : FVal := FVal.ofBits fp32 w.toNat
/-- A value rounded to an FP32 word. -/
def toF32 (v : FVal) : Word := BitVec.ofNat 32 (FVal.toBits fp32 v)
def fadd (a b : Word) : Word := toF32 (FVal.add (f32 a) (f32 b))
def fsub (a b : Word) : Word := toF32 (FVal.add (f32 a) (FVal.neg (f32 b)))
def fmul (a b : Word) : Word := toF32 (FVal.mul (f32 a) (f32 b))
def ffma (a b c : Word) : Word := toF32 (FVal.add (FVal.mul (f32 a) (f32 b)) (f32 c))
def fdiv (a b : Word) : Word := toF32 (FVal.div (f32 a) (f32 b))
def fsqrt (a : Word) : Word := toF32 (FVal.sqrt (f32 a))
def fneg (a : Word) : Word := toF32 (FVal.neg (f32 a))
def fofInt (x : Int) : Word := toF32 (FVal.ofInt x)
def flt (a b : Word) : Bool := FVal.lt (f32 a) (f32 b)
def fle (a b : Word) : Bool := FVal.le (f32 a) (f32 b)
/-- The rational n ÷ d rounded once to FP32. -/
def fratio (n d : Int) : Word := toF32 (FVal.div (FVal.ofInt n) (FVal.ofInt d))

/-- FP32 1.0 and 0.0. -/
def f1 : Word := 0x3F800000
def f0 : Word := 0

/-- A result within n ulp of the exact value v, chosen by `choice` among the words next to the correctly rounded
one; a choice that would lie further off gives that one (R245). -/
def withinUlps (n : Nat) (v : FVal) (choice : Word) : Word :=
  let r := toF32 v
  let cand := r + BitVec.ofNat 32 (choice.toNat % (2 * n + 1)) - BitVec.ofNat 32 n
  let err := FVal.abs (FVal.add (f32 cand) (FVal.neg v))
  let ulp := FVal.abs (FVal.add (f32 (r + 1)) (FVal.neg (f32 r)))
  if (f32 r).isFinite && (f32 (r + 1)).isFinite && (f32 cand).isFinite && FVal.le err (FVal.mul ulp (FVal.ofInt n)) then cand
  else r

/-! ## Powers and logarithms of two, to 90 bits: enough to judge 2 ulp of FP32 -/

/-- 2^(2^-1), 2^(2^-2), … scaled by 2^90. -/
def rootsOfTwo : Nat → Nat → List Nat
  | 0, _ => []
  | n + 1, x => let r := Nat.sqrt (x * 2 ^ 90); r :: rootsOfTwo n r

/-- 2^f scaled by 2^90, for f = frac ÷ 2^40. -/
def exp2Frac (frac : Nat) : Nat :=
  ((rootsOfTwo 40 (2 ^ 91)).zipIdx).foldl (fun p x => if frac.testBit (39 - x.2) then p * x.1 / 2 ^ 90 else p) (2 ^ 90)

namespace FVal

/-- 2^a. -/
def exp2 : FVal → FVal
  | .nan => .nan
  | .inf neg => if neg then zero else .inf false
  | .fin s m e =>
    -- a as a multiple of 2^-40, cut toward minus infinity
    let x := floorInt (.fin s m (e + 40))
    let n := x / 2 ^ 40
    if 200 < n then .inf false
    else if n < -400 then .fin false 1 (-400)
    else .fin false (exp2Frac (x % 2 ^ 40).toNat) (n - 90)

/-- The bits of log2 of x ÷ 2^90, for x from 2^90 to 2^91, n of them after the point. -/
def logBits : Nat → Nat → Nat → Nat
  | 0, _, acc => acc
  | n + 1, x, acc =>
    let y := x * x / 2 ^ 90
    if 2 ^ 91 ≤ y then logBits n (y / 2) (2 * acc + 1) else logBits n y (2 * acc)

/-- log2(a). -/
def log2 : FVal → FVal
  | .nan => .nan
  | .inf neg => if neg then .nan else .inf false
  | .fin s m e =>
    if m = 0 then .inf true
    else if s then .nan
    else
      let k := Nat.log2 m
      let f := logBits 80 (m * 2 ^ (90 - k)) 0
      let v : Int := ((k : Int) + e) * 2 ^ 80 + f
      .fin (decide (v < 0)) v.natAbs (-80)

/-- The largest integral value not above a. -/
def floor : FVal → FVal
  | .fin s m e => if m = 0 then .fin s 0 0 else ofInt (floorInt (.fin s m e))
  | v => v

end FVal

end Sys2Proof.Machine
end

