-- ==== Sys2Proof/Machine/Names.lean ====
section
/-! DEFINITION. The bus addresses of the registers, by their names in the register tables (Table 15-5 and each
block's own table). An index is the one the name carries; Q_ registers take the base of their window. -/

namespace Sys2Proof.Machine

abbrev Reg.TIME_CTRL : Nat := 0x20000
abbrev Reg.TIME_STATUS : Nat := 0x20000 + 0x004
abbrev Reg.TIME_EVENT : Nat := 0x20000 + 0x008
abbrev Reg.TIME_SHORT : Nat := 0x20000 + 0x00C
abbrev Reg.TIME_CAP_COUNT_LO : Nat := 0x20000 + 0x010
abbrev Reg.TIME_CAP_COUNT_HI : Nat := 0x20000 + 0x014
abbrev Reg.TIME_CAP_WSEC_LO : Nat := 0x20000 + 0x018
abbrev Reg.TIME_CAP_WSEC_HI : Nat := 0x20000 + 0x01C
abbrev Reg.TIME_CAP_WNS : Nat := 0x20000 + 0x020
abbrev Reg.TIME_STEP_WSEC_LO : Nat := 0x20000 + 0x024
abbrev Reg.TIME_STEP_WSEC_HI : Nat := 0x20000 + 0x028
abbrev Reg.TIME_STEP_WNS : Nat := 0x20000 + 0x02C
abbrev Reg.TIME_STEP_AT : Nat := 0x20000 + 0x030
abbrev Reg.TIME_RATE_LO : Nat := 0x20000 + 0x034
abbrev Reg.TIME_RATE_HI : Nat := 0x20000 + 0x038
abbrev Reg.TIME_OFFSET_REPORT : Nat := 0x20000 + 0x03C
abbrev Reg.TIME_FAR_CFG : Nat := 0x20000 + 0x040
abbrev Reg.TIME_PPS_CFG : Nat := 0x20000 + 0x044
abbrev Reg.TIME_PPSIN_STAMP : Nat := 0x20000 + 0x048
abbrev Reg.TIME_UTC_OFFSET : Nat := 0x20000 + 0x04C
abbrev Reg.TIME_PTP_CLOCK : Nat := 0x20000 + 0x050
abbrev Reg.TIME_PTP_CFG (p : Nat) : Nat := 0x20000 + 0x080 + 0x10 * p
abbrev Reg.TIME_PTP_LAT (p : Nat) : Nat := 0x20000 + 0x084 + 0x10 * p
abbrev Reg.TIME_PTP_STAT (p : Nat) : Nat := 0x20000 + 0x088 + 0x10 * p
abbrev Reg.TIME_PTP_DELAY (p : Nat) : Nat := 0x20000 + 0x08C + 0x10 * p
abbrev Reg.SNS_STATUS : Nat := 0x100000
abbrev Reg.SNS_EVENT : Nat := 0x100000 + 0x0004
abbrev Reg.SNS_INQ_SIZE (q : Nat) : Nat := 0x100000 + 0x0040 + 4 * q
abbrev Reg.SNS_CSI_CFG (n : Nat) : Nat := 0x100000 + 0x1000 + 0x100 * n
abbrev Reg.SNS_CSI_STAT (n : Nat) : Nat := 0x100000 + 0x1004 + 0x100 * n
abbrev Reg.SNS_CSI_ERR (n : Nat) : Nat := 0x100000 + 0x1008 + 0x100 * n
abbrev Reg.SNS_FSYNC_CFG (n : Nat) : Nat := 0x100000 + 0x1040 + 0x100 * n
abbrev Reg.SNS_FSYNC_PERIOD (n : Nat) : Nat := 0x100000 + 0x1044 + 0x100 * n
abbrev Reg.SNS_FSYNC_NEXT (n : Nat) : Nat := 0x100000 + 0x1048 + 0x100 * n
abbrev Reg.SNS_FSYNC_LEAD (n : Nat) : Nat := 0x100000 + 0x104C + 0x100 * n
abbrev Reg.SNS_FSYNC_LAST (n : Nat) : Nat := 0x100000 + 0x1050 + 0x100 * n
abbrev Reg.SNS_FSYNC_STAT (n : Nat) : Nat := 0x100000 + 0x1054 + 0x100 * n
abbrev Reg.SNS_I3C_CFG (n : Nat) : Nat := 0x100000 + 0x1080 + 0x100 * n
abbrev Reg.SNS_I3C_CMD (n : Nat) : Nat := 0x100000 + 0x1084 + 0x100 * n
abbrev Reg.SNS_I3C_DATA (n : Nat) : Nat := 0x100000 + 0x1088 + 0x100 * n
abbrev Reg.SNS_I3C_AT (n : Nat) : Nat := 0x100000 + 0x108C + 0x100 * n
abbrev Reg.SNS_I3C_STAT (n : Nat) : Nat := 0x100000 + 0x1090 + 0x100 * n
abbrev Reg.SNS_MAC_CFG (m : Nat) : Nat := 0x100000 + 0x2000 + 0x100 * m
abbrev Reg.SNS_MAC_STAT (m : Nat) : Nat := 0x100000 + 0x2004 + 0x100 * m
abbrev Reg.SNS_MAC_RXDROP (m : Nat) : Nat := 0x100000 + 0x2008 + 0x100 * m
abbrev Reg.SNS_MAC_RXERR (m : Nat) : Nat := 0x100000 + 0x200C + 0x100 * m
abbrev Reg.SNS_SPI_CFG (i : Nat) : Nat := 0x100000 + 0x3000 + 0x40 * i
abbrev Reg.SNS_SPI_CMD (i : Nat) : Nat := 0x100000 + 0x3004 + 0x40 * i
abbrev Reg.SNS_SPI_STAT (i : Nat) : Nat := 0x100000 + 0x3008 + 0x40 * i
abbrev Reg.SNS_CAN_CFG (j : Nat) : Nat := 0x100000 + 0x3200 + 0x40 * j
abbrev Reg.SNS_CAN_NBT (j : Nat) : Nat := 0x100000 + 0x3204 + 0x40 * j
abbrev Reg.SNS_CAN_DBT (j : Nat) : Nat := 0x100000 + 0x3208 + 0x40 * j
abbrev Reg.SNS_CAN_STAT (j : Nat) : Nat := 0x100000 + 0x320C + 0x40 * j
abbrev Reg.SNS_ENC_CFG (e : Nat) : Nat := 0x100000 + 0x3400 + 0x20 * e
abbrev Reg.SNS_ENC_COUNT (e : Nat) : Nat := 0x100000 + 0x3404 + 0x20 * e
abbrev Reg.SNS_ENC_STAT (e : Nat) : Nat := 0x100000 + 0x3408 + 0x20 * e
abbrev Reg.SNS_GPIO_DIR : Nat := 0x100000 + 0x3600
abbrev Reg.SNS_GPIO_IN : Nat := 0x100000 + 0x3604
abbrev Reg.SNS_GPIO_OUT : Nat := 0x100000 + 0x3608
abbrev Reg.SNS_GPIO_EDGE : Nat := 0x100000 + 0x360C
abbrev Reg.SNS_GPIO_TCFG : Nat := 0x100000 + 0x3610
abbrev Reg.SNS_GPIO_TAT : Nat := 0x100000 + 0x3614
abbrev Reg.SNS_GPIO_TARM : Nat := 0x100000 + 0x3618
abbrev Reg.SNS_HUB_DROP : Nat := 0x100000 + 0x3700
abbrev Reg.STR_CTRL (s : Nat) : Nat := 0x140000 + 0x100 * s
abbrev Reg.STR_SOURCE (s : Nat) : Nat := 0x140000 + 0x100 * s + 0x04
abbrev Reg.STR_MATCH (s : Nat) : Nat := 0x140000 + 0x100 * s + 0x08
abbrev Reg.STR_MATCH2 (s : Nat) : Nat := 0x140000 + 0x100 * s + 0x0C
abbrev Reg.STR_RING_BASE_LO (s : Nat) : Nat := 0x140000 + 0x100 * s + 0x10
abbrev Reg.STR_RING_BASE_HI (s : Nat) : Nat := 0x140000 + 0x100 * s + 0x14
abbrev Reg.STR_RING_SIZE (s : Nat) : Nat := 0x140000 + 0x100 * s + 0x18
abbrev Reg.STR_STATUS (s : Nat) : Nat := 0x140000 + 0x100 * s + 0x1C
abbrev Reg.STR_EVENT (s : Nat) : Nat := 0x140000 + 0x100 * s + 0x20
abbrev Reg.STR_LAST_STAMP (s : Nat) : Nat := 0x140000 + 0x100 * s + 0x24
abbrev Reg.STR_ITEMS (s : Nat) : Nat := 0x140000 + 0x100 * s + 0x28
abbrev Reg.STR_LATE (s : Nat) : Nat := 0x140000 + 0x100 * s + 0x2C
abbrev Reg.STR_DROPS (s : Nat) : Nat := 0x140000 + 0x100 * s + 0x30
abbrev Reg.STR_MALF (s : Nat) : Nat := 0x140000 + 0x100 * s + 0x34
abbrev Reg.STR_MISS (s : Nat) : Nat := 0x140000 + 0x100 * s + 0x38
abbrev Reg.STR_RING_WR (s : Nat) : Nat := 0x140000 + 0x100 * s + 0x3C
abbrev Reg.STR_MAP_S0_LO (s : Nat) : Nat := 0x140000 + 0x100 * s + 0x40
abbrev Reg.STR_MAP_S0_HI (s : Nat) : Nat := 0x140000 + 0x100 * s + 0x44
abbrev Reg.STR_MAP_M0 (s : Nat) : Nat := 0x140000 + 0x100 * s + 0x48
abbrev Reg.STR_MAP_SKEW (s : Nat) : Nat := 0x140000 + 0x100 * s + 0x4C
abbrev Reg.STR_INQ (s : Nat) : Nat := 0x140000 + 0x100 * s + 0x50
abbrev Reg.STR_GSTATUS : Nat := 0x140000 + 0x00018000
abbrev Reg.Q_STATUS (b : Nat) : Nat := b
abbrev Reg.Q_EVENT (b : Nat) : Nat := b + 0x004
abbrev Reg.Q_CMD (b : Nat) : Nat := b + 0x008
abbrev Reg.Q_LEVEL (b : Nat) : Nat := b + 0x00C
abbrev Reg.Q_RDPOS (b : Nat) : Nat := b + 0x010
abbrev Reg.Q_MARKPOS (b : Nat) : Nat := b + 0x014
abbrev Reg.Q_RELPOS (b : Nat) : Nat := b + 0x018
abbrev Reg.Q_FILL (b : Nat) : Nat := b + 0x01C
abbrev Reg.Q_CFG (b : Nat) : Nat := b + 0x020
abbrev Reg.Q_BASE (b : Nat) : Nat := b + 0x024
abbrev Reg.Q_SWAPS (b : Nat) : Nat := b + 0x028
abbrev Reg.Q_DROPS (b : Nat) : Nat := b + 0x02C
abbrev Reg.Q_WDATA (b : Nat) : Nat := b + 0x030
abbrev Reg.Q_RDATA (b i : Nat) : Nat := b + 0x100 + 4 * i
abbrev Reg.FUS_CTRL (g : Nat) : Nat := 0x180000 + 0x400 * g
abbrev Reg.FUS_STATUS (g : Nat) : Nat := 0x180000 + 0x400 * g + 0x004
abbrev Reg.FUS_EVENT (g : Nat) : Nat := 0x180000 + 0x400 * g + 0x008
abbrev Reg.FUS_PERIOD (g : Nat) : Nat := 0x180000 + 0x400 * g + 0x00C
abbrev Reg.FUS_T0 (g : Nat) : Nat := 0x180000 + 0x400 * g + 0x010
abbrev Reg.FUS_WAIT (g : Nat) : Nat := 0x180000 + 0x400 * g + 0x014
abbrev Reg.FUS_DEADLINE (g : Nat) : Nat := 0x180000 + 0x400 * g + 0x018
abbrev Reg.FUS_TRIG (g : Nat) : Nat := 0x180000 + 0x400 * g + 0x01C
abbrev Reg.FUS_MINGAP (g : Nat) : Nat := 0x180000 + 0x400 * g + 0x020
abbrev Reg.FUS_NEXT_K (g : Nat) : Nat := 0x180000 + 0x400 * g + 0x024
abbrev Reg.FUS_LAST_K (g : Nat) : Nat := 0x180000 + 0x400 * g + 0x028
abbrev Reg.FUS_LAST_TK (g : Nat) : Nat := 0x180000 + 0x400 * g + 0x02C
abbrev Reg.FUS_LAST_REL (g : Nat) : Nat := 0x180000 + 0x400 * g + 0x030
abbrev Reg.FUS_ABSENT (g : Nat) : Nat := 0x180000 + 0x400 * g + 0x034
abbrev Reg.FUS_RELEASES (g : Nat) : Nat := 0x180000 + 0x400 * g + 0x038
abbrev Reg.FUS_EXPIRED (g : Nat) : Nat := 0x180000 + 0x400 * g + 0x03C
abbrev Reg.FUS_FORCED (g : Nat) : Nat := 0x180000 + 0x400 * g + 0x040
abbrev Reg.FUS_TRIGDROP (g : Nat) : Nat := 0x180000 + 0x400 * g + 0x044
abbrev Reg.FUS_MEM (g i : Nat) : Nat := 0x180000 + 0x400 * g + 0x080 + 4 * i
abbrev Reg.FUS_ILOG (g j : Nat) : Nat := 0x180000 + 0x400 * g + 0x100 + 4 * j
abbrev Reg.FUS_GSTATUS : Nat := 0x180000 + 0x8000
abbrev Reg.CAL_ACTIVE (s j : Nat) : Nat := 0x1C0000 + 0x100 * s + 4 * j
abbrev Reg.CAL_SHADOW (s j : Nat) : Nat := 0x1C0000 + 0x00010000 + 0x100 * s + 4 * j
abbrev Reg.CAL_CTRL : Nat := 0x1C0000 + 0x00020000
abbrev Reg.CAL_STATUS : Nat := 0x1C0000 + 0x00020004
abbrev Reg.CAL_EVENT : Nat := 0x1C0000 + 0x00020008
abbrev Reg.CAL_SWAP_SET (w : Nat) : Nat := 0x1C0000 + 0x00020010 + 4 * w
abbrev Reg.CAL_SWAP_ERR : Nat := 0x1C0000 + 0x00020030
abbrev Reg.CAL_SWAP_LAST : Nat := 0x1C0000 + 0x00020034
abbrev Reg.CAL_SWAP_COUNT : Nat := 0x1C0000 + 0x00020038
abbrev Reg.CAL_POSE_CFG : Nat := 0x1C0000 + 0x00020100
abbrev Reg.CAL_POSE_GAIN : Nat := 0x1C0000 + 0x00020104
abbrev Reg.CAL_POSE_BASE_LO : Nat := 0x1C0000 + 0x00020108
abbrev Reg.CAL_POSE_BASE_HI : Nat := 0x1C0000 + 0x0002010C
abbrev Reg.CAL_POSE_WHEEL (w : Nat) : Nat := 0x1C0000 + 0x00020120 + 4 * w
abbrev Reg.CAL_POSE_NEWEST : Nat := 0x1C0000 + 0x00020140
abbrev Reg.CAL_POSE_LATE : Nat := 0x1C0000 + 0x00020144
abbrev Reg.CAL_POSE_REINT : Nat := 0x1C0000 + 0x00020148
abbrev Reg.CAL_POSE_CLAMP : Nat := 0x1C0000 + 0x0002014C
abbrev Reg.CAL_POSE_CAP (i : Nat) : Nat := 0x1C0000 + 0x00020150 + 4 * i
abbrev Reg.PNT_GSTATUS : Nat := 0x200000
abbrev Reg.PNT_EVENT : Nat := 0x200000 + 0x0004
abbrev Reg.PNT_PT_BASE_LO (t : Nat) : Nat := 0x200000 + 0x1000 + 0x20 * t
abbrev Reg.PNT_PT_BASE_HI (t : Nat) : Nat := 0x200000 + 0x1004 + 0x20 * t
abbrev Reg.PNT_PT_CFG (t : Nat) : Nat := 0x200000 + 0x1008 + 0x20 * t
abbrev Reg.PNT_PT_COUNT (t : Nat) : Nat := 0x200000 + 0x100C + 0x20 * t
abbrev Reg.PNT_PT_K (t : Nat) : Nat := 0x200000 + 0x1010 + 0x20 * t
abbrev Reg.PNT_PT_DROPS (t : Nat) : Nat := 0x200000 + 0x1014 + 0x20 * t
abbrev Reg.PNT_VT_BASE_LO (v : Nat) : Nat := 0x200000 + 0x2000 + 0x40 * v
abbrev Reg.PNT_VT_BASE_HI (v : Nat) : Nat := 0x200000 + 0x2004 + 0x40 * v
abbrev Reg.PNT_VT_CFG (v : Nat) : Nat := 0x200000 + 0x2008 + 0x40 * v
abbrev Reg.PNT_VT_OCC (v : Nat) : Nat := 0x200000 + 0x200C + 0x40 * v
abbrev Reg.PNT_VT_TOMB (v : Nat) : Nat := 0x200000 + 0x2010 + 0x40 * v
abbrev Reg.PNT_VT_SWEEP (v : Nat) : Nat := 0x200000 + 0x2014 + 0x40 * v
abbrev Reg.PNT_VT_CELLDROPS (v : Nat) : Nat := 0x200000 + 0x2018 + 0x40 * v
abbrev Reg.PNT_VT_PROBEFULL (v : Nat) : Nat := 0x200000 + 0x201C + 0x40 * v
abbrev Reg.PNT_VT_OOR (v : Nat) : Nat := 0x200000 + 0x2020 + 0x40 * v
abbrev Reg.PNT_VT_PROBEMAX (v : Nat) : Nat := 0x200000 + 0x2024 + 0x40 * v
abbrev Reg.PNT_NEAR (g : Nat) : Nat := 0x200000 + 0x3000 + 0x100 * g
abbrev Reg.PNT_DK (g e : Nat) : Nat := 0x200000 + 0x3010 + 0x100 * g + 0x10 * e
abbrev Reg.PNT_DPTS (g e : Nat) : Nat := 0x200000 + 0x3014 + 0x100 * g + 0x10 * e
abbrev Reg.PNT_DCELL (g e : Nat) : Nat := 0x200000 + 0x3018 + 0x100 * g + 0x10 * e
abbrev Reg.PNT_DSTAT (g e : Nat) : Nat := 0x200000 + 0x301C + 0x100 * g + 0x10 * e
abbrev Reg.PNT_USTAT (c : Nat) : Nat := 0x200000 + 0x4000 + 0x20 * c
abbrev Reg.PNT_UCMDS (c : Nat) : Nat := 0x200000 + 0x4004 + 0x20 * c
abbrev Reg.EGR_STATUS : Nat := 0x280000
abbrev Reg.EGR_EVENT : Nat := 0x280000 + 0x0004
abbrev Reg.EGR_PACKETS : Nat := 0x280000 + 0x0008
abbrev Reg.EGR_NETDROPS : Nat := 0x280000 + 0x000C
abbrev Reg.EGR_MSGRX : Nat := 0x280000 + 0x0010
abbrev Reg.EGR_MSGERR : Nat := 0x280000 + 0x0014
abbrev Reg.EGR_SKIPPED : Nat := 0x280000 + 0x0018
abbrev Reg.EGR_DEST_CFG (d : Nat) : Nat := 0x280000 + 0x0100 + 0x20 * d
abbrev Reg.EGR_DEST_PORT (d : Nat) : Nat := 0x280000 + 0x0104 + 0x20 * d
abbrev Reg.EGR_DEST_IP (d w : Nat) : Nat := 0x280000 + 0x0108 + 0x20 * d + 4 * w
abbrev Reg.EGR_ROUTE (g : Nat) : Nat := 0x280000 + 0x0200 + 0x10 * g
abbrev Reg.EGR_HOSTTILE (g : Nat) : Nat := 0x280000 + 0x0204 + 0x10 * g
abbrev Reg.EGR_GRID_CFG (g : Nat) : Nat := 0x280000 + 0x0400 + 0x40 * g
abbrev Reg.EGR_GRID_ORIG (g : Nat) : Nat := 0x280000 + 0x0404 + 0x40 * g
abbrev Reg.EGR_GRID_HGT (g : Nat) : Nat := 0x280000 + 0x0408 + 0x40 * g
abbrev Reg.EGR_GRID_LO (g : Nat) : Nat := 0x280000 + 0x040C + 0x40 * g
abbrev Reg.EGR_GRID_CONF (g : Nat) : Nat := 0x280000 + 0x0410 + 0x40 * g
abbrev Reg.EGR_GRID_BASE_LO (g : Nat) : Nat := 0x280000 + 0x0418 + 0x40 * g
abbrev Reg.EGR_GRID_BASE_HI (g : Nat) : Nat := 0x280000 + 0x041C + 0x40 * g
abbrev Reg.EGR_GRID_WT (g w : Nat) : Nat := 0x280000 + 0x0420 + 0x40 * g + 4 * w
abbrev Reg.EGR_TRK_BASE_LO : Nat := 0x280000 + 0x1000
abbrev Reg.EGR_TRK_BASE_HI : Nat := 0x280000 + 0x1004
abbrev Reg.EGR_TRK_CFG : Nat := 0x280000 + 0x1008
abbrev Reg.EGR_TRK_GATE : Nat := 0x280000 + 0x100C
abbrev Reg.EGR_TRK_LIVE : Nat := 0x280000 + 0x1010
abbrev Reg.EGR_TRK_NEXTID : Nat := 0x280000 + 0x1014
abbrev Reg.EGR_TRK_REFUSED : Nat := 0x280000 + 0x1018
abbrev Reg.EGR_TRK_UNGATED : Nat := 0x280000 + 0x101C
abbrev Reg.EGR_TRK_RANGE (g : Nat) : Nat := 0x280000 + 0x1100 + 4 * g
abbrev Reg.EGR_MSG_CFG : Nat := 0x280000 + 0x3000
abbrev Reg.NET_CFG (m : Nat) : Nat := 0x2C0000 + 0x400 * m
abbrev Reg.NET_MACA_LO (m : Nat) : Nat := 0x2C0000 + 0x0004 + 0x400 * m
abbrev Reg.NET_MACA_HI (m : Nat) : Nat := 0x2C0000 + 0x0008 + 0x400 * m
abbrev Reg.NET_IP4 (m : Nat) : Nat := 0x2C0000 + 0x000C + 0x400 * m
abbrev Reg.NET_IP6 (m w : Nat) : Nat := 0x2C0000 + 0x0010 + 0x400 * m + 4 * w
abbrev Reg.NET_NBR (m : Nat) : Nat := 0x2C0000 + 0x0020 + 0x400 * m
abbrev Reg.NET_MCEN (m : Nat) : Nat := 0x2C0000 + 0x0030 + 0x400 * m
abbrev Reg.NET_MC6 (m : Nat) : Nat := 0x2C0000 + 0x0034 + 0x400 * m
abbrev Reg.NET_MC (m i w : Nat) : Nat := 0x2C0000 + 0x0200 + 0x400 * m + 0x10 * i + 4 * w
abbrev Reg.NET_MODULE : Nat := 0x2C0000 + 0x1000
abbrev Reg.NET_STATUS : Nat := 0x2C0000 + 0x1004
abbrev Reg.CQ_CTRL (q : Nat) : Nat := 0x80000 + 0x100 * q
abbrev Reg.CQ_CFG (q : Nat) : Nat := 0x80000 + 0x100 * q + 0x04
abbrev Reg.CQ_BASE_LO (q : Nat) : Nat := 0x80000 + 0x100 * q + 0x08
abbrev Reg.CQ_BASE_HI (q : Nat) : Nat := 0x80000 + 0x100 * q + 0x0C
abbrev Reg.CQ_TAIL (q : Nat) : Nat := 0x80000 + 0x100 * q + 0x10
abbrev Reg.CQ_HEAD (q : Nat) : Nat := 0x80000 + 0x100 * q + 0x14
abbrev Reg.CQ_DONE (q : Nat) : Nat := 0x80000 + 0x100 * q + 0x18
abbrev Reg.CQ_STATUS (q : Nat) : Nat := 0x80000 + 0x100 * q + 0x1C
abbrev Reg.CQ_EVENT (q : Nat) : Nat := 0x80000 + 0x100 * q + 0x20
abbrev Reg.CQ_ERR (q : Nat) : Nat := 0x80000 + 0x100 * q + 0x24
abbrev Reg.CQ_ERRPOS (q : Nat) : Nat := 0x80000 + 0x100 * q + 0x28
abbrev Reg.CQ_CMD (q : Nat) : Nat := 0x80000 + 0x100 * q + 0x2C
abbrev Reg.CQ_CORE (q : Nat) : Nat := 0x80000 + 0x100 * q + 0x30
abbrev Reg.CQ_LAST (q : Nat) : Nat := 0x80000 + 0x100 * q + 0x34
abbrev Reg.CQ_GSTATUS : Nat := 0x80000 + 0x10000
abbrev Reg.CQ_CSIG_RAISE : Nat := 0x80000 + 0x10004
abbrev Reg.CQ_CSIG (n : Nat) : Nat := 0x80000 + 0x10400 + 4 * n
abbrev Reg.CQ_SQSTAT (n : Nat) : Nat := 0x80000 + 0x10800 + 4 * n
abbrev Reg.CLU_SEQMEM (k i : Nat) : Nat := 0x400000 + 0x80000 * k + 4 * i
abbrev Reg.CLU_STATUS (k : Nat) : Nat := 0x400000 + 0x80000 * k + 0x40000
abbrev Reg.CLU_EVENT (k : Nat) : Nat := 0x400000 + 0x80000 * k + 0x40004
abbrev Reg.CLU_CC_SEL (k : Nat) : Nat := 0x400000 + 0x80000 * k + 0x40008
abbrev Reg.CLU_CC_CTRL (k c : Nat) : Nat := 0x400000 + 0x80000 * k + 0x40100 + 0x20 * c
abbrev Reg.CLU_CC_STATUS (k c : Nat) : Nat := 0x400000 + 0x80000 * k + 0x40104 + 0x20 * c
abbrev Reg.CLU_CC_PC (k c : Nat) : Nat := 0x400000 + 0x80000 * k + 0x40108 + 0x20 * c
abbrev Reg.CLU_CC_WAITOBJ (k c : Nat) : Nat := 0x400000 + 0x80000 * k + 0x4010C + 0x20 * c
abbrev Reg.CLU_CC_ENTRY (k c : Nat) : Nat := 0x400000 + 0x80000 * k + 0x40110 + 0x20 * c
abbrev Reg.CLU_SEM (k n : Nat) : Nat := 0x400000 + 0x80000 * k + 0x40200 + 4 * n
abbrev Reg.CLU_CORE_STATE (k : Nat) : Nat := 0x400000 + 0x80000 * k + 0x40300
abbrev Reg.FPL_CTRL : Nat := 0x60000
abbrev Reg.FPL_STATUS : Nat := 0x60000 + 0x004
abbrev Reg.FPL_EVENT : Nat := 0x60000 + 0x008
abbrev Reg.FPL_SRC : Nat := 0x60000 + 0x00C
abbrev Reg.FPL_ADDR_LO : Nat := 0x60000 + 0x010
abbrev Reg.FPL_ADDR_HI : Nat := 0x60000 + 0x014
abbrev Reg.FPL_LEN : Nat := 0x60000 + 0x018
abbrev Reg.FPL_REFUSE : Nat := 0x60000 + 0x01C
abbrev Reg.FPL_REFUSE_OFF : Nat := 0x60000 + 0x020
abbrev Reg.FPL_IMAGE_ID : Nat := 0x60000 + 0x024
abbrev Reg.FPL_IMAGE_VER : Nat := 0x60000 + 0x028
abbrev Reg.FPL_MOVEIN_TIME : Nat := 0x60000 + 0x02C
abbrev Reg.FPL_CORES_OUT : Nat := 0x60000 + 0x030
abbrev Reg.FPL_WUPD_K : Nat := 0x60000 + 0x034
abbrev Reg.FPL_BOOTSLOT : Nat := 0x60000 + 0x038
abbrev Reg.FPL_SH_CTRL : Nat := 0x60000 + 0x100
abbrev Reg.FPL_SH_STATUS : Nat := 0x60000 + 0x104
abbrev Reg.FPL_SH_REPORT : Nat := 0x60000 + 0x108
abbrev Reg.FPL_SH_DEST : Nat := 0x60000 + 0x10C
abbrev Reg.FPL_SH_DEST_IP : Nat := 0x60000 + 0x110
abbrev Reg.FPL_SH_CSI (n : Nat) : Nat := 0x60000 + 0x120 + 4 * n
abbrev Reg.FPL_SH_SCAN : Nat := 0x60000 + 0x140
abbrev Reg.FPL_SH_IMU : Nat := 0x60000 + 0x144
abbrev Reg.FPL_SH_IMUCMD : Nat := 0x60000 + 0x148
abbrev Reg.SAFE_STATUS : Nat := 0x30000
abbrev Reg.SAFE_EVENT : Nat := 0x30000 + 0x004
abbrev Reg.SAFE_HOLD : Nat := 0x30000 + 0x008
abbrev Reg.SAFE_CTRL : Nat := 0x30000 + 0x00C
abbrev Reg.SAFE_CFG : Nat := 0x30000 + 0x010
abbrev Reg.SAFE_TRANSIENT : Nat := 0x30000 + 0x014
abbrev Reg.SAFE_PERMANENT : Nat := 0x30000 + 0x018
abbrev Reg.SAFE_LAST_OUT : Nat := 0x30000 + 0x01C
abbrev Reg.SAFE_MAX_OUT : Nat := 0x30000 + 0x020
abbrev Reg.SAFE_LOG_COUNT : Nat := 0x30000 + 0x024
abbrev Reg.SAFE_AGEMISS (g : Nat) : Nat := 0x30000 + 0x100 + 4 * g
abbrev Reg.SAFE_STEST (c : Nat) : Nat := 0x30000 + 0x200 + 4 * c
abbrev Reg.SAFE_LOG0 (i : Nat) : Nat := 0x30000 + 0x400 + 0x10 * i
abbrev Reg.SAFE_LOG1 (i : Nat) : Nat := 0x30000 + 0x404 + 0x10 * i
abbrev Reg.SAFE_LOG2 (i : Nat) : Nat := 0x30000 + 0x408 + 0x10 * i
abbrev Reg.SAFE_LOG3 (i : Nat) : Nat := 0x30000 + 0x40C + 0x10 * i
abbrev Reg.CCHK_CTRL : Nat := 0x60000 + 0x8000
abbrev Reg.CCHK_STATUS : Nat := 0x60000 + 0x8004
abbrev Reg.CCHK_OPEN : Nat := 0x60000 + 0x8008
abbrev Reg.CCHK_REF : Nat := 0x60000 + 0x800C
abbrev Reg.CCHK_COUNT : Nat := 0x60000 + 0x8010
abbrev Reg.CCHK_COMMITTED : Nat := 0x60000 + 0x8014
abbrev Reg.CCHK_LAST : Nat := 0x60000 + 0x8018
abbrev Reg.CCHK_PASSES : Nat := 0x60000 + 0x801C
abbrev Reg.CCHK_MISMATCH : Nat := 0x60000 + 0x8020
abbrev Reg.GCTL_ID : Nat := 0x000
abbrev Reg.GCTL_VARIANT : Nat := 0x004
abbrev Reg.GCTL_FW_VER : Nat := 0x008
abbrev Reg.GCTL_STATUS : Nat := 0x00C
abbrev Reg.GCTL_EVENT : Nat := 0x010
abbrev Reg.GCTL_CTRL : Nat := 0x014
abbrev Reg.GCTL_PWR_STATE : Nat := 0x018
abbrev Reg.GCTL_PWR_CAP : Nat := 0x01C
abbrev Reg.GCTL_SCRATCH : Nat := 0x020
abbrev Reg.GCTL_TEMP : Nat := 0x024
abbrev Reg.GCTL_VIN : Nat := 0x028
abbrev Reg.HIF_CFG : Nat := 0x10000
abbrev Reg.HIF_LAT : Nat := 0x10000 + 0x004
abbrev Reg.HIF_EVENT : Nat := 0x10000 + 0x008
abbrev Reg.HIF_ERR_ADDR : Nat := 0x10000 + 0x00C
abbrev Reg.HIF_ERR_CAUSE : Nat := 0x10000 + 0x010
abbrev Reg.HIF_ERR_CTRL : Nat := 0x10000 + 0x014
abbrev Reg.HIF_ERR_COUNT : Nat := 0x10000 + 0x018
abbrev Reg.HIF_FRAME_ERRS : Nat := 0x10000 + 0x01C
abbrev Reg.HIF_CRC_ERRS : Nat := 0x10000 + 0x020
abbrev Reg.HIF_WIN_BASE : Nat := 0x10000 + 0x024
abbrev Reg.HIF_INT_EN : Nat := 0x10000 + 0x028
abbrev Reg.HIF_EVSUM : Nat := 0x10000 + 0x02C
abbrev Reg.HIF_EVGRP : Nat := 0x10000 + 0x030
abbrev Reg.HIF_TXNS : Nat := 0x10000 + 0x034
abbrev Reg.HIF_EVSTR (w : Nat) : Nat := 0x10000 + 0x040 + 4 * w
abbrev Reg.HIF_EVQ (w : Nat) : Nat := 0x10000 + 0x060 + 4 * w
abbrev Reg.MEM_STATUS : Nat := 0x300000
abbrev Reg.MEM_EVENT : Nat := 0x300000 + 0x004
abbrev Reg.MEM_SIZE : Nat := 0x300000 + 0x008
abbrev Reg.MEM_CORR : Nat := 0x300000 + 0x00C
abbrev Reg.MEM_UNCORR : Nat := 0x300000 + 0x010
abbrev Reg.MEM_ERR_ADDR_LO : Nat := 0x300000 + 0x014
abbrev Reg.MEM_ERR_ADDR_HI : Nat := 0x300000 + 0x018
abbrev Reg.MEM_RECAL : Nat := 0x300000 + 0x01C
abbrev Reg.MEM_TEMP : Nat := 0x300000 + 0x020
abbrev Reg.CNT_STATUS : Nat := 0x40000
abbrev Reg.CNT_EVENT : Nat := 0x40000 + 0x004
abbrev Reg.CNT_CTRL : Nat := 0x40000 + 0x008
abbrev Reg.CNT_SNAP_AT : Nat := 0x40000 + 0x00C
abbrev Reg.CNT_SNAP_TIME : Nat := 0x40000 + 0x010
abbrev Reg.CNT_SNAP_SEQ : Nat := 0x40000 + 0x014
abbrev Reg.CNT_TENANT_MASK : Nat := 0x40000 + 0x018
abbrev Reg.CNT_DBG_PAGE : Nat := 0x40000 + 0x01C
abbrev Reg.CNT_AON_LO (i : Nat) : Nat := 0x40000 + 0x1000 + 8 * i
abbrev Reg.CNT_AON_HI (i : Nat) : Nat := 0x40000 + 0x1000 + 8 * i + 4
abbrev Reg.CNT_BKT_LO (b : Nat) : Nat := 0x40000 + 0x4000 + 8 * b
abbrev Reg.CNT_BKT_HI (b : Nat) : Nat := 0x40000 + 0x4000 + 8 * b + 4
abbrev Reg.CNT_BKT_CFG (b : Nat) : Nat := 0x40000 + 0x5000 + 8 * b
abbrev Reg.CNT_BKT_SEL (b : Nat) : Nat := 0x40000 + 0x5004 + 8 * b
abbrev Reg.CNT_DBG_LO (j : Nat) : Nat := 0x40000 + 0x8000 + 8 * j
abbrev Reg.CNT_DBG_HI (j : Nat) : Nat := 0x40000 + 0x8000 + 8 * j + 4
abbrev Reg.DBG_STATUS : Nat := 0x70000
abbrev Reg.DBG_EVENT : Nat := 0x70000 + 0x004
abbrev Reg.DBG_TRACE_CTRL : Nat := 0x70000 + 0x008
abbrev Reg.DBG_TRACE_KINDS : Nat := 0x70000 + 0x00C
abbrev Reg.DBG_TRACE_CC_LO : Nat := 0x70000 + 0x010
abbrev Reg.DBG_TRACE_CC_HI : Nat := 0x70000 + 0x014
abbrev Reg.DBG_TRACE_Q (w : Nat) : Nat := 0x70000 + 0x020 + 4 * w
abbrev Reg.DBG_OBS_CAP : Nat := 0x70000 + 0x040
abbrev Reg.DBG_TRACE_DROPS : Nat := 0x70000 + 0x044
abbrev Reg.DBG_WATCH_DROPS : Nat := 0x70000 + 0x048
abbrev Reg.DBG_CELLAR_WR : Nat := 0x70000 + 0x04C
abbrev Reg.DBG_CELLAR_WRAPS : Nat := 0x70000 + 0x050
abbrev Reg.DBG_CELLAR_BASE_LO : Nat := 0x70000 + 0x054
abbrev Reg.DBG_CELLAR_BASE_HI : Nat := 0x70000 + 0x058
abbrev Reg.DBG_CELLAR_SIZE : Nat := 0x70000 + 0x05C
abbrev Reg.DBG_TRIG_CFG : Nat := 0x70000 + 0x060
abbrev Reg.DBG_STILL_CTRL : Nat := 0x70000 + 0x070
abbrev Reg.DBG_STILL_CFG : Nat := 0x70000 + 0x074
abbrev Reg.DBG_STILL_WDOG : Nat := 0x70000 + 0x078
abbrev Reg.DBG_STILL_STALL : Nat := 0x70000 + 0x07C
abbrev Reg.DBG_STILL_SEQ : Nat := 0x70000 + 0x080
abbrev Reg.DBG_STILL_TIME : Nat := 0x70000 + 0x084
abbrev Reg.DBG_STILL_MISSED : Nat := 0x70000 + 0x088
abbrev Reg.DBG_CC_STEP : Nat := 0x70000 + 0x090
abbrev Reg.DBG_WATCH_CFG (w : Nat) : Nat := 0x70000 + 0x400 + 0x10 * w
abbrev Reg.DBG_WATCH_ID (w : Nat) : Nat := 0x70000 + 0x404 + 0x10 * w
abbrev Reg.DBG_WATCH_LO (w : Nat) : Nat := 0x70000 + 0x408 + 0x10 * w
abbrev Reg.DBG_WATCH_WID (w : Nat) : Nat := 0x70000 + 0x40C + 0x10 * w
abbrev Reg.SEC_STATUS : Nat := 0x50000
abbrev Reg.SEC_EVENT : Nat := 0x50000 + 0x004
abbrev Reg.SEC_CTRL : Nat := 0x50000 + 0x008
abbrev Reg.SEC_PRIV : Nat := 0x50000 + 0x00C
abbrev Reg.SEC_NONCE_LO : Nat := 0x50000 + 0x010
abbrev Reg.SEC_NONCE_HI : Nat := 0x50000 + 0x014
abbrev Reg.SEC_REQ_ADDR_LO : Nat := 0x50000 + 0x018
abbrev Reg.SEC_REQ_ADDR_HI : Nat := 0x50000 + 0x01C
abbrev Reg.SEC_REQ_RESULT : Nat := 0x50000 + 0x020
abbrev Reg.SEC_MINVER : Nat := 0x50000 + 0x024
abbrev Reg.SEC_FW_MINVER : Nat := 0x50000 + 0x028
abbrev Reg.SEC_ATT_INDEX : Nat := 0x50000 + 0x02C
abbrev Reg.SEC_KEYS : Nat := 0x50000 + 0x030
abbrev Reg.SEC_DEBUG_LEFT : Nat := 0x50000 + 0x034
abbrev Reg.SEC_WIPES : Nat := 0x50000 + 0x038
abbrev Reg.SEC_SERIAL_LO : Nat := 0x50000 + 0x040
abbrev Reg.SEC_SERIAL_HI : Nat := 0x50000 + 0x044
abbrev Reg.SEC_NAND_STATUS : Nat := 0x50000 + 0x048
abbrev Reg.SEC_NAND_ERASE_MAX : Nat := 0x50000 + 0x04C
abbrev Reg.SEC_LOG_COUNT : Nat := 0x50000 + 0x050
abbrev Reg.SEC_NONCE_IN (i : Nat) : Nat := 0x50000 + 0x080 + 4 * i
abbrev Reg.SEC_ATT_REPORT (i : Nat) : Nat := 0x50000 + 0x1000 + 4 * i
abbrev Reg.SEC_CERT (i : Nat) : Nat := 0x50000 + 0x3000 + 4 * i

/-- The windows of the host queues (Table 11-12). -/
abbrev Reg.HRQ : Nat := 0x282000
abbrev Reg.HIQ : Nat := 0x282200

end Sys2Proof.Machine
end

