-- ==== Sys2Proof/Machine/Bits.lean ====
section
/-! DEFINITION. Checks over bytes (R133, R352, R380) and the sparse tables State is made of. -/

namespace Sys2Proof.Machine

/-! ## CRCs -/

/-- n shift steps of the reflected CRC-32C register (polynomial 0x1EDC_6F41, R133). -/
def crc32cBits : Nat → BitVec 32 → BitVec 32
  | 0, c => c
  | n + 1, c => crc32cBits n (if c.getLsbD 0 then (c >>> 1) ^^^ 0x82F63B78#32 else c >>> 1)

/-- One byte taken into the CRC-32C register. -/
def crc32cByte (c : BitVec 32) (b : Byte) : BitVec 32 := crc32cBits 8 (c ^^^ b.setWidth 32)

/-- CRC-32C of bytes in increasing offset (R133). -/
def crc32c (l : List Byte) : Word := l.foldl crc32cByte 0xFFFFFFFF#32 ^^^ 0xFFFFFFFF#32

/-- n shift steps of CRC-16 with polynomial 0x1021, no reflection (R352, R380). -/
def crc16Bits : Nat → BitVec 16 → BitVec 16
  | 0, c => c
  | n + 1, c => crc16Bits n (if c.getLsbD 15 then (c <<< 1) ^^^ 0x1021#16 else c <<< 1)

def crc16Byte (c : BitVec 16) (b : Byte) : BitVec 16 := crc16Bits 8 (c ^^^ (b.setWidth 16 <<< 8))

/-- CRC-16, initial value 0xFFFF, no final exclusive-or (R352, R380). -/
def crc16 (l : List Byte) : BitVec 16 := l.foldl crc16Byte 0xFFFF#16

/-- Bytes of a word in bus order: bits [7:0] first (R377). -/
def wordBytes (w : Word) : List Byte := leBytes 4 w.toNat

/-- Even parity of a word (R41). -/
def parityBits : Nat → Nat → Bool
  | 0, _ => false
  | n + 1, v => xor (v % 2 == 1) (parityBits n (v / 2))

def evenParity (w : Word) : Bool := parityBits 32 w.toNat

/-- The index of the lowest bit of a number that is 0, below n. -/
def lowestClear (n v : Nat) : Option Nat := (List.range n).find? fun i => !v.testBit i

/-! ## Sparse tables

A table is a list of keys and values, keys strictly rising, no value equal to what an unlisted key
reads as: equal tables are equal lists. -/

/-- A sparse table from a key to a value. -/
abbrev Sparse (β : Type) := List (Nat × β)

/-- The value at a key; `d` says what an unlisted key reads as. -/
def sget {β : Type} (d : Nat → β) : Sparse β → Nat → β
  | [], k => d k
  | (j, v) :: t, k => if j = k then v else sget d t k

/-- The list with a key put in at its place, or its entry replaced. -/
def sins {β : Type} (k : Nat) (v : β) : Sparse β → Sparse β
  | [] => [(k, v)]
  | (j, w) :: t =>
    if k < j then (k, v) :: (j, w) :: t
    else if j = k then (k, v) :: t
    else (j, w) :: sins k v t

/-- The list without a key. -/
def srem {β : Type} (k : Nat) (t : Sparse β) : Sparse β := t.filter fun p => p.1 != k

/-- The table with key k put to v; a value that an unlisted key reads as takes no entry. -/
def sput {β : Type} [DecidableEq β] (d : Nat → β) (k : Nat) (v : β) (t : Sparse β) : Sparse β :=
  if v = d k then srem k t else sins k v t

/-- The canonical form: keys above `lo` strictly rising, no entry equal to the default. -/
def swf {β : Type} [DecidableEq β] (d : Nat → β) : Nat → Sparse β → Bool
  | _, [] => true
  | lo, (j, v) :: t => decide (lo ≤ j) && decide (v ≠ d j) && swf d (j + 1) t

end Sys2Proof.Machine
end

