-- ==== Sys2Proof/Machine/RegMap.lean ====
section
/-! DEFINITION. The register maps of the blocks (Table 15-5 and each block's own table): where every
register lies, its access code (R16), its implemented bits, its RWL bits, its reset value and the values its
own range rule refuses. FP fields hold their empty-register-image value (R320, R458, log entry 3). -/

namespace Sys2Proof.Machine

/-- Access codes of Table 0-6. A register with RWL fields beside others is `rw` with `lmask` set. -/
inductive Access where
  | rw
  | ro
  | wo
  | w1p
  | sqc
deriving DecidableEq, Repr

/-- One line of a register map: registers at `off + s1·i + s2·j`, i below n1 and j below n2. -/
structure Row where
  off : Nat
  s1 : Nat := 4
  n1 : Nat := 1
  s2 : Nat := 4
  n2 : Nat := 1
  acc : Access
  /-- implemented bits: the others are reserved and read 0 (R15) -/
  mask : Word
  /-- RWL bits (R385) -/
  lmask : Word := 0
  rst : Nat → Word := fun _ => 0
  /-- values that the register's own range rule makes a bus error -/
  bad : Word → Bool := fun _ => false

namespace Row

/-- The indices at which a block offset meets the row. -/
def index (r : Row) (o : Nat) : Option (Nat × Nat) :=
  if o < r.off then none else
  let d := o - r.off
  let i := d / r.s1
  let e := d % r.s1
  let j := e / r.s2
  if i < r.n1 ∧ e % r.s2 = 0 ∧ j < r.n2 then some (i, j) else none

end Row

/-- A STR_SOURCEs value whose kind, port or camera data type its table does not list (Table 3-15, Table 3-2). -/
def srcBad (w : Word) : Bool :=
  let kind := w.field 28 4
  let port := w.field 24 4
  let dt := w.field 14 6
  match kind with
  | 0 => false
  | 1 => 8 <= port || !(dt == 0x2A || dt == 0x2B || dt == 0x2C || dt == 0x2D || dt == 0x2E || dt == 0x1E || dt == 0x24 || dt == 0x12)
  | 2 => 4 <= port
  | 3 => 4 <= port
  | 4 => 4 <= port
  | 5 => 8 <= port
  | 6 => 2 <= port
  | 7 => false
  | _ => true

/-- The default calibration entry (R459) less its crc: A the identity, everything else 0. -/
def defaultEntryBody : List Byte :=
  ((List.range 63).map fun j => if j = 4 ∨ j = 9 ∨ j = 14 then wordBytes 0x3F800000 else wordBytes 0).flatten

/-- Word j of the default calibration entry (R459). -/
def defaultEntryWord (j : Nat) : Word :=
  if j = 4 ∨ j = 9 ∨ j = 14 then 0x3F800000
  else if j = 63 then crc32c defaultEntryBody else 0

/-- GCTL (Table 15-6). -/
def gctlRows : List Row := [
  { off := 0x0, acc := .ro, mask := 0xFFFFFFFF, rst := fun _ => 0x53563332 },
  { off := 0x4, acc := .ro, mask := 0xFFFFFFFF },
  { off := 0x8, acc := .ro, mask := 0xFFFFFFFF },
  { off := 0xC, acc := .ro, mask := 0xFFFFFFFF, rst := fun _ => 0x1 },
  { off := 0x10, acc := .sqc, mask := 0xFFFF000F },
  { off := 0x14, acc := .w1p, mask := 0x7 },
  { off := 0x18, acc := .rw, mask := 0x3, bad := fun w => w.field 0 2 == 3 },
  { off := 0x1C, acc := .rw, mask := 0xFF, rst := fun _ => 0xB4, bad := fun w => w.field 0 8 < 20 || 180 < w.field 0 8 },
  { off := 0x20, acc := .rw, mask := 0xFFFFFFFF },
  { off := 0x24, acc := .ro, mask := 0xFFFFFFFF },
  { off := 0x28, acc := .ro, mask := 0xFFFFFFFF }]

/-- HIF (Table 15-7). -/
def hifRows : List Row := [
  { off := 0x0, acc := .rw, mask := 0x1 },
  { off := 0x4, acc := .rw, mask := 0x3FFFFFF, rst := fun _ => 0x12C0418, bad := fun w => w.field 16 10 < 16 || w.field 8 8 < 4 || w.field 0 8 < 4 },
  { off := 0x8, acc := .sqc, mask := 0xFFFF000F },
  { off := 0xC, acc := .ro, mask := 0xFFFFFFFF },
  { off := 0x10, acc := .ro, mask := 0xFFFFFFFF },
  { off := 0x14, acc := .w1p, mask := 0x1 },
  { off := 0x18, acc := .ro, mask := 0xFFFFFFFF },
  { off := 0x1C, acc := .ro, mask := 0xFFFFFFFF },
  { off := 0x20, acc := .ro, mask := 0xFFFFFFFF },
  { off := 0x24, acc := .rw, mask := 0x3FF },
  { off := 0x28, acc := .rw, mask := 0x7FFFF },
  { off := 0x2C, acc := .ro, mask := 0xFFFFFFFF },
  { off := 0x30, acc := .ro, mask := 0xFFFFFFFF },
  { off := 0x34, acc := .ro, mask := 0xFFFFFFFF },
  { off := 0x40, s1 := 0x4, n1 := 8, acc := .ro, mask := 0xFFFFFFFF },
  { off := 0x60, s1 := 0x4, n1 := 8, acc := .ro, mask := 0xFFFFFFFF }]

/-- TIME (Table 2-6). -/
def timeRows : List Row := [
  { off := 0x0, acc := .rw, mask := 0x307, lmask := 0x300, bad := fun w => w.field 8 2 == 3 },
  { off := 0x4, acc := .ro, mask := 0xFFFFFFFF },
  { off := 0x8, acc := .sqc, mask := 0xFFFF00FC },
  { off := 0xC, acc := .ro, mask := 0xFFFFFFFF },
  { off := 0x10, s1 := 0x4, n1 := 5, acc := .ro, mask := 0xFFFFFFFF },
  { off := 0x24, acc := .rw, mask := 0xFFFFFFFF },
  { off := 0x28, acc := .rw, mask := 0xFFFF },
  { off := 0x2C, acc := .rw, mask := 0xFFFFFFFF, bad := fun w => 999999999 < w.toNat },
  { off := 0x30, acc := .rw, mask := 0xFFFFFFFF },
  { off := 0x34, acc := .rw, mask := 0xFFFFFFFF },
  { off := 0x38, acc := .rw, mask := 0xFF },
  { off := 0x3C, acc := .wo, mask := 0xFFFFFFFF },
  { off := 0x40, acc := .rw, mask := 0xFFFF03FF, lmask := 0xFFFF03FF, rst := fun _ => 0x3C0064, bad := fun w => w.field 16 16 == 0 || 3600 < w.field 16 16 || w.field 0 10 == 0 || 1000 < w.field 0 10 },
  { off := 0x44, acc := .rw, mask := 0x1FF0033, lmask := 0x1FF0033, rst := fun _ => 0x640001, bad := fun w => w.field 16 9 == 0 || 500 < w.field 16 9 || w.field 0 2 == 3 },
  { off := 0x48, acc := .ro, mask := 0xFFFFFFFF },
  { off := 0x4C, acc := .rw, mask := 0xFFFF, rst := fun _ => 0x25 },
  { off := 0x50, acc := .rw, mask := 0xFFFFFFFF, lmask := 0xFFFFFFFF, rst := fun _ => 0xF8F8F800, bad := fun w => 127 < w.field 0 8 },
  { off := 0x80, s1 := 0x10, n1 := 4, acc := .rw, mask := 0xFF00FF0, lmask := 0xFF00FF0, bad := fun w => (0 < w.field 24 4 && w.field 24 4 < 9) || (0 < w.field 20 4 && w.field 20 4 < 9) || w.field 7 2 == 3 || 3 < w.field 4 3 || (w.field 4 3 == 1 && w.field 7 2 != 0) },
  { off := 0x84, s1 := 0x10, n1 := 4, acc := .rw, mask := 0xFFFFFFFF, lmask := 0xFFFFFFFF },
  { off := 0x88, s1 := 0x10, n1 := 4, acc := .ro, mask := 0xFFFFFFFF, rst := fun _ => 0x3 },
  { off := 0x8C, s1 := 0x10, n1 := 4, acc := .ro, mask := 0xFFFFFFFF }]

/-- SAFE (Table 14-8). -/
def safeRows : List Row := [
  { off := 0x0, acc := .ro, mask := 0xFFFFFFFF },
  { off := 0x4, acc := .sqc, mask := 0xFFFF01FF },
  { off := 0x8, acc := .ro, mask := 0xFFFFFFFF, rst := fun _ => 0x800 },
  { off := 0xC, acc := .rw, mask := 0x1 },
  { off := 0x10, acc := .rw, mask := 0x8000FFFF, lmask := 0x8000FFFF, rst := fun _ => 0x2710, bad := fun w => w.field 0 16 == 0 },
  { off := 0x14, s1 := 0x4, n1 := 5, acc := .ro, mask := 0xFFFFFFFF },
  { off := 0x100, s1 := 0x4, n1 := 16, acc := .ro, mask := 0xFFFFFFFF },
  { off := 0x200, s1 := 0x4, n1 := 32, acc := .ro, mask := 0xFFFFFFFF },
  { off := 0x400, s1 := 0x4, n1 := 256, acc := .ro, mask := 0xFFFFFFFF }]

/-- CNT (Table 16-11). -/
def cntRows : List Row := [
  { off := 0x0, acc := .ro, mask := 0xFFFFFFFF },
  { off := 0x4, acc := .sqc, mask := 0xFFFF0003 },
  { off := 0x8, acc := .w1p, mask := 0x1F },
  { off := 0xC, acc := .rw, mask := 0xFFFFFFFF },
  { off := 0x10, acc := .ro, mask := 0xFFFFFFFF },
  { off := 0x14, acc := .ro, mask := 0xFFFFFFFF },
  { off := 0x18, acc := .rw, mask := 0xFFFF, rst := fun _ => 0xFFFF },
  { off := 0x1C, acc := .rw, mask := 0x7 },
  { off := 0x1000, s1 := 0x4, n1 := 1024, acc := .ro, mask := 0xFFFFFFFF },
  { off := 0x4000, s1 := 0x4, n1 := 512, acc := .ro, mask := 0xFFFFFFFF },
  { off := 0x5000, s1 := 0x8, n1 := 256, acc := .rw, mask := 0xFFFFFFFF },
  { off := 0x5004, s1 := 0x8, n1 := 256, acc := .rw, mask := 0xB000003F, bad := fun w => w.field 28 2 == 3 || 38 < w.field 0 6 },
  { off := 0x8000, s1 := 0x4, n1 := 2048, acc := .ro, mask := 0xFFFFFFFF }]

/-- SEC (Table 17-11). -/
def secRows : List Row := [
  { off := 0x0, acc := .ro, mask := 0xFFFFFFFF, rst := fun _ => 0x4 },
  { off := 0x4, acc := .sqc, mask := 0xFFFF01FF },
  { off := 0x8, acc := .w1p, mask := 0xF },
  { off := 0xC, acc := .rw, mask := 0x1F },
  { off := 0x10, acc := .ro, mask := 0xFFFFFFFF },
  { off := 0x14, acc := .ro, mask := 0xFFFFFFFF },
  { off := 0x18, acc := .rw, mask := 0xFFFFFFE0 },
  { off := 0x1C, acc := .rw, mask := 0xF },
  { off := 0x20, acc := .ro, mask := 0xFFFFFFFF },
  { off := 0x24, acc := .ro, mask := 0xFFFFFFFF },
  { off := 0x28, acc := .ro, mask := 0xFFFFFFFF },
  { off := 0x2C, acc := .ro, mask := 0xFFFFFFFF },
  { off := 0x30, acc := .ro, mask := 0xFFFFFFFF },
  { off := 0x34, acc := .ro, mask := 0xFFFFFFFF },
  { off := 0x38, acc := .ro, mask := 0xFFFFFFFF },
  { off := 0x40, acc := .ro, mask := 0xFFFFFFFF },
  { off := 0x44, acc := .ro, mask := 0xFFFFFFFF },
  { off := 0x48, acc := .ro, mask := 0xFFFFFFFF, rst := fun _ => 0x680 },
  { off := 0x4C, acc := .ro, mask := 0xFFFFFFFF },
  { off := 0x50, acc := .ro, mask := 0xFFFFFFFF },
  { off := 0x80, s1 := 0x4, n1 := 8, acc := .rw, mask := 0xFFFFFFFF },
  { off := 0x1000, s1 := 0x4, n1 := 1333, acc := .ro, mask := 0xFFFFFFFF },
  { off := 0x3000, s1 := 0x4, n1 := 1024, acc := .ro, mask := 0xFFFFFFFF }]

/-- FPL and CCHK (Tables 13-8, 14-9). -/
def fplRows : List Row := [
  { off := 0x0, acc := .w1p, mask := 0xF },
  { off := 0x4, acc := .ro, mask := 0xFFFFFFFF, rst := fun _ => 0x10 },
  { off := 0x8, acc := .sqc, mask := 0xFFFF00FF },
  { off := 0xC, acc := .rw, mask := 0x73, bad := fun w => 1 < w.field 0 2 },
  { off := 0x10, acc := .rw, mask := 0xFFFFF000 },
  { off := 0x14, acc := .rw, mask := 0xF },
  { off := 0x18, acc := .rw, mask := 0x3FFFFFFF, bad := fun w => w.toNat < 64 || 536870912 < w.toNat },
  { off := 0x1C, acc := .ro, mask := 0xFFFFFFFF },
  { off := 0x20, acc := .ro, mask := 0xFFFFFFFF },
  { off := 0x24, acc := .ro, mask := 0xFFFFFFFF },
  { off := 0x28, acc := .ro, mask := 0xFFFFFFFF },
  { off := 0x2C, acc := .ro, mask := 0xFFFFFFFF },
  { off := 0x30, acc := .ro, mask := 0xFFFFFFFF },
  { off := 0x34, acc := .ro, mask := 0xFFFFFFFF },
  { off := 0x38, acc := .rw, mask := 0xF, lmask := 0xF },
  { off := 0x100, acc := .rw, mask := 0x1FF01, rst := fun _ => 0xFF00 },
  { off := 0x104, acc := .ro, mask := 0xFFFFFFFF },
  { off := 0x108, acc := .ro, mask := 0xFFFFFFFF },
  { off := 0x10C, acc := .rw, mask := 0x8300FFFF },
  { off := 0x110, acc := .rw, mask := 0xFFFFFFFF },
  { off := 0x120, s1 := 0x4, n1 := 8, acc := .rw, mask := 0x7FFF0000, rst := fun _ => 0x45DC0000, bad := fun w => w.field 29 2 == 3 || w.field 16 13 < 80 || 4500 < w.field 16 13 },
  { off := 0x140, acc := .rw, mask := 0xFFFF, rst := fun _ => 0x4347 },
  { off := 0x144, acc := .rw, mask := 0xF77F00FF },
  { off := 0x148, acc := .rw, mask := 0xFFFFFFFF },
  { off := 0x8000, acc := .w1p, mask := 0x1 },
  { off := 0x8004, acc := .ro, mask := 0xFFFFFFFF },
  { off := 0x8008, acc := .ro, mask := 0xFFFFFFFF },
  { off := 0x800C, acc := .rw, mask := 0xFFFFFFFF },
  { off := 0x8010, s1 := 0x4, n1 := 5, acc := .ro, mask := 0xFFFFFFFF }]

/-- DBG (Table 16-12). -/
def dbgRows : List Row := [
  { off := 0x0, acc := .ro, mask := 0xFFFFFFFF },
  { off := 0x4, acc := .sqc, mask := 0xFFFF001F },
  { off := 0x8, acc := .rw, mask := 0xC00003FF, rst := fun _ => 0x64, bad := fun w => w.field 0 10 == 0 || 1000 < w.field 0 10 },
  { off := 0xC, acc := .rw, mask := 0xBF },
  { off := 0x10, acc := .rw, mask := 0xFFFFFFFF },
  { off := 0x14, acc := .rw, mask := 0xFF },
  { off := 0x20, s1 := 0x4, n1 := 8, acc := .rw, mask := 0xFFFFFFFF },
  { off := 0x40, acc := .rw, mask := 0x1F, rst := fun _ => 0x8, bad := fun w => w.field 0 5 == 0 || 16 < w.field 0 5 },
  { off := 0x44, acc := .ro, mask := 0xFFFFFFFF },
  { off := 0x48, acc := .ro, mask := 0xFFFFFFFF },
  { off := 0x4C, acc := .rw, mask := 0x7FFFFFE0, rst := fun _ => 0x40000 },
  { off := 0x50, acc := .ro, mask := 0xFFFFFFFF },
  { off := 0x54, acc := .rw, mask := 0xFFE00000, lmask := 0xFFE00000 },
  { off := 0x58, acc := .rw, mask := 0xF, lmask := 0xF },
  { off := 0x5C, acc := .rw, mask := 0x7FF, lmask := 0x7FF, rst := fun _ => 0x8, bad := fun w => w.field 0 11 < 8 || 1024 < w.field 0 11 },
  { off := 0x60, acc := .rw, mask := 0x3 },
  { off := 0x70, acc := .w1p, mask := 0x7 },
  { off := 0x74, acc := .rw, mask := 0xE0000000 },
  { off := 0x78, acc := .rw, mask := 0xFFFF, rst := fun _ => 0x3E8, bad := fun w => w.field 0 16 == 0 },
  { off := 0x7C, acc := .rw, mask := 0xFFFF, rst := fun _ => 0x3E8, bad := fun w => w.field 0 16 == 0 },
  { off := 0x80, acc := .ro, mask := 0xFFFFFFFF },
  { off := 0x84, acc := .ro, mask := 0xFFFFFFFF },
  { off := 0x88, acc := .ro, mask := 0xFFFFFFFF },
  { off := 0x90, acc := .wo, mask := 0x3F, bad := fun w => 39 < w.field 0 6 },
  { off := 0x400, s1 := 0x10, n1 := 64, acc := .rw, mask := 0xE0000000 },
  { off := 0x404, s1 := 0x10, n1 := 64, acc := .rw, mask := 0xFFFFFFFF },
  { off := 0x408, s1 := 0x10, n1 := 64, acc := .rw, mask := 0xFFFFFFFF },
  { off := 0x40C, s1 := 0x10, n1 := 64, acc := .rw, mask := 0xFFFFFFFF, rst := fun _ => 0x3F800000, bad := fun w => w.bit 31 || w.toNat == 0 || 0x7F800000 < w.toNat }]

/-- CQ (Table 12-7). -/
def cqRows : List Row := [
  { off := 0x0, s1 := 0x100, n1 := 256, acc := .rw, mask := 0xC0000000 },
  { off := 0x4, s1 := 0x100, n1 := 256, acc := .rw, mask := 0xBFFBFB1F, lmask := 0xBFFBFB1F, rst := fun _ => 0x4, bad := fun w => 39 < w.field 24 6 || 1 < w.field 8 2 || w.field 0 5 < 4 || 16 < w.field 0 5 },
  { off := 0x8, s1 := 0x100, n1 := 256, acc := .rw, mask := 0xFFFFFFC0, lmask := 0xFFFFFFC0 },
  { off := 0xC, s1 := 0x100, n1 := 256, acc := .rw, mask := 0xF, lmask := 0xF },
  { off := 0x10, s1 := 0x100, n1 := 256, acc := .rw, mask := 0xFFFFFFFF },
  { off := 0x14, s1 := 0x100, n1 := 256, acc := .ro, mask := 0xFFFFFFFF },
  { off := 0x18, s1 := 0x100, n1 := 256, acc := .ro, mask := 0xFFFFFFFF },
  { off := 0x1C, s1 := 0x100, n1 := 256, acc := .ro, mask := 0xFFFFFFFF },
  { off := 0x20, s1 := 0x100, n1 := 256, acc := .sqc, mask := 0xFFFF000F },
  { off := 0x24, s1 := 0x100, n1 := 256, acc := .ro, mask := 0xFFFFFFFF },
  { off := 0x28, s1 := 0x100, n1 := 256, acc := .ro, mask := 0xFFFFFFFF },
  { off := 0x2C, s1 := 0x100, n1 := 256, acc := .w1p, mask := 0xF },
  { off := 0x30, s1 := 0x100, n1 := 256, acc := .ro, mask := 0xFFFFFFFF },
  { off := 0x34, s1 := 0x100, n1 := 256, acc := .ro, mask := 0xFFFFFFFF },
  { off := 0x10000, acc := .ro, mask := 0xFFFFFFFF },
  { off := 0x10004, acc := .wo, mask := 0xFF, bad := fun w => w.field 0 8 < 16 },
  { off := 0x10400, s1 := 0x4, n1 := 256, acc := .ro, mask := 0xFFFFFFFF },
  { off := 0x10800, s1 := 0x4, n1 := 128, acc := .ro, mask := 0xFFFFFFFF }]

/-- SNS (Table 3-12). -/
def snsRows : List Row := [
  { off := 0x0, acc := .ro, mask := 0xFFFFFFFF },
  { off := 0x4, acc := .sqc, mask := 0xFFFF000F },
  { off := 0x40, s1 := 0x38, n1 := 1, s2 := 0x4, n2 := 14, acc := .ro, mask := 0xFFFFFFFF, rst := fun q => if q < 13 then 16 else 48 },
  { off := 0x1000, s1 := 0x100, n1 := 8, acc := .rw, mask := 0xFFFFFF01, lmask := 0xFFFFFF01, rst := fun _ => 0x500100, bad := fun w => w.field 29 2 == 3 || w.field 16 13 < 80 || 4500 < w.field 16 13 || w.field 8 8 == 0 },
  { off := 0x1004, s1 := 0x100, n1 := 8, acc := .ro, mask := 0xFFFFFFFF },
  { off := 0x1008, s1 := 0x100, n1 := 8, acc := .ro, mask := 0xFFFFFFFF },
  { off := 0x1040, s1 := 0x100, n1 := 8, acc := .rw, mask := 0xEF00FFFF, lmask := 0xEF00FFFF, rst := fun _ => 0x1, bad := fun w => w.field 0 16 == 0 },
  { off := 0x1044, s1 := 0x100, n1 := 8, acc := .rw, mask := 0xFFFFFFFF, lmask := 0xFFFFFFFF, rst := fun _ => 0xF4240, bad := fun w => w.toNat < 1000000 || 1000000000 < w.toNat },
  { off := 0x1048, s1 := 0x100, n1 := 8, acc := .rw, mask := 0xFFFFFFFF },
  { off := 0x104C, s1 := 0x100, n1 := 8, acc := .rw, mask := 0xFFFFFFFF, lmask := 0xFFFFFFFF },
  { off := 0x1050, s1 := 0x100, n1 := 8, acc := .ro, mask := 0xFFFFFFFF },
  { off := 0x1054, s1 := 0x100, n1 := 8, acc := .ro, mask := 0xFFFFFFFF },
  { off := 0x1080, s1 := 0x100, n1 := 8, acc := .rw, mask := 0xC000FFFF, lmask := 0xC000FFFF, rst := fun _ => 0x64, bad := fun w => w.field 0 16 < 100 || 12500 < w.field 0 16 },
  { off := 0x1084, s1 := 0x100, n1 := 8, acc := .wo, mask := 0xFFFF3F3F, bad := fun w => w.field 30 2 == 3 || 32 < w.field 16 6 || 32 < w.field 8 6 },
  { off := 0x1088, s1 := 0x100, n1 := 8, acc := .rw, mask := 0xFFFFFFFF },
  { off := 0x108C, s1 := 0x100, n1 := 8, acc := .rw, mask := 0xFFFFFFFF },
  { off := 0x1090, s1 := 0x100, n1 := 8, acc := .ro, mask := 0xFFFFFFFF },
  { off := 0x2000, s1 := 0x100, n1 := 4, acc := .rw, mask := 0xF0001FFF, lmask := 0xF0001FFF },
  { off := 0x2004, s1 := 0x100, n1 := 4, acc := .ro, mask := 0xFFFFFFFF },
  { off := 0x2008, s1 := 0x100, n1 := 4, acc := .ro, mask := 0xFFFFFFFF },
  { off := 0x200C, s1 := 0x100, n1 := 4, acc := .ro, mask := 0xFFFFFFFF },
  { off := 0x3000, s1 := 0x40, n1 := 4, acc := .rw, mask := 0xF77F00FF, lmask := 0xF77F00FF, rst := fun _ => 0x10001, bad := fun w => 4 < w.field 24 3 || w.field 16 7 == 0 || 64 < w.field 16 7 || w.field 0 8 == 0 },
  { off := 0x3004, s1 := 0x40, n1 := 4, acc := .rw, mask := 0xFFFFFFFF, lmask := 0xFFFFFFFF },
  { off := 0x3008, s1 := 0x40, n1 := 4, acc := .ro, mask := 0xFFFFFFFF },
  { off := 0x3200, s1 := 0x40, n1 := 2, acc := .rw, mask := 0xF0000000, lmask := 0xF0000000 },
  { off := 0x3204, s1 := 0x40, n1 := 2, acc := .rw, mask := 0xFFFFFF7F, lmask := 0xFFFFFF7F },
  { off := 0x3208, s1 := 0x40, n1 := 2, acc := .rw, mask := 0xFFFFFF1F, lmask := 0xFFFFFF1F, rst := fun _ => 0x84101, bad := fun w => w.field 19 5 == 0 || w.field 14 5 == 0 || 16 < w.field 14 5 || w.field 8 6 == 0 || 32 < w.field 8 6 || w.field 0 5 == 0 || 16 < w.field 0 5 },
  { off := 0x320C, s1 := 0x40, n1 := 2, acc := .ro, mask := 0xFFFFFFFF },
  { off := 0x3400, s1 := 0x20, n1 := 8, acc := .rw, mask := 0xE0FFFFFF, lmask := 0xE0FFFFFF, rst := fun _ => 0x64, bad := fun w => w.field 0 16 < 100 || 10000 < w.field 0 16 },
  { off := 0x3404, s1 := 0x20, n1 := 8, acc := .ro, mask := 0xFFFFFFFF },
  { off := 0x3408, s1 := 0x20, n1 := 8, acc := .ro, mask := 0xFFFFFFFF },
  { off := 0x3600, acc := .rw, mask := 0xFFFF, lmask := 0xFFFF },
  { off := 0x3604, acc := .ro, mask := 0xFFFFFFFF },
  { off := 0x3608, acc := .rw, mask := 0xFFFF },
  { off := 0x360C, acc := .rw, mask := 0xFFFFFFFF, lmask := 0xFFFFFFFF },
  { off := 0x3610, acc := .rw, mask := 0xF1 },
  { off := 0x3614, acc := .rw, mask := 0xFFFFFFFF },
  { off := 0x3618, acc := .w1p, mask := 0x1 },
  { off := 0x3700, acc := .ro, mask := 0xFFFFFFFF }]

/-- STR (Table 3-13). -/
def strRows : List Row := [
  { off := 0x0, s1 := 0x100, n1 := 256, acc := .rw, mask := 0xE000FFFF, lmask := 0x6000FFFF, bad := fun w => w.field 29 2 == 3 },
  { off := 0x4, s1 := 0x100, n1 := 256, acc := .rw, mask := 0xFFFFFFE0, lmask := 0xFFFFFFE0, bad := fun w => srcBad w },
  { off := 0x8, s1 := 0x100, n1 := 256, acc := .rw, mask := 0xFFFFFFFF, lmask := 0xFFFFFFFF },
  { off := 0xC, s1 := 0x100, n1 := 256, acc := .rw, mask := 0x3FFFFFFF, lmask := 0x3FFFFFFF },
  { off := 0x10, s1 := 0x100, n1 := 256, acc := .rw, mask := 0xFFFF0000, lmask := 0xFFFF0000 },
  { off := 0x14, s1 := 0x100, n1 := 256, acc := .rw, mask := 0xF, lmask := 0xF },
  { off := 0x18, s1 := 0x100, n1 := 256, acc := .rw, mask := 0xFFFF0000, lmask := 0xFFFF0000 },
  { off := 0x1C, s1 := 0x100, n1 := 256, acc := .ro, mask := 0xFFFFFFFF },
  { off := 0x20, s1 := 0x100, n1 := 256, acc := .sqc, mask := 0xFFFF003F },
  { off := 0x24, s1 := 0x100, n1 := 256, s2 := 0x4, n2 := 11, acc := .ro, mask := 0xFFFFFFFF },
  { off := 0x50, s1 := 0x100, n1 := 256, acc := .rw, mask := 0xFFF00FFF, lmask := 0xFFF00FFF },
  { off := 0x10000, s1 := 0x4, n1 := 8192, acc := .rw, mask := 0xFFFFFFFF, lmask := 0xFFFFFFFF },
  { off := 0x18000, acc := .ro, mask := 0xFFFFFFFF }]

/-- FUS (Table 5-4). -/
def fusRows : List Row := [
  { off := 0x0, s1 := 0x400, n1 := 16, acc := .rw, mask := 0xFFC00000, lmask := 0x7FC00000, bad := fun w => w.field 28 2 == 3 },
  { off := 0x4, s1 := 0x400, n1 := 16, acc := .ro, mask := 0xFFFFFFFF },
  { off := 0x8, s1 := 0x400, n1 := 16, acc := .sqc, mask := 0xFFFF001F },
  { off := 0xC, s1 := 0x400, n1 := 16, acc := .rw, mask := 0xFFFFFFFF, lmask := 0xFFFFFFFF, rst := fun _ => 0xF4240, bad := fun w => w.toNat < 1000000 || 1000000000 < w.toNat },
  { off := 0x10, s1 := 0x400, n1 := 16, acc := .rw, mask := 0xFFFFFFFF },
  { off := 0x14, s1 := 0x400, n1 := 16, acc := .rw, mask := 0x1FFFFF, lmask := 0x1FFFFF, bad := fun w => 2000000 < w.field 0 21 },
  { off := 0x18, s1 := 0x400, n1 := 16, acc := .rw, mask := 0x1FFFFF, lmask := 0x1FFFFF, rst := fun _ => 0x3E8, bad := fun w => w.field 0 21 < 1000 || 2000000 < w.field 0 21 },
  { off := 0x1C, s1 := 0x400, n1 := 16, acc := .wo, mask := 0xFFFFFFFF },
  { off := 0x20, s1 := 0x400, n1 := 16, acc := .rw, mask := 0xFFFFF, lmask := 0xFFFFF, rst := fun _ => 0x64, bad := fun w => w.field 0 20 < 100 || 1000000 < w.field 0 20 },
  { off := 0x24, s1 := 0x400, n1 := 16, s2 := 0x4, n2 := 9, acc := .ro, mask := 0xFFFFFFFF },
  { off := 0x80, s1 := 0x400, n1 := 16, s2 := 0x4, n2 := 32, acc := .rw, mask := 0xFFFFFFFF, lmask := 0xFFFFFFFF, bad := fun w => 2000000 < w.field 8 23 },
  { off := 0x100, s1 := 0x400, n1 := 16, s2 := 0x4, n2 := 64, acc := .ro, mask := 0xFFFFFFFF },
  { off := 0x8000, acc := .ro, mask := 0xFFFFFFFF }]

/-- CAL (Table 6-4). -/
def calRows : List Row := [
  { off := 0x0, s1 := 0x100, n1 := 256, s2 := 0x4, n2 := 64, acc := .ro, mask := 0xFFFFFFFF, rst := fun j => defaultEntryWord j },
  { off := 0x10000, s1 := 0x100, n1 := 256, s2 := 0x4, n2 := 64, acc := .rw, mask := 0xFFFFFFFF, rst := fun j => defaultEntryWord j },
  { off := 0x20000, acc := .w1p, mask := 0x3 },
  { off := 0x20004, acc := .ro, mask := 0xFFFFFFFF },
  { off := 0x20008, acc := .sqc, mask := 0xFFFF001E },
  { off := 0x20010, s1 := 0x4, n1 := 8, acc := .rw, mask := 0xFFFFFFFF },
  { off := 0x20030, acc := .ro, mask := 0xFFFFFFFF },
  { off := 0x20034, acc := .ro, mask := 0xFFFFFFFF },
  { off := 0x20038, acc := .ro, mask := 0xFFFFFFFF },
  { off := 0x20100, acc := .rw, mask := 0xC0FF1FFF, lmask := 0xC0FF1FFF, bad := fun w => 5000 < w.field 0 13 },
  { off := 0x20104, acc := .rw, mask := 0xFFFF, lmask := 0xFFFF },
  { off := 0x20108, acc := .rw, mask := 0xFFFC0000, lmask := 0xFFFC0000 },
  { off := 0x2010C, acc := .rw, mask := 0xF, lmask := 0xF },
  { off := 0x20120, s1 := 0x4, n1 := 8, acc := .rw, mask := 0x800000FF, lmask := 0x800000FF },
  { off := 0x20140, s1 := 0x4, n1 := 4, acc := .ro, mask := 0xFFFFFFFF },
  { off := 0x20150, s1 := 0x4, n1 := 12, acc := .ro, mask := 0xFFFFFFFF }]

/-- PNT (Table 7-9). -/
def pntRows : List Row := [
  { off := 0x0, acc := .ro, mask := 0xFFFFFFFF },
  { off := 0x4, acc := .sqc, mask := 0xFFFF000F },
  { off := 0x1000, s1 := 0x20, n1 := 32, acc := .rw, mask := 0xFFE00000, lmask := 0xFFE00000 },
  { off := 0x1004, s1 := 0x20, n1 := 32, acc := .rw, mask := 0xF, lmask := 0xF },
  { off := 0x1008, s1 := 0x20, n1 := 32, acc := .rw, mask := 0x877F0000, lmask := 0x877F0000 },
  { off := 0x100C, s1 := 0x20, n1 := 32, acc := .ro, mask := 0xFFFFFFFF },
  { off := 0x1010, s1 := 0x20, n1 := 32, acc := .ro, mask := 0xFFFFFFFF },
  { off := 0x1014, s1 := 0x20, n1 := 32, acc := .ro, mask := 0xFFFFFFFF },
  { off := 0x2000, s1 := 0x40, n1 := 32, acc := .rw, mask := 0xFC000000, lmask := 0xFC000000 },
  { off := 0x2004, s1 := 0x40, n1 := 32, acc := .rw, mask := 0xF, lmask := 0xF },
  { off := 0x2008, s1 := 0x40, n1 := 32, acc := .rw, mask := 0xC777FFFF, lmask := 0xC777FFFF, rst := fun _ => 0xA00, bad := fun w => w.field 8 11 < 10 || 2000 < w.field 8 11 || (if w.bit 30 then w.field 0 8 == 0 || 254 < w.field 0 8 else w.field 0 8 != 0) },
  { off := 0x200C, s1 := 0x40, n1 := 32, s2 := 0x4, n2 := 7, acc := .ro, mask := 0xFFFFFFFF },
  { off := 0x3000, s1 := 0x100, n1 := 16, acc := .rw, mask := 0x3FFF, lmask := 0x3FFF, rst := fun _ => 0x3E8, bad := fun w => 10000 < w.field 0 14 },
  { off := 0x3010, s1 := 0x100, n1 := 16, s2 := 0x4, n2 := 32, acc := .ro, mask := 0xFFFFFFFF },
  { off := 0x4000, s1 := 0x20, n1 := 8, acc := .ro, mask := 0xFFFFFFFF },
  { off := 0x4004, s1 := 0x20, n1 := 8, acc := .ro, mask := 0xFFFFFFFF }]

/-- EGR with the host queue windows (Tables 11-12, 4-2). -/
def egrRows : List Row := [
  { off := 0x0, acc := .ro, mask := 0xFFFFFFFF },
  { off := 0x4, acc := .sqc, mask := 0xFFFF001F },
  { off := 0x8, acc := .ro, mask := 0xFFFFFFFF },
  { off := 0xC, acc := .ro, mask := 0xFFFFFFFF },
  { off := 0x10, acc := .ro, mask := 0xFFFFFFFF },
  { off := 0x14, acc := .ro, mask := 0xFFFFFFFF },
  { off := 0x18, acc := .ro, mask := 0xFFFFFFFF },
  { off := 0x100, s1 := 0x20, n1 := 8, acc := .rw, mask := 0xE3003FFF, lmask := 0xE3003FFF, rst := fun _ => 0x240, bad := fun w => w.field 0 14 < 576 || 9000 < w.field 0 14 },
  { off := 0x104, s1 := 0x20, n1 := 8, acc := .rw, mask := 0xFFFFFFFF, lmask := 0xFFFFFFFF },
  { off := 0x108, s1 := 0x20, n1 := 8, s2 := 0x4, n2 := 4, acc := .rw, mask := 0xFFFFFFFF, lmask := 0xFFFFFFFF },
  { off := 0x200, s1 := 0x10, n1 := 16, acc := .rw, mask := 0xFFFFFF07, lmask := 0xFFFFFF07 },
  { off := 0x204, s1 := 0x10, n1 := 16, acc := .rw, mask := 0xF0F0F0F, lmask := 0xF0F0F0F },
  { off := 0x400, s1 := 0x40, n1 := 16, acc := .rw, mask := 0xBFFFDF00, lmask := 0xBFFFDF00, rst := fun _ => 0x2108100, bad := fun w => w.field 25 5 == 0 || 16 < w.field 25 5 || w.field 20 5 == 0 || 16 < w.field 20 5 || w.field 14 6 < 2 || 50 < w.field 14 6 || w.field 8 5 == 0 || 16 < w.field 8 5 },
  { off := 0x404, s1 := 0x40, n1 := 16, acc := .rw, mask := 0xFFFFFFFF, lmask := 0xFFFFFFFF },
  { off := 0x408, s1 := 0x40, n1 := 16, acc := .rw, mask := 0xFFFFFFFF, lmask := 0xFFFFFFFF, rst := fun _ => 0x1, bad := fun w => w.field 0 16 == 0 || 500 < w.field 0 16 },
  { off := 0x40C, s1 := 0x40, n1 := 16, acc := .rw, mask := 0xFFFFFFFF, lmask := 0xFFFFFFFF, rst := fun _ => 0x10000, bad := fun w => w.field 16 16 == 0 || 32767 < w.field 16 16 || 32767 < w.field 0 16 },
  { off := 0x410, s1 := 0x40, n1 := 16, acc := .rw, mask := 0xFFFFFFFF, lmask := 0xFFFFFFFF, rst := fun _ => 0x1, bad := fun w => w.field 0 16 == 0 || 32767 < w.field 0 16 },
  { off := 0x418, s1 := 0x40, n1 := 16, acc := .rw, mask := 0xFFE00000, lmask := 0xFFE00000 },
  { off := 0x41C, s1 := 0x40, n1 := 16, acc := .rw, mask := 0xF, lmask := 0xF },
  { off := 0x420, s1 := 0x40, n1 := 16, s2 := 0x4, n2 := 8, acc := .rw, mask := 0xFFFFFFFF, lmask := 0xFFFFFFFF },
  { off := 0x1000, acc := .rw, mask := 0xFFF80000, lmask := 0xFFF80000 },
  { off := 0x1004, acc := .rw, mask := 0xF, lmask := 0xF },
  { off := 0x1008, acc := .rw, mask := 0x9FFFFFFF, lmask := 0x9FFFFFFF, rst := fun _ => 0x10101, bad := fun w => w.field 16 8 == 0 || w.field 8 8 == 0 || w.field 0 8 == 0 },
  { off := 0x100C, acc := .rw, mask := 0xFFFFFFFF, lmask := 0xFFFFFFFF, rst := fun _ => 0x10000, bad := fun w => w.field 16 16 == 0 || 200 < w.field 16 16 },
  { off := 0x1010, acc := .ro, mask := 0xFFFFFFFF },
  { off := 0x1014, acc := .ro, mask := 0xFFFFFFFF, rst := fun _ => 0x1 },
  { off := 0x1018, acc := .ro, mask := 0xFFFFFFFF },
  { off := 0x101C, acc := .ro, mask := 0xFFFFFFFF },
  { off := 0x1100, s1 := 0x4, n1 := 16, acc := .rw, mask := 0xFFF1FFF, lmask := 0xFFF1FFF, bad := fun w => 4096 < w.field 0 13 || 4096 < w.field 16 12 + w.field 0 13 },
  { off := 0x2000, acc := .ro, mask := 0xFFFFFFFF, rst := fun _ => 0x5 },
  { off := 0x2004, acc := .sqc, mask := 0xFFFF000F },
  { off := 0x2008, acc := .w1p, mask := 0x1F },
  { off := 0x200C, acc := .ro, mask := 0xFFFFFFFF },
  { off := 0x2010, acc := .ro, mask := 0xFFFFFFFF },
  { off := 0x2014, acc := .ro, mask := 0xFFFFFFFF },
  { off := 0x2018, acc := .ro, mask := 0xFFFFFFFF },
  { off := 0x201C, acc := .ro, mask := 0xFFFFFFFF },
  { off := 0x2020, acc := .rw, mask := 0xF0003FFF, lmask := 0xF0003FFF, rst := fun _ => 0x10000001, bad := fun w => w.field 0 14 == 0 || 8192 < w.field 0 14 || w.field 28 2 == 0 || w.field 28 2 == 3 },
  { off := 0x2024, acc := .rw, mask := 0xFFFFFFFF, lmask := 0xFFFFFFFF },
  { off := 0x2028, acc := .ro, mask := 0xFFFFFFFF },
  { off := 0x202C, acc := .ro, mask := 0xFFFFFFFF },
  { off := 0x2030, acc := .wo, mask := 0xFFFFFFFF },
  { off := 0x2100, s1 := 0x4, n1 := 64, acc := .ro, mask := 0xFFFFFFFF },
  { off := 0x2200, acc := .ro, mask := 0xFFFFFFFF, rst := fun _ => 0x5 },
  { off := 0x2204, acc := .sqc, mask := 0xFFFF000F },
  { off := 0x2208, acc := .w1p, mask := 0x1F },
  { off := 0x220C, acc := .ro, mask := 0xFFFFFFFF },
  { off := 0x2210, acc := .ro, mask := 0xFFFFFFFF },
  { off := 0x2214, acc := .ro, mask := 0xFFFFFFFF },
  { off := 0x2218, acc := .ro, mask := 0xFFFFFFFF },
  { off := 0x221C, acc := .ro, mask := 0xFFFFFFFF },
  { off := 0x2220, acc := .rw, mask := 0xF0003FFF, lmask := 0xF0003FFF, rst := fun _ => 0x10000001, bad := fun w => w.field 0 14 == 0 || 8192 < w.field 0 14 || w.field 28 2 == 0 || w.field 28 2 == 3 },
  { off := 0x2224, acc := .rw, mask := 0xFFFFFFFF, lmask := 0xFFFFFFFF },
  { off := 0x2228, acc := .ro, mask := 0xFFFFFFFF },
  { off := 0x222C, acc := .ro, mask := 0xFFFFFFFF },
  { off := 0x2230, acc := .wo, mask := 0xFFFFFFFF },
  { off := 0x2300, s1 := 0x4, n1 := 64, acc := .ro, mask := 0xFFFFFFFF },
  { off := 0x3000, acc := .rw, mask := 0xFF03FFFF, lmask := 0xFF03FFFF }]

/-- NET (Table 11-13). -/
def netRows : List Row := [
  { off := 0x0, s1 := 0x400, n1 := 4, acc := .rw, mask := 0xE0000000, lmask := 0xE0000000 },
  { off := 0x4, s1 := 0x400, n1 := 4, acc := .rw, mask := 0xFFFFFFFF, lmask := 0xFFFFFFFF },
  { off := 0x8, s1 := 0x400, n1 := 4, acc := .rw, mask := 0xFFFF, lmask := 0xFFFF },
  { off := 0xC, s1 := 0x400, n1 := 4, acc := .rw, mask := 0xFFFFFFFF, lmask := 0xFFFFFFFF },
  { off := 0x10, s1 := 0x400, n1 := 4, s2 := 0x4, n2 := 4, acc := .rw, mask := 0xFFFFFFFF, lmask := 0xFFFFFFFF },
  { off := 0x20, s1 := 0x400, n1 := 4, acc := .ro, mask := 0xFFFFFFFF },
  { off := 0x30, s1 := 0x400, n1 := 4, acc := .rw, mask := 0xFFFFFFFF, lmask := 0xFFFFFFFF },
  { off := 0x34, s1 := 0x400, n1 := 4, acc := .rw, mask := 0xFFFFFFFF, lmask := 0xFFFFFFFF },
  { off := 0x200, s1 := 0x400, n1 := 4, s2 := 0x4, n2 := 128, acc := .rw, mask := 0xFFFFFFFF, lmask := 0xFFFFFFFF },
  { off := 0x1000, acc := .rw, mask := 0xF, lmask := 0xF },
  { off := 0x1004, acc := .ro, mask := 0xFFFFFFFF }]

/-- MEM (Table 15-8). -/
def memcRows : List Row := [
  { off := 0x0, acc := .ro, mask := 0xFFFFFFFF },
  { off := 0x4, acc := .sqc, mask := 0xFFFF0007 },
  { off := 0x8, acc := .ro, mask := 0xFFFFFFFF },
  { off := 0xC, acc := .ro, mask := 0xFFFFFFFF },
  { off := 0x10, acc := .ro, mask := 0xFFFFFFFF },
  { off := 0x14, acc := .ro, mask := 0xFFFFFFFF },
  { off := 0x18, acc := .ro, mask := 0xFFFFFFFF },
  { off := 0x1C, acc := .ro, mask := 0xFFFFFFFF },
  { off := 0x20, acc := .ro, mask := 0xFFFFFFFF }]

/-- CLU, one cluster (Table 12-9). -/
def cluRows : List Row := [
  { off := 0x40000, acc := .ro, mask := 0xFFFFFFFF },
  { off := 0x40004, acc := .sqc, mask := 0xFFFF0007 },
  { off := 0x40008, acc := .rw, mask := 0x7, bad := fun w => 4 < w.field 0 3 },
  { off := 0x40100, s1 := 0x20, n1 := 5, acc := .w1p, mask := 0x3 },
  { off := 0x40104, s1 := 0x20, n1 := 5, acc := .ro, mask := 0xFFFFFFFF },
  { off := 0x40108, s1 := 0x20, n1 := 5, acc := .ro, mask := 0xFFFFFFFF },
  { off := 0x4010C, s1 := 0x20, n1 := 5, acc := .ro, mask := 0xFFFFFFFF },
  { off := 0x40110, s1 := 0x20, n1 := 5, acc := .rw, mask := 0x3FFFC, lmask := 0x3FFFC },
  { off := 0x40200, s1 := 0x4, n1 := 64, acc := .ro, mask := 0xFFFFFFFF },
  { off := 0x40300, acc := .ro, mask := 0xFFFFFFFF, rst := fun _ => 0xF }]

/-- A block of Table 15-5. -/
inductive Block where
  | gctl | hif | time | safe | cnt | sec | fpl | dbg | cq | sns | str | fus | cal | pnt | trk | egr | net | mem
  | clu (k : Nat)
  | window
deriving DecidableEq, Repr

/-- The block of an address and the address's offset in it (Table 15-5). -/
def blockOf (a : Nat) : Option (Block × Nat) :=
  if a < 0x10000 then some (.gctl, a)
  else if a < 0x20000 then some (.hif, a - 0x10000)
  else if a < 0x30000 then some (.time, a - 0x20000)
  else if a < 0x40000 then some (.safe, a - 0x30000)
  else if a < 0x50000 then some (.cnt, a - 0x40000)
  else if a < 0x60000 then some (.sec, a - 0x50000)
  else if a < 0x70000 then some (.fpl, a - 0x60000)
  else if a < 0x80000 then some (.dbg, a - 0x70000)
  else if a < 0x100000 then some (.cq, a - 0x80000)
  else if a < 0x140000 then some (.sns, a - 0x100000)
  else if a < 0x180000 then some (.str, a - 0x140000)
  else if a < 0x1C0000 then some (.fus, a - 0x180000)
  else if a < 0x200000 then some (.cal, a - 0x1C0000)
  else if a < 0x240000 then some (.pnt, a - 0x200000)
  else if a < 0x280000 then some (.trk, a - 0x240000)
  else if a < 0x2C0000 then some (.egr, a - 0x280000)
  else if a < 0x300000 then some (.net, a - 0x2C0000)
  else if a < 0x400000 then some (.mem, a - 0x300000)
  else if a < 0x800000 then some (.clu ((a - 0x400000) / 0x80000), (a - 0x400000) % 0x80000)
  else if 0x40000000 ≤ a ∧ a < 0x80000000 then some (.window, a - 0x40000000)
  else none

/-- The register map of a block. -/
def rowsOf : Block → List Row
  | .gctl => gctlRows | .hif => hifRows | .time => timeRows | .safe => safeRows | .cnt => cntRows
  | .sec => secRows | .fpl => fplRows | .dbg => dbgRows | .cq => cqRows | .sns => snsRows
  | .str => strRows | .fus => fusRows | .cal => calRows | .pnt => pntRows | .trk => []
  | .egr => egrRows | .net => netRows | .mem => memcRows | .clu _ => cluRows | .window => []

/-- The row and second index of a register, by block offset. -/
def findRow (rows : List Row) (o : Nat) : Option (Row × Nat) :=
  rows.findSome? fun r => (r.index o).map fun ij => (r, ij.2)

/-- The register at an address: its row and second index; none where the address is reserved (R15). -/
def rowAt (a : Nat) : Option (Row × Nat) :=
  match blockOf a with
  | some (b, o) => findRow (rowsOf b) o
  | none => none

/-- The reset value of the register at an address (R18); 0 where there is none. -/
def regReset (a : Nat) : Word :=
  match rowAt a with
  | some (r, j) => r.rst j
  | none => 0

end Sys2Proof.Machine
end

