-- ==== Sys2Proof/Machine/State.lean ====
section
/-! DEFINITION. The state of the module: every register a bus address names (in `regs`), every
addressed memory (in `mem`), every piece of hidden state the chapters give it, and the queue of waiting commands.
All of it is plain data; a table lists only the keys whose value differs from the default. -/

namespace Sys2Proof.Machine

/-- The ordering numbers of Table 0-2. -/
inductive Variant where
  | m24c
  | m16c
  | m24x
deriving DecidableEq, Repr

/-! ## Time (spec/02) -/

/-- Wide time: 48-bit seconds and nanoseconds (R48). -/
structure Wide where
  sec : Nat := 0
  ns : Nat := 0
deriving DecidableEq, Repr

/-- What a transmitted PTP frame carries over UDP where a checksum stood: cleared over IPv4, corrected over IPv6 (R60). -/
inductive PtpChecksum where
  | absent
  | cleared
  | corrected
deriving DecidableEq, Repr

/-- A PTP frame transmitted (R60, R62): its MAC and kind, its transport, VLAN tag and domain, its stamp at the pins with the
egress latency added, what the MAC inserted in flight or a two-step message carries (an origin or receipt time, a
correction in ns), and, of Announce, priority1, priority2, clockClass and the UTC offset. -/
structure PtpSent where
  mac : Nat
  kind : PtpKind
  transport : PtpTransport
  vlan : Option (BitVec 12)
  domain : Byte
  stamp : Wide
  time : Option Wide := none
  correction : Option Nat := none
  checksum : PtpChecksum := .absent
  announced : Option (Byte × Byte × Byte × BitVec 16) := none
deriving DecidableEq, Repr

/-- The timebase beside its registers. -/
structure TimeLine where
  /-- the 64-bit nanosecond count (R45) -/
  count : BitVec 64 := 0
  /-- its fractional accumulator, in 2^-48 ns (R45) -/
  frac : BitVec 48 := 0
  /-- the rate correction in force, in 1/65,536 ppb (R55) -/
  rate : Int := 0
  /-- anchor of the epoch (R47) -/
  anchorCount : BitVec 64 := 0
  anchorWide : Wide := {}
  /-- target and time of the armed step (R53) -/
  step : Option (Wide × Word) := none
  /-- count of the last step or of step 3 of an epoch reset, after which PPS_OUT realigns (R64) -/
  ppsAfter : Option (BitVec 64) := none
  /-- PPS_OUT level and the count at its rising edge (R64) -/
  ppsOut : Bool := false
  ppsRise : BitVec 64 := 0
  /-- count of the last accepted PPS_IN edge (R65) -/
  ppsIn : Option (BitVec 64) := none
  /-- the servo holds a PPS_IN reference (R58) -/
  ppsRef : Bool := false
  /-- consecutive Sync messages with a valid path delay, by port (R61) -/
  syncs : Sparse Nat := []
  /-- the port that acquired (R58) -/
  ptpRef : Option Nat := none
  /-- consecutive Sync messages with an offset below 100 ns (R61) -/
  inLock : Nat := 0
  /-- offset last reported (R56) -/
  offset : Word := 0
  /-- the 25 MHz reference is present (R68) -/
  refOk : Bool := true
  /-- start of the present loss of the reference, and the losses that have ended: instants whose Tk lies within
  one are discarded (Table 14-3) -/
  refLostAt : BitVec 64 := 0
  losses : List (BitVec 64 × BitVec 64) := []
  /-- count of the step that ended a time-epoch reset: instants before it leave invalid, and the first at or after it
  ends hold 3 (Table 2-2 steps 4 and 6) -/
  stepAt : Option (BitVec 64) := none
  /-- stamps of the last event message received and of the last Sync and peer delay response sent, by port, with the
  PHY latencies taken into account (R60) -/
  ptpRxStamp : Sparse Wide := []
  ptpSyncStamp : Sparse Wide := []
  ptpRespStamp : Sparse Wide := []
  /-- PTP frames transmitted, in order (R60) -/
  ptpSent : List PtpSent := []
deriving DecidableEq, Repr

/-! ## Islands and sluices (spec/01) -/

/-- One clock island: the periods its sources request, in 1/256 of nominal as R321 counts them (R34), and why it
stands still (R39). -/
structure Island where
  droop : Option Nat := none
  thermal : Option Nat := none
  cap : Option Nat := none
  stopped : List StopCause := []
  /-- stretch requests recorded in telemetry and not applied (R35) -/
  refused : Nat := 0
deriving DecidableEq, Repr

/-- One sluice channel (R41, R42). -/
structure Sluice where
  credit : Nat := 4
  /-- sequence bit of the transfer before; true before the first, whose bit is 0 -/
  seqBit : Bool := true
  buffer : List (List Word) := []
  /-- the sender waits for a credit -/
  waiting : Bool := false
deriving DecidableEq, Repr

/-! ## Twin-basin queues (spec/04) -/

/-- The positions of a twin-basin queue (R99) and where its records end. -/
structure Tbq where
  f : Nat := 0
  l : Nat := 0
  rd : Nat := 0
  rl : Nat := 0
  mark : Nat := 0
  markValid : Bool := false
  flushPending : Bool := false
  /-- basin 1 is the filling basin -/
  filling : Bool := false
  /-- a record waits or was refused (Table 4-3) -/
  waiting : Bool := false
  underrun : Bool := false
  /-- the value an empty read returns (R104) -/
  lastRead : Word := 0
  /-- ends of the whole records in the filling and draining basins -/
  fillEnds : List Nat := []
  drainEnds : List Nat := []
  swaps : Word := 0
  drops : Word := 0
deriving DecidableEq, Repr

/-- Producer of a stage queue (R300). -/
inductive StageProducer where
  | queue (q : Nat)
  | group (g : Nat)
  | inject
  | messages
deriving DecidableEq, Repr

/-- A stage queue as the floorplan wires it (R300, R324): basins in HBM, or in the cluster memory of `cluster`. -/
structure StageCfg where
  producer : StageProducer
  consumer : Nat
  inCluster : Bool := false
  cluster : Nat := 0
  base : Nat := 0
  basin : Nat := 0
deriving DecidableEq, Repr

/-! ## Commands and control cores (spec/12) -/

/-- A started, uncompleted command: its number, its 64 bytes, whether it repeats one that had
completed (`quiet`) or lies in a repeated span (`redo`, R355), for a STAGE_PUT the record it will write, the extents of addressed
memory that it writes (R355), the 32-byte HBM words it adds into (R178, R248), the count at its start, and whether its own check
has stopped it, so that it never completes (R209). -/
structure Started where
  num : Word
  bytes : List Byte
  quiet : Bool := false
  redo : Bool := false
  put : List Byte := []
  wrote : List (Nat × Nat) := []
  adds : List Nat := []
  at_ : BitVec 64 := 0
  stopped : Bool := false
deriving DecidableEq, Repr

/-- A META UNIT that started: its number, group and k (R304). -/
structure UnitMark where
  num : Word
  group : Nat
  k : Word
deriving DecidableEq, Repr

/-- A command queue beside its registers (R290 to R297, R355, R412). -/
structure CmdQ where
  started : List Started := []
  /-- commands completed beyond DONE -/
  ahead : List Word := []
  /-- META UNITs started, newest first -/
  units : List UnitMark := []
  credit : Bool := false
  error : Bool := false
  /-- R296 resume: take the erring command again -/
  retake : Bool := false
  draining : Bool := false
  rehoming : Bool := false
  /-- re-execution: the next number to repeat, up to HEAD, and the commands that had completed (R355) -/
  redo : Option Word := none
  redoDone : List Word := []
  /-- step_wait has risen for this head (R412) -/
  stepWaited : Bool := false
deriving DecidableEq, Repr

/-- States of CLU_CC_STATUSc. -/
inductive CCState where
  | idle
  | running
  | wait
  | issue
  | barrier
  | halted
  | faultHold
  | stopped
deriving DecidableEq, Repr

/-- A control core (R308 to R313) with its signature checker (R352). -/
structure Core where
  regs : Sparse Word := []
  pc : BitVec 18 := 0
  state : CCState := .idle
  code : BitVec 16 := 0
  /-- halted by CLU_CC_CTRLc, not by itself (R413), with the state it had -/
  debugHalt : Option CCState := none
  stepping : Bool := false
  /-- WAIT in progress: kind, object, value, deadline, destination (R311) -/
  waitKind : BitVec 2 := 0
  waitObj : BitVec 8 := 0
  waitVal : Word := 0
  waitDeadline : Option Word := none
  waitRd : Nat := 0
  /-- ISSUE in progress: queue and address (R310) -/
  issueQ : Nat := 0
  issueAddr : Nat := 0
  /-- BARRIER in progress: number and mask (R312) -/
  barNum : Nat := 0
  barMask : Nat := 0
  /-- checker: a block is open, its CRC, the checkpoint's immediate, a checkpoint must come next, and the
  instructions since the last checkpoint -/
  sigOpen : Bool := false
  sigCrc : BitVec 16 := 0xFFFF
  sigWant : BitVec 16 := 0
  sigNeed : Bool := true
  sigCount : Nat := 0
  /-- instructions issued since the last trace record (Table 16-5) -/
  sinceTrace : Word := 0
deriving DecidableEq, Repr

/-! ## Safety (spec/14) -/

/-- A fault whose recovery has not run to its end (R355, R357, R416). -/
structure Recovery where
  det : Detection
  at_ : BitVec 64
  /-- entry of the event log it opened -/
  logIndex : Nat
  permanent : Bool
  /-- number of the free value that is its length (log entry 24) -/
  key : Nat
deriving DecidableEq, Repr

/-- A detection of a unit, for the window of R354: kind, number and the count at which it came. -/
structure PastDet where
  unit : UnitKind
  number : Nat
  at_ : BitVec 64
deriving DecidableEq, Repr

/-- Self-test of a core (R363, R364). -/
structure SelfTest where
  running : Bool := false
  done : Nat := 0
  /-- count at which the last round completed -/
  roundAt : BitVec 64 := 0
  startedAt : BitVec 64 := 0
  /-- a planned re-homing waits for the core's started commands (R364) -/
  leaving : Bool := false
  /-- its queues have moved for the rest of the round: ring bases and program entries to return to -/
  rehomed : Bool := false
  rings : List (Nat × Nat) := []
  entries : List (Nat × Nat) := []
deriving DecidableEq, Repr

/-- The safety supervisor beside its registers. -/
structure Safety where
  /-- groups released whose test jets have still to run (R362) -/
  jetDue : List Nat := []
  outValid : Bool := false
  /-- count at which OUT_VALID last fell (R348) -/
  lowAt : BitVec 64 := 0
  faultN : Bool := false
  recoveries : List Recovery := []
  /-- configuration faults that wait for a core recovery to end (R370) -/
  configWaiting : List Detection := []
  past : List PastDet := []
  hold0At : Option (BitVec 64) := none
  /-- permanently failed point units, and the islands of stopped ports (Table 14-3) -/
  pointOut : List Nat := []
  selfTest : Sparse SelfTest := []
  /-- test jets: count at which the last jet of a core started (R362) -/
  jetAt : Sparse (BitVec 64) := []
  /-- configuration check: next segment, CRCs taken at commit, CRC register of the pass so far (R367) -/
  segment : Nat := 0
  segCrc : Sparse Word := []
  passOk : Bool := true
  passCrc : Word := 0xFFFFFFFF
  commitAt : Option (BitVec 64) := none
deriving DecidableEq, Repr

/-! ## Observation (spec/16) -/

/-- What a statistics watch point holds (R410). Sums over floating-point elements are FP64 bit patterns. -/
structure WatchAcc where
  active : Bool := false
  queue : Nat := 0
  k : Word := 0xFFFFFFFF
  group : Nat := 0xFF
  fmt : Nat := 0
  commands : Word := 0
  count : Nat := 0
  minV : Word := 0
  maxV : Word := 0
  sum : BitVec 64 := 0
  sumSq : BitVec 64 := 0
  zeros : Nat := 0
  nans : Nat := 0
  infs : Nat := 0
  bins : List Nat := List.replicate 16 0
  /-- a re-executed command contributed (Table 16-10) -/
  redo : Bool := false
  /-- reconfigured while it accumulated: it waits for the next UNIT of `queue` (Table 16-10) -/
  awaits : Bool := false
deriving DecidableEq, Repr

/-- Counters, trace, watch points and the Still snapshot beside their registers. -/
structure Observe where
  /-- counters: 0 to 511 always-on, 512 to 767 buckets, 1,024 to 9,215 debug (R395 to R399) -/
  live : Sparse (BitVec 64) := []
  held : Sparse (BitVec 64) := []
  /-- an armed timed snapshot; true when it freezes (R402) -/
  armed : Option Bool := none
  /-- trace sequence number by source (R405) -/
  seqs : Sparse Byte := []
  /-- bytes in the limiter's bucket, in thousandths, and the count at which that was so (R411) -/
  bucket : Nat := 65536000
  bucketAt : BitVec 64 := 0
  /-- records dropped since the last DROP record, and the first loss (Table 16-5) -/
  lost : Word := 0
  lostAt : Word := 0
  watch : Sparse WatchAcc := []
  /-- Still snapshot: trigger waiting for hold 0 to end (R414) -/
  stillPending : Option Nat := none
  /-- count at the last kick (R414) and the count at which a queue last advanced DONE -/
  kickAt : BitVec 64 := 0
  progressAt : BitVec 64 := 0
  /-- the management core: its firmware restarting, its instruction issue held by the debug port -/
  mgmtHalted : Bool := false
  mgmtDebug : Bool := false
  /-- count at the last SYNC records of the traced control cores (R406) -/
  syncAt : BitVec 64 := 0
  /-- the debug counters of clocks (Table 16-3) have counted since reset: those of commands, and those of no command (R398) -/
  clocked : Bool := false
  clockedAll : Bool := false
  /-- the same at the last snapshot, and its number among the free values -/
  heldClocked : Bool := false
  heldClockedAll : Bool := false
  clockNo : Nat := 0
deriving DecidableEq, Repr

/-! ## Host port (spec/15) -/

/-- What the module drove in the last transaction (Table 15-1). -/
structure Answer where
  driven : Bool := false
  status : Byte := 0
  data : List Byte := []
  crc : Option (BitVec 16) := none
deriving DecidableEq, Repr

/-- A posted write (R383): one transaction's words to one block, in their order, with the opcode byte
and the index of each word in the burst; `whole` when it was written with CRC. -/
structure Posted where
  block : Block
  opcode : Byte
  whole : Bool
  words : List (Nat × Nat × Word)
  /-- HIF_WIN_BASE at its decode (R389) -/
  winBase : Nat
deriving DecidableEq, Repr

/-- The host port beside its registers. -/
structure Port where
  answer : Answer := {}
  tseq : BitVec 2 := 0
  perr : Bool := false
  posted : List Posted := []
deriving DecidableEq, Repr

/-! ## Pins and power (spec/18) -/

/-- The supply, the pins and the power control. -/
structure Pins where
  /-- input voltage in mV -/
  vin : Nat := 48000
  /-- internal power good (R444) -/
  powered : Bool := true
  /-- the hot-swap controller has disconnected (R444) -/
  disconnected : Bool := false
  /-- RESET_n and EJECT_n asserted -/
  resetLow : Bool := false
  ejectLow : Bool := false
  /-- the module is in reset (R445) -/
  inReset : Bool := false
  /-- the boot has run to its end (R446) -/
  booted : Bool := false
  /-- the hottest junction, in 1/16 °C; a monitor is out of its window: supply, junction (hold 10) -/
  junction : BitVec 16 := 0
  supplyOut : Bool := false
  junctionOut : Bool := false
  /-- the comparator has removed die power (R455) -/
  thermalOff : Bool := false
  /-- power state being entered, and a request waiting for hold 0 to end (R453) -/
  entering : Option Nat := none
  wanted : Option Nat := none
  /-- count of the last soft_reset_arm (R390) -/
  softArm : Option (BitVec 64) := none
  /-- nanoseconds for which the average has stayed 2 W below the cap (R454) -/
  belowCap : Nat := 0
  /-- what the controller measured over the last 1 ms, in mW, the newest sample first (R454) -/
  samples : List Nat := []
  /-- count at which the module left RUN, and the nanoseconds spent outside it before (R453) -/
  awayAt : Option (BitVec 64) := none
  away : BitVec 64 := 0
  /-- periods for which telemetry recorded power above the cap (R454) -/
  overCap : Nat := 0
deriving DecidableEq, Repr

/-! ## Floorplans (spec/13) -/

/-- A declared HBM region (R323). -/
structure Region where
  base : Nat
  size : Nat
  purpose : Nat
  zero : Bool
deriving DecidableEq, Repr

/-- A record of a placement (Table 13-5). -/
inductive PlaceRec where
  | move (q core ring : Nat)
  | reload (space layer addr unit : Nat)
  | entry (cc pc : Nat)
deriving DecidableEq, Repr

/-- A fallback or degraded placement (R329, R330). -/
structure Placement where
  core : Nat
  core2 : Nat
  reload : Nat
  recs : List PlaceRec
deriving DecidableEq, Repr

/-- A core's PLACE record (R322). -/
structure CorePlace where
  used : Bool
  pipeline : Nat
  groups : Nat
deriving DecidableEq, Repr

/-- A core's GOLDEN record (R331). -/
structure GoldenRec where
  core : Nat
  tensor : Word
  vector : Word
  cmd : Nat
deriving DecidableEq, Repr

/-- A safety window (R331). -/
structure SafeWin where
  group : Nat
  start : Int
  length : Nat
  mask : Nat
deriving DecidableEq, Repr

/-- A resident copy of a layer (Table 13-4). -/
structure WeightDest where
  space : Nat
  unit : Nat
  addr : Nat
deriving DecidableEq, Repr

/-- A layer of the weight directory (Table 13-4). -/
structure WeightRec where
  layer : Nat
  group : Nat
  size : Nat
  master : Nat
  crc : Word
  dests : List WeightDest
deriving DecidableEq, Repr

/-- A control core's program (R325). -/
structure Prog where
  cc : Nat
  entry : Nat
  code : List Byte
deriving DecidableEq, Repr

/-- The tables of a floorplan in force (R321 to R331). -/
structure Plan where
  /-- island, target and limit in 1/256 of nominal; an island not listed holds 256 and 512 (R34, R321) -/
  islands : Sparse (Nat × Nat) := []
  place : List CorePlace := []
  regions : List Region := []
  limits : List (Nat × Nat) := []
  progs : List Prog := []
  weights : List WeightRec := []
  fallback : List Placement := []
  degrade : List Placement := []
  golden : List GoldenRec := []
  safewin : List SafeWin := []
  keyId : Word := 0xFFFFFFFF
  /-- SHA-256 of the signed bytes (R432) -/
  hash : BitVec 256 := 0
deriving DecidableEq, Repr

/-- A verified weight patch that waits for its switch (R336): its layers with their new data, and for each
group named the first instant of the new weights. -/
structure Patch where
  seq : Word
  layers : List (WeightRec × List Byte)
  groups : List (Nat × Word)
deriving DecidableEq, Repr

/-- Floorplan, move-in, patches and NAND images beside the FPL registers. -/
structure Fpl where
  plan : Plan := {}
  /-- the image whose phase A has passed or is running (R333) -/
  staged : Option (List Byte) := none
  /-- where in HBM that image lies: where the host put it, or in the staging region that phase A copied it to (R333) -/
  stagedAt : Option Nat := none
  patch : Option Patch := none
  patchSeq : Word := 0
  /-- count at the start of phase B -/
  phaseBAt : BitVec 64 := 0
  /-- floorplan slots in NAND (R433) -/
  nand : Sparse (List Byte) := []
  /-- a store in progress: slot and image (R434) -/
  storing : Option (Nat × List Byte) := none
  /-- the configuration copy: the verified image, and the registers as last committed (R369) -/
  image : List Byte := []
  copy : Sparse Word := []
  /-- where in HBM the configuration copy lies: in a region of purpose 12, or of Show Home's map -/
  copyAt : Option Nat := none
  /-- instants since the commit: hold 2 ends at the first packet of the first (Table 14-1) -/
  firstFramed : Bool := false
  /-- groups and the queues that have started a META UNIT of them since the move-in (R336) -/
  unitQueues : List (Nat × Nat) := []
  /-- faults recorded during a move-in and handled after it: with the entry of the event log, and whether each is
  permanent (R26) -/
  deferred : List (Detection × Nat × Bool) := []
  /-- the running DEGRADE record and placements applied, by core out -/
  applied : List Nat := []
deriving DecidableEq, Repr

/-! ## Show Home (spec/13) -/

/-- A camera or scanner stream that Show Home found (R338). -/
structure Found where
  stream : Nat
  /-- camera: virtual channel and data type; scanner: UDP source port -/
  key : Nat
  /-- count at its last data, and the stamp of its newest record -/
  lastAt : BitVec 64
  stamp : Word := 0
deriving DecidableEq, Repr

/-- What Show Home holds beside the FPL_SH registers. -/
structure ShowHome where
  found : List Found := []
  /-- FPL_SH registers as written, in force from the next report boundary (R343) -/
  pendingCfg : List (Nat × Word) := []
  /-- points of the last 100 ms: stream, count at arrival, sector, range in cm, within 0.3 m (R340) -/
  near : List (Nat × BitVec 64 × Nat × Nat × Bool) := []
  /-- last camera record: stream, count at arrival, bytes -/
  frames : List (Nat × BitVec 64 × List Byte) := []
  /-- count at the last point within 0.3 m (R341) -/
  stopAt : Option (BitVec 64) := none
  /-- number of the last report boundary: the count ÷ 50,000,000 -/
  boundary : Nat := 0
  /-- Show Home has changed its configuration since it last committed it (R343) -/
  changed : Bool := false
deriving DecidableEq, Repr

/-! ## Security (spec/17) -/

/-- A life-cycle log record (R433). -/
structure LogRec where
  time : Wide
  kind : Nat
  state : Nat
  detail : List Byte
deriving DecidableEq, Repr

/-- Fuses, NAND journal, debug grant and attestation beside the SEC registers. -/
structure Security where
  /-- key hashes of the owner slots and of Cerawick (Table 17-1) -/
  ownerKeys : Sparse (BitVec 256) := []
  cerawickKey : BitVec 256 := 0
  /-- minimum-version records burnt, of 64 and of 32 (Table 17-1) -/
  versionRecs : List Word := []
  fwRecs : List (BitVec 16) := []
  /-- fuse of each life-cycle transition, by the state it leads to: bit 0 DEVELOP, 1 DEPLOY, 2 RETURN, 3 END (Table 17-1) -/
  lifeFuses : BitVec 4 := 1
  /-- the device seed, from which the key tree is derived (Table 17-1, R431) -/
  seed : BitVec 256 := 0
  /-- nonces taken so far (R424) -/
  nonceNo : Nat := 0
  /-- end of the debug grant, when it has one; granted since the reset (R429) -/
  debugUntil : Option (BitVec 64) := none
  debugSeen : Bool := false
  /-- CCHK_OPEN granted during phase B (R435) -/
  openAfter : Bool := false
  /-- attestation: in progress or waiting, the nonce it signs, top leaves burnt, index reserved in the journal (R431) -/
  attesting : Bool := false
  attNonce : List Byte := []
  topBurnt : Nat := 0
  reserved : Nat := 0
  /-- the owner area's erase is not finished (R428) -/
  eraseOwed : Bool := false
  /-- firmware images of copies A and B written by FW_UPDATE, the copy written last, and whether its version
  is to become the minimum (R422) -/
  fwImages : Sparse (List Byte) := []
  fwNew : Option (Nat × Bool) := none
  /-- the NAND blocks that spare blocks have replaced, in the order in which the 768 spare blocks took their places (R433, R434) -/
  badBlocks : List Nat := []
  /-- the owner log (Table 17-8) -/
  ownerLog : List Byte := []
  log : List LogRec := []
deriving DecidableEq, Repr

/-! ## Sensor ports and streams (spec/03) -/

/-- An item on its way to a history ring: what its record will hold (Table 3-11), and the bytes of it
that still lie in the ingress queue (R91). -/
structure Item where
  kind : Nat
  damaged : Bool := false
  offsetOnly : Bool := false
  triggered : Bool := false
  first : Bool := false
  sweep : Bool := false
  seq : Word := 0
  stamp : Word
  tFirst : Word
  tLast : Word
  info0 : Word := 0
  info1 : Word := 0
  payload : List Byte := []
  left : Nat := 0
deriving DecidableEq, Repr

/-- A camera frame in progress (R72). -/
structure OpenFrame where
  vc : Nat
  dt : Nat
  stream : Nat
  item : Item
  lines : Nat := 0
  width : Nat := 0
  /-- configured height, when it is checked -/
  height : Option Nat := none
  /-- its remainder has been lost to a full queue (R92) -/
  cut : Bool := false
  /-- it has no fire, or no room at all: its lines are dropped (R83, R92) -/
  skip : Bool := false
  startAt : Word
deriving DecidableEq, Repr

/-- A record that lies whole in a history ring (R91). -/
structure RingRec where
  off : Nat
  len : Nat
  item : Item
  /-- the count when it lay whole in HBM -/
  at_ : BitVec 64
  /-- not overwritten; an overwritten one stays listed while an instant could have chosen it (R126) -/
  live : Bool := true
  /-- its loss has been counted -/
  lost : Bool := false
deriving DecidableEq, Repr

/-- A stream beside its STR registers. -/
structure Stream where
  /-- positions of its ingress queue (R90) -/
  q : Tbq := {}
  items : List Item := []
  ring : List RingRec := []
  seq : Word := 0
  /-- the next record is the first after enable, overflow or restart (Table 3-11) -/
  first : Bool := true
  /-- sweep number or azimuth of the last datagram; a sweep has begun and has no point yet (R87, R89) -/
  lastSweep : Option Nat := none
  lastAz : Option Word := none
  sweepOwed : Bool := false
  /-- estimator: number and minimum of the present block, the minima of the last eight, newest first, and consecutive
  deviating datagrams (R85, R86) -/
  blockMin : Option (Nat × Int × Nat) := none
  minima : List (Int × Nat) := []
  deviating : Nat := 0
deriving DecidableEq, Repr

/-- An FSYNC output (R74, R83). -/
structure Fsync where
  /-- fires planned in group mode, the earliest first -/
  plans : List Word := []
  /-- end of the pulse in progress -/
  pulseEnd : Option Word := none
  /-- fires whose match window may be open: time, and by stream s the entry s for a frame of it, 256 + s when no
  miss is to be counted of it any more -/
  fires : List (Word × List Nat) := []
deriving DecidableEq, Repr

/-- An I3C controller (R73). -/
structure I3c where
  /-- queued transfers: command word and start time -/
  cmds : List (Word × Option Word) := []
  busy : Bool := false
  /-- short time at which the transfer now at the head of the queue came there -/
  headAt : Word := 0
  /-- bytes queued to write, bytes read -/
  wdata : List Byte := []
  rdata : List Byte := []
deriving DecidableEq, Repr

/-- An SPI controller (R77). -/
structure Spi where
  /-- the read in progress: its stamp and the stream that selected it when it began (R94); the held stamp; a fault of the
  hub's island has damaged the read (R354) -/
  reading : Option (Word × Option Nat) := none
  held : Option Word := none
  broken : Bool := false
deriving DecidableEq, Repr

/-- An encoder input (R78): the levels at its pins, after the glitch filter and before inversion. -/
structure Enc where
  a : Bool := false
  b : Bool := false
  z : Bool := false
  edge : Word := 0
  zEdge : Word := 0
  /-- next sample boundary -/
  next : Option Word := none
deriving DecidableEq, Repr

/-- The sensor ports beside the SNS registers. -/
structure Ports where
  frames : Sparse (List OpenFrame) := []
  fsync : Sparse Fsync := []
  i3c : Sparse I3c := []
  spi : Sparse Spi := []
  enc : Sparse Enc := []
  /-- an armed timed output: time, pin, level (R79) -/
  timed : Option (Word × Nat × Bool) := none
  /-- CSI-2 frame numbers recorded, at key 16 × port + virtual channel (Table 3-2) -/
  frameNo : Sparse (BitVec 16) := []
  /-- rate that the PHY of a MAC signals while its link is up, by MAC (Table 3-3) -/
  macSignal : Sparse (Option Nat) := []
  /-- stream that the spillway served last (R91) -/
  spillTurn : Nat := 255
deriving DecidableEq, Repr

/-! ## The Cistern (spec/05) -/

/-- A scheduled instant not yet released (R114 to R117): k, Tk extended to 64 bits and Tk of the instant before. -/
structure Inst where
  k : Word
  tk : BitVec 64
  before : Option (BitVec 64) := none
  /-- its Tk has been reached, and it is one of the 64 pending -/
  due : Bool := false
  pending : Bool := false
  /-- its wait limit has expired; it is to be released as expired, forced or by an epoch drain -/
  expired : Bool := false
  force : Bool := false
  forced : Bool := false
  epoch : Bool := false
  /-- the age monitor has expired it (R359) -/
  aged : Bool := false
  /-- a configuration fault has discarded it (R358) -/
  discarded : Bool := false
deriving DecidableEq, Repr

/-- An instant released whose last packet has not been framed (R272, R359): k, Tk; the age monitor has expired
it; recovery or a move-in has discarded it (R350); the age rule in force at its release (R366). -/
structure Live where
  k : Word
  tk : BitVec 64
  ageRule : Bool := false
  aged : Bool := false
  discarded : Bool := false
deriving DecidableEq, Repr

/-- A fusion group beside its FUS registers. -/
structure Group where
  sched : List Inst := []
  running : Bool := false
  draining : Bool := false
  nextK : Word := 0
  /-- latest Tk scheduled since it was enabled; latest instant released since then -/
  latest : Option (BitVec 64) := none
  last : Option Inst := none
  miss : Sparse Nat := []
  /-- exposure and readout offsets, by stream, of the entries that were in force for the last instant released (R123, R125) -/
  lastOffs : Sparse (Nat × Nat) := []
  /-- a swap took effect at the last release (flags[3] of the next descriptor) -/
  calNext : Bool := false
  /-- released instants whose pipeline has not finished -/
  open_ : List Live := []
  /-- the last instant that has left egress since the group was enabled (R273) -/
  left : Option Word := none
  /-- the last instants whose grids were begun, with their Tk (R259) -/
  gridTks : List (Word × Word) := []
  /-- instant of the last TRACK_LIFE and the ids it gave, for its repetition (R268, R271) -/
  lifeK : Option Word := none
  lifeIds : List Word := []
deriving DecidableEq, Repr

/-! ## Calibration and pose (spec/06) -/

/-- A pending swap (R139 to R142): its set as a 256-bit mask, the count at its request, the groups and the
pose integrator that have still to pass their boundaries, and the map boundaries of the streams of the set. -/
structure Swap where
  set : Nat
  at_ : BitVec 64
  groups : List Nat
  pose : Bool
  /-- first tick of the pose integrator after the request -/
  poseTick : Option Nat := none
  /-- streams of the set with a user among groups and pose, and those whose map boundary has come -/
  mapUsers : List Nat := []
  mapAt : Sparse (Option (BitVec 64)) := []
deriving DecidableEq, Repr

/-- A wheel as the integrator last saw it (R145): last sample and the latest speed. -/
structure WheelState where
  seen : Bool := false
  count : Word := 0
  edge : Word := 0
  /-- that edge on 64 bits -/
  edgeAt : Int := 0
  v : Word := 0
deriving DecidableEq, Repr

/-- A computed tick (R144 to R149): its number, the count ÷ 1,000,000, and what the next one starts from. -/
structure PoseTick where
  n : Nat
  q : List Word := [0x3F800000, 0, 0, 0]
  p : List Word := [0, 0, 0]
  v : Word := 0
  w : Word := 0
  gyro : List Word := [0, 0, 0]
  acc : List Word := [0, 0, 0]
  wheels : Sparse WheelState := []
  imuAge : Nat := 0
  wheelAge : Nat := 0
  imuStale : Bool := false
  wheelStale : Bool := false
deriving DecidableEq, Repr

/-- The pose integrator. -/
structure Pose where
  /-- number of the next tick, while enabled -/
  next : Option Nat := none
  /-- the first tick since it was enabled -/
  first : Nat := 0
  /-- computed ticks, newest first, as far as re-integration reaches -/
  ticks : List PoseTick := []
deriving DecidableEq, Repr

/-- Swap and pose integrator. -/
structure CalState where
  swap : Option Swap := none
  pose : Pose := {}
  /-- of the last completed swap of a stream's entry: its map boundary and the entry before it, which converts
  datagrams stamped before the boundary (R84, R140) -/
  formerMap : Sparse (Option (BitVec 64 × List Byte)) := []
deriving DecidableEq, Repr


/-! ## The tensor engine (spec/08) -/

/-- What an accumulator slot holds beside its words: the queue that last wrote it (R197), its steps since it was
cleared (R208), its checksum and magnitude accumulators (R207), and whether it is kept for a later command (R196). -/
structure Slot where
  owner : Option Nat := none
  steps : Nat := 0
  sums : List Word := List.replicate 32 0
  mags : List Word := List.replicate 32 0
  kept : Bool := false
deriving DecidableEq, Repr

/-- A thin-mode weight latch (R185, R187): the weight vector of each of the 1,024 units, element by element. The empty list, which is
its value at reset, stands for weights that are all 0 (log entry 167, DESIGN CHOICE). -/
abbrev Latch := List (List Int)

/-- The two weight latches of an engine; `second` says that the second one is active. -/
structure Latches where
  second : Bool := false
  one : Latch := []
  two : Latch := []
deriving DecidableEq, Repr

/-! ## The vector engines (spec/10) -/

/-- The states of a vector context (Table 10-2). -/
inductive CtxState where
  | free
  | ready
  | operand
  | memLocal
  | memHbm
  | credit
  | golden
  | faultHold
  | stopped
deriving DecidableEq, Repr

/-- A hardware thread or golden context (R234): its state, its item (queue, command, item number, vector position), its
vector registers v0 to v15 of 64 lanes and its scalar registers s0 to s7. A register not listed is 0. -/
structure VContext where
  state : CtxState := .free
  queue : Nat := 0
  num : Word := 0
  item : Nat := 0
  vec : Nat := 0
  v : List (List Word) := []
  s : List Word := []
deriving DecidableEq, Repr

/-! ## Egress and the NET block (spec/11) -/

/-- What a frame handed to a MAC's transmit queue carries: a datagram, an answer of the NET block, an ARP request or
neighbour solicitation for an address, an IGMPv3 or MLDv2 report of the groups received (R282). -/
inductive SentBody where
  | udp (d : Datagram)
  | reply (r : NetRequest)
  | resolve (ip : List Byte)
  | membership (six : Bool) (groups : List (List Byte))
deriving DecidableEq, Repr

/-- A frame handed to a MAC's transmit queue: the module's MAC address on it, and its VLAN tag (R282). -/
structure Sent where
  mac : Nat
  src : BitVec 48
  vlan : Option (BitVec 12)
  body : SentBody
deriving DecidableEq, Repr

/-- A message packet under reassembly (R281). -/
structure Reasm where
  src : List Byte
  serial : Word
  total : Nat
  firstAt : BitVec 64
  parts : List (Nat × List Byte) := []
deriving DecidableEq, Repr

/-- An EMIT that egress holds (R272): its queue, command number and instant. -/
structure HeldEmit where
  q : Nat
  num : Word
  k : Word
deriving DecidableEq, Repr

/-- Egress and the NET block beside their registers. -/
structure Egress where
  /-- packets sent, by destination; 8 is FPL_SH_DEST (R277) -/
  serials : Sparse Word := []
  /-- frames handed to the MAC transmit queues, in order -/
  sent : List Sent := []
  /-- resolved neighbours of a MAC: address, link-layer address, count at their last resolution (R282) -/
  nbrs : Sparse (List (List Byte × BitVec 48 × BitVec 64)) := []
  /-- quanta of the last PAUSE frame that a MAC honours (Table 3-3) -/
  pause : Sparse Nat := []
  reasm : Sparse (List Reasm) := []
  held : Sparse (List HeldEmit) := []
  msgNo : Word := 0
  /-- the copy of the track table current for a group (R269) -/
  trkCur : Sparse Nat := []
deriving DecidableEq, Repr


/-! ## The block and its queue of commands -/

/-- Everything the spec gives the module. -/
structure Mach where
  variant : Variant := .m24c
  /-- counts the free values taken (log entry 7): the model's own field -/
  freeCtr : Nat := 0
  /-- registers by bus address -/
  regs : Sparse Word := []
  /-- every addressed memory (log entry 14) -/
  mem : Sparse Byte := []
  time : TimeLine := {}
  islands : Sparse Island := []
  sluices : Sparse Sluice := []
  stageCfg : Sparse (Option StageCfg) := []
  stageQ : Sparse Tbq := []
  resultQ : Tbq := {}
  injectQ : Tbq := {}
  cq : Sparse CmdQ := []
  /-- queue that started last, by core (R293) -/
  lastQ : Sparse Nat := []
  core : Sparse Core := []
  safety : Safety := {}
  obs : Observe := {}
  port : Port := {}
  pins : Pins := {}
  fpl : Fpl := {}
  sh : ShowHome := {}
  sec : Security := {}
  ports : Ports := {}
  streams : Sparse Stream := []
  groups : Sparse Group := []
  cal : CalState := {}
  egr : Egress := {}
  /-- accumulator slot n of core c at key 16 c + n; 8 is the golden slot (R198) -/
  slots : Sparse Slot := []
  /-- thin-mode weight latches, by core -/
  latches : Sparse Latches := []
  /-- vector contexts: thread t of engine e of core c at key 32 (4 c + e) + t, its golden context at key 4096 + 4 c + e (Table 16-9) -/
  contexts : Sparse VContext := []
  /-- drops that point table t has added to entry e of group g, at key (8 g + e) 32 + t: points and cells (R180) -/
  dropShare : Sparse (Nat × Nat) := []
deriving DecidableEq, Repr

/-- The machine: the block and the commands that wait, first in first out. -/
structure State where
  pending : List Instr := []
  m : Mach := {}
deriving DecidableEq, Repr

/-- Why a step stops the machine. No command of this block does: a bus error, a command error and a fault of the
module are state. -/
inductive Fault where
deriving DecidableEq, Repr

/-- Why a command has no meaning. -/
inductive Refusal where
  /-- raised by an arm of exec that has no meaning yet; safe: the machine stops -/
  | notModelled (mnemonic : String)
deriving DecidableEq, Repr

/-- The machine when a reset has just ended and boot has not run. -/
def State.reset : State := {}

end Sys2Proof.Machine
end

