-- ==== Sys2Proof/Machine/Ops.lean ====
section
/-! DEFINITION. The named operations over the state that the meanings share: registers and their fields,
event registers, addressed memory, time, counters, holds and OUT_VALID, semaphores and completion signals, and
the twin-basin queue. -/

namespace Sys2Proof.Machine

/-! ## Commands and the module that takes them -/

/-- The module is powered and out of reset: otherwise a command finds nothing that answers (R441, log
entry 2). -/
def Mach.live (m : Mach) : Bool := m.pins.powered && !m.pins.inReset && !m.pins.thermalOff

/-- A command's effect on the module, which must be live to take it. -/
def act (s : State) (f : Mach → Mach) : Host.Outcome State Fault Refusal :=
  .next { s with m := if s.m.live then f s.m else s.m }

/-- A happening at the pins or the supply, live or not. -/
def atPins (s : State) (f : Mach → Mach) : Host.Outcome State Fault Refusal :=
  .next { s with m := f s.m }

/-- One part of the module changed. -/
def Mach.onTime (m : Mach) (f : TimeLine → TimeLine) : Mach := { m with time := f m.time }
def Mach.onSafety (m : Mach) (f : Safety → Safety) : Mach := { m with safety := f m.safety }
def Mach.onObs (m : Mach) (f : Observe → Observe) : Mach := { m with obs := f m.obs }
def Mach.onPort (m : Mach) (f : Port → Port) : Mach := { m with port := f m.port }
def Mach.onPins (m : Mach) (f : Pins → Pins) : Mach := { m with pins := f m.pins }

/-- The time spent in RUN, in which alone the self-test of a core counts (R453). -/
def Mach.runClock (m : Mach) : BitVec 64 := m.pins.awayAt.getD m.time.count - m.pins.away

/-! ## Registers -/

/-- The stored value of the register at an address. -/
def Mach.reg (m : Mach) (a : Nat) : Word := sget regReset m.regs a

/-- The module with a register's stored value replaced. -/
def Mach.setReg (m : Mach) (a : Nat) (v : Word) : Mach := { m with regs := sput regReset a v m.regs }

/-- Bits [lo + n - 1 : lo] of a register. -/
def Mach.fld (m : Mach) (a lo n : Nat) : Nat := (m.reg a).field lo n

def Mach.rbit (m : Mach) (a n : Nat) : Bool := (m.reg a).bit n

def Mach.setFld (m : Mach) (a lo n v : Nat) : Mach := m.setReg a ((m.reg a).setField lo n v)

def Mach.setRBit (m : Mach) (a n : Nat) (b : Bool) : Mach := m.setReg a ((m.reg a).setBit n b)

/-- A wrapping counter register plus n. -/
def Mach.addReg (m : Mach) (a n : Nat) : Mach := m.setReg a (m.reg a + BitVec.ofNat 32 n)

def Mach.incReg (m : Mach) (a : Nat) : Mach := m.addReg a 1

/-- A 36-bit address held in a low and a high register. -/
def Mach.addr36 (m : Mach) (lo hi : Nat) : Nat := (m.reg lo).toNat + (m.fld hi 0 4) * 2 ^ 32

/-- Events registered in one clock of the island that holds the event register: seq moves once and the
bits set (R386). -/
def Mach.raise (m : Mach) (a : Nat) (bits : Nat) : Mach :=
  let w := m.reg a
  m.setReg a (((w.setField 16 16 (w.field 16 16 + 1))) ||| (BitVec.ofNat 32 (bits % 2 ^ 16)))

/-- Write-back to an event register (R386). -/
def Mach.writeBack (m : Mach) (a : Nat) (v : Word) : Mach :=
  let w := m.reg a
  if v.field 16 16 = w.field 16 16 then m.setReg a (w &&& ~~~(v &&& 0xFFFF)) else m

/-- What raises the events of one register several times in one clock steps its number once (R386). -/
def Mach.oneClock (m : Mach) (a : Nat) (f : Mach → Mach) : Mach :=
  let m' := f m
  if m'.fld a 16 16 = m.fld a 16 16 then m' else m'.setFld a 16 16 (m.fld a 16 16 + 1)

/-! ## Free values -/

/-- A value the spec leaves open, and the module that has taken it (log entry 7). -/
def Mach.free (m : Mach) : Word × Mach := (Config.freeWord m.freeCtr, { m with freeCtr := m.freeCtr + 1 })

/-! ## Addressed memory

HBM lies at 0. The other memories follow it at fixed places of the model's own (log entry 14). -/

/-- What a byte of memory that nothing has written reads as: the zeros of the wipe (R430). -/
def memZero (_ : Nat) : Byte := 0

def Mach.byte (m : Mach) (a : Nat) : Byte := sget memZero m.mem a

def Mach.setByte (m : Mach) (a : Nat) (b : Byte) : Mach := { m with mem := sput memZero a b m.mem }

/-- The canonical form of memory. -/
abbrev Memory.wf (t : Sparse Byte) : Prop := swf memZero 0 t = true

/-- n bytes from address a, in increasing address. -/
def Mach.bytes (m : Mach) (a : Nat) : Nat → List Byte
  | 0 => []
  | n + 1 => m.byte a :: m.bytes (a + 1) n

/-- Bytes written from address a on. -/
def Mach.setBytes (m : Mach) (a : Nat) : List Byte → Mach
  | [] => m
  | b :: bs => (m.setByte a b).setBytes (a + 1) bs

def Mach.le (m : Mach) (a n : Nat) : Nat := ofLe (m.bytes a n)
def Mach.setLe (m : Mach) (a n v : Nat) : Mach := m.setBytes a (leBytes n v)
def Mach.word (m : Mach) (a : Nat) : Word := BitVec.ofNat 32 (m.le a 4)
def Mach.setWord (m : Mach) (a : Nat) (v : Word) : Mach := m.setLe a 4 v.toNat

/-- n bytes from address a become free values. -/
def Mach.freeBytes (m : Mach) (a n : Nat) : Mach :=
  ({ m with freeCtr := m.freeCtr + n }).setBytes a ((List.range n).map fun i => (Config.freeWord (m.freeCtr + i)).setWidth 8)

/-- n bytes of value 0 from address a. -/
def Mach.wipe (m : Mach) (a n : Nat) : Mach := { m with mem := m.mem.filter fun p => p.1 < a || a + n ≤ p.1 }

/-- Places of the memories (log entry 14). -/
def localBase (c : Nat) : Nat := 2 ^ 36 + c * 2 ^ 22
def clusterBase (k : Nat) : Nat := 2 ^ 37 + k * 2 ^ 23
def seqBase (cc : Nat) : Nat := 2 ^ 38 + cc * 2 ^ 18
/-- Accumulator slot n of core c; slots 8 and above are the golden slots of R198. -/
def slotBase (c n : Nat) : Nat := 2 ^ 39 + (c * 16 + n) * 4096

def localSize : Nat := 2 ^ 22
def clusterSize : Nat := 2 ^ 23
def seqSize : Nat := 2 ^ 18

/-- Installed HBM in bytes (R2, R4). -/
def Mach.hbmSize (m : Mach) : Nat :=
  match m.variant with
  | .m16c => 16 * 2 ^ 30
  | _ => 24 * 2 ^ 30

/-! ## Time -/

/-- Short time (R46). -/
def Mach.now (m : Mach) : Word := m.time.count.setWidth 32

/-- A wide time some nanoseconds on. -/
def Wide.plus (w : Wide) (d : Nat) : Wide :=
  { sec := (w.sec + (w.ns + d) / 1000000000) % 2 ^ 48, ns := (w.ns + d) % 1000000000 }

/-- Wide time of a value of the count at or after the anchor (R47). -/
def Mach.wideAt (m : Mach) (c : BitVec 64) : Wide := m.time.anchorWide.plus (c - m.time.anchorCount).toNat

def Mach.wide (m : Mach) : Wide := m.wideAt m.time.count

/-- Nanoseconds of a wide time since 0. -/
def Wide.total (w : Wide) : Nat := w.sec * 1000000000 + w.ns

/-- The ten bytes of wide time in a structure (R48). -/
def Wide.toBytes (w : Wide) : List Byte := leBytes 6 w.sec ++ leBytes 4 w.ns

/-- Short time a has come to or passed b (R46). -/
def reached (a b : Word) : Bool := decide (0 ≤ (a - b).toInt)

/-! ## The servo and the PTP ports (R39, R58, R61) -/

def Mach.timeSource (m : Mach) : Nat := m.fld Reg.TIME_CTRL 8 2

/-- The management core runs and its firmware has started. -/
def Mach.mgmtRuns (m : Mach) : Bool := m.pins.booted && !m.obs.mgmtHalted && !m.obs.mgmtDebug

/-- The servo has a reference (R58). -/
def Mach.servoRef (m : Mach) : Bool :=
  match m.timeSource with
  | 1 => m.time.ptpRef.isSome
  | 2 => m.time.ppsRef
  | _ => false

/-- Telemetry shows the input voltage and the hottest junction; it stops with the management core (R24, R390). -/
def Mach.telemetry (m : Mach) : Mach :=
  if m.mgmtRuns then
    (m.setReg Reg.GCTL_VIN (BitVec.ofNat 32 (m.pins.vin % 2 ^ 16))).setReg Reg.GCTL_TEMP (m.pins.junction.setWidth 32)
  else m

/-- TIME_STATUS.servo_running and locked as R58 and R61 define them. -/
def Mach.servoCheck (m : Mach) : Mach :=
  let m := m.setRBit Reg.TIME_STATUS 2 (m.mgmtRuns && m.servoRef)
  m.setRBit Reg.TIME_STATUS 1 (decide (m.timeSource = 1) && decide (16 ≤ m.time.inLock))

/-- The state of a PTP port changes; a port that leaves SLAVE is no reference. -/
def Mach.ptpState (m : Mach) (p : Nat) (st : BitVec 4) : Mach :=
  let m := if m.fld (Reg.TIME_PTP_STAT p) 0 4 = st.toNat then m
    else (m.setReg (Reg.TIME_PTP_STAT p) (st.setWidth 32)).raise Reg.TIME_EVENT 0x80
  if st = 9 then m
  else
    let lost := m.time.ptpRef == some p
    m.onTime fun x => { x with
      syncs := sput (fun _ => 0) p 0 x.syncs
      ptpRef := if lost then none else x.ptpRef
      inLock := if lost then 0 else x.inLock }

/-- The VLAN tag of a MAC's own frames (SNS_MAC_CFGm). -/
def Mach.macVlan (m : Mach) (p : Nat) : Option (BitVec 12) :=
  if m.rbit (Reg.SNS_MAC_CFG p) 12 then some (BitVec.ofNat 12 (m.fld (Reg.SNS_MAC_CFG p) 0 12)) else none

/-! ## Islands -/

def Mach.island (m : Mach) (i : Nat) : Island := sget (fun _ => {}) m.islands i
def Mach.setIsland (m : Mach) (i : Nat) (x : Island) : Mach :=
  { m with islands := sput (fun _ => {}) i x m.islands }

/-- The island runs (R37). -/
def Mach.runs (m : Mach) (i : Nat) : Bool := (m.island i).stopped.isEmpty

/-! ## Counters (R395 to R401) -/

def Mach.counter (m : Mach) (i : Nat) : BitVec 64 := sget (fun _ => 0) m.obs.live i
def Mach.setCounter (m : Mach) (i : Nat) (v : BitVec 64) : Mach :=
  m.onObs fun o => { o with live := sput (fun _ => 0) i v o.live }

def Mach.frozen (m : Mach) : Bool := m.rbit Reg.CNT_STATUS 3

/-- Counter i plus n, unless the counters are frozen. -/
def Mach.bump (m : Mach) (i n : Nat) : Mach :=
  if m.frozen then m
  else m.setCounter i (m.counter i + BitVec.ofNat 64 n)

/-- One field of the always-on counter of a stream: records, late records or drops (Table 16-2). -/
def Mach.bumpStream (m : Mach) (st lo n : Nat) : Mach :=
  if m.frozen then m
  else
    let v := (m.counter (128 + st)).toNat
    let x := v / 2 ^ lo % 2 ^ n
    let v' := v - x * 2 ^ lo + (x + 1) % 2 ^ n * 2 ^ lo
    m.setCounter (128 + st) (BitVec.ofNat 64 v')

/-! ## Holds and OUT_VALID (R348, Table 14-1) -/

/-- Holds 0 to 15 are the module's. -/
def Mach.moduleHold (m : Mach) : Bool := m.fld Reg.SAFE_HOLD 0 16 != 0

def Mach.hold (m : Mach) (n : Nat) : Bool := m.rbit Reg.SAFE_HOLD n

/-- OUT_VALID goes low. -/
def Mach.outFall (m : Mach) : Mach :=
  if m.safety.outValid then
    let m := m.onSafety fun x => { x with outValid := false, lowAt := m.time.count }
    (m.setRBit Reg.SAFE_STATUS 1 false).bump 427 1
  else m

/-- A hold begins. -/
def Mach.beginHold (m : Mach) (n : Nat) : Mach :=
  let m := m.outFall
  if m.hold n then m
  else
    let m := (m.setRBit Reg.SAFE_HOLD n true).raise Reg.SAFE_EVENT 0x1
    if n = 0 then
      (m.onSafety fun x => { x with hold0At := some m.time.count }).setRBit Reg.SAFE_STATUS 3 true
    else m

/-- A hold ends; the end of hold 0 is measured (R357). -/
def Mach.endHold (m : Mach) (n : Nat) : Mach :=
  if m.hold n then
    let m := (m.setRBit Reg.SAFE_HOLD n false).raise Reg.SAFE_EVENT 0x1
    if n = 0 then
      let m := match m.safety.hold0At with
        | some t =>
          let d := min (m.time.count - t).toNat (2 ^ 32 - 1)
          if (m.reg Reg.SAFE_MAX_OUT).toNat < d then m.setReg Reg.SAFE_MAX_OUT (BitVec.ofNat 32 d) else m
        | none => m
      (m.onSafety fun x => { x with hold0At := none }).setRBit Reg.SAFE_STATUS 3 false
    else m
  else m

/-! ## Cores in service (R307, R356) -/

/-- Core c is in service. -/
def Mach.inService (m : Mach) (c : Nat) : Bool := m.rbit (Reg.CLU_CORE_STATE (c / 4)) (c % 4)

/-! ## Semaphores and completion signals (R298, R299) -/

def Mach.sem (m : Mach) (k n : Nat) : BitVec 16 := (m.reg (Reg.CLU_SEM k n)).setWidth 16
def Mach.setSem (m : Mach) (k n : Nat) (v : BitVec 16) : Mach := m.setReg (Reg.CLU_SEM k n) (v.setWidth 32)
def Mach.csig (m : Mach) (n : Nat) : BitVec 16 := (m.reg (Reg.CQ_CSIG n)).setWidth 16
def Mach.addCsig (m : Mach) (n : Nat) (v : BitVec 16) : Mach :=
  m.setReg (Reg.CQ_CSIG n) ((m.csig n + v).setWidth 32)

/-- The comparison of a waiter: (int16)(S − value) ≥ 0. -/
def atLeast16 (s v : BitVec 16) : Bool := decide (0 ≤ (s - v).toInt)

/-! ## Twin-basin queues (R99 to R109) -/

/-- The geometry of a queue: flat address of basin 0, basin size in bytes, span and flush mode (R100, R102). -/
structure QGeom where
  base : Nat
  size : Nat
  span : Bool := false
  record : Bool := true

/-- Room in the filling basin. -/
def Tbq.room (q : Tbq) (g : QGeom) : Nat := g.size - q.f

/-- Condition of the swap of R101. `open_` says that a record is open in the filling basin: a span-0 queue never
swaps in the middle of one. -/
def Tbq.canSwap (q : Tbq) (g : QGeom) (open_ : Bool) : Bool :=
  decide (q.rl = q.l) && decide (0 < q.f) &&
    (g.span || !open_) && (q.flushPending || decide (q.room g < 4))

/-- The swap of R101. -/
def Tbq.swap (q : Tbq) : Tbq :=
  { q with f := 0, l := q.f, rd := 0, rl := 0, mark := 0, markValid := false, flushPending := false,
           filling := !q.filling, fillEnds := [], drainEnds := q.fillEnds, swaps := q.swaps + 1 }

/-- The one evaluation of R101 at the end of a clock (R108). -/
def Tbq.settle (q : Tbq) (g : QGeom) (open_ : Bool) : Tbq := if q.canSwap g open_ then q.swap else q

/-- A flush (R102). -/
def Tbq.flush (q : Tbq) : Tbq := if q.f = 0 then q else { q with flushPending := true }

/-- MARK (R105). -/
def Tbq.doMark (q : Tbq) : Tbq := { q with mark := q.rd, markValid := true }

/-- RELEASE (R106). -/
def Tbq.release (q : Tbq) : Tbq := { q with rl := max q.rl (if q.markValid then q.mark else q.rd) }

/-- REWIND (R107). -/
def Tbq.rewind (q : Tbq) : Tbq := { q with rd := if q.markValid then q.mark else q.rl }

/-- Where the next write into the filling basin goes, and where the next read comes from. -/
def Tbq.fillAt (q : Tbq) (g : QGeom) : Nat := g.base + (if q.filling then g.size else 0) + q.f
def Tbq.readAt (q : Tbq) (g : QGeom) : Nat := g.base + (if q.filling then 0 else g.size) + q.rd

/-- A record of n bytes fits once any swap that can take place has taken place (R103). -/
def Tbq.fits (q : Tbq) (g : QGeom) (n : Nat) : Bool := decide (n ≤ ((q.settle g false).room g))

/-- A whole record of n bytes written and, in record mode, flushed (R102); the swap is evaluated before and after. -/
def Tbq.put (q : Tbq) (g : QGeom) (n : Nat) : Tbq :=
  let q := q.settle g false
  let q := { q with f := q.f + n, fillEnds := q.fillEnds ++ [q.f + n], waiting := false }
  (if g.record then q.flush else q).settle g false

/-- Length of the next whole record at RD, if the draining basin holds one. -/
def Tbq.nextRecord (q : Tbq) : Option Nat :=
  (q.drainEnds.find? fun e => decide (q.rd < e)).map fun e => e - q.rd

/-! ## Stage queues (R300) -/

def Mach.stageCfgOf (m : Mach) (n : Nat) : Option StageCfg := sget (fun _ => none) m.stageCfg n
def Mach.stage (m : Mach) (n : Nat) : Tbq := sget (fun _ => {}) m.stageQ n
def Mach.setStage (m : Mach) (n : Nat) (q : Tbq) : Mach := { m with stageQ := sput (fun _ => {}) n q m.stageQ }

def StageCfg.geom (c : StageCfg) : QGeom :=
  { base := if c.inCluster then clusterBase c.cluster + c.base else c.base, size := c.basin }

/-- A whole record written into stage queue n; false where it must wait for room (R103). -/
def Mach.stagePush (m : Mach) (n : Nat) (data : List Byte) : Mach × Bool :=
  match m.stageCfgOf n with
  | none => (m, false)
  | some c =>
    let g := c.geom
    let q := (m.stage n).settle g false
    if q.fits g data.length then
      ((m.setBytes (q.fillAt g) data).setStage n (q.put g data.length), true)
    else (m.setStage n { q with waiting := true }, false)

end Sys2Proof.Machine
end

