-- ==== Sys2Proof/Machine/Trace.lean ====
section
/-! DEFINITION. Trace and watch records on their way into the Cellar (R403 to R407, R411). -/

namespace Sys2Proof.Machine

/-- Debug access is granted (R429). -/
def Mach.debugAccess (m : Mach) : Bool := m.rbit Reg.DBG_STATUS 1

/-- Trace is enabled. -/
def Mach.traceOn (m : Mach) : Bool := m.rbit Reg.DBG_TRACE_CTRL 31

/-- The Cellar: its HBM base and its size in bytes (R403). -/
def Mach.cellarBase (m : Mach) : Nat := m.addr36 Reg.DBG_CELLAR_BASE_LO Reg.DBG_CELLAR_BASE_HI
def Mach.cellarSize (m : Mach) : Nat := (m.reg Reg.DBG_CELLAR_SIZE).toNat * 2 ^ 21

/-- The ring stands stopped at its end (R404). -/
def Mach.cellarFull (m : Mach) : Bool := m.rbit Reg.DBG_STATUS 3

/-- The ring wraps (R404). -/
def Mach.cellarWrap (m : Mach) : Mach := ((m.setReg Reg.DBG_CELLAR_WR 0x40000).incReg Reg.DBG_CELLAR_WRAPS).raise Reg.DBG_EVENT 0x4

/-- The ring stops (R404). -/
def Mach.cellarStop (m : Mach) : Mach := (m.setRBit Reg.DBG_STATUS 3 true).raise Reg.DBG_EVENT 0x2

/-- One record into the ring at DBG_CELLAR_WR, with the wrap or the stop of R404. Of an offset at the end of the Cellar the register shows
its implemented bits (log entry 172). -/
def Mach.cellarWrite (m : Mach) (rec : List Byte) : Mach :=
  let wr := (m.reg Reg.DBG_CELLAR_WR).toNat
  let m := m.setBytes (m.cellarBase + wr) rec
  if wr + 32 < m.cellarSize then m.setReg Reg.DBG_CELLAR_WR (BitVec.ofNat 32 (wr + 32))
  else if m.rbit Reg.DBG_TRACE_CTRL 30 then (m.setReg Reg.DBG_CELLAR_WR (BitVec.ofNat 32 (wr + 32) &&& 0x7FFFFFE0)).cellarStop
  else m.cellarWrap

/-- A list cut or filled with zeros to n bytes. -/
def padTo (n : Nat) (l : List Byte) : List Byte := (l ++ List.replicate n 0).take n

/-- The 32 bytes of a record (Table 16-4); the source's seq moves, written or dropped (R405). -/
def Mach.makeRecord (m : Mach) (source kind flags : Nat) (t : Word) (payload : List Byte) : List Byte × Mach :=
  let seq := sget (fun _ => 0) m.obs.seqs source
  (BitVec.ofNat 8 kind :: BitVec.ofNat 8 source :: BitVec.ofNat 8 flags :: seq :: leBytes 4 t.toNat ++ padTo 24 payload,
    m.onObs fun o => { o with seqs := sput (fun _ => 0) source (seq + 1) o.seqs })

/-- The limiter's bucket, filled for the time that has passed (R411). -/
def Mach.refill (m : Mach) : Mach :=
  let ns := (m.time.count - m.obs.bucketAt).toNat
  let rate := m.fld Reg.DBG_OBS_CAP 0 5 * 2048
  m.onObs fun o => { o with bucket := min 65536000 (o.bucket + ns * rate), bucketAt := m.time.count }

/-- Records lost at the limiter or at a stopped ring. A stopped ring raises no records_dropped: R404 names cellar_full for it
(log entry 163). -/
def Mach.loseRecords (m : Mach) (watch : Bool) (n : Nat) : Mach :=
  let now := m.now
  let m := m.onObs fun o => { o with lostAt := if o.lost = 0 then now else o.lostAt, lost := o.lost + BitVec.ofNat 32 n }
  (m.addReg (if watch then Reg.DBG_WATCH_DROPS else Reg.DBG_TRACE_DROPS) n).bump (if watch then 436 else 435) n

/-- n records fit into the ring: it wraps, or has room for all of them before it stops. -/
def Mach.cellarRoom (m : Mach) (n : Nat) : Bool :=
  !m.rbit Reg.DBG_TRACE_CTRL 30 || decide ((m.reg Reg.DBG_CELLAR_WR).toNat + 32 * n ≤ m.cellarSize)

/-- Records offered together, admitted or dropped together (R410, R411), a DROP record before them where some were lost. A ring that is to
stop and has no room for all of them stops there (log entry 172). -/
def Mach.offer (m : Mach) (watch : Bool) (recs : List (List Byte)) : Mach :=
  let m := m.refill
  let n := recs.length
  if m.cellarFull then m.loseRecords watch n
  else
    let k := n + if m.obs.lost = 0 then 0 else 1
    let need := 32000 * k
    if m.obs.bucket < need then (m.loseRecords watch n).raise Reg.DBG_EVENT 0x1
    else if !m.cellarRoom k then m.cellarStop.loseRecords watch n
    else
      let m := m.onObs fun o => { o with bucket := o.bucket - need }
      let m :=
        if m.obs.lost = 0 then m
        else
          let (r, m) := m.makeRecord 0xFF 0x3F 0 m.now (leBytes 4 m.obs.lost.toNat ++ leBytes 4 m.obs.lostAt.toNat)
          (m.onObs fun o => { o with lost := 0 }).cellarWrite r
      recs.foldl Mach.cellarWrite m

/-- One trace record. -/
def Mach.trace (m : Mach) (source kind flags : Nat) (payload : List Byte) : Mach :=
  let (r, m) := m.makeRecord source kind flags m.now payload
  m.offer false [r]

/-- Control core cc is selected for trace, with the kind at bit b of DBG_TRACE_KINDS (R407). -/
def Mach.tracesCore (m : Mach) (cc b : Nat) : Bool :=
  m.traceOn && m.rbit Reg.DBG_TRACE_KINDS b &&
    (if cc < 32 then m.rbit Reg.DBG_TRACE_CC_LO cc else m.rbit Reg.DBG_TRACE_CC_HI (cc - 32))

/-- Queue q, or a command with TRACE set, is selected for START or DONE (R407). -/
def Mach.tracesQueue (m : Mach) (q : Nat) (flag : Bool) (b : Nat) : Bool :=
  m.traceOn && m.rbit Reg.DBG_TRACE_KINDS b && (flag || m.rbit (Reg.DBG_TRACE_Q (q / 32)) (q % 32))

/-! ## The results of a statistics watch point (R410, Table 16-7) -/

def Mach.watchAcc (m : Mach) (w : Nat) : WatchAcc := sget (fun _ => {}) m.obs.watch w
def Mach.setWatchAcc (m : Mach) (w : Nat) (x : WatchAcc) : Mach :=
  m.onObs fun o => { o with watch := sput (fun _ => {}) w x o.watch }

/-- The payloads of the six parts. -/
def WatchAcc.parts (x : WatchAcc) (id : Word) : List (List Byte) :=
  let bin := fun i => leBytes 4 (x.bins.getD i 0)
  [ leBytes 4 x.k.toNat ++ leBytes 1 x.group ++ leBytes 1 x.fmt ++ leBytes 2 0 ++ leBytes 2 (id.field 16 16) ++
      leBytes 2 (id.field 0 16) ++ leBytes 4 x.commands.toNat ++ leBytes 8 x.count,
    leBytes 4 x.minV.toNat ++ leBytes 4 x.maxV.toNat ++ leBytes 8 x.sum.toNat ++ leBytes 8 x.sumSq.toNat,
    leBytes 4 x.zeros ++ leBytes 4 x.nans ++ leBytes 4 x.infs ++ bin 0 ++ bin 1 ++ bin 2,
    bin 3 ++ bin 4 ++ bin 5 ++ bin 6 ++ bin 7 ++ bin 8,
    bin 9 ++ bin 10 ++ bin 11 ++ bin 12 ++ bin 13 ++ bin 14,
    bin 15 ]

/-- The six WATCH records of watch point w, and its accumulation begun afresh. -/
def Mach.watchEmit (m : Mach) (w : Nat) : Mach :=
  let x := m.watchAcc w
  if x.active then
    let parts := x.parts (m.reg (Reg.DBG_WATCH_ID w))
    let (recs, m) := (parts.zipIdx).foldl (fun (acc : List (List Byte) × Mach) p =>
      let (r, m) := acc.2.makeRecord (0x40 + w) (0x20 + p.2) (x.redo.toNat + if p.2 = 0 then 0 else 2) acc.2.now p.1
      (acc.1 ++ [r], m)) ([], m)
    (m.setWatchAcc w {}).offer true recs
  else m

/-- Every statistics watch point that accumulates for queue q writes its result (R410). -/
def Mach.watchFlush (m : Mach) (q : Nat) : Mach :=
  (List.range 64).foldl (fun m w =>
    let x := m.watchAcc w
    if x.active && x.queue = q then m.watchEmit w else m) m

/-- A UNIT of queue q starts: the results of the unit before it are written, and a watch point that waits for it may accumulate. -/
def Mach.watchUnit (m : Mach) (q : Nat) : Mach :=
  (List.range 64).foldl (fun m w =>
    let x := m.watchAcc w
    if x.awaits && x.queue = q then m.setWatchAcc w {} else m) (m.watchFlush q)

/-! ## Counters of clocks (Table 16-3, R398)

How many clocks an engine, a thread or a sender spends in a state is timing, which the model has none of: a snapshot gives these
counters free values once they may have counted (log entry 162). -/

/-- Events of Table 16-3 that count clocks and are attributable to no command. -/
def clockOfNone (i : Nat) : Bool := (65 ≤ i && i ≤ 73) || i == 89 || (96 ≤ i && i ≤ 99)

/-- Events of Table 16-3 that count clocks of a command. -/
def clockOfCommand (i : Nat) : Bool := i == 74 || (82 ≤ i && i ≤ 88)

/-- A nanosecond in which they may count: with debug access, unless the counters are frozen (R401), for the tenants of CNT_TENANT_MASK, and for no command only with
every tenant. -/
def Mach.countClocks (m : Mach) : Mach :=
  if m.debugAccess && !m.frozen && !(m.obs.clocked && m.obs.clockedAll) then
    m.onObs fun o => { o with
      clocked := o.clocked || m.fld Reg.CNT_TENANT_MASK 0 16 != 0
      clockedAll := o.clockedAll || m.fld Reg.CNT_TENANT_MASK 0 16 == 0xFFFF }
  else m

/-! ## Counting for one command (R397 to R399) -/

/-- n counts of metric i for a command of core c with the given tenant, layer and operator: the debug
counter while debug access is granted, and every bucket that matches. -/
def Mach.count (m : Mach) (c i tenant layer op n : Nat) : Mach :=
  if n = 0 ∨ !m.rbit Reg.CNT_TENANT_MASK tenant then m
  else
    let m := if m.debugAccess then m.bump (1024 + 256 * c + i) n else m
    (List.range 256).foldl (fun m b =>
      let sel := m.reg (Reg.CNT_BKT_SEL b)
      let cfg := m.reg (Reg.CNT_BKT_CFG b)
      let lay := cfg.field 16 16 == layer
      let opr := cfg.field 0 16 == op
      let hit := match sel.field 28 2 with
        | 0 => lay && opr
        | 1 => lay
        | _ => opr
      if sel.bit 31 && sel.field 0 6 == i && hit then m.bump (512 + b) n else m) m

end Sys2Proof.Machine
end

