-- ==== Sys2Proof/Machine/Operands.lean ====
section
/-! DEFINITION. How a 64-byte command spells its operands: fields at byte offsets (Table 12-1), the address
spaces of a core (Tables 12-3, 8-6, 10-4) and the checks on an extent (Table 12-2). -/

namespace Sys2Proof.Machine

/-- The n-byte little-endian field at an offset of a structure (R10). -/
def fieldAt (l : List Byte) (off n : Nat) : Nat := ofLe ((l.drop off).take n)

def u8 (l : List Byte) (off : Nat) : Nat := fieldAt l off 1
def u16 (l : List Byte) (off : Nat) : Nat := fieldAt l off 2
def u32 (l : List Byte) (off : Nat) : Nat := fieldAt l off 4
def u64 (l : List Byte) (off : Nat) : Nat := fieldAt l off 8

/-- Two's complement reading of an n-bit number. -/
def signed (n v : Nat) : Int := if v < 2 ^ (n - 1) then v else (v : Int) - 2 ^ n

def s8 (l : List Byte) (off : Nat) : Int := signed 8 (u8 l off)
def s16 (l : List Byte) (off : Nat) : Int := signed 16 (u16 l off)
def s32 (l : List Byte) (off : Nat) : Int := signed 32 (u32 l off)

/-- The 32-bit word at an offset. -/
def w32 (l : List Byte) (off : Nat) : Word := BitVec.ofNat 32 (u32 l off)

/-- Bits [lo + n - 1 : lo] of a number. -/
def bits (v lo n : Nat) : Nat := v / 2 ^ lo % 2 ^ n

/-- The offset of the first non-zero byte among some reserved ones. -/
def firstNonZero (l : List Byte) (offs : List Nat) : Option Nat := offs.find? fun o => u8 l o != 0

/-- Offsets from a up to and not including b. -/
def span (a b : Nat) : List Nat := (List.range (b - a)).map fun i => a + i

/-- A command error found: the byte offset of the field and the cause (R295, Table 12-2). -/
abbrev CmdErr := Nat × Nat

/-- The first error of a list of checks, the lowest offset first. -/
def firstErr (l : List (Option CmdErr)) : Except CmdErr Unit :=
  match (l.filterMap id).mergeSort (fun a b => decide (a.1 ≤ b.1)) with
  | [] => .ok ()
  | e :: _ => .error e

/-- An error at an offset when a condition holds. -/
def errIf (c : Bool) (off cause : Nat) : Option CmdErr := if c then some (off, cause) else none

/-- The spaces of a core's commands: 0 HBM, 1 cluster memory of its cluster, 2 its local store, 3 the memory
of its sequencer (Table 12-3). -/
def spaceBase (core : Nat) : Nat → Nat
  | 0 => 0
  | 1 => clusterBase (core / 4)
  | 2 => localBase core
  | _ => seqBase core

def Mach.spaceSize (m : Mach) : Nat → Nat
  | 0 => m.hbmSize
  | 1 => clusterSize
  | 2 => localSize
  | _ => seqSize

/-- An extent of a space: aligned and inside it. -/
def Mach.extentOk (m : Mach) (space addr len align : Nat) : Bool :=
  decide (space ≤ 3) && decide (addr % align = 0) && decide (addr + len ≤ m.spaceSize space)

/-- Two extents of flat addresses share a byte. -/
def overlaps (a la b lb : Nat) : Bool := decide (0 < la) && decide (0 < lb) && decide (a < b + lb) && decide (b < a + la)

end Sys2Proof.Machine
end

