-- ==== Sys2Proof/Machine/Image.lean ====
section
/-! DEFINITION. The floorplan image: its container (R317 to R319) and the layouts of its sections (R320 to R326,
R329 to R332), read from bytes. A refusal is a cause of R327 and the byte offset of the offending field. -/

namespace Sys2Proof.Machine

/-- A refusal: cause and offset (R327). -/
abbrev Refused := Nat × Nat

/-- A section as the directory lists it. -/
structure Section where
  type : Nat
  off : Nat
  data : List Byte
  hash : Nat

/-- The header and sections of an image. -/
structure Image where
  kind : Nat
  id : Word
  version : Word
  baseId : Word
  seq : Word
  minHbm : Nat
  sigOff : Nat
  keyId : Word
  secs : List Section

/-- Bytes [a, a + n) of an image. -/
def slice (l : List Byte) (a n : Nat) : List Byte := (l.drop a).take n

/-- A 32-byte field as a number. -/
def hash256 (l : List Byte) : Nat := ofLe l

def refuseIf (c : Bool) (cause off : Nat) : Except Refused Unit := if c then .error (cause, off) else .ok ()

/-- A refusal at the first field of a list that is wrong, each given with the offset of the field. -/
def refuseFirst (cause : Nat) (l : List (Bool × Nat)) : Except Refused Unit :=
  match l.find? Prod.fst with
  | some x => .error (cause, x.2)
  | none => .ok ()

/-- Reserved bytes of a record at an offset, which must be 0: the first that is not. -/
def reservedField (l : List Byte) (at_ : Nat) (offs : List Nat) : Bool × Nat :=
  match firstNonZero l offs with
  | some o => (true, at_ + o)
  | none => (false, at_)

/-- Directory entry i (Table 13-2). -/
def readSection (img : List Byte) (i : Nat) : Section :=
  let e := slice img (64 + 48 * i) 48
  { type := u16 e 0, off := u32 e 4, data := slice img (u32 e 4) (u32 e 8), hash := hash256 (slice e 0x10 32) }

/-- The entry's own fields and its place in the image. -/
def checkEntry (img : List Byte) (n sigOff i : Nat) : Except Refused Unit := do
  let b := 64 + 48 * i
  let e := slice img b 48
  refuseIf (u16 e 0 == 0 || 0x10 < u16 e 0) 1 b
  refuseIf (i != 0 && u16 e 0 ≤ u16 (slice img (b - 48) 48) 0) 1 b
  refuseIf (u16 e 2 != 0) 1 (b + 2)
  refuseIf (u32 e 4 % 4096 != 0 || u32 e 4 < 64 + 48 * n) 1 (b + 4)
  refuseIf (sigOff < u32 e 4 + u32 e 8) 1 (b + 8)
  refuseIf (u32 e 0xC != 0) 1 (b + 0xC)

/-- Sections that share a byte with one before them in the directory, with the offsets of their offset fields. -/
def sectionOverlaps (l : List Section) : List (Bool × Nat) :=
  l.zipIdx.map fun p =>
    ((l.take p.2).any fun s => overlaps s.off s.data.length p.1.off p.1.data.length, 64 + 48 * p.2 + 4)

/-- The first byte between the parts that is not 0 (R317). -/
def gapByte (img : List Byte) (n sigOff : Nat) (l : List Section) : List (Bool × Nat) :=
  img.zipIdx.map fun p =>
    (p.1 != 0 && decide (64 + 48 * n ≤ p.2) && decide (p.2 < sigOff) &&
      !l.any fun s => decide (s.off ≤ p.2) && decide (p.2 < s.off + s.data.length), p.2)

/-- Section types that a full floorplan must carry (Table 13-3). -/
def requiredTypes : List Nat := [0x01, 0x02, 0x03, 0x08, 0x09, 0x0B, 0x0D, 0x0E, 0x10]

/-- The container checks of cause 0x01 (R317 to R319). -/
def parseImage (img : List Byte) : Except Refused Image := do
  refuseIf (img.length < 64 || 2 ^ 29 < img.length) 1 0x18
  refuseIf (slice img 0 4 != [0x53, 0x56, 0x46, 0x50]) 1 0
  refuseIf (u16 img 4 != 1) 1 4
  let kind := u16 img 6
  refuseIf (kind != 1 && kind != 2) 1 6
  refuseIf (u32 img 8 == 0) 1 8
  refuseIf (kind == 1 && u32 img 0x10 != 0) 1 0x10
  refuseIf (if kind == 1 then u32 img 0x14 != 0 else u32 img 0x14 == 0) 1 0x14
  refuseIf (u32 img 0x18 != img.length) 1 0x18
  refuseIf (u32 img 0x1C != 64) 1 0x1C
  let n := u16 img 0x20
  refuseIf (n == 0 || 24 < n) 1 0x20
  refuseIf (u8 img 0x22 != 0xA1) 1 0x22
  refuseIf (u8 img 0x23 != 16 && u8 img 0x23 != 24) 1 0x23
  let sigOff := u32 img 0x24
  refuseIf (sigOff % 64 != 0 || sigOff < 64 + 48 * n) 1 0x24
  refuseIf (sigOff + u32 img 0x28 != img.length) 1 0x28
  refuseIf ((firstNonZero img (span 0x30 0x40)).isSome) 1 0x30
  (List.range n).forM (checkEntry img n sigOff)
  let secs := (List.range n).map (readSection img)
  refuseFirst 1 (sectionOverlaps secs)
  refuseIf (if kind == 1 then !(requiredTypes.all fun t => secs.any fun s => s.type == t)
    else secs.any fun s => s.type != 0x0A) 1 0x20
  refuseFirst 1 (gapByte img n sigOff secs)
  return { kind := kind, id := w32 img 8, version := w32 img 0xC, baseId := w32 img 0x10, seq := w32 img 0x14,
           minHbm := u8 img 0x23, sigOff := sigOff, keyId := w32 img 0x2C, secs := secs }

/-- A section of an image, empty where it carries none. -/
def Image.section? (im : Image) (t : Nat) : Option Section := im.secs.find? fun s => s.type == t
def Image.dataOf (im : Image) (t : Nat) : List Byte := ((im.section? t).map Section.data).getD []
def Image.offOf (im : Image) (t : Nat) : Nat := ((im.section? t).map Section.off).getD 0

/-- Records of n bytes. -/
def records (n : Nat) (l : List Byte) : List (List Byte) :=
  if n = 0 then [] else (List.range (l.length / n)).map fun i => slice l (n * i) n

/-! ## Register images (R320) -/

/-- The writes of a register image in order, with the offsets of each record's header and of the word itself. The fuel is the
length. -/
def regImage : Nat → Nat → List Byte → List (Nat × Nat × Nat × Word)
  | 0, _, _ => []
  | fuel + 1, off, l =>
    if l.length < 8 then []
    else
      let a := u32 l 0
      let n := min (u32 l 4) ((l.length - 8) / 4)
      ((List.range n).map fun i => (off, off + 8 + 4 * i, a + 4 * i, w32 l (8 + 4 * i))) ++
        (if n = 0 then [] else regImage fuel (off + 8 + 4 * n) (l.drop (8 + 4 * n)))

/-- A word at an address is one that its register takes. -/
def regTakes (a : Nat) (v : Word) : Bool :=
  match rowAt a with
  | some (r, _) => r.acc != .ro && !r.bad (v &&& r.mask)
  | none => false

/-- Where the register image that begins QUEUE may end: after each of its records, which name addresses of the CQ block, and whether
the registers take every word up to there. The longest comes first. The fuel is the length. -/
def queueEnds : Nat → Nat → Bool → List Byte → List (Nat × Bool)
  | 0, off, ok, _ => [(off, ok)]
  | fuel + 1, off, ok, l =>
    let a := u32 l 0
    let n := u32 l 4
    if 8 ≤ l.length ∧ 0x80000 ≤ a ∧ a < 0x100000 ∧ a % 4 = 0 ∧ 1 ≤ n ∧ 8 + 4 * n ≤ l.length then
      queueEnds fuel (off + 8 + 4 * n) (ok && (List.range n).all fun i => regTakes (a + 4 * i) (w32 l (8 + 4 * i))) (l.drop (8 + 4 * n)) ++
        [(off, ok)]
    else [(off, ok)]

/-- A stage-queue record with every field in its range (R324). -/
def stageLegal (r : List Byte) : Bool :=
  decide (u8 r 0 < 128) && decide (u8 r 1 ≤ 3) && (u8 r 1 == 0 || (u8 r 1 == 1 && decide (u8 r 2 < 16)) || u8 r 2 == 0) &&
    decide (1 ≤ u16 r 4) && decide (u16 r 4 ≤ 8192) && decide (u8 r 6 ≤ 1) && u8 r 7 == 0

/-- Whole legal records of different stage queues. -/
def stagesLegal (l : List Byte) : Bool :=
  l.length % 16 == 0 && (records 16 l).all stageLegal && decide ((records 16 l).map fun r => u8 r 0).Nodup

/-- The stage-queue records that end QUEUE (R324). Where its register image ends is not written in it, and a record of the one may
spell a record of the other: the image is the longest one whose words its registers take and after which only legal stage-queue
records stand, else the longest after which they stand, else the longest (log entry 29). -/
def stageBytes (fuel : Nat) (l : List Byte) : List Byte :=
  let ends := queueEnds fuel 0 true l
  let legal := ends.filter fun e => stagesLegal (l.drop e.1)
  match legal.find? Prod.snd, legal, ends with
  | some e, _, _ => l.drop e.1
  | none, e :: _, _ => l.drop e.1
  | none, [], e :: _ => l.drop e.1
  | none, [], [] => l

/-- Bytes of a section that are its register image: QUEUE ends with the stage-queue records. -/
def Image.imageBytes (im : Image) (t : Nat) : List Byte :=
  let d := im.dataOf t
  if t = 8 then d.take (d.length - (stageBytes d.length d).length) else d

/-- One word that a register image writes: its section, the offsets in the image of its record and of itself, address and value. -/
structure ImageWrite where
  sec : Nat
  off : Nat
  field : Nat
  addr : Nat
  value : Word

def Image.writesOf (im : Image) (t : Nat) : List ImageWrite :=
  let d := im.imageBytes t
  (regImage d.length (im.offOf t) d).map fun w => { sec := t, off := w.1, field := w.2.1, addr := w.2.2.1, value := w.2.2.2 }

/-- The sections that hold register images. -/
def imageSections : List Nat := [0x04, 0x06, 0x08, 0x0F]

def Image.writes (im : Image) : List ImageWrite := imageSections.flatMap im.writesOf

/-! ## The tables -/

/-- ISLAND (R321). -/
def parseIslands (l : List Byte) : Sparse (Nat × Nat) :=
  (records 8 l).zipIdx.map fun p => (p.2, (u16 p.1 0, u16 p.1 2))

/-- Islands whose clock is fixed (R35). -/
def fixedIsland (i : Nat) : Bool := i == 144 || i == 145 || (152 ≤ i && i ≤ 163)

def checkIslands (off : Nat) (l : List Byte) : Except Refused Unit := do
  refuseIf (l.length != 166 * 8) 6 off
  refuseFirst 6 ((records 8 l).zipIdx.flatMap fun p =>
    let t := u16 p.1 0
    let m := u16 p.1 2
    let at_ := off + 8 * p.2
    [(t < 256 || 512 < t || (fixedIsland p.2 && t != 256), at_), (m < t || 512 < m || (fixedIsland p.2 && m != 256), at_ + 2),
     reservedField p.1 at_ (span 4 8)])

/-- PLACE (R322). -/
def parsePlace (l : List Byte) : List CorePlace :=
  (records 8 l).map fun r => { used := (u8 r 0).testBit 0, pipeline := u8 r 1, groups := u16 r 2 }

/-- HBMMAP (R323). -/
def parseRegions (l : List Byte) : List Region :=
  (records 32 l).map fun r =>
    { base := u64 r 0, size := u64 r 8, purpose := u8 r 16, zero := (u8 r 17).testBit 0 }

/-- LIMITS: stream and declared maximum (R169). -/
def parseLimits (l : List Byte) : List (Nat × Nat) := (records 8 l).map fun r => (u8 r 0, u32 r 4)

/-- The stage-queue records that end QUEUE: those after its register image (R324). -/
def parseStage (r : List Byte) : Nat × StageCfg :=
  (u8 r 0,
    { producer := match u8 r 1 with
        | 0 => .queue (u8 r 2)
        | 1 => .group (u8 r 2)
        | 2 => .inject
        | _ => .messages
      consumer := u8 r 3, inCluster := u8 r 6 == 1, base := u64 r 8, basin := u16 r 4 * 1024 })

/-- PROG (R325): records of 12 bytes and a program each. -/
def parseProgs : Nat → List Byte → List Prog
  | 0, _ => []
  | fuel + 1, l =>
    if l.length < 12 then []
    else
      let n := u32 l 8
      { cc := u8 l 0, entry := u32 l 4, code := slice l 12 n } :: parseProgs fuel (l.drop (12 + n))

/-- WEIGHT: its directory (R326, Table 13-4). -/
def parseWeights (l : List Byte) : List (WeightRec × List Byte) :=
  (List.range (u32 l 0)).map fun i =>
    let r := slice l (32 + 96 * i) 96
    ({ layer := u16 r 0, group := u8 r 2, size := u32 r 4, master := u64 r 8, crc := w32 r 0x14,
       dests := (List.range (u8 r 3)).map fun j =>
         { space := u8 r (0x20 + 16 * j), unit := u8 r (0x21 + 16 * j), addr := u32 r (0x24 + 16 * j) } },
     slice l (u32 r 0x10) (u32 r 4))

/-- One record of a placement (Table 13-5). -/
def parsePlaceRec (r : List Byte) : PlaceRec :=
  match u8 r 0 with
  | 1 => .move (u8 r 1) (u8 r 2) (u64 r 8)
  | 2 => .reload (u8 r 1) (u16 r 2) (u32 r 4) (u32 r 8)
  | _ => .entry (u8 r 1) (u32 r 4)

/-- FALLBACK and DEGRADE: placements one after the other (R329, R330), each with its offset. -/
def placementsAt : Nat → Nat → List Byte → List (Nat × Placement)
  | 0, _, _ => []
  | fuel + 1, off, l =>
    if l.length < 8 then []
    else
      let n := u8 l 2
      let recs := (records 16 (slice l 8 (16 * n))).map parsePlaceRec
      (off, { core := u8 l 0, core2 := u8 l 1, reload := u32 l 4, recs := recs }) :: placementsAt fuel (off + 8 + 16 * n) (l.drop (8 + 16 * n))

def parsePlacements (n : Nat) (l : List Byte) : List Placement := (placementsAt n 0 l).map Prod.snd

/-- GOLDEN and SAFEWIN (R331). -/
def parseGolden (l : List Byte) : List GoldenRec :=
  (records 16 l).map fun r => { core := u8 r 0, tensor := w32 r 4, vector := w32 r 8, cmd := u32 r 12 }

def parseSafewin (l : List Byte) : List SafeWin :=
  (records 16 l).map fun r => { group := u8 r 0, start := s32 r 4, length := u32 r 8, mask := u32 r 12 }

/-- The tables of a full floorplan. -/
def Image.plan (im : Image) (hash : BitVec 256) : Plan :=
  { islands := parseIslands (im.dataOf 0x01)
    place := parsePlace (im.dataOf 0x02)
    regions := parseRegions (im.dataOf 0x03)
    limits := parseLimits (im.dataOf 0x05)
    progs := parseProgs 40 (im.dataOf 0x09)
    weights := (parseWeights (im.dataOf 0x0A)).map Prod.fst
    fallback := parsePlacements 32 (im.dataOf 0x0B)
    degrade := parsePlacements 496 (im.dataOf 0x0C)
    golden := parseGolden (im.dataOf 0x0D)
    safewin := parseSafewin (im.dataOf 0x0E)
    keyId := im.keyId
    hash := hash }

end Sys2Proof.Machine
end

