-- ==== Sys2Proof/Machine/Start.lean ====
section
/-! DEFINITION. The start stage: which command stands at the head of a queue, when it is startable (R292), what
starting and completing do (R293, R294), command errors (R295) and the repeated span of a restart (R355). -/

namespace Sys2Proof.Machine

/-! ## Bus errors decided after the status byte -/

/-- A bus error (R382, Table 15-4): its events, crc_error of a CRC mismatch among them, reach HIF_EVENT in one clock; it is
counted, captured when capture is armed, and shown by
PERR. A command named for a write stands for a 4-byte WRITE, opcode 0x60 (log entry 5). -/
def Mach.busError (m : Mach) (deferred : Bool) (a code opcode index : Nat) : Mach :=
  let m := (m.incReg Reg.HIF_ERR_COUNT).raise Reg.HIF_EVENT (if deferred then (if code = 0x08 then 0x7 else 0x3) else 0x1)
  let m :=
    if m.rbit Reg.HIF_ERR_CAUSE 31 then m
    else
      (m.setReg Reg.HIF_ERR_ADDR (BitVec.ofNat 32 a)).setReg Reg.HIF_ERR_CAUSE
        (BitVec.ofNat 32 (2 ^ 31 + deferred.toNat * 2 ^ 30 + index % 2 ^ 12 * 2 ^ 16 + opcode % 2 ^ 8 * 2 ^ 8 + code))
  if deferred then m.onPort fun p => { p with perr := true } else m

/-- A write that its register's own rule refuses (cause 0x04). -/
def Mach.refuse (m : Mach) (a : Nat) : Mach := m.busError true a 0x04 0x60 0

/-! ## Queues and rings (R290) -/

def Mach.cmdq (m : Mach) (q : Nat) : CmdQ := sget (fun _ => {}) m.cq q
def Mach.setCmdq (m : Mach) (q : Nat) (x : CmdQ) : Mach := { m with cq := sput (fun _ => {}) q x m.cq }
def Mach.onCmdq (m : Mach) (q : Nat) (f : CmdQ → CmdQ) : Mach := m.setCmdq q (f (m.cmdq q))

/-- n of queue q: the ring holds 2^n commands. -/
def Mach.ringLog (m : Mach) (q : Nat) : Nat := m.fld (Reg.CQ_CFG q) 0 5

/-- Flat address of slot i of queue q's ring: in HBM, or in the cluster memory of its home core's cluster. -/
def Mach.slotAddr (m : Mach) (q : Nat) (i : Word) : Nat :=
  let base := m.addr36 (Reg.CQ_BASE_LO q) (Reg.CQ_BASE_HI q)
  (if m.fld (Reg.CQ_CFG q) 8 2 = 1 then clusterBase (m.fld (Reg.CQ_CFG q) 11 5 / 4) else 0) + base +
    64 * (i.toNat % 2 ^ m.ringLog q)

/-- The core a queue is bound to now (R307). -/
def Mach.queueCore (m : Mach) (q : Nat) : Nat := m.fld (Reg.CQ_CORE q) 0 5

def Mach.qEnabled (m : Mach) (q : Nat) : Bool := m.rbit (Reg.CQ_CTRL q) 31

/-- The queue holds a command to start: one to take again, one to repeat, or an unstarted one. -/
def Mach.hasHead (m : Mach) (q : Nat) : Bool :=
  (m.cmdq q).retake || (m.cmdq q).redo.isSome ||
    (m.reg (Reg.CQ_HEAD q) != m.reg (Reg.CQ_TAIL q) && !(m.cmdq q).draining)

/-- Number of the command at the head (R296, R355). -/
def Mach.headNum (m : Mach) (q : Nat) : Word :=
  if (m.cmdq q).retake then m.reg (Reg.CQ_ERRPOS q)
  else (m.cmdq q).redo.getD (m.reg (Reg.CQ_HEAD q))

/-- The 64 bytes of the command at the head. -/
def Mach.headBytes (m : Mach) (q : Nat) : List Byte := m.bytes (m.slotAddr q (m.headNum q)) 64

/-! ## Commands -/

def cmdClass (b : List Byte) : Nat := u8 b 0
def cmdOp (b : List Byte) : Nat := u8 b 0x10
def cmdFlag (b : List Byte) (n : Nat) : Bool := (u8 b 1).testBit n
def isFence (b : List Byte) : Bool := cmdFlag b 0
def isGolden (b : List Byte) : Bool := cmdFlag b 3

/-- The command is MOVE STAGE_PUT or STAGE_GET. -/
def isStagePut (b : List Byte) : Bool := cmdClass b = 3 && cmdOp b = 3
def isStageGet (b : List Byte) : Bool := cmdClass b = 3 && cmdOp b = 4

/-- FUSE EMIT (Table 11-7). -/
def isEmit (b : List Byte) : Bool := cmdClass b = 5 && cmdOp b = 0x06

/-- META UNIT (R304). -/
def isUnit (b : List Byte) : Bool := cmdClass b = 7 && cmdOp b = 2

/-- Length of a MOVE's data. -/
def moveLen (b : List Byte) : Nat := u16 b 0x14 * u32 b 0x18

/-! ## The start stage's own checks (R295) -/

/-- The checks on the common fields (Table 12-1). -/
def Mach.commonErrs (m : Mach) (q : Nat) (b : List Byte) : List (Option CmdErr) :=
  let cfg := m.reg (Reg.CQ_CFG q)
  let cls := cmdClass b
  [ errIf (cls == 0 || 7 < cls) 0x00 0x01,
    errIf (16 ≤ u8 b 1) 0x01 0x01,
    errIf (isGolden b && (!(cls == 1 || cls == 2) || !cfg.bit 31)) 0x01 0x06,
    errIf (16 ≤ u8 b 2) 0x02 0x01,
    errIf (u8 b 2 != cfg.field 20 4 && !cfg.bit 19) 0x02 0x05,
    errIf (u8 b 3 != 0) 0x03 0x01,
    errIf ((u8 b 8).testBit 6) 0x08 0x01,
    errIf ((u8 b 9).testBit 6) 0x09 0x01,
    errIf (bits (u16 b 0xC) 8 7 != 0) 0x0C 0x01,
    errIf ((u16 b 0xC).testBit 15 && u8 b 0xC < 16) 0x0C 0x02,
    errIf (u16 b 0xE != 0) 0x0E 0x01 ]

/-- An error where a reserved field of n bytes at an offset is not 0. -/
def fieldErr (b : List Byte) (off n : Nat) : Option CmdErr := errIf (firstNonZero b (span off (off + n))).isSome off 0x01

/-- An error at the first non-zero byte of some that must be 0. -/
def zeroErr (b : List Byte) (offs : List Nat) (cause : Nat) : Option CmdErr :=
  (firstNonZero b offs).map fun o => (o, cause)

/-- The checks on a SYNC command (R303). -/
def syncErrs (b : List Byte) : List (Option CmdErr) :=
  let op := cmdOp b
  [ errIf (op == 0 || 5 < op) 0x10 0x02,
    errIf ((op == 2 || op == 3) && 63 < u8 b 0x11) 0x11 0x02,
    errIf (op == 5 && u8 b 0x11 < 16) 0x11 0x02,
    zeroErr b (span 0x14 0x40) 0x01 ]

/-- The checks on a META command (R304). -/
def Mach.metaErrs (m : Mach) (b : List Byte) : List (Option CmdErr) :=
  match cmdOp b with
  | 1 => [zeroErr b (span 0x11 0x40) 0x01]
  | 2 => [errIf (15 < u8 b 0x11) 0x11 0x02, zeroErr b (span 0x12 0x14 ++ span 0x18 0x40) 0x01]
  | 3 => [zeroErr b (span 0x11 0x14 ++ span 0x18 0x40) 0x01]
  | 4 => [errIf (3 < u8 b 0x11) 0x11 0x02, zeroErr b (span 0x12 0x18 ++ span 0x20 0x40) 0x01,
          errIf (!m.extentOk (u8 b 0x11) (u64 b 0x18) 4 4) 0x18 0x03]
  | _ => [some (0x10, 0x02)]

/-- Bytes from the start of a row-pitched operand to the end of its last row. -/
def pitchedLen (rows rowBytes pitch : Nat) : Nat := if rows = 0 then 0 else (rows - 1) * pitch + rowBytes

/-- Two row-pitched operands share a byte of their rows (R301). -/
def rowsOverlap (a pa b pb rows rowBytes : Nat) : Bool :=
  (List.range rows).any fun i => (List.range rows).any fun j =>
    overlaps (a + i * pa) rowBytes (b + j * pb) rowBytes

/-- The checks on a MOVE command (R301, Table 12-3). -/
def Mach.moveErrs (m : Mach) (q : Nat) (b : List Byte) : List (Option CmdErr) :=
  let core := m.queueCore q
  let op := cmdOp b
  let src := u64 b 0x20
  let dst := u64 b 0x28
  let ss := u8 b 0x11 % 16
  let ds := u8 b 0x11 / 16
  let rows := u16 b 0x14
  let rb := u32 b 0x18
  let sp := u32 b 0x30
  let dp := u32 b 0x34
  let hasSrc := op == 1 || op == 3
  let hasDst := op == 1 || op == 2 || op == 4
  let pitched := fun (p : Nat) => if rows = 1 then p != 0 else p % 4 != 0 || p < rb
  let stage := u8 b 0x12
  let cfg := m.stageCfgOf stage
  [ errIf (op == 0 || 4 < op) 0x10 0x02,
    errIf (if hasSrc then 3 < ss else ss != 0) 0x11 0x02,
    errIf (if hasDst then 3 < ds else ds != 0) 0x11 0x02,
    errIf (if op == 3 || op == 4 then 127 < stage else stage != 0xFF) 0x12 0x02,
    errIf ((op == 3 || op == 4) && stage ≤ 127 && (match cfg with
      | none => true
      | some c => if op == 3 then c.producer != .queue q else c.consumer != q)) 0x12 0x07,
    errIf (u8 b 0x13 != 0) 0x13 0x01,
    errIf (rows == 0) 0x14 0x02,
    errIf (u16 b 0x16 != 0) 0x16 0x01,
    errIf (rb < 4 || 4194304 < rb || rb % 4 != 0) 0x18 0x02,
    errIf (op == 3 && (match cfg with
      | some c => c.basin < moveLen b
      | none => false)) 0x18 0x09,
    errIf (op != 2 && u32 b 0x1C != 0) 0x1C 0x02,
    errIf (if hasSrc then false else src != 0) 0x20 0x02,
    errIf (hasSrc && !m.extentOk ss src (pitchedLen rows rb sp) 4) 0x20 0x03,
    errIf (if hasDst then false else dst != 0) 0x28 0x02,
    errIf (hasDst && !m.extentOk ds dst (if op == 4 then moveLen b else pitchedLen rows rb dp) 4) 0x28 0x03,
    errIf (op == 1 && ss == ds && rowsOverlap (spaceBase core ss + src) sp (spaceBase core ds + dst) dp rows rb) 0x28 0x04,
    errIf (if hasSrc then pitched sp else sp != 0) 0x30 0x02,
    errIf (if op == 3 || op == 4 then dp != 0 else pitched dp) 0x34 0x02,
    fieldErr b 0x38 8 ]

/-- What the start stage finds wrong with a command when it becomes the head of its queue (R295). The fields
of COPY and FILL and of the other classes are the unit's to check. -/
def Mach.headErr (m : Mach) (q : Nat) (b : List Byte) : Except CmdErr Unit := do
  firstErr (m.commonErrs q b)
  match cmdClass b with
  | 6 => firstErr (syncErrs b)
  | 7 => firstErr (m.metaErrs b)
  | 3 => if isStagePut b || isStageGet b then firstErr (m.moveErrs q b) else .ok ()
  | _ => .ok ()

/-- Payload of START and DONE records (Table 16-5). -/
def startPayload (q : Nat) (num : Word) (b : List Byte) : List Byte :=
  [BitVec.ofNat 8 q, BitVec.ofNat 8 (u8 b 0), BitVec.ofNat 8 (u8 b 1), BitVec.ofNat 8 (u8 b 2)] ++
    leBytes 4 num.toNat ++ leBytes 2 (u16 b 4) ++ leBytes 2 (u16 b 6)

/-- A DONE record where R407 asks for one; outcome 0 completed, 1 command error, 2 discarded by a fault. -/
def Mach.traceDone (m : Mach) (q : Nat) (num : Word) (b : List Byte) (outcome : Nat) (redo : Bool) : Mach :=
  if m.tracesQueue q (cmdFlag b 2) 5 then
    m.trace (0x80 + m.queueCore q) 0x11 redo.toNat (startPayload q num b ++ [BitVec.ofNat 8 outcome])
  else m

/-- A command that had completed and whose class is not repeated (R355): STAGE_GET, STAGE_PUT, SYNC, EMIT. -/
def notRepeated (b : List Byte) : Bool := isStagePut b || isStageGet b || cmdClass b == 6 || isEmit b

/-- The next number of a repeated span at or after n that is to be repeated, below HEAD; `fuel` is the length
of the rest of the span. -/
def Mach.nextRedo (m : Mach) (q : Nat) : Nat → Word → Option Word
  | 0, _ => none
  | fuel + 1, n =>
    if n = m.reg (Reg.CQ_HEAD q) then none
    else if (m.cmdq q).redoDone.contains n && notRepeated (m.bytes (m.slotAddr q n) 64) then m.nextRedo q fuel (n + 1)
    else some n

/-- What of a repeated span is left once the head has been taken. -/
def Mach.redoAfter (m : Mach) (q : Nat) : Option Word :=
  let x := m.cmdq q
  if x.retake then x.redo
  else match x.redo with
    | none => none
    | some n => m.nextRedo q (m.reg (Reg.CQ_HEAD q) - (n + 1)).toNat (n + 1)

/-- A command error: the command is taken and never started, and its queue stops (R295). -/
def Mach.cmdError (m : Mach) (q : Nat) (e : CmdErr) : Mach :=
  let num := m.headNum q
  let b := m.headBytes q
  let x := m.cmdq q
  let m := if x.retake || x.redo.isSome then m else m.setReg (Reg.CQ_HEAD q) (num + 1)
  let m := m.setCmdq q { x with error := true, retake := false, redo := m.redoAfter q }
  let m := m.setReg (Reg.CQ_ERR q) (BitVec.ofNat 32 (e.2 % 256 * 2 ^ 24 + e.1 % 64 * 2 ^ 16))
  let m := (m.setReg (Reg.CQ_ERRPOS q) num).raise (Reg.CQ_EVENT q) 0x1
  m.traceDone q num b 1 false

/-! ## Startable (R292) -/

/-- The command must wait for a step (R287, R412). -/
def Mach.needsStep (m : Mach) (q : Nat) (b : List Byte) : Bool :=
  m.debugAccess && !isGolden b && (cmdFlag b 1 || m.rbit (Reg.CQ_CTRL q) 30)

/-- Every earlier command of the queue has completed. -/
def Mach.fenceOpen (m : Mach) (q : Nat) : Bool :=
  (m.cmdq q).started.isEmpty && ((m.cmdq q).redo.isSome || (m.cmdq q).retake ||
    m.reg (Reg.CQ_DONE q) == m.reg (Reg.CQ_HEAD q))

/-- Started commands of a core, over the queues bound to it. -/
def Mach.coreInFlight (m : Mach) (c : Nat) : Nat :=
  (m.cq.map fun p => if m.queueCore p.1 = c then p.2.started.length else 0).sum

/-- Bytes that started STAGE_PUTs have still to write into stage queue n (R301). -/
def Mach.stageReserved (m : Mach) (n : Nat) : Nat :=
  (m.cq.map fun p => (p.2.started.map fun c => if isStagePut c.bytes && u8 c.bytes 0x12 = n then c.put.length else 0).sum).sum

/-- Stage queue n can take a record of this length without waiting, after those already started. -/
def Mach.stageRoom (m : Mach) (n len : Nat) : Bool :=
  match m.stageCfgOf n with
  | none => false
  | some c => (m.stage n).fits c.geom (m.stageReserved n + len)

/-- EMITs that egress holds for group g (R272). -/
def Mach.heldEmits (m : Mach) (g : Nat) : List HeldEmit := sget (fun _ => []) m.egr.held g

/-- The point unit that runs a command of this owner and fallback cluster (R154, R182). -/
def Mach.pointUnit (m : Mach) (cfg : Nat) : Nat :=
  let owner := m.fld cfg 24 3
  if m.safety.pointOut.contains owner then m.fld cfg 20 3 else owner

/-- The point unit that runs a POINT command of core c (R154). -/
def Mach.unitOf (m : Mach) (c : Nat) (b : List Byte) : Nat :=
  match cmdOp b with
  | 1 => m.pointUnit (Reg.PNT_PT_CFG (u8 b 0x11))
  | 2 => m.pointUnit (Reg.PNT_PT_CFG (u8 b 0x11))
  | 3 => m.pointUnit (Reg.PNT_VT_CFG (u8 b 0x12))
  | 4 => m.pointUnit (Reg.PNT_VT_CFG (u8 b 0x13))
  | 5 => m.pointUnit (Reg.PNT_VT_CFG (u8 b 0x12))
  | 6 => m.pointUnit (Reg.PNT_VT_CFG (u8 b 0x12))
  | _ => c / 4

/-- The unit that runs a command of queue q (R293): its class and its number among the units of the class; of FUSE the grid
unit, the track unit and egress are 0, 1 and 2 (Table 11-7). -/
def Mach.targetUnit (m : Mach) (q : Nat) (b : List Byte) : Nat × Nat :=
  let core := m.queueCore q
  match cmdClass b with
  | 4 => (4, m.unitOf core b)
  | 5 => (5, if isEmit b then 2 else if 4 ≤ cmdOp b then 1 else 0)
  | c => (c, core)

/-- The island of the unit that runs a command (R293). -/
def Mach.unitIsland (m : Mach) (q : Nat) (b : List Byte) : Nat :=
  let core := m.queueCore q
  match cmdClass b with
  | 1 => 4 * core
  | 2 => 4 * core + 2
  | 3 => 4 * core + 1
  | 4 => 129 + 2 * m.unitOf core b
  | 5 => if isEmit b then 151 else 150
  | _ => 4 * core + 3

/-- Egress holds this EMIT (R272). -/
def Mach.heldEmit (m : Mach) (q : Nat) (n : Word) : Bool :=
  (List.range 16).any fun g => (m.heldEmits g).any fun h => h.q == q && h.num == n

/-- Commands that a unit has taken and not completed, EMITs that egress holds left out. -/
def Mach.unitLoad (m : Mach) (u : Nat × Nat) : Nat :=
  (m.cq.map fun p => (p.2.started.filter fun c => m.targetUnit p.1 c.bytes == u && !m.heldEmit p.1 c.num).length).sum

/-- Commands that a unit works on at once: 4 of a move engine (R301), 1 of every other (log entry 144). -/
def unitBegun (cls : Nat) : Nat := if cls = 3 then 4 else 1

/-- Key of thread t of engine e of core c, and of its golden context (Table 16-9). -/
def threadKey (c e t : Nat) : Nat := 32 * (4 * c + e) + t
def goldenKey (c e : Nat) : Nat := 4096 + 4 * c + e

def Mach.context (m : Mach) (n : Nat) : VContext := sget (fun _ => {}) m.contexts n

/-- The contexts of the engines in a VECTOR command's mask: their threads, or their golden contexts (R235, R251). -/
def maskContexts (c : Nat) (b : List Byte) : List Nat :=
  ((List.range 4).filter (u8 b 0x12).testBit).flatMap fun e => if isGolden b then [goldenKey c e] else (List.range 32).map (threadKey c e)

/-- The vector engines do not accept the command yet: no thread of its engines is free, or the golden context is not (R235, R256). -/
def Mach.threadsBusy (m : Mach) (c : Nat) (b : List Byte) : Bool :=
  let l := maskContexts c b
  !l.isEmpty && !l.any fun n => (m.context n).state == .free

/-- The target unit has no room: it holds 8 commands that it has not begun (R292), and the vector engines accept a command only with a
context for it (R235). SYNC and META run in the start stage. -/
def Mach.unitFull (m : Mach) (q : Nat) (b : List Byte) : Bool :=
  let u := m.targetUnit q b
  if u.1 = 2 then m.threadsBusy u.2 b else u.1 < 6 && decide (unitBegun u.1 + 8 ≤ m.unitLoad u)

/-- A started STAGE_GET has still to release its record of stage queue n: the mark stands at the start of the record being read, so
one is read at a time (R109, log entry 145). -/
def Mach.stageReading (m : Mach) (n : Nat) : Bool :=
  m.cq.any fun p => p.2.started.any fun c => isStageGet c.bytes && u8 c.bytes 0x12 == n

/-- Why a head waits, as CQ_STATUSq.wait numbers it (Table 12-8); 0 when nothing holds it. -/
def Mach.waitReason (m : Mach) (q : Nat) : Nat :=
  let b := m.headBytes q
  let w := u8 b 8
  let k := m.queueCore q / 4
  if w.testBit 7 && !atLeast16 (m.sem k (w % 64)) (BitVec.ofNat 16 (u16 b 0xA)) then 1
  else if isFence b && !m.fenceOpen q then 2
  else if m.needsStep q b && !(m.cmdq q).credit then 3
  else if cmdClass b == 6 && cmdOp b == 4 && !atLeast16 (m.csig (u8 b 0x11)) (BitVec.ofNat 16 (u16 b 0x12)) then 4
  else if isStagePut b && !m.stageRoom (u8 b 0x12) (moveLen b) then 5
  else if isStageGet b && ((m.stage (u8 b 0x12)).nextRecord.isNone || m.stageReading (u8 b 0x12)) then 6
  else if isEmit b && 8 ≤ (m.heldEmits (u8 b 0x11)).length then 8
  else if 16 ≤ (m.cmdq q).started.length || 64 ≤ m.coreInFlight (m.queueCore q) then 7
  else if m.unitFull q b then 8
  else 0

/-- A verified weight patch holds this META UNIT: it is of a group named by the patch, at or after its k_s (R336). -/
def Mach.patchHolds (m : Mach) (b : List Byte) : Bool :=
  isUnit b && (match m.fpl.patch with
    | some p => p.groups.any fun x => x.1 == u8 b 0x11 && decide (0 ≤ (w32 b 0x14 - x.2).toInt)
    | none => false)

/-- Core c runs a self-test segment, during which it starts nothing (R363). -/
def Mach.inSelfTest (m : Mach) (c : Nat) : Bool := (sget (fun _ => {}) m.safety.selfTest c).running

/-- Queue q may start commands: enabled or draining over a repeated span, not in error, its core in service
and running (R292, R297, R307). -/
def Mach.mayStart (m : Mach) (q : Nat) : Bool :=
  (m.qEnabled q || ((m.cmdq q).draining && (m.cmdq q).redo.isSome)) && !(m.cmdq q).error && !(m.cmdq q).rehoming &&
    m.hasHead q && m.inService (m.queueCore q) && !m.inSelfTest (m.queueCore q) && m.runs (4 * m.queueCore q + 3)

/-! ## The choice among heads (R293) -/

/-- BEGIN must wait: the entry holds another instant that egress has not taken (R180). -/
def Mach.beginWaits (m : Mach) (t : Nat) (k : Word) : Bool :=
  let g := m.fld (Reg.PNT_PT_CFG t) 16 4
  let e := k.toNat % 8
  m.fld (Reg.PNT_DSTAT g e) 0 2 == 1 && m.reg (Reg.PNT_DK g e) != k

/-- Egress still has to read what instant k − 2 of group g left in the copy of k: a held EMIT of k − 2 selects
one of these kinds (Table 11-11). -/
def Mach.copyBusy (m : Mach) (g : Nat) (k : Word) (kinds : Nat) : Bool :=
  (m.heldEmits g).any fun h => h.k == k - 2 &&
    ((m.cmdq h.q).started.find? fun c => c.num == h.num).any fun c => (u8 c.bytes 0x13 &&& kinds) != 0

/-- The head's unit would hold it back: a UNIT for a patch, a BEGIN for its drop entry, a GRID_BEGIN or TRACK_LIFE for its copy. -/
def Mach.unitHolds (m : Mach) (b : List Byte) : Bool :=
  m.patchHolds b ||
    (cmdClass b == 4 && cmdOp b == 1 && u8 b 0x11 ≤ 31 && m.beginWaits (u8 b 0x11) (w32 b 0x14)) ||
    (cmdClass b == 5 && cmdOp b == 1 && m.copyBusy (u8 b 0x11) (w32 b 0x14) 1) ||
    (cmdClass b == 5 && cmdOp b == 5 && m.copyBusy (u8 b 0x11) (w32 b 0x14) 4)

/-- The islands of the stores that a TENSOR, VECTOR or MOVE command of core c reads and writes run: a stopped one holds its state, so the
command waits for it (R37). -/
def Mach.storesRun (m : Mach) (c : Nat) (b : List Byte) : Bool :=
  !(cmdClass b == 1 || cmdClass b == 2 || cmdClass b == 3) || (m.runs (4 * c + 1) && m.runs (128 + 2 * (c / 4)))

/-- The head of queue q is startable, and its unit runs and takes it. -/
def Mach.headReady (m : Mach) (q : Nat) : Bool :=
  m.mayStart q &&
    (let b := m.headBytes q
     (m.headErr q b).toBool && m.waitReason q == 0 && m.runs (m.unitIsland q b) && m.storesRun (m.queueCore q) b && !m.unitHolds b)

/-- Queues by their distance in rotation from the one that started last on their core (log entry 146). -/
def Mach.rotation (m : Mach) (q : Nat) : Nat := (q + 255 - sget (fun _ => 255) m.lastQ (m.queueCore q)) % 256

/-- The head of o goes before the head of q: a GOLDEN command first, then the higher priority, then rotation. -/
def Mach.precedes (m : Mach) (o q : Nat) : Bool :=
  let go := isGolden (m.headBytes o)
  let gq := isGolden (m.headBytes q)
  if go != gq then go
  else
    let po := m.fld (Reg.CQ_CFG o) 16 2
    let pq := m.fld (Reg.CQ_CFG q) 16 2
    if po = pq then decide (m.rotation o < m.rotation q) else decide (pq < po)

/-- No other startable head of the core goes before that of queue q. -/
def Mach.chosen (m : Mach) (q : Nat) : Bool :=
  (List.range 256).all fun o => o == q || m.queueCore o != m.queueCore q || !m.headReady o || !m.precedes o q

/-- The start stage takes the head of queue q now: nothing holds it, the islands of its unit and of its stores run, and it is the one
chosen. -/
def Mach.goes (m : Mach) (q : Nat) : Bool :=
  m.waitReason q == 0 && m.runs (m.unitIsland q (m.headBytes q)) && m.storesRun (m.queueCore q) (m.headBytes q) && m.chosen q

/-- The operations of a class whose fields its unit checks. -/
def knownOp (cls op : Nat) : Bool :=
  match cls with
  | 1 => 1 ≤ op && op ≤ 3
  | 2 => 1 ≤ op && op ≤ 8
  | 3 => 1 ≤ op && op ≤ 4
  | 4 => 1 ≤ op && op ≤ 12
  | 5 => 1 ≤ op && op ≤ 6
  | _ => true

/-- The start command of an operation takes this head: it is of that class and operation, or of no operation of the class, which
the unit refuses as it accepts it (R179, R255, R271, R295; log entry 147). -/
def picks (cls op : Nat) (b : List Byte) : Bool := cmdClass b == cls && (cmdOp b == op || !knownOp cls (cmdOp b))

/-- A new head is looked at: its common fields, and whether it begins to wait for a step (R295, R412). -/
def Mach.checkHead (m : Mach) (q : Nat) : Mach :=
  if m.mayStart q then
    let b := m.headBytes q
    match m.headErr q b with
    | .error e => m.cmdError q e
    | .ok _ =>
      if m.needsStep q b && !(m.cmdq q).credit && !(m.cmdq q).stepWaited then
        (m.onCmdq q fun x => { x with stepWaited := true }).raise (Reg.CQ_EVENT q) 0x4
      else m
  else m

/-! ## Vector contexts (R233 to R235, R240) -/

def Mach.setContext (m : Mach) (n : Nat) (x : VContext) : Mach := { m with contexts := sput (fun _ => {}) n x m.contexts }

/-- The contexts that p selects, changed. -/
def Mach.onContexts (m : Mach) (p : Nat → VContext → Bool) (f : VContext → VContext) : Mach :=
  m.contexts.foldl (fun m x => if p x.1 x.2 then m.setContext x.1 (f x.2) else m) m

/-- A context without an item; its registers stay. -/
def VContext.freed (x : VContext) : VContext := { v := x.v, s := x.s }

/-- A context works on command n of queue q. -/
def VContext.holds (x : VContext) (q : Nat) (n : Word) : Bool := x.state != .free && x.queue == q && x.num == n

/-- Contexts that a VECTOR command of core c can take now: the golden context of its engine, or up to tmax free threads of each
engine of its mask (R235, R251). -/
def Mach.freeThreads (m : Mach) (c : Nat) (b : List Byte) : List Nat :=
  ((List.range 4).filter (u8 b 0x12).testBit).flatMap fun e =>
    if isGolden b then [goldenKey c e]
    else (((List.range 32).map (threadKey c e)).filter fun t => (m.context t).state == .free).take (u8 b 0x13)

/-- Items of a VECTOR command (R233). -/
def vectorItems (b : List Byte) : Nat := (u32 b 0x14 + 64 * u8 b 0x18 - 1) / (64 * u8 b 0x18)

/-- A VECTOR command's items on its contexts, in increasing number in turn: each context shows the last of its items, whose writes
are still to become visible; with an operand in HBM, which the voxel table of a PROBE is, it waits for the point unit (R239, log
entry 151). -/
def Mach.handItems (m : Mach) (c q : Nat) (x : Started) : Mach :=
  let b := x.bytes
  let items := vectorItems b
  let ts := (m.freeThreads c b).take items
  let hbm := cmdOp b == 4 || u8 b 0x19 % 4 == 2 || u8 b 0x19 / 4 % 4 == 2 || u8 b 0x19 / 16 % 4 == 2
  ts.zipIdx.foldl (fun m t => m.setContext t.1 { m.context t.1 with
    state := if hbm then .memHbm else .ready, queue := q, num := x.num,
    item := t.2 + (items - 1 - t.2) / ts.length * ts.length, vec := u8 b 0x18 - 1 }) m

/-- A VECTOR command of queue q holds a context. -/
def Mach.holdsContext (m : Mach) (q : Nat) (n : Word) : Bool := m.contexts.any fun y => y.2.holds q n

/-- Free threads of core c go to the VECTOR commands that hold none, the earliest first (R235). -/
def Mach.handOut (m : Mach) (c : Nat) : Mach :=
  let waiting := (m.cq.filter fun p => m.queueCore p.1 = c).flatMap fun p =>
    (p.2.started.filter fun x => cmdClass x.bytes = 2 && !m.holdsContext p.1 x.num).map fun x => (p.1, x)
  (waiting.mergeSort fun a b => decide (a.2.at_.toNat ≤ b.2.at_.toNat)).foldl (fun m p => m.handItems c p.1 p.2) m

/-- The contexts that hold command n of queue q on core c are freed, and go to the commands that wait for them. -/
def Mach.freeContexts (m : Mach) (c q : Nat) (n : Word) : Mach :=
  (m.onContexts (fun _ x => x.holds q n) VContext.freed).handOut c

/-- The start stage takes the head (R292, R293): HEAD or the repeated span moves on, the command is in
flight, START is traced. `put` is the record of a STAGE_PUT. -/
def Mach.take (m : Mach) (q : Nat) (b put : List Byte) : Mach :=
  let num := m.headNum q
  let x := m.cmdq q
  let quiet := x.redo.isSome && x.redoDone.contains num
  let credit := x.credit && !m.needsStep q b
  let m :=
    if x.retake || x.redo.isSome then m else m.setReg (Reg.CQ_HEAD q) (num + 1)
  let redo := m.redoAfter q
  let m := m.setCmdq q { x with
    started := x.started ++ [{ num := num, bytes := b, quiet := quiet, redo := x.redo.isSome, put := put, at_ := m.time.count }],
    credit := credit, stepWaited := false, retake := false, redo := redo,
    redoDone := if redo.isNone then [] else x.redoDone }
  let m := m.setReg (Reg.CQ_LAST q) (BitVec.ofNat 32 (u16 b 4 * 2 ^ 16 + u16 b 6))
  let m := { m with lastQ := sput (fun _ => 255) (m.queueCore q) q m.lastQ }
  let m := if cmdClass b = 2 then m.handOut (m.queueCore q) else m
  if m.tracesQueue q (cmdFlag b 2) 4 then
    m.trace (0x80 + m.queueCore q) 0x10 x.redo.isSome.toNat (startPayload q num b)
  else m

/-- The command of queue q that started last, changed. -/
def Mach.noteLast (m : Mach) (q : Nat) (f : Started → Started) : Mach :=
  m.onCmdq q fun x => { x with started := match x.started.reverse with
    | c :: cs => (f c :: cs).reverse
    | [] => [] }

/-- The command of queue q that started last adds into these 32-byte words of HBM: one that a started command of another cluster
adds into as well is left undefined (R178, R248). -/
def Mach.noteAdds (m : Mach) (q : Nat) (words : List Nat) : Mach :=
  let raced := words.filter fun w => m.cq.any fun p => m.queueCore p.1 / 4 != m.queueCore q / 4 && p.2.started.any fun c => c.adds.contains w
  (raced.foldl (fun m w => m.freeBytes (32 * w) 32) m).noteLast q fun c => { c with adds := words }

/-- The extents of addressed memory that a MOVE of core c writes. -/
def moveExtents (core : Nat) (b : List Byte) : List (Nat × Nat) :=
  let dst := spaceBase core (u8 b 0x11 / 16) + u64 b 0x28
  match cmdOp b with
  | 1 => (List.range (u16 b 0x14)).map fun i => (dst + i * u32 b 0x34, u32 b 0x18)
  | 2 => (List.range (u16 b 0x14)).map fun i => (dst + i * u32 b 0x34, u32 b 0x18)
  | 4 => [(dst, moveLen b)]
  | _ => []

/-- The extents that a started command of queue q writes: what of them it has written when a fault discards it is open, so they
become free (R355, log entry 143). -/
def Mach.dropWrites (m : Mach) (q : Nat) (c : Started) : Mach :=
  (if cmdClass c.bytes = 3 then moveExtents (m.queueCore q) c.bytes else c.wrote).foldl (fun m e => m.freeBytes e.1 e.2) m

/-! ## Completion (R294) -/

/-- DONE advances over the completed prefix; `fuel` bounds the commands completed beyond it. -/
def Mach.advanceDone (m : Mach) (q : Nat) : Nat → Mach
  | 0 => m
  | fuel + 1 =>
    let d := m.reg (Reg.CQ_DONE q)
    if (m.cmdq q).ahead.contains d then
      ((m.onCmdq q fun x => { x with ahead := x.ahead.filter (· != d) }).setReg (Reg.CQ_DONE q) (d + 1)).advanceDone q fuel
    else m

/-- The units after command d and the latest at or before it, newest first. -/
def keepUnits (d : Word) (l : List UnitMark) : List UnitMark :=
  (l.takeWhile fun u => decide (0 < (u.num - d).toInt)) ++ (l.dropWhile fun u => decide (0 < (u.num - d).toInt)).take 1

/-- Command n counts as completed. Of the META UNITs at or before the oldest uncompleted command only the latest
is kept (R304). -/
def Mach.countDone (m : Mach) (q : Nat) (n : Word) : Mach :=
  let m :=
    if (n - m.reg (Reg.CQ_DONE q)).toInt < 0 then m
    else m.onCmdq q fun x => { x with ahead := x.ahead ++ [n] }
  let m := m.advanceDone q ((m.cmdq q).ahead.length)
  let d := m.reg (Reg.CQ_DONE q)
  let m := m.onCmdq q fun x => { x with units := keepUnits d x.units }
  m.onObs fun o => { o with progressAt := m.time.count }

/-- A draining queue with nothing left in flight reads disabled (R297); its watch points write their results (R410). -/
def Mach.drainCheck (m : Mach) (q : Nat) : Mach :=
  let x := m.cmdq q
  if x.draining && x.started.isEmpty && x.redo.isNone then
    ((m.setCmdq q { x with draining := false }).raise (Reg.CQ_EVENT q) 0x8).watchFlush q
  else m

/-- What STAGE_PUT and STAGE_GET do to their stage queue when they complete (R109, R301). -/
def Mach.stageDone (m : Mach) (c : Started) : Mach :=
  let n := u8 c.bytes 0x12
  if isStagePut c.bytes then (m.stagePush n c.put).1
  else if isStageGet c.bytes then
    match m.stageCfgOf n with
    | some cfg => m.setStage n (((m.stage n).doMark.release).settle cfg.geom false)
    | none => m
  else m

/-- Started command c of queue q completes: its signals, DONE, the trace, in the order of R294. -/
def Mach.complete (m : Mach) (q : Nat) (c : Started) : Mach :=
  let core := m.queueCore q
  let k := core / 4
  let ss := u8 c.bytes 9
  let cs := u16 c.bytes 0xC
  let m := m.stageDone c
  let m := if ss.testBit 7 && !c.quiet then m.setSem k (ss % 64) (m.sem k (ss % 64) + 1) else m
  let m := if cs.testBit 15 && !c.quiet then m.addCsig (cs % 256) 1 else m
  let m := m.onCmdq q fun x => { x with started := x.started.filter fun d => d.num != c.num }
  let m := if cmdClass c.bytes = 2 then m.freeContexts core q c.num else m
  let m := (m.countDone q c.num).bump (448 + core) 1
  ((m.traceDone q c.num c.bytes 0 c.redo).drainCheck q).checkHead q

/-- The head of queue q starts when it is of this class and operation and startable: `body` gives its
effect from the core, the queue, its number and its bytes, or the error its unit finds. -/
def Mach.startWith (m : Mach) (q cls op : Nat)
    (body : Mach → Nat → List Byte → Except CmdErr Mach) : Mach :=
  let b := m.headBytes q
  if m.mayStart q && picks cls op b then
    match m.headErr q b with
    | .error e => m.cmdError q e
    | .ok _ =>
      if m.goes q then
        if !knownOp cls (cmdOp b) then m.cmdError q (0x10, 0x02)
        else match body m q b with
        | .error e => m.cmdError q e
        | .ok m' => (m'.take q b []).checkHead q
      else m
  else m

/-- The head of queue q starts when it is of this class and operation and startable and its unit finds no error. All of its writes
are made as it starts, so an unsynchronised reader sees the new contents from then on, and of two unsynchronised writes that of the
later start remains (log entry 143): `run` then gives its effect from the core, the queue, the started command and the module in which it is in flight. -/
def Mach.startRun (m : Mach) (q cls op : Nat) (check : Mach → Nat → List Byte → Except CmdErr Unit)
    (run : Mach → Nat → Started → Mach) : Mach :=
  let b := m.headBytes q
  if m.mayStart q && picks cls op b then
    match m.headErr q b with
    | .error e => m.cmdError q e
    | .ok _ =>
      if m.goes q then
        if !knownOp cls (cmdOp b) then m.cmdError q (0x10, 0x02)
        else match check m q b with
        | .error e => m.cmdError q e
        | .ok _ =>
          let m := m.take q b []
          match (m.cmdq q).started.getLast? with
          | some c => (run m q c).checkHead q
          | none => m
      else m
  else m

end Sys2Proof.Machine
end

