-- ==== Sys2Proof/Machine/CalCore.lean ====
section
/-! DEFINITION. Calibration entries (R133 to R135, R459), the copy that serves each user while a swap is
pending (R140, R141), and the steps by which a swap ends. -/

namespace Sys2Proof.Machine

/-! ## Entries -/

/-- The 256 bytes of entry s: its active copy, or its shadow. -/
def Mach.calEntry (m : Mach) (shadow : Bool) (s : Nat) : List Byte :=
  (List.range 64).flatMap fun j => wordBytes (m.reg (if shadow then Reg.CAL_SHADOW s j else Reg.CAL_ACTIVE s j))

def calModel (e : List Byte) : Nat := u8 e 0

/-- Parameter bytes that a model uses (Table 6-2), as offsets and lengths. -/
def calParams : Nat → List (Nat × Nat)
  | 1 => [(0x50, 48)]
  | 2 => [(0x50, 48)]
  | 3 => [(0x50, 6)]
  | 4 => [(0x50, 3), (0x54, 20)]
  | 5 => [(0x50, 4)]
  | _ => []

/-- Offsets of the FP32 fields of an entry of a model. -/
def calFloats (model : Nat) : List Nat :=
  (List.range 12).map (fun i => 0x10 + 4 * i) ++
    match model with
    | 1 => (List.range 11).map fun i => 0x50 + 4 * i
    | 2 => (List.range 11).map fun i => 0x50 + 4 * i
    | 4 => (List.range 5).map fun i => 0x54 + 4 * i
    | 5 => [0x50]
    | _ => []

def fAt (e : List Byte) (off : Nat) : FVal := f32 (w32 e off)

def FVal.isZero (v : FVal) : Bool := FVal.eq v FVal.zero

/-- 0 < v. -/
def FVal.pos (v : FVal) : Bool := FVal.lt FVal.zero v

/-- A parameter area within its ranges (Table 6-2). -/
def calParamsOk (e : List Byte) : Bool :=
  match calModel e with
  | 1 => (fAt e 0x50).pos && (fAt e 0x54).pos && (fAt e 0x6C).isZero && (fAt e 0x78).isZero &&
      u16 e 0x7C != 0 && u16 e 0x7E != 0
  | 2 => (fAt e 0x50).pos && (fAt e 0x54).pos && (fAt e 0x70).isZero && (fAt e 0x74).isZero &&
      (fAt e 0x78).pos && FVal.le (fAt e 0x78) (f32 0x40490FF9) && u16 e 0x7C != 0 && u16 e 0x7E != 0
  | 3 => 10000000 ≤ u32 e 0x50 && u32 e 0x50 ≤ 1000000000 && 1 ≤ u16 e 0x54 && u16 e 0x54 ≤ 256
  | 4 => u8 e 0x52 < 2
  | 5 => !(fAt e 0x50).isZero
  | _ => true

/-- The reserved bytes, with the parameter bytes that the model does not use (R135). -/
def calReserved (e : List Byte) : List Nat :=
  span 1 4 ++ span 0xC 0x10 ++ span 0xD0 0xFC ++
    (span 0x50 0xD0).filter fun o => !(calParams (calModel e)).any fun p => p.1 ≤ o && o < p.1 + p.2

/-- Every field within its range (R135, cause 2). -/
def calRangeOk (e : List Byte) : Bool :=
  calModel e ≤ 5 && (firstNonZero e (calReserved e)).isNone && u32 e 4 ≤ 500000000 && u32 e 8 ≤ 500000000 &&
    (s32 e 0x4C).natAbs ≤ 4294967 && (calFloats (calModel e)).all (fun o => (fAt e o).isFinite) && calParamsOk e

/-- Element (i, j) of AᵀA − I. -/
def calGram (e : List Byte) (i j : Nat) : FVal :=
  let a := fun r c => fAt e (0x10 + 16 * r + 4 * c)
  FVal.add (FVal.sum ((List.range 3).map fun r => FVal.mul (a r i) (a r j))) (if i = j then FVal.ofInt (-1) else FVal.zero)

/-- Determinant of A. -/
def calDet (e : List Byte) : FVal :=
  let a := fun r c => fAt e (0x10 + 16 * r + 4 * c)
  let minor := fun i j => FVal.add (FVal.mul (a 1 i) (a 2 j)) (FVal.neg (FVal.mul (a 1 j) (a 2 i)))
  FVal.sum [FVal.mul (a 0 0) (minor 1 2), FVal.mul (a 0 1) (minor 2 0), FVal.mul (a 0 2) (minor 0 1)]

/-- R134: A is a rotation, not a reflection, and every element of AᵀA − I lies within ±0.001. -/
def calRotationOk (e : List Byte) : Bool :=
  (calDet e).pos &&
  (List.range 3).all fun i => (List.range 3).all fun j =>
    FVal.le (FVal.mul (FVal.ofInt 1000) (FVal.abs (calGram e i j))) (FVal.ofInt 1)

/-- The models permitted for a stream kind (R135). -/
def kindModels : Nat → List Nat
  | 1 => [1, 2]
  | 2 => [3]
  | 3 => [3]
  | 4 => [0, 4]
  | 5 => [0, 5]
  | _ => [0]

/-- The first cause an entry fails, in the order of R139: 1 crc, 2 range, 3 rotation, 4 model against kind; 0
when it is valid for a stream of this kind (R135). -/
def calCause (e : List Byte) (kind : Nat) : Nat :=
  if w32 e 0xFC ≠ crc32c (e.take 0xFC) then 1
  else if !calRangeOk e then 2
  else if !calRotationOk e then 3
  else if !(kindModels kind).contains (calModel e) then 4
  else 0

/-- The default entry of R459. -/
def calDefault : List Byte :=
  let w := fun (v : Nat) => leBytes 4 v
  let body := leBytes 16 0 ++ w 0x3F800000 ++ leBytes 16 0 ++ w 0x3F800000 ++ leBytes 16 0 ++ w 0x3F800000 ++ w 0 ++
    List.replicate 0xBC 0
  body ++ wordBytes (crc32c body)

/-- Both copies of an entry set at move-in (R459). -/
def Mach.calLoad (m : Mach) (s : Nat) (e : List Byte) : Mach :=
  (List.range 64).foldl (fun m j =>
    (m.setReg (Reg.CAL_ACTIVE s j) (w32 e (4 * j))).setReg (Reg.CAL_SHADOW s j) (w32 e (4 * j))) m

/-- The two copies of an entry exchanged (R141). -/
def Mach.calExchange (m : Mach) (s : Nat) : Mach :=
  (List.range 64).foldl (fun m j =>
    let a := m.reg (Reg.CAL_ACTIVE s j)
    let b := m.reg (Reg.CAL_SHADOW s j)
    (m.setReg (Reg.CAL_ACTIVE s j) b).setReg (Reg.CAL_SHADOW s j) a) m

/-! ## Streams, slots and users -/

/-- Kind of a stream (Table 3-15). -/
def Mach.strKind (m : Mach) (s : Nat) : Nat := m.fld (Reg.STR_SOURCE s) 28 4

def Mach.strEnabled (m : Mach) (s : Nat) : Bool := m.rbit (Reg.STR_CTRL s) 31

/-- The active entry of stream s is valid (R135). -/
def Mach.calValid (m : Mach) (s : Nat) : Bool := calCause (m.calEntry false s) (m.strKind s) = 0

def Mach.group (m : Mach) (g : Nat) : Group := sget (fun _ => {}) m.groups g
def Mach.setGroup (m : Mach) (g : Nat) (x : Group) : Mach := { m with groups := sput (fun _ => {}) g x m.groups }

def Mach.fusEnabled (m : Mach) (g : Nat) : Bool := m.rbit (Reg.FUS_CTRL g) 31

/-- The group is enabled or draining. -/
def Mach.fusBusy (m : Mach) (g : Nat) : Bool := m.fusEnabled g || (m.group g).draining

/-- An enabled slot of group g names stream s. -/
def Mach.fusNames (m : Mach) (g s : Nat) : Bool :=
  (List.range 32).any fun i => m.rbit (Reg.FUS_MEM g i) 31 && m.fld (Reg.FUS_MEM g i) 0 8 == s

/-- The pose integrator is enabled with stream s as an input. -/
def Mach.poseReads (m : Mach) (s : Nat) : Bool :=
  m.rbit Reg.CAL_POSE_CFG 31 && ((m.rbit Reg.CAL_POSE_CFG 30 && m.fld Reg.CAL_POSE_CFG 16 8 == s) ||
    (List.range 8).any fun w => m.rbit (Reg.CAL_POSE_WHEEL w) 31 && m.fld (Reg.CAL_POSE_WHEEL w) 0 8 == s)

def Mach.onCal (m : Mach) (f : CalState → CalState) : Mach := { m with cal := f m.cal }

/-! ## Which copy serves whom (R123, R140, R141) -/

def Swap.has (w : Swap) (s : Nat) : Bool := w.set.testBit s

/-- The entry of stream s in force for the next instant of group g. -/
def Mach.calFor (m : Mach) (g s : Nat) : List Byte :=
  match m.cal.swap with
  | some w => m.calEntry (w.has s && w.groups.contains g) s
  | none => m.calEntry false s

/-- The entry of stream s in force for pose tick n. -/
def Mach.calForTick (m : Mach) (n s : Nat) : List Byte :=
  match m.cal.swap with
  | some w => m.calEntry (w.has s && w.pose && (match w.poseTick with
      | some b => decide (n < b)
      | none => true)) s
  | none => m.calEntry false s

/-- The map boundary of stream s in a swap, once it has come. -/
def Swap.mapBound (w : Swap) (s : Nat) : Option (BitVec 64) :=
  if w.mapUsers.contains s then sget (fun _ => none) w.mapAt s else some w.at_

/-- The entry whose map converts a datagram of stream s stamped at this count (R84, R140); after the swap has completed, a
datagram stamped before its map boundary still takes the former entry. -/
def Mach.calForMap (m : Mach) (s : Nat) (stamp : BitVec 64) : List Byte :=
  match (sget (fun _ => none) m.cal.formerMap s).filter fun f => decide (stamp.toNat < f.1.toNat), m.cal.swap with
  | some f, _ => f.2
  | none, some w => m.calEntry (w.has s && (w.mapBound s).all fun b => decide (stamp.toNat < b.toNat)) s
  | none, none => m.calEntry false s

/-- Exposure and readout offsets of an entry (Table 6-1). -/
def calExposure (e : List Byte) : Nat := u32 e 4
def calReadout (e : List Byte) : Nat := u32 e 8

/-! ## The end of a swap (R141, R142) -/

/-- Every tick before the integrator's boundary is final (R149). -/
def Mach.poseFinalBefore (m : Mach) (b : Nat) : Bool :=
  match m.cal.pose.ticks with
  | [] => true
  | t :: _ => decide (b ≤ m.cal.pose.first) || decide (b + 19 ≤ t.n)

/-- One register of a configuration copy in the layout of a register image (R320). -/
def copyRecord (p : Nat × Word) : List Byte := leBytes 4 p.1 ++ leBytes 4 1 ++ wordBytes p.2

/-- The configuration copy in HBM follows the configuration (R369): the words and calibration entries that the image in the staging
region names. Show Home's copy has no layout of the spec's, and lies as a register image in its region (log entry 108). -/
def Mach.copyWords (m : Mach) : Mach :=
  match m.fpl.copyAt with
  | none => m
  | some at_ =>
    match parseImage m.fpl.image with
    | .error _ => m.setBytes at_ (m.fpl.copy.flatMap copyRecord)
    | .ok im =>
      let m := im.writes.foldl (fun m w => match rowAt w.addr with
        | some (r, _) => if r.lmask = 0 then m else m.setWord (at_ + w.field) ((w.value &&& ~~~r.lmask) ||| (m.reg w.addr &&& r.lmask))
        | none => m) m
      (records 260 (im.dataOf 7)).zipIdx.foldl (fun m p =>
        m.setBytes (at_ + im.offOf 7 + 260 * p.2 + 4) (m.calEntry false (u32 p.1 0))) m

/-- The configuration copy takes the active entries of a completed swap (R369). -/
def Mach.copyEntries (m : Mach) (set : Nat) : Mach :=
  let addrs := ((List.range 256).filter set.testBit).flatMap fun s => (List.range 64).map fun j => Reg.CAL_ACTIVE s j
  { m with fpl := { m.fpl with copy := addrs.foldl (fun t a => sput regReset a (m.reg a) t) m.fpl.copy } }.copyWords

/-- Map boundary and former entry of each stream of a completed swap, the former entry being the shadow (R140, R141). Where every user
left by draining, with no release, the boundary is the completion (log entry 165). -/
def Mach.keepMaps (m : Mach) (w : Swap) : Mach :=
  let put := fun (t : Sparse (Option (BitVec 64 × List Byte))) s =>
    sput (fun _ => none) s (some ((w.mapBound s).getD m.time.count, m.calEntry true s)) t
  let l := ((List.range 256).filter w.has).foldl put m.cal.formerMap
  m.onCal fun c => { c with formerMap := l }

/-- The swap completes when every user has passed its boundary (R141). -/
def Mach.swapCheck (m : Mach) : Mach :=
  match m.cal.swap with
  | none => m
  | some w =>
    let poseDone := !w.pose || (match w.poseTick with
      | some b => m.poseFinalBefore b
      | none => false)
    if w.groups.isEmpty && poseDone then
      let m := (((m.keepMaps w).onCal fun c => { c with swap := none }).copyEntries w.set).setRBit Reg.CAL_STATUS 1 false
      ((m.setReg Reg.CAL_SWAP_LAST m.now).incReg Reg.CAL_SWAP_COUNT).raise Reg.CAL_EVENT 0x2
    else m

/-- Group g passes its boundary at a release, or leaves the users when it has drained. `passed` marks a release,
which is also the map boundary of its streams. Answers whether the group was a user. -/
def Mach.swapPass (m : Mach) (g : Nat) (passed : Bool) : Mach × Bool :=
  match m.cal.swap with
  | none => (m, false)
  | some w =>
    if w.groups.contains g then
      let here := (List.range 256).filter fun s => w.has s && m.fusNames g s && (sget (fun _ => none) w.mapAt s).isNone
      let mapAt := if passed then here.foldl (fun t s => sput (fun _ => none) s (some m.time.count) t) w.mapAt else w.mapAt
      let w := { w with groups := w.groups.filter (· != g), mapAt := mapAt }
      ((m.onCal fun c => { c with swap := some w }).swapCheck, passed)
    else (m, false)

end Sys2Proof.Machine
end

