-- ==== Sys2Proof/Machine/RegWrite.lean ====
section
/-! DEFINITION. What a write of a register's word does by its access code alone (R16, R17, R385): the lock of RWL
fields, the range rule of the register, the implemented bits. The blocks' own rules stand in their families. -/

namespace Sys2Proof.Machine

/-- RWL fields are locked: the configuration is committed or being committed, and CCHK_OPEN is clear (R385); in
phase B they are locked whatever CCHK_OPEN holds (R344). -/
def Mach.locked (m : Mach) : Bool :=
  let phase := m.fld Reg.FPL_STATUS 1 3
  decide (2 ≤ phase) ||
    ((m.rbit Reg.CCHK_STATUS 1 || m.rbit Reg.CCHK_STATUS 2) && !m.rbit Reg.CCHK_OPEN 0)

/-- A posted write to the block of an address waits: its sluice_busy reads 1. -/
def Mach.blockPosted (m : Mach) (a : Nat) : Bool :=
  m.port.posted.any fun p => (blockOf a).any fun x => x.1 == p.block

/-- The cause for which a write of a word is refused by its block's sluice, its access code and its range, if it is: 0x01, 0x02, 0x03 or
0x04. The lock is judged before the range (log entry 124). -/
def Mach.writeCause (m : Mach) (a : Nat) (v : Word) : Option Nat :=
  match rowAt a with
  | none => some 0x01
  | some (r, _) =>
    if m.blockPosted a then some 0x02
    else match r.acc with
    | .ro => none
    | .sqc => none
    | .w1p => none
    | .wo => if r.bad (v &&& r.mask) then some 0x04 else none
    | .rw =>
      if (m.reg a ^^^ v) &&& r.lmask ≠ 0 && m.locked then some 0x03
      else if r.bad (v &&& r.mask) then some 0x04
      else none

/-- The store of an accepted word: implemented bits only. -/
def Mach.storeReg (m : Mach) (a : Nat) (v : Word) : Mach :=
  match rowAt a with
  | some (r, _) =>
    match r.acc with
    | .rw => m.setReg a (v &&& r.mask)
    | .sqc => m.writeBack a v
    | _ => m
  | none => m

/-- A write that has reached its block, under the block's own rule `bad` and with its effect `f`, which stores
the word (log entry 5). -/
def Mach.arrive (m : Mach) (a : Nat) (v : Word) (bad : Bool) (f : Mach → Mach) : Mach :=
  match m.writeCause a v with
  | some c => m.busError (c != 0x02) a c 0x60 0
  | none => if bad then m.refuse a else f m

/-- What a block makes of a write that its access code lets in: whether its own rule refuses it (cause 0x04), and
the module after it. -/
abbrev Effect := Bool × Mach

/-- A refused write. -/
def Mach.bad (m : Mach) : Effect := (true, m)

/-- A write that has reached its block, with what the block makes of it. -/
def Mach.arriveWith (m : Mach) (a : Nat) (v : Word) (e : Effect) : Mach := m.arrive a v e.1 fun _ => e.2

end Sys2Proof.Machine
end

