-- ==== Sys2Proof/Machine/Ingress.lean ====
section
/-! DEFINITION. Streams and their ingress queues: which stream an item goes to (R80), where its queue lies (R90),
how it enters the queue or is dropped (R92), enabling a stream (R94), and the streams Show Home creates (R338). -/

namespace Sys2Proof.Machine

/-- Show Home runs: no owner floorplan is in force (Table 13-8). -/
def Mach.showHome (m : Mach) : Bool := m.rbit Reg.FPL_STATUS 4

/-- A happening in the low-rate hub, whose island must run (R37). -/
def atHub (s : State) (f : Mach → Mach) : Host.Outcome State Fault Refusal := act s fun m => if m.runs 164 then f m else m

/-- Bits per pixel of a camera data type (Table 3-2); 0 for an unsupported one. -/
def csiBits (dt : Nat) : Nat :=
  match dt with
  | 0x2A => 8
  | 0x2B => 10
  | 0x2C => 12
  | 0x2D => 14
  | 0x2E => 16
  | 0x1E => 16
  | 0x24 => 24
  | 0x12 => 8
  | _ => 0

def Mach.stream (m : Mach) (s : Nat) : Stream := sget (fun _ => {}) m.streams s
def Mach.setStream (m : Mach) (s : Nat) (x : Stream) : Mach := { m with streams := sput (fun _ => {}) s x m.streams }
def Mach.onStream (m : Mach) (s : Nat) (f : Stream → Stream) : Mach := m.setStream s (f (m.stream s))

def Mach.onPorts (m : Mach) (f : Ports → Ports) : Mach := { m with ports := f m.ports }

/-! ## Counting -/

/-- An item of stream s dropped or damaged. -/
def Mach.strDrop (m : Mach) (s : Nat) : Mach := (m.incReg (Reg.STR_DROPS s)).bumpStream s 0 16

/-- A malformed datagram of stream s. -/
def Mach.strMalf (m : Mach) (s : Nat) : Mach := m.incReg (Reg.STR_MALF s)

/-- A field of a register plus 1, up to its largest value. -/
def Mach.saturate (m : Mach) (a lo n : Nat) : Mach := m.setFld a lo n (min (2 ^ n - 1) (m.fld a lo n + 1))

/-- A field of a register plus 1, wrapping. -/
def Mach.incFld (m : Mach) (a lo n : Nat) : Mach := m.setFld a lo n (m.fld a lo n + 1)

/-- A packet of a CSI-2 port discarded (Table 3-12). -/
def Mach.csiDiscard (m : Mach) (n : Nat) : Mach := (m.saturate (Reg.SNS_CSI_ERR n) 0 16).raise Reg.SNS_EVENT 0x1

/-- A frame of a MAC discarded by R75 or R80. -/
def Mach.macDrop (m : Mach) (p : Nat) : Mach := m.incReg (Reg.SNS_MAC_RXDROP p)

/-! ## Queues in ingress memory (R90) -/

/-- The allocation a source draws from: CSI ports 0 to 7, MACs 8 to 11, the low-rate hub 12. -/
def allocOf (src : Word) : Option Nat :=
  match src.field 28 4 with
  | 0 => none
  | 1 => some (src.field 24 4)
  | 2 => some (8 + src.field 24 4)
  | 3 => some (8 + src.field 24 4)
  | _ => some 12

/-- Offset and size of a queue in its allocation, in bytes. -/
def inqExtent (inq : Word) : Nat × Nat := (inq.field 20 12 * 4096, inq.field 0 12 * 8192)

/-- Stream s, with this source and queue, has a queue wholly within its allocation that overlaps none of the
other enabled streams of that allocation. -/
def Mach.inqOk (m : Mach) (s : Nat) (src inq : Word) : Bool :=
  match allocOf src with
  | none => false
  | some q =>
    let (off, size) := inqExtent inq
    decide (0 < size) && decide (off + size ≤ m.fld (Reg.SNS_INQ_SIZE q) 0 12 * 65536) &&
      (List.range 256).all fun o =>
        o == s || !m.strEnabled o || allocOf (m.reg (Reg.STR_SOURCE o)) != some q ||
          (let (oo, on) := inqExtent (m.reg (Reg.STR_INQ o)); !overlaps off size oo on)

/-- Geometry of the ingress queue of stream s: span 1, record mode (R100, R102). -/
def Mach.inqGeom (m : Mach) (s : Nat) : QGeom :=
  { base := 0, size := m.fld (Reg.STR_INQ s) 0 12 * 4096, span := true }

/-- Bytes that the queue can take now: the rest of the filling basin, and the other basin when it is released. -/
def Tbq.capacity (q : Tbq) (g : QGeom) : Nat := q.room g + if q.rl = q.l then g.size else 0

/-- n bytes, not more than its capacity, written into a queue with span 1; it swaps in the middle when full. -/
def Tbq.pour (q : Tbq) (g : QGeom) (n : Nat) : Tbq :=
  let a := min n (q.room g)
  let q := ({ q with f := q.f + a }).settle g true
  let b := min (n - a) (q.room g)
  ({ q with f := q.f + b }).settle g true

/-- The end of a record in record mode. -/
def Tbq.endRecord (q : Tbq) (g : QGeom) : Tbq := q.flush.settle g false

/-- Bytes of a record: header, payload and padding (R93). -/
def recordBytes (payload : Nat) : Nat := (32 + payload + 31) / 32 * 32

/-- An overflow of stream s: the next record carries flags[3] (R92, Table 3-11). -/
def Mach.strOverflow (m : Mach) (s : Nat) : Mach :=
  (m.raise (Reg.STR_EVENT s) 0x2).onStream s fun x => { x with first := true }

/-- An item enters the ingress queue of stream s, or is dropped whole (R92). -/
def Mach.enqueue (m : Mach) (s : Nat) (it : Item) : Mach :=
  let g := m.inqGeom s
  let n := recordBytes it.payload.length
  let x := m.stream s
  if n ≤ x.q.capacity g then
    m.setStream s { x with
      q := (x.q.pour g n).endRecord g
      items := x.items ++ [{ it with seq := x.seq, first := x.first, left := n }]
      seq := x.seq + 1
      first := false }
  else (m.strDrop s).strOverflow s

/-! ## Selection (R80) -/

/-- The lowest-numbered enabled stream that satisfies p. -/
def Mach.selectStream (m : Mach) (p : Nat → Bool) : Option Nat :=
  (List.range 256).find? fun s => m.strEnabled s && p s

/-- Kind and port of a stream's source. -/
def Mach.strFrom (m : Mach) (s kind port : Nat) : Bool :=
  m.strKind s == kind && m.fld (Reg.STR_SOURCE s) 24 4 == port

/-- The stream that selects a frame of a camera port. -/
def Mach.cameraStream (m : Mach) (n vc dt : Nat) : Option Nat :=
  m.selectStream fun s => m.strFrom s 1 n && m.fld (Reg.STR_SOURCE s) 20 4 == vc && m.fld (Reg.STR_SOURCE s) 14 6 == dt

/-- The stream that selects a datagram of a MAC. -/
def Mach.scannerStream (m : Mach) (p : Nat) (d : Datagram) : Option Nat :=
  m.selectStream fun s =>
    (m.strFrom s 2 p || m.strFrom s 3 p) && m.fld (Reg.STR_MATCH s) 16 16 == d.dstPort.toNat &&
      (m.fld (Reg.STR_MATCH s) 0 16 == 0 || m.fld (Reg.STR_MATCH s) 0 16 == d.srcPort.toNat) &&
      (!m.rbit (Reg.STR_MATCH2 s) 12 || d.vlan.map BitVec.toNat == some (m.fld (Reg.STR_MATCH2 s) 0 12))

/-! ## Enabling and disabling (R94) -/

/-- Draining ends once the last record of a disabled stream lies in HBM; `busy` says that an item of it is still
in progress at its port. -/
def Mach.strBusy (m : Mach) (s : Nat) : Bool :=
  !(m.stream s).items.isEmpty || (m.ports.frames.any fun p => p.2.any fun f => f.stream == s && !f.skip) ||
    m.ports.spi.any fun p => p.2.reading.any fun r => r.2 == some s

def Mach.strDrained (m : Mach) (s : Nat) : Mach :=
  if m.rbit (Reg.STR_STATUS s) 3 && !m.strBusy s then m.setRBit (Reg.STR_STATUS s) 3 false else m

/-- The estimator begins afresh (R85, R86). -/
def Mach.mapRestart (m : Mach) (s : Nat) : Mach :=
  (m.setFld (Reg.STR_STATUS s) 1 2 0).onStream s fun x => { x with blockMin := none, minima := [], deviating := 0 }

/-- Fires already made count neither as matched nor as missed for stream s. -/
def Mach.ignoreFires (m : Mach) (s : Nat) : Mach :=
  m.onPorts fun p => { p with fsync := p.fsync.map fun e =>
    (e.1, { e.2 with fires := e.2.fires.map fun f => (f.1, (256 + s) :: f.2) }) }

/-- Stream s starts (R94). -/
def Mach.strStart (m : Mach) (s : Nat) : Mach :=
  let m := (m.setRBit (Reg.STR_CTRL s) 31 true).setRBit (Reg.STR_STATUS s) 5 false
  let m := m.onStream s fun x => { x with q := {}, items := [], first := true, lastSweep := none, lastAz := none, sweepOwed := false }
  (m.mapRestart s).ignoreFires s

/-- Stream s stops at its next item boundary and drains (R94). -/
def Mach.strStop (m : Mach) (s : Nat) : Mach :=
  ((m.setRBit (Reg.STR_CTRL s) 31 false).setRBit (Reg.STR_STATUS s) 3 true).strDrained s

/-! ## Streams that Show Home creates (R338, Table 13-10) -/

/-- Show Home's own HBM map: the ring of stream s (log entry 16). -/
def shRing (s : Nat) : Nat := 2 ^ 32 + s * 2 ^ 25

/-- Show Home creates stream s with this source, control, match and queue registers. -/
def Mach.shCreate (m : Mach) (s : Nat) (src ctrl mat inq : Word) : Mach :=
  let m := (((m.setReg (Reg.STR_SOURCE s) src).setReg (Reg.STR_CTRL s) ctrl).setReg (Reg.STR_MATCH s) mat).setReg (Reg.STR_MATCH2 s) 0
  let m := ((m.setReg (Reg.STR_RING_BASE_LO s) (BitVec.ofNat 32 (shRing s))).setReg (Reg.STR_RING_BASE_HI s)
    (BitVec.ofNat 32 (shRing s / 2 ^ 32))).setReg (Reg.STR_RING_SIZE s) 0x02000000
  (m.setReg (Reg.STR_INQ s) inq).strStart s

/-- Queue of the stream of a discovery order on a CSI-2 port or a MAC (R338). -/
def shInq (order : Nat) : Word :=
  if order = 0 then 64 else BitVec.ofNat 32 ((128 + 8 * (order - 1)) * 2 ^ 20 + 4)

/-- Streams already found with numbers in a span of 16. -/
def Mach.shFound (m : Mach) (base : Nat) : Nat :=
  (m.sh.found.filter fun f => base ≤ f.stream && f.stream < base + 16).length

/-- A discovery: the stream is created and recorded, and FPL_EVENT.sh_change rises. -/
def Mach.shDiscover (m : Mach) (base key : Nat) (src ctrl mat : Word) : Mach :=
  let order := m.shFound base
  if order < 16 then
    let m := ({ m with sh := { m.sh with changed := true } }.shCreate (base + order) src ctrl mat (shInq order)).raise Reg.FPL_EVENT 0x80
    let t := m.time.count
    { m with sh := { m.sh with found := m.sh.found ++ [{ stream := base + order, key := key, lastAt := t }] } }
  else m

/-- A Frame Start seen on a camera port. -/
def Mach.shSeesCamera (m : Mach) (n vc dt : Nat) : Mach :=
  if m.showHome && csiBits dt != 0 && (m.cameraStream n vc dt).isNone then
    m.shDiscover (16 * n) (64 * vc + dt) (BitVec.ofNat 32 (2 ^ 28 + n * 2 ^ 24 + vc * 2 ^ 20 + dt * 2 ^ 14)) 0 0
  else m

/-- A valid Cerawick Generic Point Format datagram to the scanner port of Show Home. -/
def Mach.shSeesScanner (m : Mach) (p : Nat) (d : Datagram) : Mach :=
  if m.showHome && d.dstPort.toNat == m.fld Reg.FPL_SH_SCAN 0 16 && (m.scannerStream p d).isNone then
    m.shDiscover (128 + 16 * p) d.srcPort.toNat (BitVec.ofNat 32 (2 * 2 ^ 28 + p * 2 ^ 24)) 5000
      (BitVec.ofNat 32 (d.dstPort.toNat * 2 ^ 16 + d.srcPort.toNat))
  else m

end Sys2Proof.Machine
end

