-- ==== Sys2Proof/Machine/Camera.lean ====
section
/-! DEFINITION. CSI-2 receivers, I3C controllers and FSYNC outputs (R71 to R74, R83). -/

namespace Sys2Proof.Machine

/-! ## Frames (R71, R72) -/

def Mach.openFrames (m : Mach) (n : Nat) : List OpenFrame := sget (fun _ => []) m.ports.frames n

/-- The open frames of a port replaced; SNS_CSI_STATn.in_frame follows. -/
def Mach.setFrames (m : Mach) (n : Nat) (l : List OpenFrame) : Mach :=
  let m := m.onPorts fun p => { p with frames := sput (fun _ => []) n l p.frames }
  m.setRBit (Reg.SNS_CSI_STAT n) 1 (!l.isEmpty)

def OpenFrame.is (f : OpenFrame) (vc dt : Nat) : Bool := f.vc == vc && f.dt == dt

def Mach.csiEnabled (m : Mach) (n : Nat) : Bool := m.rbit (Reg.SNS_CSI_CFG n) 31 && m.runs (156 + n)

def Mach.fsyncOf (m : Mach) (n : Nat) : Fsync := sget (fun _ => {}) m.ports.fsync n
def Mach.setFsync (m : Mach) (n : Nat) (x : Fsync) : Mach :=
  m.onPorts fun p => { p with fsync := sput (fun _ => {}) n x p.fsync }

/-- The match window of a triggered camera stream in ns (R83). -/
def Mach.matchWindow (m : Mach) (s : Nat) : Nat := m.fld (Reg.STR_CTRL s) 0 16 * 10000

/-- The latest fire that lies no more than the match window before now. -/
def Mach.matchFire (m : Mach) (s n : Nat) : Option (Word × List Nat) :=
  (m.fsyncOf n).fires.reverse.find? fun f =>
    reached m.now f.1 && decide ((m.now - f.1).toNat ≤ m.matchWindow s)

/-- The configured height of a stream, when its active entry is a valid camera entry (R72). -/
def Mach.frameHeight (m : Mach) (s : Nat) : Option Nat :=
  if m.calValid s then some (u16 (m.calEntry false s) 0x7E) else none

/-- Bytes poured into the ingress queue of a stream, as far as it can take them. -/
def Mach.pourInto (m : Mach) (s n : Nat) : Mach :=
  m.onStream s fun x => { x with q := x.q.pour (m.inqGeom s) n }

/-- A frame of stream s begins, with this stamp (R72, R92). -/
def Mach.beginFrame (m : Mach) (n vc dt s : Nat) (stamp : Word) (triggered : Bool) : Mach :=
  let x := m.stream s
  let t := m.now
  let it : Item := { kind := 1, triggered := triggered, first := x.first, seq := x.seq, stamp := stamp, tFirst := stamp, tLast := stamp, left := 32 }
  if 32 ≤ x.q.capacity (m.inqGeom s) then
    let m := (m.pourInto s 32).onStream s fun x => { x with seq := x.seq + 1, first := false }
    m.setFrames n (m.openFrames n ++ [{ vc := vc, dt := dt, stream := s, item := it, height := m.frameHeight s, startAt := t }])
  else
    let m := (m.strDrop s).strOverflow s
    m.setFrames n (m.openFrames n ++ [{ vc := vc, dt := dt, stream := s, item := it, skip := true, startAt := t }])

/-- A frame whose lines are dropped: it has no fire, or its fire has a frame (R83). -/
def Mach.skipFrame (m : Mach) (n vc dt s : Nat) : Mach :=
  let t := m.now
  (m.strDrop s).setFrames n (m.openFrames n ++ [{ vc := vc, dt := dt, stream := s, item := { kind := 1, stamp := t, tFirst := t, tLast := t }, skip := true, startAt := t }])

/-- A frame closes as one item (R72). -/
def Mach.closeFrame (m : Mach) (n : Nat) (f : OpenFrame) (damaged : Bool) : Mach :=
  let m := m.setFrames n ((m.openFrames n).filter fun g => !g.is f.vc f.dt)
  if f.skip then m.strDrained f.stream
  else
    let x := m.stream f.stream
    let g := m.inqGeom f.stream
    let pad := min (x.q.capacity g) (recordBytes f.item.payload.length - (32 + f.item.payload.length))
    let wrong := match f.height with
      | some h => f.lines != h
      | none => false
    let it := { f.item with
      damaged := f.item.damaged || damaged || wrong || f.cut
      info0 := BitVec.ofNat 32 (f.lines % 65536 * 65536 + f.width % 65536)
      info1 := BitVec.ofNat 32 (f.dt * 256 + f.vc)
      left := f.item.left + pad }
    m.setStream f.stream { x with q := (x.q.pour g pad).endRecord g, items := x.items ++ [it] }

/-- Every open frame of a port that p selects closes as damaged. -/
def Mach.closeDamaged (m : Mach) (n : Nat) (p : OpenFrame → Bool) : Mach :=
  ((m.openFrames n).filter p).foldl (fun m f => m.closeFrame n f true) m

def OpenFrame.damage (f : OpenFrame) : OpenFrame := { f with item := { f.item with damaged := true } }

/-- A packet whose header ECC finds uncorrectable names no frame: it damages every open frame of the port (log entry 17). -/
def Mach.badHeader (m : Mach) (n : Nat) : Mach := (m.csiDiscard n).setFrames n ((m.openFrames n).map OpenFrame.damage)

/-- A packet with this header: what becomes of an uncorrectable one, or the effect `f` of a good or corrected one
(Table 3-2). -/
def Mach.withHeader (m : Mach) (n : Nat) (ecc : EccResult) (f : Mach → Mach) : Mach :=
  if !m.csiEnabled n then m
  else match ecc with
    | .uncorrectable => m.badHeader n
    | .corrected => f (m.saturate (Reg.SNS_CSI_ERR n) 16 16)
    | .clean => f m

/-- No enabled stream takes packets of this channel and type, or the type is unsupported (R71). -/
def Mach.unselected (m : Mach) (n vc dt : Nat) : Bool := csiBits dt == 0 || (m.cameraStream n vc dt).isNone

/-- The frame number of a short packet is recorded (Table 3-2). -/
def Mach.recordFrameNo (m : Mach) (n vc : Nat) (num : BitVec 16) : Mach :=
  m.onPorts fun p => { p with frameNo := sput (fun _ => 0) (16 * n + vc) num p.frameNo }

/-- A Frame Start (R71, R72, R83). -/
def Mach.frameStart (m : Mach) (n vc dt : Nat) : Mach :=
  let m := (m.shSeesCamera n vc dt).closeDamaged n fun f => f.is vc dt
  match (if csiBits dt = 0 then none else m.cameraStream n vc dt) with
  | none => m.csiDiscard n
  | some s =>
    let src := m.reg (Reg.STR_SOURCE s)
    if src.bit 13 then
      let o := src.field 10 3
      match m.matchFire s o with
      | none => m.skipFrame n vc dt s
      | some f =>
        if f.2.contains s then m.skipFrame n vc dt s
        else
          let x := m.fsyncOf o
          let m := m.setFsync o { x with fires := x.fires.map fun g => if g.1 = f.1 then (g.1, s :: g.2) else g }
          m.beginFrame n vc dt s f.1 true
    else m.beginFrame n vc dt s m.now false

def execFrameStart (n : Fin 8) (vc : BitVec 4) (p : ShortPacket) (s : State) :
    Host.Outcome State Fault Refusal :=
  act s fun m => m.withHeader n p.ecc fun m => (m.recordFrameNo n vc.toNat p.num).frameStart n vc.toNat p.dt.toNat

/-- The open frame of a channel and type replaced. -/
def Mach.putFrame (m : Mach) (n : Nat) (f : OpenFrame) : Mach :=
  m.setFrames n ((m.openFrames n).map fun g => if g.is f.vc f.dt then f else g)

/-- A line taken into its frame, or the frame's remainder lost (R92). -/
def Mach.takeLine (m : Mach) (n : Nat) (f : OpenFrame) (line : List Byte) : Mach :=
  let f := { f with lines := f.lines + 1, width := if f.lines = 0 then 8 * line.length / csiBits f.dt else f.width }
  if f.skip || f.cut then m.putFrame n f
  else
    let room := (m.stream f.stream).q.capacity (m.inqGeom f.stream)
    let part := line.take room
    let it := { f.item with payload := f.item.payload ++ part, left := f.item.left + part.length }
    let m := m.pourInto f.stream part.length
    if line.length ≤ room then m.putFrame n { f with item := it }
    else (m.strOverflow f.stream).putFrame n { f with item := it, cut := true }

/-- A long packet with a good or corrected header (R71, R72). -/
def Mach.longPacket (m : Mach) (n vc dt : Nat) (line : List Byte) (crcOk : Bool) : Mach :=
  match (m.openFrames n).find? fun f => f.is vc dt with
  | some f => if crcOk then m.takeLine n f line else (m.csiDiscard n).putFrame n f.damage
  | none => if !crcOk || m.unselected n vc dt then m.csiDiscard n else m

def execCsiLongPacket (n : Fin 8) (vc : BitVec 4) (dt : BitVec 6) (line : List Byte) (ecc : EccResult) (crcOk : Bool)
    (s : State) : Host.Outcome State Fault Refusal :=
  act s fun m => m.withHeader n ecc fun m => m.longPacket n vc.toNat dt.toNat line crcOk

/-- A Frame End with a good or corrected header (R71, R72). -/
def Mach.frameEnd (m : Mach) (n vc dt : Nat) : Mach :=
  match (m.openFrames n).find? fun f => f.is vc dt with
  | some f => m.closeFrame n f false
  | none => if m.unselected n vc dt then m.csiDiscard n else m

def execFrameEnd (n : Fin 8) (vc : BitVec 4) (p : ShortPacket) (s : State) :
    Host.Outcome State Fault Refusal :=
  act s fun m => m.withHeader n p.ecc fun m => (m.recordFrameNo n vc.toNat p.num).frameEnd n vc.toNat p.dt.toNat

/-- No Frame End within frame_timeout_ms of Frame Start (R72). -/
def Mach.frameTimeout (m : Mach) (n vc dt : Nat) : Mach :=
  match (m.openFrames n).find? fun f => f.is vc dt with
  | some f =>
    if reached m.now (f.startAt + BitVec.ofNat 32 (m.fld (Reg.SNS_CSI_CFG n) 8 8 * 1000000)) then m.closeFrame n f true else m
  | none => m

def execFrameTimeout (n : Fin 8) (vc : BitVec 4) (dt : BitVec 6) (s : State) : Host.Outcome State Fault Refusal :=
  act s fun m => if m.csiEnabled n then m.frameTimeout n vc.toNat dt.toNat else m

/-- The lanes of a receiver gain or lose synchronisation (Table 3-12). -/
def execCsiLaneSyncChange (n : Fin 8) (on : Bool) (s : State) : Host.Outcome State Fault Refusal :=
  act s fun m => if m.csiEnabled n then m.setRBit (Reg.SNS_CSI_STAT n) 0 on else m

/-! ## I3C (R73) -/

def Mach.i3cOf (m : Mach) (n : Nat) : I3c := sget (fun _ => {}) m.ports.i3c n

/-- A controller's hidden part replaced; SNS_I3C_STATn.queue depth follows. -/
def Mach.setI3c (m : Mach) (n : Nat) (x : I3c) : Mach :=
  (m.onPorts fun p => { p with i3c := sput (fun _ => {}) n x p.i3c }).setFld (Reg.SNS_I3C_STAT n) 0 5 x.cmds.length

/-- A write of SNS_I3C_DATAn queues four bytes. -/
def Mach.i3cData (m : Mach) (n : Nat) (v : Word) : Effect :=
  let x := m.i3cOf n
  (false, m.setI3c n { x with wdata := x.wdata ++ wordBytes v })

def execI3cDataWrite (n : Fin 8) (v : Word) (s : State) : Host.Outcome State Fault Refusal :=
  act s fun m => m.arriveWith (Reg.SNS_I3C_DATA n) v (m.i3cData n v)

/-- A read of SNS_I3C_DATAn takes four read bytes; bytes that are not there have no stated value and are free
(log entry 7). -/
def Mach.i3cPop (m : Mach) (n : Nat) : Word × Mach :=
  let x := m.i3cOf n
  let have_ := x.rdata.take 4
  let m := m.setI3c n { x with rdata := x.rdata.drop 4 }
  if have_.length = 4 then (BitVec.ofNat 32 (ofLe have_), m)
  else
    let (f, m) := m.free
    (BitVec.ofNat 32 (ofLe (have_ ++ (wordBytes f).drop have_.length)), m)

/-- The word goes to the host as the data of its read. -/
def Mach.i3cRead (m : Mach) (n : Nat) : Mach :=
  let (w, m) := m.i3cPop n
  m.onPort fun p => { p with answer := { p.answer with data := wordBytes w } }

def execI3cDataRead (n : Fin 8) (s : State) : Host.Outcome State Fault Refusal :=
  act s fun m => m.i3cRead n

/-- A short time lies more than d ns ahead of now. -/
def Mach.moreAhead (m : Mach) (t : Word) (d : Int) : Bool := decide (d < (t - m.now).toInt)

/-- A short time lies lo to hi ns ahead of now. -/
def Mach.aheadWithin (m : Mach) (t : Word) (lo hi : Int) : Bool :=
  decide (lo ≤ (t - m.now).toInt) && decide ((t - m.now).toInt ≤ hi)

/-- A write of SNS_I3C_CMDn queues a transfer (R73). -/
def Mach.i3cCmd (m : Mach) (n : Nat) (v : Word) : Effect :=
  let x := m.i3cOf n
  let t := m.reg (Reg.SNS_I3C_AT n)
  if 16 ≤ x.cmds.length || (v.bit 22 && m.moreAhead t 2000000000) then m.bad
  else (false, m.setI3c n { x with
    cmds := x.cmds ++ [(v, if v.bit 22 then some t else none)]
    headAt := if x.cmds.isEmpty && !x.busy then m.now else x.headAt })

def execI3cCmdQueue (n : Fin 8) (v : Word) (s : State) : Host.Outcome State Fault Refusal :=
  act s fun m => m.arriveWith (Reg.SNS_I3C_CMD n) v (m.i3cCmd n v)

/-- A timed transfer that starts now starts late: it came to the head of its queue after its time, or the stop of its port has
held it back. The count may step by 2 over the time itself (R45, R73, log entry 133). -/
def Mach.i3cLate (m : Mach) (x : I3c) (t : Word) : Bool := before t x.headAt || decide (1 < (m.now - t).toInt)

/-- The transfer at the head starts (R73); bytes beyond its write length stay queued for the next (log entry 133). -/
def Mach.i3cStart (m : Mach) (n : Nat) : Mach :=
  let x := m.i3cOf n
  match x.cmds with
  | (v, at_) :: rest =>
    let due := match at_ with
      | some t => reached m.now t
      | none => true
    if m.rbit (Reg.SNS_I3C_CFG n) 31 && !x.busy && due then
      let late := match at_ with
        | some t => m.i3cLate x t
        | none => m.rbit (Reg.SNS_I3C_STAT n) 9
      let used := if v.field 30 2 = 1 then 0 else v.field 16 6
      (m.setRBit (Reg.SNS_I3C_STAT n) 9 late).setI3c n { x with cmds := rest, busy := true, wdata := x.wdata.drop used }
    else m
  | [] => m

def execI3cTransferStart (n : Fin 8) (s : State) : Host.Outcome State Fault Refusal :=
  atHub s fun m => m.i3cStart n

/-- The transfer in progress completes. -/
def Mach.i3cDone (m : Mach) (n : Nat) (data : List Byte) (nack : Bool) : Mach :=
  let x := m.i3cOf n
  if x.busy then
    ((m.setRBit (Reg.SNS_I3C_STAT n) 8 nack).incFld (Reg.SNS_I3C_STAT n) 16 16).setI3c n
      { x with busy := false, headAt := m.now, rdata := x.rdata ++ data }
  else m

def execI3cTransferDone (n : Fin 8) (data : List Byte) (nack : Bool) (s : State) : Host.Outcome State Fault Refusal :=
  atHub s fun m => m.i3cDone n data nack

/-- An in-band interrupt is acknowledged and recorded. -/
def execI3cIbi (n : Fin 8) (s : State) : Host.Outcome State Fault Refusal :=
  atHub s fun m => if m.rbit (Reg.SNS_I3C_CFG n) 31 then m.raise Reg.SNS_EVENT 0x8 else m

/-! ## FSYNC (R74) -/

def Mach.fsyncGroupMode (m : Mach) (n : Nat) : Bool := m.rbit (Reg.SNS_FSYNC_CFG n) 30
def Mach.fsyncEnabled (m : Mach) (n : Nat) : Bool := m.rbit (Reg.SNS_FSYNC_CFG n) 31

/-- A pulse rises at its planned time t. -/
def Mach.fsyncRise (m : Mach) (n : Nat) (t : Word) : Mach :=
  let x := m.fsyncOf n
  let kept := x.fires.filter fun f => decide ((t - f.1).toNat < 2 ^ 30)
  (m.setReg (Reg.SNS_FSYNC_LAST n) t).setFsync n { x with
    pulseEnd := some (t + BitVec.ofNat 32 (m.fld (Reg.SNS_FSYNC_CFG n) 0 16 * 1000))
    fires := kept ++ [(t, [])] }

def Mach.fsyncMiss (m : Mach) (n : Nat) : Mach := m.incReg (Reg.SNS_FSYNC_STAT n)

/-- A planned fire (R74): in period mode the next follows it by the period; in group mode a fire already past,
or before the end of the pulse in progress, is skipped and counted. The count may step by 2 over the planned time (R45). -/
def Mach.fsyncFire (m : Mach) (n : Nat) : Mach :=
  if !m.fsyncEnabled n then m
  else if m.fsyncGroupMode n then
    let x := m.fsyncOf n
    match x.plans with
    | t :: rest =>
      if !reached m.now t then m
      else
        let clash := match x.pulseEnd with
          | some e => before t e
          | none => false
        let m := m.setFsync n { x with plans := rest }
        if decide (1 < (m.now - t).toInt) || clash then m.fsyncMiss n else m.fsyncRise n t
    | [] => m
  else
    let t := m.reg (Reg.SNS_FSYNC_NEXT n)
    if reached m.now t then
      (m.fsyncRise n t).setReg (Reg.SNS_FSYNC_NEXT n) (t + m.reg (Reg.SNS_FSYNC_PERIOD n))
    else m

def execFsyncFire (n : Fin 8) (s : State) : Host.Outcome State Fault Refusal :=
  atHub s fun m => m.fsyncFire n

/-- The pulse ends width_us after its rising edge. -/
def Mach.fsyncEnd (m : Mach) (n : Nat) : Mach :=
  match (m.fsyncOf n).pulseEnd with
  | some t => if reached m.now t then m.setFsync n { m.fsyncOf n with pulseEnd := none } else m
  | none => m

def execFsyncPulseEnd (n : Fin 8) (s : State) : Host.Outcome State Fault Refusal :=
  atHub s fun m => m.fsyncEnd n

/-- A write of SNS_FSYNC_NEXTn. -/
def Mach.fsyncNext (m : Mach) (n : Nat) (v : Word) : Effect :=
  let inPulse := match (m.fsyncOf n).pulseEnd with
    | some e => m.fsyncEnabled n && !m.fsyncGroupMode n && before v e
    | none => false
  if !m.aheadWithin v 10000 2000000000 || inPulse then m.bad
  else (false, m.storeReg (Reg.SNS_FSYNC_NEXT n) v)

def execFsyncNextWrite (n : Fin 8) (v : Word) (s : State) : Host.Outcome State Fault Refusal :=
  act s fun m => m.arriveWith (Reg.SNS_FSYNC_NEXT n) v (m.fsyncNext n v)

/-- width_us × 1,000 less than the period, in period mode. -/
def fsyncWidthOk (cfg period : Word) : Bool := cfg.bit 30 || decide (cfg.field 0 16 * 1000 < period.toNat)

/-- A write of SNS_FSYNC_CFGn. It judges SNS_FSYNC_NEXTn wherever the output was not already running in period mode. A new group
leaves the fires planned for the old one standing (log entry 134). -/
def Mach.fsyncCfg (m : Mach) (n : Nat) (v : Word) : Effect :=
  let a := Reg.SNS_FSYNC_CFG n
  let on := v.bit 31 && !v.bit 30 && !(m.fsyncEnabled n && !m.fsyncGroupMode n)
  if !fsyncWidthOk v (m.reg (Reg.SNS_FSYNC_PERIOD n)) ||
      (on && !m.aheadWithin (m.reg (Reg.SNS_FSYNC_NEXT n)) 10000 2000000000) then m.bad
  else
    let m := m.storeReg a v
    (false, if v.bit 31 && v.bit 30 then m else m.setFsync n { m.fsyncOf n with plans := [] })

/-- A write of SNS_FSYNC_PERIODn. -/
def Mach.fsyncPeriod (m : Mach) (n : Nat) (v : Word) : Effect :=
  if !fsyncWidthOk (m.reg (Reg.SNS_FSYNC_CFG n)) v then m.bad else (false, m.storeReg (Reg.SNS_FSYNC_PERIOD n) v)

def execFsyncCfgWrite (n : Fin 8) (period : Bool) (v : Word) (s : State) : Host.Outcome State Fault Refusal :=
  act s fun m =>
    if period then m.arriveWith (Reg.SNS_FSYNC_PERIOD n) v (m.fsyncPeriod n v)
    else m.arriveWith (Reg.SNS_FSYNC_CFG n) v (m.fsyncCfg n v)

/-- A triggered camera stream of FSYNC output n. -/
def Mach.triggeredBy (m : Mach) (n s : Nat) : Bool :=
  m.strEnabled s && m.strKind s == 1 && m.rbit (Reg.STR_SOURCE s) 13 && m.fld (Reg.STR_SOURCE s) 10 3 == n

/-- Stream s has a frame of the fire, or its miss of it is settled. -/
def fireSettled (s : Nat) (f : Word × List Nat) : Bool := f.2.contains s || f.2.contains (256 + s)

/-- Misses of stream s settled: every fire whose window has passed without a frame is counted once (R83). -/
def Mach.settleMisses (m : Mach) (n s : Nat) : Mach :=
  let x := m.fsyncOf n
  let passed := fun (f : Word × List Nat) =>
    !fireSettled s f && decide ((m.matchWindow s : Int) < (m.now - f.1).toInt)
  let missed := (x.fires.filter passed).length
  (m.addReg (Reg.STR_MISS s) missed).setFsync n { x with
    fires := x.fires.map fun f => if passed f then (f.1, (256 + s) :: f.2) else f }

/-- The match window of fires of output n has passed (R83). -/
def Mach.matchExpiry (m : Mach) (n : Nat) : Mach :=
  (List.range 256).foldl (fun m s => if m.triggeredBy n s then m.settleMisses n s else m) m

def execMatchWindowExpiry (n : Fin 8) (s : State) : Host.Outcome State Fault Refusal :=
  act s fun m => m.matchExpiry n

/-- A planned fire among those planned, the earliest first. -/
def insertPlan (t : Word) : List Word → List Word
  | [] => [t]
  | p :: ps => if before t p then t :: p :: ps else p :: insertPlan t ps

/-- A group-mode fire planned for Tk when the Cistern schedules it (R74, R116). -/
def Mach.planFires (m : Mach) (g : Nat) (tk : Word) : Mach :=
  (List.range 8).foldl (fun m n =>
    if m.fsyncEnabled n && m.fsyncGroupMode n && m.fld (Reg.SNS_FSYNC_CFG n) 24 4 == g then
      let t := tk + m.reg (Reg.SNS_FSYNC_LEAD n)
      if before m.now t || m.now == t then m.setFsync n { m.fsyncOf n with plans := insertPlan t (m.fsyncOf n).plans }
      else m.fsyncMiss n
    else m) m

/-- The fires of a dropped instant that have not been made are cancelled (R130). -/
def Mach.cancelFires (m : Mach) (g : Nat) (tk : Word) : Mach :=
  (List.range 8).foldl (fun m n =>
    if m.fsyncGroupMode n && m.fld (Reg.SNS_FSYNC_CFG n) 24 4 == g then
      let t := tk + m.reg (Reg.SNS_FSYNC_LEAD n)
      m.setFsync n { m.fsyncOf n with plans := (m.fsyncOf n).plans.filter (· != t) }
    else m) m

end Sys2Proof.Machine
end

