-- ==== Sys2Proof/Machine/Cistern.lean ====
section
/-! DEFINITION. The Cistern: instants (R114 to R117), coverage (R118), release (R119 to R123), missing, absent and
late members (R124 to R126), enabling and disabling a group (R130). -/

namespace Sys2Proof.Machine

/-! ## Time on 64 bits

Short times within 2^31 ns of a count are extended by it (R46), so that comparisons at any distance agree. -/

/-- The 64-bit value of a short time near a count. -/
def extend (near : BitVec 64) (t : Word) : Int := near.toNat + (t - near.setWidth 32).toInt

def Mach.ext (m : Mach) (t : Word) : Int := extend m.time.count t

/-! ## Release queues (R120, R324) -/

/-- FUS_CTRLg.age_enable. -/
def Mach.ageOn (m : Mach) (g : Nat) : Bool := m.rbit (Reg.FUS_CTRL g) 22

/-- The stage queue whose producer is group g. -/
def Mach.releaseQueue (m : Mach) (g : Nat) : Option Nat :=
  (List.range 128).find? fun n => match m.stageCfgOf n with
    | some c => c.producer == .group g
    | none => false

/-- Its descriptors have all been taken. -/
def Mach.releaseEmpty (m : Mach) (g : Nat) : Bool :=
  match m.releaseQueue g with
  | some n => (m.stage n).f == 0 && (m.stage n).rl == (m.stage n).l
  | none => true

/-- The release queue has room for a descriptor of n bytes (R119 condition 4). -/
def Mach.releaseRoom (m : Mach) (g n : Nat) : Bool :=
  match m.releaseQueue g with
  | some q => match m.stageCfgOf q with
    | some c => (m.stage q).fits c.geom n
    | none => false
  | none => false

/-! ## Members -/

def Mach.slotOn (m : Mach) (g i : Nat) : Bool := m.rbit (Reg.FUS_MEM g i) 31
def Mach.slotStream (m : Mach) (g i : Nat) : Nat := m.fld (Reg.FUS_MEM g i) 0 8

def Mach.triggered (m : Mach) (g : Nat) : Bool := m.rbit (Reg.FUS_CTRL g) 30

/-- The stream is ABSENT, or has enable clear and counts as ABSENT (R124). -/
def Mach.away (m : Mach) (s : Nat) : Bool := m.rbit (Reg.STR_STATUS s) 0 || !m.strEnabled s

/-- Interval I of a slot for an instant, in ns (R113). -/
def Mach.interval (m : Mach) (g i : Nat) (x : Inst) : Nat :=
  let us := m.fld (Reg.FUS_MEM g i) 8 23
  if us ≠ 0 then us * 1000
  else if !m.triggered g then (m.reg (Reg.FUS_PERIOD g)).toNat
  else match x.before with
    | some b => min 2000000000 (x.tk - b).toNat
    | none => m.fld (Reg.FUS_MINGAP g) 0 20 * 1000

/-! ## Coverage (Table 5-1) -/

/-- What a slot hands to an instant: its slot and stream, the records chosen, how many are handed over from
which ring offset, and the item time that covers. -/
structure Cover where
  slot : Nat
  stream : Nat
  chosen : List RingRec
  first : Nat
  count : Nat
  at_ : Word
deriving DecidableEq, Repr

/-- Item time of a camera record under an exposure and a readout offset (R81). -/
def itemTime (offs : Nat × Nat) (it : Item) : Word :=
  if it.triggered then it.stamp + BitVec.ofNat 32 offs.1 else it.stamp - BitVec.ofNat 32 offs.2

/-- The offsets of stream s in force for the next instant of group g (R82, R123). -/
def Mach.calOffs (m : Mach) (g s : Nat) : Nat × Nat := (calExposure (m.calFor g s), calReadout (m.calFor g s))

/-- Item time of a camera record for the next instant of group g (R81, R82, R123). -/
def Mach.cameraTime (m : Mach) (g s : Nat) (it : Item) : Word := itemTime (m.calOffs g s) it

/-- Short times of the points of a scanner record (Table 3-9). -/
def pointTimes (p : List Byte) : List Word := (List.range (p.length / 24)).map fun i => w32 p (24 * i + 0xC)

/-- A cover by chosen records, the first of which is handed over first. -/
def coverOf (i s : Nat) (chosen handed : List RingRec) (t : Word) : Option Cover :=
  handed.head?.map fun h => { slot := i, stream := s, chosen := chosen, first := h.off, count := min 65535 handed.length, at_ := t }

/-- The records listed up to and including the first that satisfies p; none where no record does. -/
def upTo (p : RingRec → Bool) : List RingRec → Option (List RingRec × RingRec)
  | [] => none
  | r :: rs => if p r then some ([r], r) else (upTo p rs).map fun x => (r :: x.1, x.2)

/-- The choice of Table 5-1 among every undamaged record, overwritten ones too (R126). -/
def Mach.choose (m : Mach) (g i : Nat) (x : Inst) : Option Cover :=
  let s := m.slotStream g i
  let iv : Int := m.interval g i x
  let tk : Int := x.tk.toInt
  let recs := (m.stream s).ring.filter fun r => !r.item.damaged
  match m.strKind s with
  | 1 =>
    match recs.find? fun r =>
        let t := extend r.at_ (m.cameraTime g s r.item)
        decide (2 * tk - iv ≤ 2 * t) && decide (2 * t < 2 * tk + iv) with
    | some r => coverOf i s [r] [r] (m.cameraTime g s r.item)
    | none => none
  | 2 => scan s iv tk recs
  | 3 => scan s iv tk recs
  | _ =>
    match upTo (fun r => decide (tk ≤ extend r.at_ r.item.stamp)) recs with
    | some (l, r) =>
      let handed := l.filter fun r => decide (tk - iv < extend r.at_ r.item.stamp)
      coverOf i s handed handed r.item.stamp
    | none => none
where
  /-- Scanners: every record holding a point of the window; covered by the first at or after Tk. -/
  scan (s : Nat) (iv tk : Int) (recs : List RingRec) : Option Cover :=
    match recs.find? fun r => decide (tk ≤ extend r.at_ r.item.tLast) with
    | some hit =>
      let handed := recs.filter fun r => (pointTimes r.item.payload).any fun t =>
        decide (tk - iv < extend r.at_ t) && decide (extend r.at_ t ≤ tk)
      let handed := if handed.isEmpty then [hit] else handed
      coverOf i s (if handed.contains hit then handed else handed ++ [hit]) handed hit.item.tLast
    | none => none

/-- A choice whose records all still lie in the ring. -/
def Cover.whole (c : Cover) : Bool := c.chosen.all RingRec.live

/-- Slots that an instant awaits: enabled, their stream not ABSENT. -/
def Mach.awaited (m : Mach) (g : Nat) : List Nat :=
  (List.range 32).filter fun i => m.slotOn g i && !m.away (m.slotStream g i)

/-- What the awaited members of an instant have chosen. -/
def Mach.covers (m : Mach) (g : Nat) (x : Inst) : List Cover := (m.awaited g).filterMap fun i => m.choose g i x

/-! ## Release (R119 to R123) -/

/-- The wait limit has passed, or the instant is to be released as though it had (R117, R119, R57). -/
def Mach.waitOver (m : Mach) (g : Nat) (x : Inst) : Bool :=
  x.expired || x.force || decide (x.tk.toInt + (m.fld (Reg.FUS_WAIT g) 0 21 * 1000 : Nat) ≤ (m.time.count.toNat : Int))

/-- Instant descriptor (Table 5-2). -/
def descriptor (x : Inst) (now : Word) (g flags : Nat) (m : Mach) (l : List Cover) : List Byte :=
  leBytes 4 x.k.toNat ++ leBytes 4 (x.tk.setWidth 32 : Word).toNat ++ leBytes 4 now.toNat ++ leBytes 1 g ++ leBytes 1 flags ++
    leBytes 1 l.length ++ leBytes 17 0 ++
    l.flatMap fun c => leBytes 1 c.stream ++ leBytes 1 c.slot ++ leBytes 1 (m.strKind c.stream) ++ leBytes 1 0 ++
      leBytes 4 c.first ++ leBytes 2 c.count ++ leBytes 2 0 ++ leBytes 4 c.at_.toNat

/-- Stream s becomes ABSENT (R124, R95). -/
def Mach.makeAbsent (m : Mach) (s : Nat) : Mach :=
  if m.rbit (Reg.STR_STATUS s) 0 then m
  else
    let m := (m.setRBit (Reg.STR_STATUS s) 0 true).raise (Reg.STR_EVENT s) 0x8
    (List.range 16).foldl (fun m g => if m.fusNames g s then m.raise (Reg.FUS_EVENT g) 0x4 else m) m

/-- Miss count of slot i of group g after a release (R124). -/
def Mach.missSlot (m : Mach) (g i : Nat) (covered : Bool) : Mach :=
  let x := m.group g
  let set := fun (n : Nat) => m.setGroup g { x with miss := sput (fun _ => 0) i n x.miss }
  if covered then set 0
  else if m.slotOn g i && !m.away (m.slotStream g i) then
    let n := min 8 (sget (fun _ => 0) x.miss i + 1)
    if n = 8 then (set n).makeAbsent (m.slotStream g i) else set n
  else m

/-- Records chosen and overwritten before the release are counted once each (R126). -/
def Mach.countLost (m : Mach) (c : Cover) : Mach :=
  let x := m.stream c.stream
  let n := (c.chosen.filter fun r => !r.live && !r.lost).length
  let m := (List.range n).foldl (fun m _ => m.strDrop c.stream) m
  m.setStream c.stream { x with ring := x.ring.map fun r => if c.chosen.contains r && !r.live then { r with lost := true } else r }

/-- The group's drain has ended: status, hold and swap (R130, R142, Table 14-1). -/
def Mach.drainGroup (m : Mach) (g : Nat) : Mach :=
  let x := m.group g
  if x.draining && x.sched.isEmpty && m.releaseEmpty g then
    let m := m.setGroup g { x with draining := false }
    ((m.swapPass g false).1).endHold (16 + g)
  else m

def Mach.drainGroups (m : Mach) : Mach := (List.range 16).foldl Mach.drainGroup m

/-- The release of R120, with the members that covered listed. -/
def Mach.release (m : Mach) (g : Nat) (x : Inst) (cov : List Cover) : Mach :=
  let listed := cov.filter Cover.whole
  let all := listed.length == (m.awaited g).length
  let missed := (m.awaited g).filter fun i => !(listed.any fun c => c.slot == i)
  let flags := (if all then 0 else 1) + (if x.forced then 2 else 0) + (if x.epoch then 4 else 0) +
    (if (m.group g).calNext then 8 else 0)
  let now := m.now
  let d := descriptor x now g flags m listed
  let m := match m.releaseQueue g with
    | some q => (m.stagePush q d).1
    | none => m
  let m := (cov.filter fun c => !c.whole).foldl Mach.countLost m
  let m := m.addCsig g 1
  let tk : Word := x.tk.setWidth 32
  let m := ((m.setReg (Reg.FUS_ILOG g (x.k.toNat % 64)) tk).setReg (Reg.FUS_LAST_K g) x.k).setReg (Reg.FUS_LAST_TK g) tk
  let m := ((m.setReg (Reg.FUS_LAST_REL g) now).incReg (Reg.FUS_RELEASES g)).setReg (Reg.FUS_NEXT_K g) (x.k + 1)
  let m := if x.forced then (m.incReg (Reg.FUS_FORCED g)).raise (Reg.FUS_EVENT g) 0x8 else m
  let m := if all then m else (m.incReg (Reg.FUS_EXPIRED g)).raise (Reg.FUS_EVENT g) 0x1
  let y := m.group g
  let m := m.setGroup g { y with
    sched := y.sched.drop 1, last := some x
    lastOffs := (List.range 32).foldl (fun t i =>
      if m.slotOn g i && m.strKind (m.slotStream g i) == 1 then
        sput (fun _ => (0, 0)) (m.slotStream g i) (m.calOffs g (m.slotStream g i)) t
      else t) []
    open_ := y.open_ ++ [{ k := x.k, tk := x.tk, ageRule := m.ageOn g, aged := x.aged, discarded := x.discarded }] }
  let m := listed.foldl (fun m c => m.missSlot g c.slot true) m
  let m := missed.foldl (fun m i => m.missSlot g i false) m
  let (m, swapped) := m.swapPass g true
  let m := m.setGroup g { m.group g with calNext := swapped }
  m.onSafety fun f => { f with jetDue := f.jetDue ++ [g] }

/-- The oldest pending instant, its conditions judged: the members that chose, and whether it may be released. -/
def Mach.judge (m : Mach) (g : Nat) : Option (Inst × List Cover × Bool × Bool) :=
  match (m.group g).sched with
  | x :: _ =>
    if x.pending && decide (x.tk.toInt ≤ (m.time.count.toNat : Int)) then
      let cov := m.covers g x
      let listed := cov.filter Cover.whole
      let ready := listed.length == (m.awaited g).length || m.waitOver g x
      some (x, cov, ready, m.releaseRoom g (32 + 16 * listed.length))
    else none
  | [] => none

/-- R119: the oldest pending instant is released where its conditions hold. -/
def Mach.tryRelease (m : Mach) (g : Nat) : Mach × Bool :=
  match m.judge g with
  | some (x, cov, ready, room) => if ready && room then (m.release g x cov, true) else (m, false)
  | none => (m, false)

def Mach.pendingCount (m : Mach) (g : Nat) : Nat := ((m.group g).sched.filter fun x => x.pending).length

/-- The first of a list that p selects, changed. -/
def mapFirst {α : Type} (p : α → Bool) (f : α → α) : List α → List α
  | [] => []
  | a :: l => if p a then f a :: l else a :: mapFirst p f l

/-- R117: an instant that waits becomes pending where there is room for it, or the oldest is forced: at once when
its release queue has room. `fuel` bounds the instants that wait. -/
def Mach.admitDue (m : Mach) (g : Nat) : Nat → Mach
  | 0 => m
  | fuel + 1 =>
    let x := m.group g
    if x.sched.any fun i => i.due && !i.pending then
      if m.pendingCount g < 64 then
        (m.setGroup g { x with sched := mapFirst (fun i => i.due && !i.pending) (fun i => { i with pending := true }) x.sched }).admitDue g fuel
      else
        let m := m.setGroup g { x with sched := mapFirst (fun _ => true) (fun i => { i with force := true, forced := true }) x.sched }
        let (m, ok) := m.tryRelease g
        if ok then
          let x := m.group g
          (m.setGroup g { x with sched := mapFirst (fun i => i.due && !i.pending) (fun i => { i with pending := true }) x.sched }).admitDue g fuel
        else m
    else m

/-- One release, and what it makes room for; a drain may end with it. -/
def Mach.releaseOne (m : Mach) (g : Nat) : Mach :=
  let (m, ok) := m.tryRelease g
  if ok then (m.admitDue g ((m.group g).sched.length)).drainGroup g else m

/-! ## Scheduling (R114 to R117) -/

/-- An instant is scheduled at Tk; group-mode FSYNC outputs plan their fires (R116). -/
def Mach.schedule (m : Mach) (g : Nat) (tk : BitVec 64) : Mach :=
  let x := m.group g
  let m := m.setGroup g { x with
    sched := x.sched ++ [{ k := x.nextK, tk := tk, before := x.latest }], nextK := x.nextK + 1, latest := some tk }
  m.planFires g (tk.setWidth 32)

/-- The first scheduled instant whose Tk has not been taken as reached. -/
def Mach.nextDue (m : Mach) (g : Nat) : Option Inst := (m.group g).sched.find? fun i => !i.due

/-- Short time reaches Tk (R116, R117). -/
def Mach.instantDue (m : Mach) (g : Nat) : Mach :=
  match m.nextDue g with
  | some x =>
    if x.tk.toInt ≤ (m.time.count.toNat : Int) then
      let y := m.group g
      let m := m.setGroup g { y with sched := mapFirst (fun i => !i.due) (fun i => { i with due := true }) y.sched }
      let m :=
        if y.running && !m.triggered g then m.schedule g (x.tk + (m.reg (Reg.FUS_PERIOD g)).setWidth 64) else m
      (m.admitDue g ((m.group g).sched.length)).drainGroup g
    else m
  | none => m

/-- The wait limit of the oldest pending instant expires (R119). -/
def Mach.waitExpiry (m : Mach) (g : Nat) : Mach :=
  match (m.group g).sched with
  | x :: rest =>
    if x.pending && m.waitOver g x then m.setGroup g { m.group g with sched := { x with expired := true } :: rest } else m
  | [] => m

def execWaitLimitExpiry (g : Fin 16) (s : State) : Host.Outcome State Fault Refusal :=
  act s fun m => m.waitExpiry g

/-- The 64-bit time of a short time near now, in two's complement: a time before the count began is negative. -/
def Mach.ext64 (m : Mach) (t : Word) : BitVec 64 := BitVec.ofInt 64 (m.ext t)

/-- The minimum gap to the latest Tk is kept (R115). -/
def Mach.gapOk (m : Mach) (g : Nat) (t : BitVec 64) : Bool :=
  match (m.group g).latest with
  | some l => decide (l.toInt + (m.fld (Reg.FUS_MINGAP g) 0 20 * 1000 : Nat) ≤ t.toInt)
  | none => true

/-- A GPIO or PPS_IN trigger of group g (R115). -/
def Mach.trigger (m : Mach) (g : Nat) (stamp : Word) : Mach :=
  let t := m.ext64 stamp
  if m.gapOk g t then m.schedule g t else (m.incReg (Reg.FUS_TRIGDROP g)).raise (Reg.FUS_EVENT g) 0x10

/-- A trigger from a source: every running triggered group that takes it. -/
def Mach.triggerAll (m : Mach) (src : Nat) (p : Word → Bool) (stamp : Word) : Mach :=
  (List.range 16).foldl (fun m g =>
    let c := m.reg (Reg.FUS_CTRL g)
    if (m.group g).running && c.bit 30 && c.field 28 2 == src && p c then m.trigger g stamp else m) m

/-- An edge of a pin, to groups triggered by it, whatever SNS_GPIO_EDGE holds. -/
def Mach.gpioTrigger (m : Mach) (pin : Nat) (level : Bool) (stamp : Word) : Mach :=
  m.triggerAll 1 (fun c => c.field 24 4 == pin && c.bit 23 == !level) stamp

/-- An accepted PPS_IN edge. -/
def Mach.ppsTrigger (m : Mach) (stamp : Word) : Mach := m.triggerAll 2 (fun _ => true) stamp

/-- A write of FUS_TRIGg (R115). -/
def Mach.hostTrigger (m : Mach) (g : Nat) (v : Word) : Effect :=
  let c := m.reg (Reg.FUS_CTRL g)
  let t := m.ext64 v
  if !c.bit 30 || !(m.group g).running || c.field 28 2 != 0 || !m.gapOk g t || !m.aheadWithin v (-1000000000) 2000000000 then m.bad
  else (false, m.schedule g t)

def execHostTrigger (g : Fin 16) (t : Word) (s : State) : Host.Outcome State Fault Refusal :=
  act s fun m => m.arriveWith (Reg.FUS_TRIG g) t (m.hostTrigger g t)

/-! ## Enabling and disabling (R130) -/

/-- The schedule starts at k = 0. -/
def Mach.groupStart (m : Mach) (g : Nat) : Mach :=
  let m := m.setRBit (Reg.FUS_CTRL g) 31 true
  let m := (m.setReg (Reg.FUS_NEXT_K g) 0).setGroup g { m.group g with
    sched := [], running := true, draining := false, nextK := 0, latest := none, last := none, miss := [], calNext := false,
    lastOffs := [], left := none, gridTks := [], lifeK := none, lifeIds := [] }
  if m.triggered g then m else m.schedule g (m.ext64 (m.reg (Reg.FUS_T0 g)))

/-- Clearing enable: scheduled instants whose Tk has not been reached are dropped with their fires. -/
def Mach.groupStop (m : Mach) (g : Nat) : Mach :=
  let x := m.group g
  let m := (m.setRBit (Reg.FUS_CTRL g) 31 false).setGroup g { x with
    sched := x.sched.filter Inst.due, running := false, draining := true }
  let m := (x.sched.filter fun i => !i.due).foldl (fun m i => m.cancelFires g (i.tk.setWidth 32)) m
  m.drainGroup g

/-- A slot's stream is of a kind that R112 lets it name. -/
def slotKind (k : Nat) : Bool := decide (1 ≤ k) && decide (k ≤ 6)

/-- No enabled camera slot holds interval 0 (R113). -/
def Mach.slotsTriggerable (m : Mach) (g : Nat) : Bool :=
  (List.range 32).all fun i => !m.slotOn g i || m.fld (Reg.FUS_MEM g i) 8 23 != 0 || m.strKind (m.slotStream g i) != 1

/-- A write of FUS_CTRLg (R112 to R114, R120, R130). -/
def Mach.fusCtrl (m : Mach) (g : Nat) (v : Word) : Effect :=
  let a := Reg.FUS_CTRL g
  let old := m.reg a
  let turnOn := v.bit 31 && !old.bit 31
  if (m.fusBusy g && ((v ^^^ old) &&& 0x7FC00000) ≠ 0) || (v.bit 30 && !old.bit 30 && !m.slotsTriggerable g) then m.bad
  else if turnOn && ((m.group g).draining || (m.releaseQueue g).isNone ||
      (!v.bit 30 && !m.aheadWithin (m.reg (Reg.FUS_T0 g)) 1000000 2000000000)) then m.bad
  else
    let on := old.bit 31
    let m' := (m.storeReg a v).setRBit a 31 on
    (false, if turnOn then m'.groupStart g else if on && !v.bit 31 then m'.groupStop g else m')

/-- A write of FUS_MEMg_i (R112, R113). -/
def Mach.fusMem (m : Mach) (g i : Nat) (v : Word) : Effect :=
  let s := v.field 0 8
  let twice := (List.range 32).any fun j => j != i && m.slotOn g j && m.slotStream g j == s
  if (m.fusBusy g && v != m.reg (Reg.FUS_MEM g i)) || (v.bit 31 && (!slotKind (m.strKind s) || twice ||
      (m.strKind s == 1 && v.field 8 23 == 0 && m.triggered g))) then m.bad
  else (false, m.storeReg (Reg.FUS_MEM g i) v)

/-- A write of FUS_WAITg or FUS_DEADLINEg leaves the deadline greater than the wait limit (R128, R130). -/
def Mach.fusWait (m : Mach) (g : Nat) (a wait deadline : Nat) (v : Word) : Effect :=
  if (m.fusBusy g && v != m.reg a) || deadline ≤ wait then m.bad else (false, m.storeReg a v)

/-- What the FUS block makes of a write (R130, R131). -/
def Mach.fusWrite (m : Mach) (a : Nat) (v : Word) : Effect :=
  let g := (a - 0x180000) / 0x400
  let o := (a - 0x180000) % 0x400
  if o = 0 then m.fusCtrl g v
  else if o = 0x14 then m.fusWait g a (v.field 0 21) (m.fld (Reg.FUS_DEADLINE g) 0 21) v
  else if o = 0x18 then m.fusWait g a (m.fld (Reg.FUS_WAIT g) 0 21) (v.field 0 21) v
  else if o = 0x1C then m.hostTrigger g v
  else if o = 0x10 then (if m.fusBusy g then m.bad else (false, m.storeReg a v))
  else if 0x80 ≤ o ∧ o < 0x100 then m.fusMem g ((o - 0x80) / 4) v
  else if (o = 0xC ∨ o = 0x20) ∧ m.fusBusy g ∧ v ≠ m.reg a then m.bad
  else (false, m.storeReg a v)

/-- A write that sets or clears the enable bit and leaves the rest. -/
def Mach.enableWrite (m : Mach) (a : Nat) (on : Bool) (w : Mach → Nat → Word → Effect) : Mach :=
  let v := (m.reg a).setBit 31 on
  m.arriveWith a v (w m a v)

def execGroupEnable (g : Fin 16) (s : State) : Host.Outcome State Fault Refusal :=
  act s fun m => m.enableWrite (Reg.FUS_CTRL g) true Mach.fusWrite

def execGroupDisable (g : Fin 16) (s : State) : Host.Outcome State Fault Refusal :=
  act s fun m => m.enableWrite (Reg.FUS_CTRL g) false Mach.fusWrite

/-! ## Records as they are posted (R119, R124, R125) -/

/-- The record is late for group g (R125): the last instant released is judged with the entries that were in force for it (R82). -/
def Mach.lateFor (m : Mach) (g s : Nat) (r : RingRec) : Bool :=
  match (m.group g).last, (List.range 32).find? fun i => m.slotOn g i && m.slotStream g i == s with
  | some x, some i =>
    let tk : Int := x.tk.toInt
    m.fusBusy g && (match m.strKind s with
      | 1 => decide (2 * extend r.at_ (itemTime (sget (fun _ => (0, 0)) (m.group g).lastOffs s) r.item) ≤ 2 * tk + m.interval g i x - 2)
      | 2 => decide (extend r.at_ r.item.tFirst ≤ tk)
      | 3 => decide (extend r.at_ r.item.tFirst ≤ tk)
      | _ => decide (extend r.at_ r.item.stamp ≤ tk))
  | _, _ => false

/-- Miss counts of a stream that resumes (R124). -/
def Mach.clearMisses (m : Mach) (s : Nat) : Mach :=
  (List.range 16).foldl (fun m g => (List.range 32).foldl (fun m i =>
    if m.slotStream g i = s then m.setGroup g { m.group g with miss := sput (fun _ => 0) i 0 (m.group g).miss } else m) m) m

/-- An undamaged record of stream s has come to lie whole in HBM: ABSENT clears first (R129), then lateness. -/
def Mach.cisternPost (m : Mach) (s : Nat) (r : RingRec) : Mach :=
  let m := if m.rbit (Reg.STR_STATUS s) 0 then
      ((m.setRBit (Reg.STR_STATUS s) 0 false).raise (Reg.STR_EVENT s) 0x10).clearMisses s
    else m
  let late := (List.range 16).filter fun g => m.lateFor g s r
  let m := late.foldl (fun m g => m.raise (Reg.FUS_EVENT g) 0x2) m
  if late.isEmpty then m else (m.incReg (Reg.STR_LATE s)).bumpStream s 16 16

/-! ## What the registers read (Tables 5-4, 5-6) -/

/-- FUS_ABSENTg: the slot's stream shows ABSENT, or it counts as ABSENT to an enabled slot. -/
def Mach.fusAbsent (m : Mach) (g : Nat) : Word :=
  BitVec.ofNat 32 (((List.range 32).map fun i => if m.rbit (Reg.STR_STATUS (m.slotStream g i)) 0 || (m.slotOn g i && m.away (m.slotStream g i)) then 2 ^ i else 0).sum)

/-- FUS_STATUSg. -/
def Mach.fusStatus (m : Mach) (g : Nat) : Word :=
  let (waiting, stalled) := match m.judge g with
    | some (_, _, ready, room) => (!ready, ready && !room)
    | none => (false, false)
  let x := m.group g
  BitVec.ofNat 32 (m.pendingCount g * 2 ^ 24 + x.draining.toNat * 8 + stalled.toNat * 4 + waiting.toNat * 2 + x.running.toNat)

end Sys2Proof.Machine
end

