-- ==== Sys2Proof/Machine/Pose.lean ====
section
/-! DEFINITION. The pose integrator (R144 to R149), the pose history (R148) and pose_at (R150). Arithmetic is FP32,
one rounding an operation, in the order the formulas give (log entry 19). -/

namespace Sys2Proof.Machine

/-! ## Vectors and quaternions in FP32 -/

def fnth (l : List Word) (i : Nat) : Word := l.getD i f0

/-- Sum from left to right. -/
def fsum : List Word → Word
  | [] => f0
  | x :: xs => xs.foldl fadd x

def fdot (a b : List Word) : Word := fsum (List.zipWith fmul a b)
def fscale (k : Word) (a : List Word) : List Word := a.map (fmul k)
def fplus (a b : List Word) : List Word := List.zipWith fadd a b
def fminus (a b : List Word) : List Word := List.zipWith fsub a b
def fnorm (a : List Word) : Word := fsqrt (fdot a a)

/-- A list divided by its length; zero stays. -/
def funit (a : List Word) : List Word := if FVal.eq (f32 (fnorm a)) FVal.zero then a else a.map fun x => fdiv x (fnorm a)

/-- Product of quaternions (w, x, y, z). -/
def qmul (a b : List Word) : List Word :=
  let g := fnth a
  let h := fnth b
  [ fsub (fsub (fsub (fmul (g 0) (h 0)) (fmul (g 1) (h 1))) (fmul (g 2) (h 2))) (fmul (g 3) (h 3)),
    fsub (fadd (fadd (fmul (g 0) (h 1)) (fmul (g 1) (h 0))) (fmul (g 2) (h 3))) (fmul (g 3) (h 2)),
    fadd (fadd (fsub (fmul (g 0) (h 2)) (fmul (g 1) (h 3))) (fmul (g 2) (h 0))) (fmul (g 3) (h 1)),
    fadd (fsub (fadd (fmul (g 0) (h 3)) (fmul (g 1) (h 2))) (fmul (g 2) (h 1))) (fmul (g 3) (h 0)) ]

def f2 : Word := 0x40000000

/-- Rotation matrix of a unit quaternion, row by row. -/
def qrows (q : List Word) : List (List Word) :=
  let g := fnth q
  let xx := fmul (g 1) (g 1)
  let yy := fmul (g 2) (g 2)
  let zz := fmul (g 3) (g 3)
  let xy := fmul (g 1) (g 2)
  let xz := fmul (g 1) (g 3)
  let yz := fmul (g 2) (g 3)
  let wx := fmul (g 0) (g 1)
  let wy := fmul (g 0) (g 2)
  let wz := fmul (g 0) (g 3)
  let d := fun a b => fsub f1 (fmul f2 (fadd a b))
  [ [d yy zz, fmul f2 (fsub xy wz), fmul f2 (fadd xz wy)],
    [fmul f2 (fadd xy wz), d xx zz, fmul f2 (fsub yz wx)],
    [fmul f2 (fsub xz wy), fmul f2 (fadd yz wx), d xx yy] ]

def qrot (q v : List Word) : List Word := (qrows q).map fun r => fdot r v

/-- A turn by an angle about an axis given as a vector and its length. -/
def qturn (angle : Word) (axis : List Word) (len : Word) : List Word :=
  let h := fmul 0x3F000000 angle
  Config.cos h :: axis.map fun x => fdiv (fmul (Config.sin h) x) len

/-! ## Inputs (R145) -/

/-- Records of wheel stream s that tick n takes: those of its interval, and at the first tick those before it too. -/
def Mach.wheelRecords (m : Mach) (s n : Nat) : List RingRec :=
  (m.stream s).ring.filter fun r => r.live && !r.item.damaged && decide (extend r.at_ r.item.stamp ≤ (n : Int) * 1000000) &&
    (n == m.cal.pose.first || decide ((n : Int) * 1000000 - 1000000 < extend r.at_ r.item.stamp))

/-- Undamaged records of stream s in HBM whose stamps lie in the interval of tick n: a damaged one goes to no consumer (R72). -/
def Mach.tickRecords (m : Mach) (s n : Nat) : List RingRec :=
  (m.stream s).ring.filter fun r => r.live && !r.item.damaged && decide ((n : Int) * 1000000 - 1000000 < extend r.at_ r.item.stamp) &&
    decide (extend r.at_ r.item.stamp ≤ (n : Int) * 1000000)

/-- Three s16 values of an IMU sample, scaled. -/
def imuVector (e p : List Byte) (off : Nat) (scale : Word) : List Word :=
  (List.range 3).map fun i =>
    let b := (p.drop (off + 2 * i)).take 2
    fmul (fofInt (signed 16 (ofLe (if (u8 e 0x52).testBit 0 then b.reverse else b)))) scale

/-- A of an entry, row by row. -/
def entryRows (e : List Byte) : List (List Word) :=
  (List.range 3).map fun r => (List.range 3).map fun c => w32 e (0x10 + 16 * r + 4 * c)

/-- Gyro and accelerometer vectors of a sample in the body frame. -/
def imuSample (e p : List Byte) : List Word × List Word :=
  let bias := (List.range 3).map fun i => w32 e (0x5C + 4 * i)
  let g := fminus (imuVector e p (u8 e 0x50) (w32 e 0x54)) bias
  let a := imuVector e p (u8 e 0x51) (w32 e 0x58)
  ((entryRows e).map fun r => fdot r g, (entryRows e).map fun r => fdot r a)

def fmean (l : List (List Word)) : List Word :=
  match l with
  | [] => [f0, f0, f0]
  | x :: xs => (xs.foldl fplus x).map fun v => fdiv v (fofInt l.length)

/-- IMU part of a tick: the mean of its samples, or the values of the tick before. -/
def Mach.tickImu (m : Mach) (n : Nat) (t : PoseTick) : PoseTick :=
  let cfg := m.reg Reg.CAL_POSE_CFG
  if cfg.bit 30 then
    let s := cfg.field 16 8
    let e := m.calForTick n s
    match m.tickRecords s n with
    | [] => { t with imuAge := t.imuAge + 1, imuStale := decide (10 ≤ t.imuAge + 1) }
    | l =>
      let v := l.map fun r => imuSample e r.item.payload
      { t with gyro := fmean (v.map Prod.fst), acc := fmean (v.map Prod.snd), imuAge := 0, imuStale := false }
  else { t with imuStale := false }

/-- One encoder sample after another (R145). An edge stamp is extended by the time at which its record reached HBM, and one that has
not changed with the count stays the edge it was (log entry 148). -/
def wheelSample (e : List Byte) (w : WheelState) (r : RingRec) : WheelState :=
  let count := r.item.info0
  let edge := w32 r.item.payload 0
  let at_ := if w.seen && count == w.count && edge == w.edge then w.edgeAt else extend r.at_ edge
  let v :=
    if !w.seen then w.v
    else if count = w.count then f0
    else fmul (fdiv (fmul (w32 e 0x50) (fofInt (count - w.count).toInt)) (fofInt (at_ - w.edgeAt))) 0x4E6E6B28
  { seen := true, count := count, edge := edge, edgeAt := at_, v := v }

def Mach.wheelOn (m : Mach) (w : Nat) : Bool := m.rbit (Reg.CAL_POSE_WHEEL w) 31
def Mach.wheelStream (m : Mach) (w : Nat) : Nat := m.fld (Reg.CAL_POSE_WHEEL w) 0 8
def Mach.wheelsOn (m : Mach) : List Nat := (List.range 8).filter m.wheelOn

/-- Wheel part of a tick. -/
def Mach.tickWheels (m : Mach) (n : Nat) (t : PoseTick) : PoseTick :=
  let recs := fun w => m.wheelRecords (m.wheelStream w) n
  let any := m.wheelsOn.any fun w => !(m.tickRecords (m.wheelStream w) n).isEmpty
  let age := if any then 0 else t.wheelAge + 1
  let ws := m.wheelsOn.foldl (fun ws w =>
    let x := (recs w).foldl (wheelSample (m.calForTick n (m.wheelStream w))) (sget (fun _ => {}) ws w)
    sput (fun _ => {}) w x ws) t.wheels
  { t with wheels := ws, wheelAge := age, wheelStale := !m.wheelsOn.isEmpty && decide (50 ≤ age) }

/-! ## One tick (R146, R147) -/

/-- Rolling direction dx and lever c of a wheel, and its speed. -/
def Mach.wheelEq (m : Mach) (n : Nat) (t : PoseTick) (w : Nat) : Word × Word × Word :=
  let e := m.calForTick n (m.wheelStream w)
  let dx := w32 e 0x10
  let dy := w32 e 0x20
  (dx, fsub (fmul dy (w32 e 0x1C)) (fmul dx (w32 e 0x2C)), (sget (fun _ => {}) t.wheels w).v)

/-- Body velocity and yaw rate. -/
def Mach.tickSolve (m : Mach) (n : Nat) (t : PoseTick) : Word × Word :=
  let imu := m.rbit Reg.CAL_POSE_CFG 30 && !t.imuStale
  let l := if t.wheelStale then [] else m.wheelsOn.map (m.wheelEq n t)
  let sxx := fsum (l.map fun x => fmul x.1 x.1)
  if imu then
    let w := fnth t.gyro 2
    if l.isEmpty then (f0, w)
    else (fdiv (fsum (l.map fun x => fmul x.1 (fsub x.2.2 (fmul w x.2.1)))) sxx, w)
  else if l.isEmpty then (f0, f0)
  else
    let scc := fsum (l.map fun x => fmul x.2.1 x.2.1)
    let sxc := fsum (l.map fun x => fmul x.1 x.2.1)
    let sxv := fsum (l.map fun x => fmul x.1 x.2.2)
    let scv := fsum (l.map fun x => fmul x.2.1 x.2.2)
    let det := fsub (fmul sxx scc) (fmul sxc sxc)
    if flt det 0x358637BD then (fdiv sxv sxx, f0)
    else (fdiv (fsub (fmul sxv scc) (fmul scv sxc)) det, fdiv (fsub (fmul sxx scv) (fmul sxc sxv)) det)

/-- The accelerometer's magnitude lies within 5 % of 9.80665 m/s². -/
def nearGravity (a : Word) : Bool :=
  FVal.le (FVal.mul (FVal.ofInt 20) (FVal.abs (FVal.add (FVal.mul (FVal.ofInt 100000) (f32 a)) (FVal.ofInt (-980665)))))
    (FVal.ofInt 980665)

/-- Step 2 of R147: the turn towards the measured gravity direction. -/
def Mach.tilt (m : Mach) (q acc : List Word) : List Word :=
  let gain := m.fld Reg.CAL_POSE_GAIN 0 16
  let len := fnorm acc
  if m.rbit Reg.CAL_POSE_CFG 30 && gain != 0 && nearGravity len then
    let u := qrot q (acc.map fun x => fdiv x len)
    let h := fnorm [fnth u 0, fnth u 1]
    if FVal.eq (f32 h) FVal.zero then q
    else
      let phi := fmul (fmul (fofInt gain) 0x37800000) (Config.atan2 h (fnth u 2))
      qmul (qturn phi [fnth u 1, fneg (fnth u 0), f0] h) q
  else q

/-- Tick n from the tick before it; the first tick since enabling starts at the identity. -/
def Mach.tickFrom (m : Mach) (prev : Option PoseTick) (n : Nat) : PoseTick :=
  let t : PoseTick := { prev.getD { n := n } with n := n }
  let t := m.tickWheels n (m.tickImu n t)
  let (v, w) := m.tickSolve n t
  let t := { t with v := v, w := w }
  match prev with
  | none => { t with q := [f1, f0, f0, f0], p := [f0, f0, f0] }
  | some o =>
    let om := if m.rbit Reg.CAL_POSE_CFG 30 then t.gyro else [f0, f0, w]
    let rate := fnorm om
    let q := funit (if FVal.eq (f32 rate) FVal.zero then o.q else qmul o.q (qturn (fmul rate 0x3A83126F) om rate))
    let q := m.tilt q t.acc
    let mid := funit (fplus o.q q)
    { t with q := q, p := fplus o.p (fscale 0x3A83126F (qrot mid [v, f0, f0])) }

/-! ## The history (R148, R149) -/

def Mach.poseBase (m : Mach) : Nat := m.addr36 Reg.CAL_POSE_BASE_LO Reg.CAL_POSE_BASE_HI
def Mach.poseAddr (m : Mach) (n : Nat) : Nat := m.poseBase + 64 * (n % 4096)

def wordsBytes (l : List Word) : List Byte := l.flatMap wordBytes

/-- Entry of tick t written (Table 6-3). An input counts as used while it is not stale (log entry 166). -/
def Mach.poseWrite (m : Mach) (t : PoseTick) (again final : Bool) : Mach :=
  let a := m.poseAddr t.n
  let gen := leBytes 4 (m.le a 4 + 1)
  let imu := m.rbit Reg.CAL_POSE_CFG 30 && !t.imuStale
  let whl := !m.wheelsOn.isEmpty && !t.wheelStale
  let flags := 1 + imu.toNat * 2 + whl.toNat * 4 + t.imuStale.toNat * 8 + t.wheelStale.toNat * 16 + final.toNat * 32 + again.toNat * 64
  m.setBytes a (gen ++ leBytes 4 (t.n * 1000000) ++ leBytes 2 flags ++ leBytes 6 0 ++ wordsBytes t.p ++ wordBytes t.v ++
    wordsBytes t.q ++ wordBytes t.w ++ leBytes 8 0 ++ gen)

/-- Flag 5 set in the entry of a tick that has become final. -/
def Mach.poseFinal (m : Mach) (n : Nat) : Mach :=
  let a := m.poseAddr n
  let gen := m.le a 4 + 1
  let f := m.le (a + 8) 2
  ((m.setLe a 4 gen).setLe (a + 8) 2 (if f.testBit 5 then f else f + 32)).setLe (a + 0x3C) 4 gen

/-- The stale bits of CAL_STATUS, with stale_change when one changes. -/
def Mach.poseStale (m : Mach) (t : PoseTick) : Mach :=
  if m.rbit Reg.CAL_STATUS 4 == t.imuStale && m.rbit Reg.CAL_STATUS 5 == t.wheelStale then m
  else ((m.setRBit Reg.CAL_STATUS 4 t.imuStale).setRBit Reg.CAL_STATUS 5 t.wheelStale).raise Reg.CAL_EVENT 0x10

def Mach.onPose (m : Mach) (f : Pose → Pose) : Mach := m.onCal fun c => { c with pose := f c.pose }

/-- The first tick computed after a swap's request is the integrator's boundary (R140). -/
def Mach.poseBoundary (m : Mach) (n : Nat) : Mach :=
  m.onCal fun c => { c with swap := c.swap.map fun w => if w.pose && w.poseTick.isNone then { w with poseTick := some n } else w }

/-- The next tick is computed once its hold-off has passed (R144). -/
def Mach.poseTick (m : Mach) : Mach :=
  match m.cal.pose.next with
  | some n =>
    if n * 1000000 + m.fld Reg.CAL_POSE_CFG 0 13 * 1000 ≤ m.time.count.toNat then
      let m := m.poseBoundary n
      let prev := if n = m.cal.pose.first then none else m.cal.pose.ticks.head?
      let t := m.tickFrom prev n
      let m := m.poseWrite t false false
      let m := m.onPose fun p => { p with next := some (n + 1), ticks := (t :: p.ticks).take 22 }
      let m := if m.cal.pose.first + 20 ≤ n then m.poseFinal (n - 20) else m
      ((m.setReg Reg.CAL_POSE_NEWEST (BitVec.ofNat 32 (n * 1000000))).poseStale t).swapCheck
    else m
  | none => m

def execPoseTick (s : State) : Host.Outcome State Fault Refusal := act s fun m => if m.runs 150 then m.poseTick else m

/-- Tick n computed again in its order (R149). CAL_STATUS follows at the next tick (log entry 166). -/
def Mach.poseAgain (m : Mach) (n : Nat) : Mach :=
  let p := m.cal.pose
  let prev := if n = p.first then none else p.ticks.find? fun t => t.n == n - 1
  let t := m.tickFrom prev n
  (m.poseWrite t true false).onPose fun p => { p with ticks := p.ticks.map fun x => if x.n = n then t else x }

/-- A record of an input stream that has reached HBM (R149). One stamped 20 ms before the newest tick falls in a tick that is final
and stays as it is (log entry 166). -/
def Mach.posePost (m : Mach) (s : Nat) (r : RingRec) : Mach :=
  match m.cal.pose.ticks.head?, m.poseReads s with
  | some new, true =>
    let stamp := extend r.at_ r.item.stamp
    let c := ((stamp + 999999) / 1000000).toNat
    if c ≤ new.n ∧ m.cal.pose.first ≤ c then
      if (new.n : Int) * 1000000 - stamp ≤ 20000000 then
        let from_ := max c (new.n - 19)
        ((List.range (new.n + 1 - from_)).foldl (fun m i => m.poseAgain (from_ + i)) m).incReg Reg.CAL_POSE_REINT
      else (m.incReg Reg.CAL_POSE_LATE).raise Reg.CAL_EVENT 0x8
    else m
  | _, _ => m

/-! ## pose_at (R150) -/

/-- Position and orientation of an entry. -/
def Mach.poseEntry (m : Mach) (n : Nat) : List Word × List Word :=
  let b := m.bytes (m.poseAddr n) 64
  ((List.range 3).map fun i => w32 b (0x10 + 4 * i), (List.range 4).map fun i => w32 b (0x20 + 4 * i))

/-- The pose between two entries. -/
def poseBetween (a b : List Word × List Word) (f : Word) : List Word × List Word :=
  let s := if flt (fdot a.2 b.2) f0 then fneg f1 else f1
  (fplus a.1 (fscale f (fminus b.1 a.1)), funit (fplus (fscale (fsub f1 f) a.2) (fscale (fmul f s) b.2)))

/-- pose_at, and whether the answer is clamped. -/
def Mach.poseAt (m : Mach) (t : Word) : (List Word × List Word) × Bool :=
  match m.cal.pose.ticks.head? with
  | none => (([f0, f0, f0], [f1, f0, f0, f0]), true)
  | some new =>
    let at_ := extend (BitVec.ofNat 64 (new.n * 1000000)) t
    let old := max m.cal.pose.first (new.n - 4095)
    if (new.n : Int) * 1000000 ≤ at_ then (m.poseEntry new.n, false)
    else if at_ < (old : Int) * 1000000 then (m.poseEntry old, true)
    else
      let n := (at_ / 1000000).toNat
      let f := fdiv (fofInt (at_ % 1000000)) 0x49742400
      (poseBetween (m.poseEntry n) (m.poseEntry (n + 1)) f, false)

/-- A look-up of a fixed-function reader, counted when it is clamped. -/
def Mach.poseLook (m : Mach) (t : Word) : (List Word × List Word) × Mach :=
  let (p, c) := m.poseAt t
  (p, if c then m.incReg Reg.CAL_POSE_CLAMP else m)

/-- The pose block of a result: p and q as the payloads carry them. -/
def poseWords (p : List Word × List Word) : List Byte := wordsBytes p.1 ++ wordsBytes p.2

end Sys2Proof.Machine
end

