-- ==== Sys2Proof/Machine/Calib.lean ====
section
/-! DEFINITION. The swap request (R139, R140), the pose capture, and what the CAL block makes of writes (R142,
R153). -/

namespace Sys2Proof.Machine

/-- The swap set as a 256-bit mask. -/
def Mach.swapSet (m : Mach) : Nat :=
  ((List.range 8).map fun w => (m.reg (Reg.CAL_SWAP_SET w)).toNat * 2 ^ (32 * w)).sum

def Mach.swapPending (m : Mach) : Bool := m.cal.swap.isSome

/-- A swap of the entries of the set takes its request time and its users, and exchanges the copies (R140, R141). -/
def Mach.swapBegin (m : Mach) (set : Nat) (sel : List Nat) : Mach :=
  let groups := (List.range 16).filter fun g => m.fusBusy g && sel.any fun s => m.fusNames g s
  let pose := sel.any m.poseReads
  let mapUsers := sel.filter fun s => m.poseReads s || groups.any fun g => m.fusNames g s
  let w : Swap := { set := set, at_ := m.time.count, groups := groups, pose := pose, mapUsers := mapUsers }
  let m := sel.foldl Mach.calExchange m
  ((m.onCal fun c => { c with swap := some w }).setRBit Reg.CAL_STATUS 1 true).swapCheck

/-- CAL_CTRL.swap: every shadow of the set is validated, and the first failing one refuses the swap (R139). -/
def Mach.swapRequest (m : Mach) : Mach :=
  let set := m.swapSet
  let sel := (List.range 256).filter set.testBit
  match (sel.map fun s => (s, calCause (m.calEntry true s) (m.strKind s))).find? fun c => c.2 != 0 with
  | some (s, c) => (m.setReg Reg.CAL_SWAP_ERR (BitVec.ofNat 32 (c * 256 + s))).raise Reg.CAL_EVENT 0x4
  | none => m.swapBegin set sel

/-- CAL_CTRL.pose_cap: words +0x04 to +0x33 of the newest entry. -/
def Mach.poseCapture (m : Mach) : Mach :=
  match m.cal.pose.ticks.head? with
  | none => m
  | some t =>
    let b := m.bytes (m.poseAddr t.n) 64
    (List.range 12).foldl (fun m i => m.setReg (Reg.CAL_POSE_CAP i) (w32 b (4 + 4 * i))) m

/-- A write of CAL_CTRL. -/
def Mach.calCtrl (m : Mach) (v : Word) : Effect :=
  if v.bit 0 && m.swapPending then m.bad
  else
    let m := if v.bit 1 then m.poseCapture else m
    (false, if v.bit 0 then m.swapRequest else m)

/-- The inputs that CAL_POSE_CFG names are of their kinds and models, and the ring lies in HBM (R153). With use_imu 0 it names no
IMU stream (log entry 81). -/
def Mach.poseCfgOk (m : Mach) (v : Word) : Bool :=
  let has := fun s kind model => m.strKind s == kind && calModel (m.calEntry false s) == model
  (!v.bit 30 || has (v.field 16 8) 4 4) && (m.wheelsOn.all fun w => has (m.wheelStream w) 5 5) &&
    decide (m.poseBase + 262144 ≤ m.hbmSize)

/-- The integrator is enabled or disabled (R144, R147). Disabled, it is a user of a pending swap no more (log entry 165). -/
def Mach.poseEnable (m : Mach) (on : Bool) : Mach :=
  let n := (m.time.count.toNat + 999999) / 1000000
  let m := m.setRBit Reg.CAL_STATUS 2 on
  if on then m.onPose fun _ => { next := some n, first := n }
  else
    let m := m.onPose fun p => { p with next := none }
    (m.onCal fun c => { c with swap := c.swap.map fun w => { w with pose := false } }).swapCheck

/-- A write of CAL_POSE_CFG. -/
def Mach.poseCfg (m : Mach) (v : Word) : Effect :=
  if !m.poseCfgOk v then m.bad
  else
    let was := m.rbit Reg.CAL_POSE_CFG 31
    let m := m.storeReg Reg.CAL_POSE_CFG v
    (false, if v.bit 31 == was then m else m.poseEnable (v.bit 31))

/-- What the CAL block makes of a write (R142, R153). -/
def Mach.calWrite (m : Mach) (a : Nat) (v : Word) : Effect :=
  let o := a - 0x1C0000
  if 0x10000 ≤ o ∧ o < 0x20000 then
    let s := (o - 0x10000) / 0x100
    match m.cal.swap with
    | some w => if w.has s then m.bad else (false, m.storeReg a v)
    | none => (false, m.storeReg a v)
  else if o = 0x20000 then m.calCtrl v
  else if 0x20010 ≤ o ∧ o < 0x20030 then (if m.swapPending then m.bad else (false, m.storeReg a v))
  else if o = 0x20100 then m.poseCfg v
  else (false, m.storeReg a v)

def execCalSwapRequest (s : State) : Host.Outcome State Fault Refusal :=
  act s fun m => m.arriveWith Reg.CAL_CTRL 1 (m.calWrite Reg.CAL_CTRL 1)

def execPoseCapture (s : State) : Host.Outcome State Fault Refusal :=
  act s fun m => m.arriveWith Reg.CAL_CTRL 2 (m.calWrite Reg.CAL_CTRL 2)

end Sys2Proof.Machine
end

