-- ==== Sys2Proof/Machine/Counters.lean ====
section
/-! DEFINITION. Snapshots and freezes of the counters (R400 to R402). -/

namespace Sys2Proof.Machine

/-- A snapshot at short time t, or a freeze: every counter reaches its holding register. In the model every island
copies in the clock of t (log entry 31). -/
def Mach.snapshot (m : Mach) (t : Word) (freeze : Bool) : Mach :=
  let m := { m with freeCtr := m.freeCtr + 1 }.onObs fun o => { o with
    held := o.live, heldClocked := o.clocked, heldClockedAll := o.clockedAll, clockNo := m.freeCtr }
  let m := ((m.setReg Reg.CNT_SNAP_TIME t).incReg Reg.CNT_SNAP_SEQ).raise Reg.CNT_EVENT (if freeze then 3 else 1)
  let m := if freeze then m.setRBit Reg.CNT_STATUS 3 true else m
  if m.traceOn && m.rbit Reg.DBG_TRACE_KINDS 7 then
    m.trace 0xF0 0x30 0 (wordBytes (m.reg Reg.CNT_SNAP_SEQ) ++ leBytes 4 freeze.toNat)
  else m

/-- A timed request, and whether it freezes: snap_busy reads 1 from here until every island has copied (R400). -/
def Mach.armCounters (m : Mach) (freeze : Bool) : Mach :=
  ((m.onObs fun o => { o with armed := some freeze }).setRBit Reg.CNT_STATUS 2 true).setRBit Reg.CNT_STATUS 1 true

/-- The armed request is no longer armed, and snap_busy reads 0 with it. -/
def Mach.disarm (m : Mach) : Mach :=
  ((m.onObs fun o => { o with armed := none }).setRBit Reg.CNT_STATUS 2 false).setRBit Reg.CNT_STATUS 1 false

/-- A write of CNT_CTRL. -/
def Mach.cntCtrl (m : Mach) (v : Word) : Effect :=
  let timed := v.bit 1 || v.bit 3
  if (timed && (!m.aheadWithin (m.reg Reg.CNT_SNAP_AT) 10000 2000000000 || m.obs.armed.isSome || (v.bit 1 && v.bit 3))) ||
      ((v.bit 2 || v.bit 3) && m.frozen) || ((v.bit 0 || v.bit 2) && m.rbit Reg.CNT_STATUS 1) then m.bad
  else
    let m := if v.bit 0 then m.snapshot m.now false else m
    let m := if timed then m.armCounters (v.bit 3) else m
    let m := if v.bit 2 then m.snapshot m.now true else m
    (false, if v.bit 4 then m.setRBit Reg.CNT_STATUS 3 false else m)

def Mach.cntWrite (m : Mach) (a : Nat) (v : Word) : Effect :=
  if a = Reg.CNT_CTRL then m.cntCtrl v else (false, m.storeReg a v)

/-- A write of CNT_CTRL as it reaches the CNT block. -/
def Mach.cntArrive (m : Mach) (v : Word) : Mach := m.arriveWith Reg.CNT_CTRL v (m.cntWrite Reg.CNT_CTRL v)

def execCntSnap (s : State) : Host.Outcome State Fault Refusal := act s fun m => m.cntArrive 0x1
def execCntSnapAt (s : State) : Host.Outcome State Fault Refusal := act s fun m => m.cntArrive 0x2
def execCntFreeze (s : State) : Host.Outcome State Fault Refusal := act s fun m => m.cntArrive 0x4
def execCntFreezeAt (s : State) : Host.Outcome State Fault Refusal := act s fun m => m.cntArrive 0x8
def execCntUnfreeze (s : State) : Host.Outcome State Fault Refusal := act s fun m => m.cntArrive 0x10

/-- Short time reaches CNT_SNAP_AT. -/
def Mach.timedSnapshot (m : Mach) : Mach :=
  let t := m.reg Reg.CNT_SNAP_AT
  match m.obs.armed with
  | some freeze => if reached m.now t then m.disarm.snapshot t freeze else m
  | none => m

def execTimedSnapshot (s : State) : Host.Outcome State Fault Refusal := act s fun m => m.timedSnapshot

/-- A detection freezes the counters where DBG_TRIG_CFG.freeze_on_fault says so; a request armed for the same time is
cancelled and counts as done (R402). -/
def Mach.freezeOnFault (m : Mach) : Mach :=
  if m.rbit Reg.DBG_TRIG_CFG 0 && !m.frozen then
    (if m.obs.armed.isSome && m.now == m.reg Reg.CNT_SNAP_AT then m.disarm else m).snapshot m.now true
  else m

/-- Move-in phase: 0 idle, 1 verifying, 2 draining, 3 loading, 4 committing. -/
def Mach.phase (m : Mach) : Nat := m.fld Reg.FPL_STATUS 1 3

/-- A Still snapshot that a detection triggers (R414): it waits for hold 0 to end, and is missed while another waits, stands or
cannot be taken. -/
def Mach.stillOnFault (m : Mach) : Mach :=
  if m.rbit Reg.DBG_TRIG_CFG 1 then
    if m.rbit Reg.DBG_STATUS 4 || m.rbit Reg.DBG_STATUS 5 || 2 ≤ m.phase || m.obs.stillPending.isSome then
      m.incReg Reg.DBG_STILL_MISSED
    else m.onObs fun o => { o with stillPending := some 4 }
  else m

/-- A detection by the age monitor or by the end-only check (Table 14-2 causes 0x12 and 0x13), which no unit's recovery follows: it may
freeze the counters and trigger a Still snapshot (R401, R414, log entry 174). -/
def Mach.ageDetected (m : Mach) : Mach := m.freezeOnFault.stillOnFault

end Sys2Proof.Machine
end

