-- ==== Sys2Proof/Machine/Segments.lean ====
section
/-! DEFINITION. The segments of the configuration check (R367): which registers and which tables each covers. -/

namespace Sys2Proof.Machine

/-! ## What a segment covers (R367) -/

/-- The block of register segments 0 to 11; CLU 0 to 7 together are segment 11. -/
def segBlocks : List Block := [.time, .safe, .dbg, .cq, .sns, .str, .fus, .cal, .pnt, .egr, .net]

/-- Base of a block of `segBlocks`, and of CLU k. -/
def blockBase : Block → Nat
  | .time => 0x20000 | .safe => 0x30000 | .dbg => 0x70000 | .cq => 0x80000 | .sns => 0x100000 | .str => 0x140000
  | .fus => 0x180000 | .cal => 0x1C0000 | .pnt => 0x200000 | .egr => 0x280000 | .net => 0x2C0000
  | .clu k => 0x400000 + 0x80000 * k
  | _ => 0

/-- Offsets of the registers of a row. -/
def rowOffsets (r : Row) : List Nat :=
  (List.range r.n1).flatMap fun i => (List.range r.n2).map fun j => r.off + r.s1 * i + r.s2 * j

/-- Every register of a block that holds an RWL field, in increasing address, with its RWL mask. Sequencer memory is
excluded. -/
def rwlRegs (b : Block) : List (Nat × Word) :=
  let rows := (rowsOf b).filter fun r => r.lmask != 0
  (rows.flatMap fun r => (rowOffsets r).map fun o => (blockBase b + o, r.lmask)).mergeSort fun x y => decide (x.1 ≤ y.1)

/-- The registers of segment n. -/
def segRegs (n : Nat) : List (Nat × Word) :=
  if n = 11 then (List.range 8).flatMap fun k => rwlRegs (.clu k)
  else match segBlocks[n]? with
    | some b => rwlRegs b
    | none => []

/-- The register at an address belongs to segment n. -/
def inSegment (n a : Nat) : Bool :=
  match blockOf a, rowAt a with
  | some (b, _), some (r, _) =>
    r.lmask != 0 && (match b with
      | .clu _ => n == 11
      | b => segBlocks[n]? == some b)
  | _, _ => false

/-- The bytes of segments 12 to 18: tables of the verified image. -/
def imageTable (img : List Byte) (n : Nat) : List Byte :=
  match parseImage img with
  | .error _ => []
  | .ok im =>
    match n with
    | 12 => im.dataOf 0x01
    | 13 => im.dataOf 0x02
    | 14 => im.dataOf 0x0B
    | 15 => im.dataOf 0x0C
    | 16 => im.dataOf 0x0D
    | 17 => im.dataOf 0x0E
    | _ => stageBytes (im.dataOf 0x08).length (im.dataOf 0x08)

/-- The bytes of segment n: each register's word masked to its RWL fields, or a table. -/
def Mach.segBytes (m : Mach) (n : Nat) : List Byte :=
  if n < 12 then (segRegs n).flatMap fun p => wordBytes (m.reg p.1 &&& p.2) else imageTable m.fpl.image n

/-- CRC register over bytes: the final inversion of R133 is taken by `crcOut`. -/
def crcRun (c : Word) (l : List Byte) : Word := l.foldl crc32cByte c
def crcOut (c : Word) : Word := c ^^^ 0xFFFFFFFF#32

/-- Segments n of a list as they now are become what the check compares with and what a reload restores. -/
def Mach.retakeSegments (m : Mach) (l : List Nat) : Mach :=
  let crcs := l.foldl (fun t n => sput (fun _ => 0) n (crcOut (crcRun 0xFFFFFFFF#32 (m.segBytes n))) t) m.safety.segCrc
  let copy := ((l.flatMap segRegs).map Prod.fst).foldl (fun t a => sput regReset a (m.reg a) t) m.fpl.copy
  { m with safety := { m.safety with segCrc := crcs }, fpl := { m.fpl with copy := copy } }

end Sys2Proof.Machine
end

