-- ==== Sys2Proof/Machine/Points.lean ====
section
/-! DEFINITION. POINT commands (R154 to R184): point tables, voxel tables, the Weir, cell lists, rule books, and
the gather and scatter of sparse convolution. -/

namespace Sys2Proof.Machine

/-! ## Tables (R156, R158) -/

def Mach.ptBase (m : Mach) (t : Nat) : Nat := m.addr36 (Reg.PNT_PT_BASE_LO t) (Reg.PNT_PT_BASE_HI t)
def Mach.vtBase (m : Mach) (v : Nat) : Nat := m.addr36 (Reg.PNT_VT_BASE_LO v) (Reg.PNT_VT_BASE_HI v)
def Mach.ptOn (m : Mach) (t : Nat) : Bool := m.rbit (Reg.PNT_PT_CFG t) 31
def Mach.vtOn (m : Mach) (v : Nat) : Bool := m.rbit (Reg.PNT_VT_CFG v) 31
def Mach.ptGroup (m : Mach) (t : Nat) : Nat := m.fld (Reg.PNT_PT_CFG t) 16 4
def Mach.vtAccumulated (m : Mach) (v : Nat) : Bool := m.rbit (Reg.PNT_VT_CFG v) 30
def Mach.vtEdge (m : Mach) (v : Nat) : Nat := m.fld (Reg.PNT_VT_CFG v) 8 11

/-- Entries of a point table and buckets of a voxel table. -/
def ptEntries : Nat := 4194304
def vtBuckets : Nat := 2097152

def Mach.ptEntry (m : Mach) (t i : Nat) : Nat := m.ptBase t + 32 * i
def Mach.vtBucket (m : Mach) (v b : Nat) : Nat := m.vtBase v + 32 * b

/-! ## Drops (R168, R180) -/

def Mach.share (m : Mach) (g e t : Nat) : Nat × Nat := sget (fun _ => (0, 0)) m.dropShare ((8 * g + e) * 32 + t)
def Mach.setShare (m : Mach) (g e t : Nat) (x : Nat × Nat) : Mach :=
  { m with dropShare := sput (fun _ => (0, 0)) ((8 * g + e) * 32 + t) x m.dropShare }

/-- The accumulator entry of group g for instant k, where it holds k and egress has not taken it. -/
def Mach.dropOpen (m : Mach) (g : Nat) (k : Word) : Bool :=
  let e := k.toNat % 8
  m.fld (Reg.PNT_DSTAT g e) 0 2 == 1 && m.reg (Reg.PNT_DK g e) == k

/-- Drops added to the accumulator of the group and k of point table t. -/
def Mach.accumulate (m : Mach) (t points cells : Nat) : Mach :=
  let g := m.ptGroup t
  let k := m.reg (Reg.PNT_PT_K t)
  let e := k.toNat % 8
  if m.dropOpen g k then
    let x := m.share g e t
    ((m.addReg (Reg.PNT_DPTS g e) points).addReg (Reg.PNT_DCELL g e) cells).setShare g e t (x.1 + points, x.2 + cells)
  else m

/-- One point drop of table t. -/
def Mach.pointDrop (m : Mach) (t : Nat) : Mach :=
  (((m.accumulate t 1 0).incReg (Reg.PNT_PT_DROPS t)).bump (384 + m.ptGroup t) 1).raise Reg.PNT_EVENT 0x1

/-- One cell drop of voxel table v, against point table t; `full` for a full probe (R160). -/
def Mach.cellDrop (m : Mach) (t v : Nat) (full : Bool) : Mach :=
  let m := ((m.accumulate t 0 1).incReg (Reg.PNT_VT_CELLDROPS v)).bump (400 + m.ptGroup t) 1
  let m := if full then m.incReg (Reg.PNT_VT_PROBEFULL v) else m
  m.raise Reg.PNT_EVENT (if full then 0x6 else 0x2)

/-! ## Keys and probing (R159, R160) -/

/-- A voxel coordinate that has a cell. -/
def inKeyRange (x y z : Int) : Bool :=
  decide (-524288 ≤ x) && decide (x ≤ 524287) && decide (-524288 ≤ y) && decide (y ≤ 524287) &&
    decide (-32768 ≤ z) && decide (z ≤ 32767)

/-- The packed key of Table 7-2. -/
def packKey (epoch : Nat) (x y z : Int) : Nat :=
  epoch % 16 * 2 ^ 56 + (z % 2 ^ 16).toNat * 2 ^ 40 + (y % 2 ^ 20).toNat * 2 ^ 20 + (x % 2 ^ 20).toNat

def keyX (k : Nat) : Int := signed 20 (bits k 0 20)
def keyY (k : Nat) : Int := signed 20 (bits k 20 20)
def keyZ (k : Nat) : Int := signed 16 (bits k 40 16)
def keyEpoch (k : Nat) : Nat := bits k 56 4

def homeBucket (k : Nat) : Nat := (crc32c (leBytes 8 k)).toNat % vtBuckets

/-- A bucket (Table 7-3). -/
structure Cell where
  key : Nat
  row : Nat
  point : Nat
  stamp : Word
  dist : Nat
  age : Nat
  flags : Nat
deriving DecidableEq, Repr

def Mach.cell (m : Mach) (v b : Nat) : Cell :=
  let l := m.bytes (m.vtBucket v b) 32
  { key := u64 l 0, row := u32 l 8, point := u32 l 12, stamp := w32 l 16, dist := u16 l 20, age := u8 l 22,
    flags := u8 l 23 }

def Mach.setCell (m : Mach) (v b : Nat) (c : Cell) : Mach :=
  m.setBytes (m.vtBucket v b)
    (leBytes 8 c.key ++ leBytes 4 c.row ++ leBytes 4 c.point ++ leBytes 4 c.stamp.toNat ++ leBytes 2 c.dist ++
      leBytes 1 c.age ++ leBytes 1 c.flags ++ leBytes 8 0)

def flagsLive (f : Nat) : Bool := f.testBit 0 && !f.testBit 1
def flagsTomb (f : Nat) : Bool := f.testBit 1

def noRow : Nat := 0xFFFFFFFF

/-- What a probe finds: the bucket of the key, the bucket an insertion would take, and the buckets examined. -/
structure Found3 where
  hit : Option Nat
  free : Option Nat
  len : Nat
deriving DecidableEq, Repr

/-- Buckets b, b + 1, … examined for a key, up to `fuel` of them. -/
def Mach.probeFrom (m : Mach) (v key : Nat) : Nat → Nat → Option Nat → Nat → Found3
  | 0, _, tomb, len => ⟨none, tomb, len⟩
  | fuel + 1, b, tomb, len =>
    let f := (m.byte (m.vtBucket v b + 0x17)).toNat
    if flagsLive f && m.le (m.vtBucket v b) 8 == key then ⟨some b, none, len + 1⟩
    else if !f.testBit 0 && !f.testBit 1 then ⟨none, some (tomb.getD b), len + 1⟩
    else m.probeFrom v key fuel ((b + 1) % vtBuckets)
      (if tomb.isNone && flagsTomb f then some b else tomb) (len + 1)

def Mach.probe (m : Mach) (v key : Nat) : Found3 := m.probeFrom v key 16 (homeBucket key) none 0

/-- The row of a key, or 0xFFFF_FFFF. -/
def Mach.rowOf (m : Mach) (v key : Nat) : Nat :=
  match (m.probe v key).hit with
  | some b => (m.cell v b).row
  | none => noRow

/-- Live buckets in ascending index. -/
def Mach.liveCells (m : Mach) (v : Nat) : List Nat :=
  let base := m.vtBase v
  m.mem.filterMap fun p =>
    if base ≤ p.1 ∧ p.1 < base + 2 ^ 26 ∧ (p.1 - base) % 32 = 0x17 ∧ flagsLive p.2.toNat = true then some ((p.1 - base) / 32)
    else none

/-- The Weir's rule for a new cell (R167). -/
def Mach.weirCell (m : Mach) (v : Nat) (near : Bool) : Bool :=
  let o := m.fld (Reg.PNT_VT_OCC v) 0 21
  decide (o < 917504) || (near && decide (o < 1048576))

/-- The longest probe of an insertion is kept. -/
def Mach.probeMax (m : Mach) (v len : Nat) : Mach :=
  if m.fld (Reg.PNT_VT_PROBEMAX v) 0 5 < len then m.setReg (Reg.PNT_VT_PROBEMAX v) (BitVec.ofNat 32 len) else m

/-- A new cell at bucket b, free or a tombstone until now. -/
def Mach.newCell (m : Mach) (v b : Nat) (c : Cell) : Mach :=
  let m := if flagsTomb (m.cell v b).flags then m.addReg (Reg.PNT_VT_TOMB v) (2 ^ 32 - 1) else m
  (m.setCell v b c).incReg (Reg.PNT_VT_OCC v)

/-- An insertion of a key against point table t: an existing cell, a new one at some bucket, or a drop. -/
inductive Inserted where
  | old (b : Nat)
  | new (b : Nat)
  | dropped
deriving DecidableEq, Repr

def Mach.insert (m : Mach) (t v key : Nat) (near : Bool) : Inserted × Mach :=
  let r := m.probe v key
  let m := m.probeMax v r.len
  match r.hit, r.free with
  | some b, _ => (.old b, m)
  | none, some b => if m.weirCell v near then (.new b, m) else (.dropped, m.cellDrop t v false)
  | none, none => (.dropped, m.cellDrop t v true)

/-! ## BEGIN and APPEND (R157, R166, R180) -/

/-- Entry e of group g set to k with zero counts. -/
def Mach.freshDrops (m : Mach) (g e : Nat) (k : Word) : Mach :=
  let m := (((m.setReg (Reg.PNT_DK g e) k).setReg (Reg.PNT_DPTS g e) 0).setReg (Reg.PNT_DCELL g e) 0).setReg
    (Reg.PNT_DSTAT g e) 1
  (List.range 32).foldl (fun m t => m.setShare g e t (0, 0)) m

/-- BEGIN. -/
def Mach.pointBegin (m : Mach) (t : Nat) (k : Word) : Mach :=
  let g := m.ptGroup t
  let e := k.toNat % 8
  let m := (m.setReg (Reg.PNT_PT_COUNT t) 0).setReg (Reg.PNT_PT_K t) k
  if m.dropOpen g k then
    let x := m.share g e t
    (((m.setReg (Reg.PNT_DPTS g e) (m.reg (Reg.PNT_DPTS g e) - BitVec.ofNat 32 x.1)).setReg (Reg.PNT_DCELL g e)
      (m.reg (Reg.PNT_DCELL g e) - BitVec.ofNat 32 x.2))).setShare g e t (0, 0)
  else m.freshDrops g e k

/-- The near ring's test of a point of group g. -/
def Mach.isNear (m : Mach) (g : Nat) (x y : Word) : Bool :=
  let r := fratio (m.fld (Reg.PNT_NEAR g) 0 14) 100
  fle (fadd (fmul x x) (fmul y y)) (fmul r r)

/-- The Weir's rule for a point (R166). -/
def weirPoint (n : Nat) (near : Bool) : Bool := decide (n < 3670016) || (near && decide (n < ptEntries))

/-- One source entry appended to table t. -/
def Mach.append1 (m : Mach) (t : Nat) (e : List Byte) : Mach :=
  let n := m.fld (Reg.PNT_PT_COUNT t) 0 23
  let near := m.isNear (m.ptGroup t) (w32 e 0) (w32 e 4)
  if weirPoint n near then
    (m.setBytes (m.ptEntry t n) (e.take 0x17 ++ leBytes 1 near.toNat ++ leBytes 4 noRow ++ leBytes 4 0)).incReg
      (Reg.PNT_PT_COUNT t)
  else m.pointDrop t

/-- APPEND of n entries from a flat address. -/
def Mach.append (m : Mach) (t : Nat) : Nat → Nat → Mach
  | _, 0 => m
  | a, n + 1 => (m.append1 t (m.bytes a 32)).append t (a + 32) n

/-! ## VOXELISE (R158, R161, R163) -/

/-- Voxel coordinate and offset of a coordinate for edge e. -/
def binOf (edge : Nat) (x : Word) : Option (Int × Nat) :=
  let s := fmul x (fratio 1000 edge)
  if (f32 s).isFinite then
    let v := (f32 s).floorInt
    let q := (f32 (fmul (fsub s (fofInt v)) 0x43800000)).floorInt
    some (v, min 255 q.toNat)
  else none

/-- M·(x, y, z, 1) by rows, in the order of Table 10-7. -/
def transform (rows : List Word) (p : List Word) : List Word :=
  (List.range 3).map fun i =>
    let a := fun j => rows.getD (4 * i + j) 0
    ffma (a 2) (p.getD 2 0) (ffma (a 1) (p.getD 1 0) (ffma (a 0) (p.getD 0 0) (a 3)))

/-- The distance measure. -/
def distOf (qx qy qz : Nat) : Nat :=
  let d := fun (q : Nat) => ((q : Int) - 128).natAbs ^ 2
  d qx + d qy + d qz

/-- A sample is nearer than another: dist, then stamp, then index. -/
def nearer (d : Nat) (s : Word) (i : Nat) (c : Cell) : Bool :=
  decide (d < c.dist) || (d == c.dist && (before s c.stamp || (s == c.stamp && decide (i < c.point))))

/-- flags[1] of entry i of table t. -/
def Mach.setSampled (m : Mach) (t i : Nat) (on : Bool) : Mach :=
  let a := m.ptEntry t i + 0x17
  m.setByte a (BitVec.ofNat 8 ((m.byte a).toNat % 2 + (m.byte a).toNat / 4 * 4 + 2 * on.toNat))

/-- The bucket field of entry i. -/
def Mach.setBucketOf (m : Mach) (t i b : Nat) : Mach := m.setLe (m.ptEntry t i + 0x18) 4 b

/-- The displaced sample of bucket b loses its mark, where the entry it names is still the sample of that cell. -/
def Mach.displace (m : Mach) (t b i : Nat) : Mach :=
  if i < m.fld (Reg.PNT_PT_COUNT t) 0 23 ∧ m.le (m.ptEntry t i + 0x18) 4 = b then m.setSampled t i false else m

/-- Entry i of table t binned into voxel table v at a key with a distance measure. -/
def Mach.binInto (m : Mach) (t v epoch i key d : Nat) : Mach :=
  let near := (m.byte (m.ptEntry t i + 0x17)).toNat.testBit 0
  let stamp := m.word (m.ptEntry t i + 0x0C)
  let sample : Cell := { key := key, row := noRow, point := i, stamp := stamp, dist := d, age := 0, flags := 1 + 16 * epoch }
  match m.insert t v key near with
  | (.dropped, m) => (m.setBucketOf t i noRow).setSampled t i false
  | (.new b, m) => ((m.newCell v b sample).setBucketOf t i b).setSampled t i true
  | (.old b, m) =>
    let c := m.cell v b
    let newer := m.vtAccumulated v && c.flags / 16 != epoch
    if newer || nearer d stamp i c then
      let m := m.displace t b c.point
      ((m.setCell v b { sample with row := c.row, age := if newer then 0 else c.age }).setBucketOf t i b).setSampled t i true
    else (m.setBucketOf t i b).setSampled t i (c.point == i)

/-- One entry of VOXELISE. -/
def Mach.voxelise1 (m : Mach) (t v epoch : Nat) (rows : Option (List Word)) (i : Nat) : Mach :=
  let a := m.ptEntry t i
  let p := [m.word a, m.word (a + 4), m.word (a + 8)]
  let p := match rows with
    | some r => transform r p
    | none => p
  let e := m.vtEdge v
  let out := fun (_ : Unit) => (((m.incReg (Reg.PNT_VT_OOR v)).raise Reg.PNT_EVENT 0x8).setBucketOf t i noRow).setSampled t i false
  match binOf e (p.getD 0 0), binOf e (p.getD 1 0), binOf e (p.getD 2 0) with
  | some (x, qx), some (y, qy), some (z, qz) =>
    if inKeyRange x y z then
      m.binInto t v epoch i (packKey (if m.vtAccumulated v then 0 else epoch) x y z) (distOf qx qy qz)
    else out ()
  | _, _, _ => out ()

/-- VOXELISE: of the entries named, those of the table's points, since only APPEND writes entries at index n or above (R156, log
entry 153). -/
def Mach.voxelise (m : Mach) (t v epoch first count : Nat) (rows : Option (List Word)) : Mach :=
  ((List.range count).filter fun i => first + i < m.fld (Reg.PNT_PT_COUNT t) 0 23).foldl
    (fun m i => m.voxelise1 t v epoch rows (first + i)) m

/-! ## COARSEN, AGE, PURGE (R164, R165, R174) -/

/-- The parent of one cell of table a into table b. -/
def Mach.coarsen1 (m : Mach) (t a b i : Nat) : Mach :=
  let c := m.cell a i
  let key := packKey (keyEpoch c.key) (keyX c.key / 2) (keyY c.key / 2) (keyZ c.key / 2)
  let near := (m.byte (m.ptEntry t c.point + 0x17)).toNat.testBit 0
  match m.insert t b key near with
  | (.new j, m) => m.newCell b j { c with key := key, row := noRow, age := 0 }
  | (_, m) => m

def Mach.coarsen (m : Mach) (t a b mask : Nat) : Mach :=
  ((m.liveCells a).filter fun i => mask.testBit (keyEpoch (m.cell a i).key)).foldl (fun m i => m.coarsen1 t a b i) m

/-- A live cell becomes a tombstone. -/
def Mach.entomb (m : Mach) (v b : Nat) : Mach :=
  let c := m.cell v b
  ((m.setCell v b { c with flags := c.flags ||| 2 }).addReg (Reg.PNT_VT_OCC v) (2 ^ 32 - 1)).incReg (Reg.PNT_VT_TOMB v)

/-- AGE. -/
def Mach.pointAge (m : Mach) (v sweep : Nat) : Mach :=
  if m.fld (Reg.PNT_VT_SWEEP v) 0 16 = sweep then m
  else
    let maxAge := m.fld (Reg.PNT_VT_CFG v) 0 8
    let m := (m.liveCells v).foldl (fun m b =>
      let c := m.cell v b
      let m := m.setCell v b { c with age := min 255 (c.age + 1) }
      if maxAge < min 255 (c.age + 1) then m.entomb v b else m) m
    m.setReg (Reg.PNT_VT_SWEEP v) (BitVec.ofNat 32 sweep)

/-- PURGE. -/
def Mach.pointPurge (m : Mach) (v mask : Nat) : Mach :=
  if mask = 0xFFFF then
    (((m.wipe (m.vtBase v) (2 ^ 26)).setReg (Reg.PNT_VT_OCC v) 0).setReg (Reg.PNT_VT_TOMB v) 0).setReg (Reg.PNT_VT_SWEEP v) 0
  else ((m.liveCells v).filter fun b => mask.testBit (keyEpoch (m.cell v b).key)).foldl (fun m b => m.entomb v b) m

/-! ## LIST, NEIGH, PROBE, RULES (R171 to R175) -/

/-- The cells that LIST gives rows. -/
def Mach.listed (m : Mach) (v mask : Nat) : List Nat :=
  (m.liveCells v).filter fun b => mask.testBit (keyEpoch (m.cell v b).key)

/-- A cell list record (Table 7-4). -/
def cellRecord (c : Cell) : List Byte :=
  leBytes 4 (keyX c.key % 2 ^ 32).toNat ++ leBytes 4 (keyY c.key % 2 ^ 32).toNat ++ leBytes 2 (keyZ c.key % 2 ^ 16).toNat ++
    leBytes 1 (keyEpoch c.key) ++ leBytes 1 c.age ++ leBytes 4 c.point

/-- LIST into a flat address. -/
def Mach.pointList (m : Mach) (v mask a : Nat) : Mach :=
  let rows := m.listed v mask
  let recs := rows.flatMap fun b => cellRecord (m.cell v b)
  let m := (m.liveCells v).foldl (fun m b => m.setCell v b { m.cell v b with row := noRow }) m
  let m := rows.zipIdx.foldl (fun m p => m.setCell v p.1 { m.cell v p.1 with row := p.2 }) m
  m.setBytes a (leBytes 4 rows.length ++ List.replicate 28 0 ++ recs)

/-- Offset o as (dx, dy, dz). -/
def offsetOf (o : Nat) : Int × Int × Int := ((o % 3 : Nat) - 1, (o / 3 % 3 : Nat) - 1, (o / 9 : Nat) - 1)

/-- Offset o lies in the set numbered 0, 1 or 2 (6, 18, 26). -/
def inSet (set o : Nat) : Bool :=
  let d := offsetOf o
  let n := d.1.natAbs + d.2.1.natAbs + d.2.2.natAbs
  decide (1 ≤ n) && decide (n ≤ set + 1)

/-- The row of the cell at an offset from a position, with an epoch. -/
def Mach.neighbour (m : Mach) (v epoch : Nat) (x y z : Int) (o : Nat) : Nat :=
  let d := offsetOf o
  let x := x + d.1
  let y := y + d.2.1
  let z := z + d.2.2
  if inKeyRange x y z then m.rowOf v (packKey epoch x y z) else noRow

/-- The 32 words of NEIGH for row r, whose cell list record is rec. -/
def Mach.neighRow (m : Mach) (v set r : Nat) (rec : List Byte) : List Byte :=
  (List.range 32).flatMap fun o =>
    leBytes 4 (if o = 13 then r
      else if o < 27 && inSet set o then m.neighbour v (u8 rec 10) (s32 rec 0) (s32 rec 4) (s16 rec 8) o
      else noRow)

/-- NEIGH. -/
def Mach.pointNeigh (m : Mach) (v set first count a b : Nat) : Mach :=
  (List.range count).foldl (fun m' i =>
    m'.setBytes (b + 128 * i) (m.neighRow v set (first + i) (m.bytes (a + 32 + 16 * (first + i)) 16))) m

/-- PROBE. -/
def Mach.pointProbe (m : Mach) (v count a b : Nat) : Mach :=
  (List.range count).foldl (fun m' i => m'.setLe (b + 4 * i) 4 (m.rowOf v (m.le (a + 8 * i) 8))) m

/-- The cells of a table that have a row, as rows and keys, in ascending row. -/
def Mach.rowed (m : Mach) (v : Nat) : List (Nat × Nat) :=
  (((m.liveCells v).map fun b => ((m.cell v b).row, (m.cell v b).key)).filter fun p => p.1 != noRow).mergeSort
    fun p q => decide (p.1 ≤ q.1)

/-- The pairs (in, out) of offset o in submanifold mode. -/
def Mach.subPairs (m : Mach) (v set : Nat) (rows : List (Nat × Nat)) (o : Nat) : List (Nat × Nat) :=
  if o = 13 || inSet set o then
    (rows.map fun p => (m.neighbour v (keyEpoch p.2) (keyX p.2) (keyY p.2) (keyZ p.2) o, p.1)).filter fun p => p.1 != noRow
  else []

/-- The offset of a cell within its parent. -/
def childOf (key : Nat) : Nat := ((keyZ key % 2) * 4 + (keyY key % 2) * 2 + keyX key % 2).toNat

/-- The pairs of offset o in downsample mode. -/
def Mach.downPairs (m : Mach) (v2 : Nat) (rows : List (Nat × Nat)) (o : Nat) : List (Nat × Nat) :=
  let l := (rows.filter fun p => childOf p.2 == o).map fun p =>
    (p.1, m.rowOf v2 (packKey (keyEpoch p.2) (keyX p.2 / 2) (keyY p.2 / 2) (keyZ p.2 / 2)))
  (l.filter fun p => p.2 != noRow).mergeSort fun p q => decide (p.2 < q.2) || (p.2 == q.2 && decide (p.1 ≤ q.1))

/-- The rule book of Table 7-5. -/
def Mach.ruleBook (m : Mach) (v v2 set : Nat) (down : Bool) : List Byte :=
  let rows := m.rowed v
  let outs := if down then (m.rowed v2).length else rows.length
  let n := if down then 8 else 27
  let pairs := (List.range 27).map fun o => if n ≤ o then [] else if down then m.downPairs v2 rows o else m.subPairs v set rows o
  let counts := pairs.map List.length
  let starts := (List.range 27).map fun o => (counts.take o).sum
  leBytes 4 rows.length ++ leBytes 4 outs ++ leBytes 1 down.toNat ++ leBytes 1 n ++
    leBytes 1 (if down then 0 else [6, 18, 26].getD set 0) ++ leBytes 1 0 ++ leBytes 4 counts.sum ++
    counts.flatMap (leBytes 4) ++ leBytes 4 0 ++ starts.flatMap (leBytes 4) ++ List.replicate 20 0 ++
    pairs.flatten.flatMap fun p => leBytes 4 p.1 ++ leBytes 4 p.2

/-! ## GATHER and SCATTER (R177, R178) -/

/-- Pairs start[o] + first on, of the rule book at flat address a. -/
def Mach.pairsAt (m : Mach) (a o first count : Nat) : List (Nat × Nat) :=
  let s := m.le (a + 0x80 + 4 * o) 4 + first
  (List.range count).map fun i => (m.le (a + 0x100 + 8 * (s + i)) 4, m.le (a + 0x104 + 8 * (s + i)) 4)

/-- GATHER: rows of the matrix at b into the tiles at l. -/
def Mach.pointGather (m : Mach) (pairs : List (Nat × Nat)) (b l rowBytes : Nat) : Mach :=
  let tiles := (pairs.length + 31) / 32 * 32
  m.setBytes l ((pairs.flatMap fun p => m.bytes (b + p.1 * rowBytes) rowBytes) ++
    List.replicate ((tiles - pairs.length) * rowBytes) 0)

/-- n words at s added into the words at d. -/
def Mach.addWords (m : Mach) (fp : Bool) (d s : Nat) : Nat → Mach
  | 0 => m
  | n + 1 =>
    (m.setWord d (if fp then fadd (m.word d) (m.word s) else m.word d + m.word s)).addWords fp (d + 4) (s + 4) n

/-- SCATTER: rows of the tiles at l added into the matrix at b. -/
def Mach.pointScatter (m : Mach) (pairs : List (Nat × Nat)) (b l rowBytes : Nat) (fp : Bool) : Mach :=
  pairs.zipIdx.foldl (fun m p => m.addWords fp (b + p.1.2 * rowBytes) (l + p.2 * rowBytes) (rowBytes / 4)) m

/-- The 32-byte words of the matrix at b that a SCATTER adds into. -/
def scatterWords (pairs : List (Nat × Nat)) (b rowBytes : Nat) : List Nat :=
  pairs.flatMap fun p => (List.range (rowBytes / 32)).map fun i => (b + p.2 * rowBytes) / 32 + i

/-! ## The checks of R179 -/

def pSpaceA (b : List Byte) : Nat := u8 b 0x30 % 16
def pSpaceB (b : List Byte) : Nat := u8 b 0x30 / 16
def pAddrA (core : Nat) (b : List Byte) : Nat := spaceBase core (pSpaceA b) + u64 b 0x20
def pAddrB (core : Nat) (b : List Byte) : Nat := spaceBase core (pSpaceB b) + u64 b 0x28
def pLocal (core : Nat) (b : List Byte) : Nat := localBase core + u32 b 0x38
/-- addr_b of a VOXELISE that asks for the identity. -/
def pIdentity (b : List Byte) : Bool := u64 b 0x28 == 2 ^ 64 - 1
def pPairs (m : Mach) (core : Nat) (b : List Byte) : List (Nat × Nat) :=
  m.pairsAt (pAddrA core b) (u8 b 0x31 % 32) (u32 b 0x18) (u32 b 0x1C)

/-- The table a command names must be one of 0 to 31 and enabled. -/
def tableErr (uses : Bool) (n off : Nat) (on : Nat → Bool) : List (Option CmdErr) :=
  [errIf (31 < n && n != 0xFF) off 0x02, errIf (uses && n == 0xFF) off 0x02, errIf (uses && n ≤ 31 && !on n) off 0x07]

/-- Bytes of addr_a that the command reaches. -/
def Mach.pointLenA (m : Mach) (b : List Byte) : Nat :=
  let n := u32 b 0x1C
  match cmdOp b with
  | 2 => 32 * n
  | 7 => 32 + 16 * (m.listed (u8 b 0x12) (u16 b 0x32)).length
  | 8 => 32 + 16 * (u32 b 0x18 + n)
  | 9 => 8 * n
  | _ => 0x100

/-- Bytes of addr_b that the command reaches, for a command whose addr_a is in order. -/
def Mach.pointLenB (m : Mach) (core : Nat) (b : List Byte) : Nat :=
  let n := u32 b 0x1C
  let rb := u16 b 0x34
  match cmdOp b with
  | 3 => 48
  | 8 => 128 * n
  | 9 => 4 * n
  | 10 => (m.ruleBook (u8 b 0x12) (u8 b 0x13) (u16 b 0x32 % 4) ((u16 b 0x32).testBit 8)).length
  | 11 => ((pPairs m core b).map fun p => (p.1 + 1) * rb).foldl max 0
  | _ => ((pPairs m core b).map fun p => (p.2 + 1) * rb).foldl max 0

/-- The checks on a POINT command by its fields. A VOXELISE that names entries beyond the 4,194,304 a table can hold is turned away
(log entry 153). -/
def Mach.pointErrs (m : Mach) (core : Nat) (b : List Byte) : List (Option CmdErr) :=
  let op := cmdOp b
  let t := u8 b 0x11
  let v := u8 b 0x12
  let v2 := u8 b 0x13
  let n := u32 b 0x1C
  let down := (u16 b 0x32).testBit 8
  let pair := op == 11 || op == 12
  let usesN := [2, 3, 8, 9, 11, 12].contains op
  let usesA := [2, 7, 8, 9, 11, 12].contains op
  let usesB := (op == 3 && !pIdentity b) || [8, 9, 10, 11, 12].contains op
  let vs := [3, 4, 5, 6, 7, 8, 9, 10].contains op
  let v2s := op == 4 || (op == 10 && down)
  let tiles := (n + 31) / 32 * 32
  [ errIf (op == 0 || 12 < op) 0x10 0x02 ] ++
  tableErr ([1, 2, 3, 4].contains op) t 0x11 m.ptOn ++ tableErr vs v 0x12 m.vtOn ++ tableErr v2s v2 0x13 m.vtOn ++
  [ errIf (op == 5 && !m.vtAccumulated v) 0x12 0x02,
    errIf (op == 4 && (m.vtAccumulated v != m.vtAccumulated v2 || m.vtEdge v2 != 2 * m.vtEdge v)) 0x13 0x02,
    errIf (op != 1 && u32 b 0x14 != 0) 0x14 0x02,
    errIf (op == 3 && ptEntries < u32 b 0x18 + n) 0x18 0x02,
    errIf (if usesN then n == 0 else n != 0) 0x1C 0x02,
    errIf (pair && 1024 < n) 0x1C 0x02,
    errIf (usesA && (u64 b 0x20 % 32 != 0)) 0x20 0x03,
    errIf (usesB && (u64 b 0x28 % 32 != 0)) 0x28 0x03,
    errIf ((usesA && 2 < pSpaceA b) || (usesB && 2 < pSpaceB b)) 0x30 0x02,
    errIf (op == 3 && 16 ≤ u8 b 0x31) 0x31 0x01,
    errIf (pair && (u8 b 0x31) / 32 % 4 != 0) 0x31 0x01,
    errIf (pair && 26 < u8 b 0x31 % 32) 0x31 0x02,
    errIf (op == 11 && 128 ≤ u8 b 0x31) 0x31 0x02,
    errIf (op != 3 && !pair && u8 b 0x31 != 0) 0x31 0x02,
    errIf ((op == 8 || op == 10) && u16 b 0x32 % 4 == 3) 0x32 0x02,
    errIf (pair && (u16 b 0x34 < 32 || 8192 < u16 b 0x34 || u16 b 0x34 % 32 != 0)) 0x34 0x02,
    errIf (u16 b 0x36 != 0) 0x36 0x01,
    errIf (pair && !m.extentOk 2 (u32 b 0x38) ((if op == 11 then tiles else n) * u16 b 0x34) 1024) 0x38 0x03,
    errIf (u32 b 0x3C != 0) 0x3C 0x01,
    errIf (usesA && !m.extentOk (pSpaceA b) (u64 b 0x20) (m.pointLenA b) 32) 0x20 0x03,
    errIf (pair && !m.extentOk (pSpaceA b) (u64 b 0x20)
      (0x100 + 8 * (m.le (pAddrA core b + 0x80 + 4 * (u8 b 0x31 % 32)) 4 + u32 b 0x18 + n)) 32) 0x20 0x03,
    errIf (usesB && !m.extentOk (pSpaceB b) (u64 b 0x28) (m.pointLenB core b) 32) 0x28 0x03 ]

/-- A POINT command: its checks, then its effect from the core and its bytes. -/
def pointBody (f : Mach → Nat → List Byte → Mach) (m : Mach) (q : Nat) (b : List Byte) : Except CmdErr Mach := do
  let core := m.queueCore q
  firstErr (m.pointErrs core b)
  .ok (f m core b)

/-- The head of queue q is a BEGIN without error that must wait (R180). -/
def Mach.beginHeld (m : Mach) (q : Nat) : Bool :=
  let b := m.headBytes q
  cmdClass b == 4 && cmdOp b == 1 && u8 b 0x11 ≤ 31 && (firstErr (m.pointErrs (m.queueCore q) b)).toBool &&
    m.beginWaits (u8 b 0x11) (w32 b 0x14)

/-! ## The commands -/

/-- BEGIN. -/
def execPointBegin (q : Fin 256) (s : State) : Host.Outcome State Fault Refusal :=
  act s fun m =>
    if m.beginHeld q then m
    else m.startWith q 4 1 (pointBody fun m _ b => m.pointBegin (u8 b 0x11) (w32 b 0x14))

/-- APPEND. -/
def execPointAppend (q : Fin 256) (s : State) : Host.Outcome State Fault Refusal :=
  act s fun m => m.startWith q 4 2 (pointBody fun m c b => m.append (u8 b 0x11) (pAddrA c b) (u32 b 0x1C))

/-- The transform of a VOXELISE. -/
def voxelRows (m : Mach) (c : Nat) (b : List Byte) : Option (List Word) :=
  if pIdentity b then none else some ((List.range 12).map fun i => m.word (pAddrB c b + 4 * i))

/-- VOXELISE. -/
def execVoxelise (q : Fin 256) (s : State) : Host.Outcome State Fault Refusal :=
  act s fun m => m.startWith q 4 3 (pointBody fun m c b =>
    m.voxelise (u8 b 0x11) (u8 b 0x12) (u8 b 0x31 % 16) (u32 b 0x18) (u32 b 0x1C) (voxelRows m c b))

/-- COARSEN. -/
def execCoarsen (q : Fin 256) (s : State) : Host.Outcome State Fault Refusal :=
  act s fun m => m.startWith q 4 4 (pointBody fun m _ b => m.coarsen (u8 b 0x11) (u8 b 0x12) (u8 b 0x13) (u16 b 0x32))

/-- AGE. -/
def execPointAge (q : Fin 256) (s : State) : Host.Outcome State Fault Refusal :=
  act s fun m => m.startWith q 4 5 (pointBody fun m _ b => m.pointAge (u8 b 0x12) (u16 b 0x32))

/-- PURGE. -/
def execPointPurge (q : Fin 256) (s : State) : Host.Outcome State Fault Refusal :=
  act s fun m => m.startWith q 4 6 (pointBody fun m _ b => m.pointPurge (u8 b 0x12) (u16 b 0x32))

/-- LIST. -/
def execPointList (q : Fin 256) (s : State) : Host.Outcome State Fault Refusal :=
  act s fun m => m.startWith q 4 7 (pointBody fun m c b => m.pointList (u8 b 0x12) (u16 b 0x32) (pAddrA c b))

/-- NEIGH. -/
def execPointNeigh (q : Fin 256) (s : State) : Host.Outcome State Fault Refusal :=
  act s fun m => m.startWith q 4 8 (pointBody fun m c b =>
    m.pointNeigh (u8 b 0x12) (u16 b 0x32 % 4) (u32 b 0x18) (u32 b 0x1C) (pAddrA c b) (pAddrB c b))

/-- PROBE. -/
def execPointProbe (q : Fin 256) (s : State) : Host.Outcome State Fault Refusal :=
  act s fun m => m.startWith q 4 9 (pointBody fun m c b => m.pointProbe (u8 b 0x12) (u32 b 0x1C) (pAddrA c b) (pAddrB c b))

/-- RULES. -/
def execPointRules (q : Fin 256) (s : State) : Host.Outcome State Fault Refusal :=
  act s fun m => m.startWith q 4 10 (pointBody fun m c b =>
    m.setBytes (pAddrB c b) (m.ruleBook (u8 b 0x12) (u8 b 0x13) (u16 b 0x32 % 4) ((u16 b 0x32).testBit 8)))

/-- GATHER. -/
def execPointGather (q : Fin 256) (s : State) : Host.Outcome State Fault Refusal :=
  act s fun m => m.startWith q 4 11 (pointBody fun m c b =>
    m.pointGather (pPairs m c b) (pAddrB c b) (pLocal c b) (u16 b 0x34))

def pointCheck (m : Mach) (q : Nat) (b : List Byte) : Except CmdErr Unit := firstErr (m.pointErrs (m.queueCore q) b)

/-- A started SCATTER; into HBM its adds may meet those of another point unit (R178). -/
def pointScatterRun (m : Mach) (q : Nat) (x : Started) : Mach :=
  let b := x.bytes
  let c := m.queueCore q
  let pairs := pPairs m c b
  let m := m.pointScatter pairs (pAddrB c b) (pLocal c b) (u16 b 0x34) (128 ≤ u8 b 0x31)
  if pSpaceB b = 0 then m.noteAdds q (scatterWords pairs (pAddrB c b) (u16 b 0x34)) else m

/-- SCATTER. -/
def execPointScatter (q : Fin 256) (s : State) : Host.Outcome State Fault Refusal :=
  act s fun m => m.startRun q 4 12 pointCheck pointScatterRun

/-- What a completed POINT command adds to its unit's count. -/
def Mach.pointDone (m : Mach) (q : Nat) (b : List Byte) : Mach :=
  if cmdClass b = 4 then m.incReg (Reg.PNT_UCMDS (m.unitOf (m.queueCore q) b)) else m

end Sys2Proof.Machine
end

