-- ==== Sys2Proof/Machine/Queues.lean ====
section
/-! DEFINITION. The host-visible twin-basin queues (R98 to R111): the host result queue and the host injection
queue, their registers, and the forwarding of injected records (R280). -/

namespace Sys2Proof.Machine

/-- Base of a host queue's register window. -/
def hqWindow : HostQ → Nat
  | .result => Reg.HRQ
  | .inject => Reg.HIQ

def Mach.hostq (m : Mach) : HostQ → Tbq
  | .result => m.resultQ
  | .inject => m.injectQ

def Mach.setHostq (m : Mach) (h : HostQ) (q : Tbq) : Mach :=
  match h with
  | .result => { m with resultQ := q }
  | .inject => { m with injectQ := q }

/-- The queue lies in HBM as Q_CFG and Q_BASE say (R111). A result is flushed at its end whatever Q_CFG says (R279). -/
def Mach.hqGeom (m : Mach) (h : HostQ) : QGeom :=
  let w := hqWindow h
  { base := (m.reg (Reg.Q_BASE w)).toNat * 1024, size := m.fld (Reg.Q_CFG w) 0 14 * 1024, span := m.rbit (Reg.Q_CFG w) 31,
    record := h == .result || m.rbit (Reg.Q_CFG w) 30 }

/-- The host consumes, or produces, at this queue. -/
def Mach.hqConsumer (m : Mach) (h : HostQ) : Bool := m.fld (Reg.Q_CFG (hqWindow h)) 28 2 = 1
def Mach.hqProducer (m : Mach) (h : HostQ) : Bool := m.fld (Reg.Q_CFG (hqWindow h)) 28 2 = 2

/-- Where the open record of the filling basin begins, and whether one is open. -/
def Tbq.openAt (q : Tbq) : Nat := q.fillEnds.getLastD 0
def Tbq.recordOpen (q : Tbq) : Bool := decide (q.openAt < q.f)

def Tbq.empty (q : Tbq) : Bool := q.rd = q.l

/-- The queue after a change in one clock: the swap is evaluated, and the events are raised together (R101, R108). -/
def Mach.hqUpdate (m : Mach) (h : HostQ) (was q : Tbq) (events : Nat) : Mach :=
  let q := q.settle (m.hqGeom h) q.recordOpen
  let ready := if was.empty && !q.empty then 1 else 0
  let m := m.setHostq h q
  if events + ready = 0 then m else m.raise (Reg.Q_EVENT (hqWindow h)) (events + ready)

/-! ## Producers -/

/-- Data of a record filled up to a multiple of 4 bytes, since positions are multiples of 4 (R99); the spec gives the bytes added
no value, and they are free (log entry 149). -/
def Mach.padRecord (m : Mach) (data : List Byte) : List Byte × Mach :=
  if data.length % 4 = 0 then (data, m)
  else let (w, m) := m.free; (data ++ (wordBytes w).take (4 - data.length % 4), m)

/-- A result written whole as one record with a flush at its end, or discarded whole (R103, R279). -/
def Mach.hqPut (m : Mach) (data : List Byte) : Mach :=
  let (data, m) := m.padRecord data
  let g := m.hqGeom .result
  let was := m.resultQ
  let q := was.settle g false
  if q.fits g data.length then
    (m.setBytes (q.fillAt g) data).hqUpdate .result was (q.put g data.length) 0
  else
    let m := m.hqUpdate .result was { q with waiting := true, drops := q.drops + 1 } (if was.waiting then 4 else 12)
    m.raise Reg.EGR_EVENT 0x2

/-- The stage queue that the host injection queue feeds (R300, R324). -/
def Mach.injectTarget (m : Mach) : Option (Nat × StageCfg) :=
  ((List.range 128).find? fun n => (m.stageCfgOf n).any fun c => c.producer == .inject).bind fun n =>
    (m.stageCfgOf n).map fun c => (n, c)

/-- A word refused for want of room: the open record is discarded whole (R103, R280). -/
def Mach.hqDiscard (m : Mach) (h : HostQ) : Mach :=
  let was := m.hostq h
  let q := was.settle (m.hqGeom h) was.recordOpen
  m.hqUpdate h was { q with f := q.openAt, drops := q.drops + 1, waiting := true } (if was.waiting then 4 else 12)

/-- A word written to Q_WDATA, or refused. -/
def Mach.hqWrite (m : Mach) (h : HostQ) (v : Word) : Effect :=
  if !m.hqProducer h then (true, m)
  else
    let g := m.hqGeom h
    let was := m.hostq h
    let q := was.settle g was.recordOpen
    let limit := match m.injectTarget with
      | some (_, c) => min g.size (q.openAt + c.basin)
      | none => g.size
    if q.f + 4 ≤ limit then (false, (m.setWord (q.fillAt g) v).hqUpdate h was { q with f := q.f + 4, waiting := false } 0)
    else (true, m.hqDiscard h)

/-! ## Q_CMD (R105 to R108) -/

/-- A flush by the host: it ends the open record; without a word since the one before it is ignored (R102, R280). -/
def Tbq.hostFlush (q : Tbq) : Tbq := if q.recordOpen then ({ q with fillEnds := q.fillEnds ++ [q.f] }).flush else q

/-- The bits of one write of Q_CMD, in the order of R108. -/
def Mach.hqCommand (m : Mach) (h : HostQ) (v : Word) : Effect :=
  let was := m.hostq h
  if (v.field 1 3 != 0 && !m.hqConsumer h) || (v.bit 4 && !m.hqProducer h) ||
      (v.bit 4 && was.recordOpen && 64 ≤ was.fillEnds.length) then (true, m)
  else
    let q := if v.bit 0 then { was with underrun := false } else was
    let q := if v.bit 1 then q.doMark else q
    let q := if v.bit 2 then q.release else q
    let q := if v.bit 3 then q.rewind else q
    let q := if v.bit 4 then q.hostFlush else q
    (false, m.hqUpdate h was q 0)

/-- A read of Q_RDATA (R104): the word, and the queue that has given it. -/
def Mach.hqRead (m : Mach) (h : HostQ) : Word × Mach :=
  let q := m.hostq h
  if q.empty then (q.lastRead, (m.setHostq h { q with underrun := true }).raise (Reg.Q_EVENT (hqWindow h)) 2)
  else
    let v := m.word (q.readAt (m.hqGeom h))
    let m := m.setHostq h { q with rd := q.rd + 4, lastRead := v }
    (v, if h = .result then m.bump 504 4 else m)

/-! ## The commands -/

/-- A read of Q_RDATA through the port, taken for a 4-byte READ (log entry 5): the word goes to the host as its data. -/
def Mach.qRead (m : Mach) (h : HostQ) : Mach :=
  if m.hqConsumer h then
    let (w, m) := m.hqRead h
    m.onPort fun p => { p with answer := { p.answer with data := leBytes 4 w.toNat } }
  else m.busError false (Reg.Q_RDATA (hqWindow h) 0) 0x04 0x20 0

def execQRead (q : HostQ) (s : State) : Host.Outcome State Fault Refusal := act s fun m => m.qRead q

/-- A write of Q_WDATA: a refused word discards the open record. -/
def Mach.qWdata (m : Mach) (h : HostQ) (v : Word) : Mach :=
  let a := Reg.Q_WDATA (hqWindow h)
  if m.blockPosted a then m.busError false a 0x02 0x60 0
  else
    let e := m.hqWrite h v
    if e.1 then e.2.refuse a else e.2

def execQWdataWrite (q : HostQ) (v : Word) (s : State) : Host.Outcome State Fault Refusal := act s fun m => m.qWdata q v

/-- A write of Q_CMD with one bit set. -/
def Mach.qCmd (m : Mach) (h : HostQ) (v : Word) : Mach :=
  m.arriveWith (Reg.Q_CMD (hqWindow h)) v (m.hqCommand h v)

def execMark (q : HostQ) (s : State) : Host.Outcome State Fault Refusal := act s fun m => m.qCmd q 0x2
def execRelease (q : HostQ) (s : State) : Host.Outcome State Fault Refusal := act s fun m => m.qCmd q 0x4
def execRewind (q : HostQ) (s : State) : Host.Outcome State Fault Refusal := act s fun m => m.qCmd q 0x8
def execFlush (q : HostQ) (s : State) : Host.Outcome State Fault Refusal := act s fun m => m.qCmd q 0x10
def execClearUnderrun (q : HostQ) (s : State) : Host.Outcome State Fault Refusal := act s fun m => m.qCmd q 0x1

/-- The hardware consumer forwards the next record of the draining basin, or waits for room; it releases the
basin after the last (R280). -/
def Mach.injectForward (m : Mach) : Mach :=
  let g := m.hqGeom .inject
  let was := m.injectQ
  match m.injectTarget, was.nextRecord with
  | some (n, _), some len =>
    let (m', ok) := m.stagePush n (m.bytes (was.readAt g) len)
    if ok then
      let q := { was with rd := was.rd + len }
      m'.hqUpdate .inject was (if q.nextRecord.isNone then { q with rl := q.l, rd := q.l } else q) 0
    else m'
  | _, _ => m

def execInjectionForward (s : State) : Host.Outcome State Fault Refusal := act s fun m => m.injectForward

/-- The swap of a queue whose conditions hold (R101). The model takes every swap at the operation that makes its
conditions hold, so that this command finds none to take unless a register write has made them hold. -/
def Mach.basinSwap (m : Mach) (r : QRef) : Mach :=
  match r with
  | .ingress s => m.onStream s fun x => { x with q := x.q.settle (m.inqGeom s) true }
  | .stage n =>
    match m.stageCfgOf n with
    | some c => m.setStage n ((m.stage n).settle c.geom false)
    | none => m
  | .hostResult => m.hqUpdate .result m.resultQ m.resultQ 0
  | .hostInject => m.hqUpdate .inject m.injectQ m.injectQ 0

def execBasinSwap (q : QRef) (s : State) : Host.Outcome State Fault Refusal := act s fun m => m.basinSwap q

end Sys2Proof.Machine
end

