-- ==== Sys2Proof/Machine/Scanner.lean ====
section
/-! DEFINITION. Scanner datagrams: the two formats (R87 to R89), the sensor-time map (R84 to R86) and what
a MAC sends of its own (R282). -/

namespace Sys2Proof.Machine

/-! ## Decoded points -/

/-- A point as the decoder reads it: coordinates in FP32, sensor time in ns, and whether it begins a sweep or is
a non-return. -/
structure Pt where
  x : Word
  y : Word
  z : Word
  t : Int
  inten : Nat := 0
  ring : Nat := 0
  ret : Nat := 0
  starts : Bool := false
  gone : Bool := false
deriving DecidableEq, Repr

/-- A decoded datagram: its points in order, the sweep its record carries, what the stream remembers of sweeps,
and the points counted as malformed (R89). -/
structure Scan where
  pts : List Pt
  sweep : Nat
  lastSweep : Option Nat
  lastAz : Option Word := none
  malf : Nat := 0
deriving DecidableEq, Repr

/-! ## Cerawick Generic Point Format (R87) -/

/-- The header and length of a datagram are in range (Table 3-6). -/
def cgpfOk (p : List Byte) : Bool :=
  let fmt := u8 p 5
  let n := u16 p 6
  let scale := u32 p 0x18
  decide (32 ≤ p.length) && u32 p 0 == 0x46504743 && u8 p 4 == 1 && decide (fmt ≤ 1) && decide (1 ≤ n) &&
    decide (n ≤ if fmt = 0 then 448 else 747) && u16 p 0x16 < 8 &&
    (if fmt = 0 then scale == 0 else decide (1 ≤ scale) && decide (scale ≤ 10000000)) && u16 p 0x1E == 0 &&
    p.length == 32 + n * (if fmt = 0 then 20 else 12)

/-- Point i of a datagram (Table 3-7). -/
def cgpfPoint (p : List Byte) (i : Nat) : Pt :=
  let base := u64 p 8
  if u8 p 5 = 0 then
    let o := 32 + 20 * i
    let c := [w32 p o, w32 p (o + 4), w32 p (o + 8)]
    { x := w32 p o, y := w32 p (o + 4), z := w32 p (o + 8), t := base + u32 p (o + 0xC)
      inten := u8 p (o + 0x10) * 257, ret := u8 p (o + 0x11), ring := u16 p (o + 0x12)
      gone := c.any (fun w => !(f32 w).isFinite) || c.all fun w => FVal.eq (f32 w) FVal.zero }
  else
    let o := 32 + 12 * i
    let m := fun k => fratio (s16 p (o + k) * (u32 p 0x18 : Int)) 1000000000
    { x := m 0, y := m 2, z := m 4, t := base + u32 p (o + 6)
      inten := u8 p (o + 0xA) * 257, ring := u8 p (o + 0xB)
      gone := s16 p o == 0 && s16 p (o + 2) == 0 && s16 p (o + 4) == 0 }

/-- The datagram decoded; `last` is the sweep of the datagram before. -/
def cgpfScan (p : List Byte) (last : Option Nat) : Scan :=
  let sweep := u32 p 0x10
  let new := (u16 p 0x16).testBit 2 || last != some sweep
  let pts := (List.range (u16 p 6)).map fun i => let q := cgpfPoint p i; { q with starts := new && i == 0 }
  { pts := pts, sweep := sweep, lastSweep := some sweep }

/-! ## Point-packet descriptors (R88, R89) -/

/-- Byte j of descriptor d. -/
def Mach.descriptor (m : Mach) (d : Nat) : List Byte :=
  (List.range 256).flatMap fun j => wordBytes (m.reg (0x150000 + 0x400 * d + 4 * j))

/-- A field entry. -/
structure Fld where
  kind : Nat
  inPoint : Bool
  big : Bool
  typ : Nat
  width : Nat
  off : Nat
  scale : Word
deriving DecidableEq, Repr

def fieldWidth : Nat → Nat
  | 1 => 1
  | 2 => 2
  | 3 => 3
  | 4 => 4
  | 5 => 8
  | _ => 0

def descField (d : List Byte) (i : Nat) : Fld :=
  let o := 0x40 + 8 * i
  let form := u8 d (o + 1)
  { kind := u8 d o, inPoint := form.testBit 7, big := form.testBit 6, typ := bits form 4 2, width := fieldWidth (form % 16)
    off := u16 d (o + 2), scale := w32 d (o + 4) }

def descFields (d : List Byte) : List Fld := (List.range (min 24 (u8 d 9))).map (descField d)

def descHeader (d : List Byte) : Nat := u16 d 0
def descStride (d : List Byte) : Nat := u16 d 2
def descTrailer (d : List Byte) : Nat := u16 d 4

/-- A descriptor that decodes: every field within its header or stride, every kind known, a count field where
the rule needs one (R89), and the ranges of Table 3-8. -/
def descOk (d : List Byte) : Bool :=
  let fs := descFields d
  decide (descHeader d ≤ 1024) && decide (1 ≤ descStride d) && decide (descStride d ≤ 256) && decide (descTrailer d ≤ 1024) &&
    decide (u8 d 6 ≤ 1) && decide (u8 d 7 ≤ 2) && decide (u8 d 8 ≤ 1) && decide (1 ≤ u8 d 9) && decide (u8 d 9 ≤ 24) &&
    fs.all (fun f => decide (1 ≤ f.kind) && decide (f.kind ≤ 14) && decide (f.typ ≤ 2) && decide (0 < f.width) &&
      (f.typ != 2 || f.width == 4 || f.width == 8) &&
      decide (f.off + f.width ≤ if f.inPoint then descStride d else descHeader d)) &&
    (u8 d 6 == 0 || fs.any fun f => f.kind == 13)

/-- The bytes of a field, least significant first; `at_` is where the point begins. -/
def Fld.raw (f : Fld) (p : List Byte) (at_ : Nat) : List Byte :=
  let l := (p.drop ((if f.inPoint then at_ else 0) + f.off)).take f.width
  if f.big then l.reverse else l

/-- Its value. -/
def Fld.value (f : Fld) (p : List Byte) (at_ : Nat) : FVal :=
  let n := ofLe (f.raw p at_)
  match f.typ with
  | 0 => FVal.ofInt n
  | 1 => FVal.ofInt (signed (8 * f.width) n)
  | _ => if f.width = 4 then FVal.ofBits fp32 n else FVal.ofBits fp64 n

/-- The field of a kind, its value, and its value in metres or radians. -/
def fieldOf (fs : List Fld) (kind : Nat) : Option Fld := fs.find? fun f => f.kind == kind
def fieldVal (fs : List Fld) (kind : Nat) (p : List Byte) (at_ : Nat) : FVal :=
  ((fieldOf fs kind).map fun f => f.value p at_).getD FVal.zero
def fieldInt (fs : List Fld) (kind : Nat) (p : List Byte) (at_ : Nat) : Int := (fieldVal fs kind p at_).floorInt

/-- Its value in n bits, a negative one in two's complement, a fraction cut to the integer below (log entry 139). -/
def fieldBits (fs : List Fld) (kind n : Nat) (p : List Byte) (at_ : Nat) : Nat := (BitVec.ofInt n (fieldInt fs kind p at_)).toNat

/-- Its bits as they stand, 0 for an absent field. -/
def fieldRaw (fs : List Fld) (kind : Nat) (p : List Byte) (at_ : Nat) : Nat :=
  ((fieldOf fs kind).map fun f => ofLe (f.raw p at_)).getD 0

/-- The field is there and its value is 0. -/
def fieldIsZero (fs : List Fld) (kind : Nat) (p : List Byte) (at_ : Nat) : Bool :=
  (fieldOf fs kind).isSome && FVal.eq (fieldVal fs kind p at_) FVal.zero

def fieldScaled (fs : List Fld) (kind : Nat) (p : List Byte) (at_ : Nat) : Word :=
  match fieldOf fs kind with
  | some f => toF32 (FVal.mul (f.value p at_) (f32 f.scale))
  | none => f0

/-- Intensity on 16 bits (R89). -/
def fieldIntensity (fs : List Fld) (p : List Byte) (at_ : Nat) : Nat :=
  match fieldOf fs 9 with
  | none => 0
  | some f =>
    let l := f.raw p at_
    if f.width = 1 then ofLe l * 257
    else if f.width = 2 then ofLe l
    else (Config.wideIntensity l).toNat

/-- Number of points of a datagram, unless it does not fit its descriptor. Under count_rule 1 bytes beyond the points and the
trailer are passed over (log entry 138). -/
def descCount (d p : List Byte) : Option Nat :=
  let h := descHeader d
  let t := descTrailer d
  let s := descStride d
  if u8 d 6 = 0 then
    if h + t ≤ p.length ∧ (p.length - h - t) % s = 0 then some ((p.length - h - t) / s) else none
  else
    let n := fieldInt (descFields d) 13 p h
    if 0 ≤ n ∧ h + n.toNat * s + t ≤ p.length then some n.toNat else none

/-- Coordinates of a point (R89): each product is rounded to FP32, r cos(el) first (log entry 138). -/
def descXyz (d : List Byte) (fs : List Fld) (p : List Byte) (at_ ring : Nat) : Word × Word × Word :=
  if u8 d 7 = 0 then (fieldScaled fs 1 p at_, fieldScaled fs 2 p at_, fieldScaled fs 3 p at_)
  else
    let r := fieldScaled fs 4 p at_
    let az := fieldScaled fs 5 p at_
    let el := if u8 d 7 = 1 then fieldScaled fs 6 p at_ else w32 d (0x100 + 4 * ring)
    let rc := fmul r (Config.cos el)
    (fmul rc (Config.cos az), fmul rc (Config.sin az), fmul r (Config.sin el))

/-- Sensor time of a point in ns (R89). -/
def descTime (d : List Byte) (fs : List Fld) (p : List Byte) (at_ : Nat) : Int :=
  (FVal.add (FVal.mul (fieldVal fs 7 p at_) (FVal.ofInt (u32 d 0xC)))
    (FVal.mul (fieldVal fs 8 p at_) (FVal.ofInt (u32 d 0x10)))).floorInt / 1000

/-- One more point decoded. The record's sweep is that of its last point, 0 where the descriptor has no sweep field, whatever
the sweep rule (log entry 138). Under coord 2 a ring outside 0 to 127 has no angle in the table, a negative one too (log entry 139). -/
def descPoint (d : List Byte) (fs : List Fld) (p : List Byte) (acc : Scan) (i : Nat) : Scan :=
  let at_ := descHeader d + i * descStride d
  let ring := fieldBits fs 10 16 p at_
  let mark := fieldRaw fs 12 p at_
  let az := fieldScaled fs 5 p at_
  let new :=
    if u8 d 8 = 0 then acc.lastSweep != some mark
    else match acc.lastAz with
      | none => true
      | some a => flt az a
  let whole := fieldInt fs 10 p at_
  if u8 d 7 = 2 ∧ (whole < 0 ∨ 128 ≤ whole) then
    { acc with malf := acc.malf + 1, lastSweep := some mark, lastAz := some az
               pts := acc.pts ++ [{ x := f0, y := f0, z := f0, t := descTime d fs p at_, starts := new, gone := true }] }
  else
    let (x, y, z) := descXyz d fs p at_ ring
    let gone := fieldIsZero fs 14 p at_ || fieldIsZero fs 4 p at_
    let pt : Pt := { x := x, y := y, z := z, t := descTime d fs p at_, inten := fieldIntensity fs p at_, ring := ring
                     ret := fieldBits fs 11 8 p at_, starts := new, gone := gone }
    { acc with pts := acc.pts ++ [pt], lastSweep := some mark, lastAz := some az, sweep := fieldBits fs 12 16 p at_ }

/-- A datagram decoded by a descriptor; none where it is malformed. -/
def descScan (d p : List Byte) (last : Option Nat) (lastAz : Option Word) : Option Scan :=
  if descOk d then
    (descCount d p).map fun n =>
      (List.range n).foldl (descPoint d (descFields d) p) { pts := [], sweep := 0, lastSweep := last, lastAz := lastAz }
  else none

/-! ## The sensor-time map (R84 to R86) -/

/-- Coefficients: s0, m0 and skew. -/
structure Coef where
  s0 : Nat
  m0 : Word
  skew : Int
deriving DecidableEq, Repr

/-- Two's complement reading of the low 64 bits. -/
def wrap64 (x : Int) : Int := (BitVec.ofInt 64 x).toInt

/-- Short time of a sensor time (R84). -/
def Coef.conv (c : Coef) (t : Int) : Word :=
  let d := wrap64 (t - c.s0)
  c.m0 + BitVec.ofInt 32 (d + wrap64 (d * c.skew) / 2 ^ 32)

def Mach.mapState (m : Mach) (s : Nat) : Nat := m.fld (Reg.STR_STATUS s) 1 2

/-- The estimated map, as the STR_MAP registers show it. -/
def Mach.estCoef (m : Mach) (s : Nat) : Coef :=
  { s0 := (m.reg (Reg.STR_MAP_S0_LO s)).toNat + (m.reg (Reg.STR_MAP_S0_HI s)).toNat * 2 ^ 32
    m0 := m.reg (Reg.STR_MAP_M0 s)
    skew := (m.reg (Reg.STR_MAP_SKEW s)).toInt }

/-- The map of a calibration entry (Table 6-1). -/
def entryCoef (e : List Byte) : Coef := { s0 := u64 e 0x40, m0 := w32 e 0x48, skew := s32 e 0x4C }

/-- n ÷ d rounded to the nearest integer, ties away from zero. -/
def roundAway (n d : Int) : Int :=
  let a := n.natAbs
  let b := d.natAbs
  let q := (2 * a + b) / (2 * b)
  if decide (n < 0) == decide (d < 0) then (q : Int) else -(q : Int)

/-- The smaller delay, with its time. -/
def lessDelay (a b : Int × Nat) : Int × Nat :=
  if b.1 < a.1 ∨ (b.1 = a.1 ∧ b.2 < a.2) then b else a

/-- Skew from the newest and the oldest four minima (R85); the list has the newest first. Two minima of one sensor time give no
quotient: the skew is 0 then (log entry 140). -/
def skewOf (l : List (Int × Nat)) : Int :=
  match l.take 4, l.drop 4 with
  | x :: xs, y :: ys =>
    let a := xs.foldl lessDelay x
    let b := ys.foldl lessDelay y
    if a.2 = b.2 then 0
    else max (-4294967) (min 4294967 (roundAway ((a.1 - b.1) * 2 ^ 32) ((a.2 : Int) - b.2)))
  | _, _ => 0

/-- The end of a block that yielded a minimum (R85). -/
def Mach.mapBlockEnd (m : Mach) (s : Nat) : Mach :=
  let x := m.stream s
  match x.blockMin with
  | none => m
  | some (_, dly, t) =>
    let minima := ((dly, t) :: x.minima).take 8
    let full := decide (8 ≤ minima.length)
    let m := m.setStream s { x with blockMin := none, minima := minima }
    let m := (m.setReg (Reg.STR_MAP_S0_LO s) (BitVec.ofNat 32 t)).setReg (Reg.STR_MAP_S0_HI s) (BitVec.ofNat 32 (t / 2 ^ 32))
    let m := m.setReg (Reg.STR_MAP_M0 s) (BitVec.ofInt 32 (t + dly))
    let m := m.setReg (Reg.STR_MAP_SKEW s) (BitVec.ofInt 32 (if full then skewOf minima else 0))
    m.setFld (Reg.STR_STATUS s) 1 2 (if full then 2 else 1)

/-- Module time in blocks of 250 ms. -/
def Mach.block (m : Mach) : Nat := m.time.count.toNat / 250000000

def execMapBlockEnd (st : Fin 256) (s : State) : Host.Outcome State Fault Refusal :=
  act s fun m =>
    match (m.stream st).blockMin with
    | some (b, _, _) => if b < m.block then m.mapBlockEnd st else m
    | none => m

/-- A datagram's sample taken by the estimator (R85, R86); `stamp` is its arrival on 64 bits, t the sensor time
of its last point. -/
def Mach.estimate (m : Mach) (s : Nat) (stamp : BitVec 64) (t : Int) : Mach :=
  let m := match (m.stream s).blockMin with
    | some (b, _, _) => if b < m.block then m.mapBlockEnd s else m
    | none => m
  let m :=
    if m.mapState s = 0 then m
    else
      let dev := (stamp.setWidth 32 - (m.estCoef s).conv t).toInt.natAbs
      let k := if m.fld (Reg.STR_CTRL s) 0 16 * 1000 < dev then (m.stream s).deviating + 1 else 0
      let m := m.onStream s fun x => { x with deviating := k }
      if 4 ≤ k then ((m.mapRestart s).raise (Reg.STR_EVENT s) 0x20).onStream s fun x => { x with first := true } else m
  let dly := (stamp.toNat : Int) - t
  let b := m.block
  m.onStream s fun x => { x with blockMin := match x.blockMin with
    | some (c, d, u) => if dly < d then some (c, dly, t.toNat) else some (c, d, u)
    | none => some (b, dly, t.toNat) }

/-! ## A datagram on its stream -/

/-- A decoded point record (Table 3-9). -/
def pointBytes (p : Pt) (t : Word) (start : Bool) : List Byte :=
  wordBytes p.x ++ wordBytes p.y ++ wordBytes p.z ++ wordBytes t ++ leBytes 2 p.inten ++ leBytes 2 p.ring ++
    leBytes 1 p.ret ++ leBytes 1 start.toNat ++ leBytes 2 0

/-- The points kept, with their short times; the first kept of a new sweep carries the flag (R87). -/
def keepPoints (conv : Int → Word) (owed : Bool) : List Pt → List (Pt × Word × Bool) × Bool
  | [] => ([], owed)
  | p :: ps =>
    let owed := owed || p.starts
    if p.gone then keepPoints conv owed ps
    else
      let (l, o) := keepPoints conv false ps
      ((p, conv p.t, owed) :: l, o)

/-- A decoded datagram made an item of stream s (R84, R87, R93). -/
def Mach.scanItem (m : Mach) (s : Nat) (stamp : Word) (sc : Scan) (conv : Int → Word) : Mach :=
  let (kept, owed) := keepPoints conv (m.stream s).sweepOwed sc.pts
  let m := m.onStream s fun x => { x with sweepOwed := owed, lastSweep := sc.lastSweep, lastAz := sc.lastAz }
  match kept.head?, kept.getLast? with
  | some a, some z =>
    m.enqueue s { kind := m.strKind s, offsetOnly := m.fld (Reg.STR_CTRL s) 29 2 == 0 && m.mapState s == 1
                  sweep := kept.any fun k => k.2.2
                  stamp := stamp, tFirst := a.2.1, tLast := z.2.1
                  info0 := BitVec.ofNat 32 (sc.sweep % 65536 * 65536 + kept.length)
                  payload := kept.flatMap fun k => pointBytes k.1 k.2.1 k.2.2 }
  | _, _ => m

/-- Points of an identity-mapped stream before the target of the step are dropped (R54); a sweep that one of them begins starts
at the first point kept, as with a non-return (R87). -/
def Scan.since (sc : Scan) (t : Int) : Scan := { sc with pts := sc.pts.map fun p => if p.t < t then { p with gone := true } else p }

/-- A datagram decoded and mapped (R84). -/
def Mach.scanIn (m : Mach) (s : Nat) (stamp : BitVec 64) (sc : Scan) : Mach :=
  let short := stamp.setWidth 32
  let m := m.addReg (Reg.STR_MALF s) sc.malf
  match m.fld (Reg.STR_CTRL s) 29 2 with
  | 1 => m.scanItem s short sc (entryCoef (m.calForMap s stamp)).conv
  | 2 =>
    if m.rbit Reg.TIME_STATUS 0 then
      let aw := m.time.anchorWide.total
      let m := if sc.pts.any fun p => decide (p.t < aw) then m.strDrop s else m
      m.scanItem s short (sc.since aw) fun t => BitVec.ofInt 32 (m.time.anchorCount.toNat + (t - aw))
    else m.strDrop s
  | _ =>
    match sc.pts.getLast? with
    | none => m
    | some p =>
      let m := m.estimate s stamp p.t
      if m.mapState s = 0 then m.strDrop s else m.scanItem s short sc (m.estCoef s).conv

/-- A multicast address, and its membership (R75, R282). -/
def isMulticast (ip : List Byte) : Bool := if ip.length = 4 then bits (u8 ip 0) 4 4 == 0xE else u8 ip 0 == 0xFF

/-- The number that bytes spell, most significant first. -/
def ofBe (l : List Byte) : Nat := ofLe l.reverse

def Mach.joined (m : Mach) (p : Nat) (ip : List Byte) : Bool :=
  (List.range 32).any fun i => m.rbit (Reg.NET_MCEN p) i &&
    (if m.rbit (Reg.NET_MC6 p) i then
      ip.length == 16 && (List.range 4).all fun w => (m.reg (Reg.NET_MC p i w)).toNat == ofBe ((ip.drop (4 * w)).take 4)
    else ip.length == 4 && (m.reg (Reg.NET_MC p i 0)).toNat == ofBe ip)

/-- Bytes of the frame that carries a datagram, from destination address through FCS. -/
def frameBytes (d : Datagram) : Nat :=
  max 64 (14 + (if d.vlan.isSome then 4 else 0) + (if d.dstIp.length = 16 then 40 else 20) + 8 + d.payload.length + 4)

/-- The MAC takes frames: enabled, with its link up, its island running. -/
def Mach.macUp (m : Mach) (p : Nat) : Bool :=
  m.rbit (Reg.SNS_MAC_CFG p) 31 && m.rbit (Reg.SNS_MAC_STAT p) 0 && m.runs (152 + p)

/-! ## What a MAC sends of its own (R282) -/

/-- The bytes of a word, most significant first. -/
def beWord (w : Word) : List Byte := (wordBytes w).reverse

def Mach.onEgr (m : Mach) (f : Egress → Egress) : Mach := { m with egr := f m.egr }

/-- The module's MAC address on a MAC (R282). -/
def Mach.ownMac (m : Mach) (p : Nat) : BitVec 48 :=
  BitVec.ofNat 48 ((m.reg (Reg.NET_MACA_LO p)).toNat + m.fld (Reg.NET_MACA_HI p) 0 16 * 2 ^ 32)

/-- A frame handed to a MAC's transmit queue, with the module's address and the MAC's VLAN tag on it. -/
def Mach.transmit (m : Mach) (p : Nat) (b : SentBody) : Mach :=
  m.onEgr fun e => { e with sent := e.sent ++ [{ mac := p, src := m.ownMac p, vlan := m.macVlan p, body := b }] }

/-- The enabled multicast groups of a MAC, of IPv4 or IPv6. -/
def Mach.mcGroups (m : Mach) (p : Nat) (six : Bool) : List (List Byte) :=
  ((List.range 32).filter fun i => m.rbit (Reg.NET_MCEN p) i && m.rbit (Reg.NET_MC6 p) i == six).map fun i =>
    (List.range (if six then 4 else 1)).flatMap fun w => beWord (m.reg (Reg.NET_MC p i w))

/-- The IGMPv3 and MLDv2 reports of the groups that a MAC receives, on a link that is up (R282, log entry 132). -/
def Mach.reportGroups (m : Mach) (p : Nat) : Mach :=
  if m.macUp p then
    [false, true].foldl (fun m six =>
      let l := m.mcGroups p six
      if l.isEmpty then m else m.transmit p (.membership six l)) m
  else m

end Sys2Proof.Machine
end

