-- ==== Sys2Proof/Machine/LowRate.lean ====
section
/-! DEFINITION. SPI, CAN, encoder and GPIO ports (R77 to R79), and what the SNS block makes of writes (R94, R96). -/

namespace Sys2Proof.Machine

/-- An item of the low-rate hub goes to its stream, or is counted in the field of SNS_HUB_DROP at bit lo (R80). -/
def Mach.hubItem (m : Mach) (lo : Nat) (p : Nat → Bool) (it : Item) : Mach :=
  match m.selectStream p with
  | some s => m.enqueue s it
  | none => m.incFld Reg.SNS_HUB_DROP lo 8

/-- An item stamped at one time. -/
def plainItem (kind : Nat) (t info0 info1 : Word) (payload : List Byte) : Item :=
  { kind := kind, stamp := t, tFirst := t, tLast := t, info0 := info0, info1 := info1, payload := payload }

/-! ## SPI (R77) -/

def Mach.spiOf (m : Mach) (i : Nat) : Spi := sget (fun _ => {}) m.ports.spi i
def Mach.setSpi (m : Mach) (i : Nat) (x : Spi) : Mach := m.onPorts fun p => { p with spi := sput (fun _ => {}) i x p.spi }

/-- The stream that selects samples of an SPI port now. -/
def Mach.spiStream (m : Mach) (i : Nat) : Option Nat := m.selectStream fun s => m.strFrom s 4 i

/-- A sample reaches the stream that selected it when its read began, which takes it though it drains (R94); else the stream that
selects it now, or the drop count. -/
def Mach.spiItem (m : Mach) (i : Nat) (dest : Option Nat) (it : Item) : Mach :=
  match dest.filter fun s => m.strEnabled s || m.rbit (Reg.STR_STATUS s) 3 with
  | some s => (m.enqueue s it).strDrained s
  | none => m.hubItem 24 (fun s => m.strFrom s 4 i) it

/-- A DRDY edge of the configured direction: a read starts, or the stamp is held and the edge counted. -/
def Mach.drdyEdge (m : Mach) (i : Nat) (rising : Bool) : Mach :=
  let cfg := m.reg (Reg.SNS_SPI_CFG i)
  if cfg.bit 31 && cfg.bit 28 != rising then
    let x := m.spiOf i
    if x.reading.isNone then m.setSpi i { reading := some (m.now, m.spiStream i) }
    else (m.setSpi i { x with held := some m.now }).incReg (Reg.SNS_SPI_STAT i)
  else m

def execDrdyEdge (i : Fin 4) (rising : Bool) (s : State) : Host.Outcome State Fault Refusal :=
  atHub s fun m => m.drdyEdge i rising

/-- A read completes: its bytes make a sample, and a held read starts. -/
def Mach.spiDone (m : Mach) (i : Nat) (data : List Byte) : Mach :=
  let x := m.spiOf i
  match x.reading with
  | some (t, dest) =>
    let m := m.setSpi i { reading := x.held.map fun t => (t, m.spiStream i) }
    m.spiItem i dest { plainItem 4 t (BitVec.ofNat 32 data.length) 0 data with damaged := x.broken }
  | none => m

def execSpiReadDone (i : Fin 4) (data : List Byte) (s : State) : Host.Outcome State Fault Refusal :=
  atHub s fun m => m.spiDone i data

/-! ## CAN (R78) -/

def Mach.canState (m : Mach) (j : Nat) : Nat := m.fld (Reg.SNS_CAN_STAT j) 0 2

/-- The stream that selects a CAN frame (Table 3-13). -/
def Mach.canMatch (m : Mach) (j : Nat) (f : CanFrame) (s : Nat) : Bool :=
  m.strFrom s 6 j && m.rbit (Reg.STR_MATCH2 s) 29 == f.ext &&
    ((f.ident.setWidth 32 ^^^ m.reg (Reg.STR_MATCH s)) &&& m.reg (Reg.STR_MATCH2 s) &&& 0x1FFFFFFF) == 0

/-- SNS_CAN_STATj for these error counters: error passive from 128 on, bus-off from a transmit count of 256 on. -/
def canStat (tec rec : Nat) : Word :=
  let st := if 256 ≤ tec then 2 else if 128 ≤ tec ∨ 128 ≤ rec then 1 else 0
  BitVec.ofNat 32 (min 255 tec * 2 ^ 24 + rec * 2 ^ 16 + st)

/-- The receive error count after a good frame (ISO 11898-1): 1 less, and some value of 119 to 127 where it was above 127 (log
entry 135). -/
def Mach.canGood (m : Mach) (j : Nat) : Mach :=
  let tec := m.fld (Reg.SNS_CAN_STAT j) 24 8
  let rec' := m.fld (Reg.SNS_CAN_STAT j) 16 8
  if 127 < rec' then
    let (w, m) := m.free
    m.setReg (Reg.SNS_CAN_STAT j) (canStat tec (119 + w.toNat % 9))
  else m.setReg (Reg.SNS_CAN_STAT j) (canStat tec (rec' - 1))

/-- A frame valid at the end of its end-of-frame field. -/
def Mach.canRx (m : Mach) (j : Nat) (f : CanFrame) : Mach :=
  let cfg := m.reg (Reg.SNS_CAN_CFG j)
  if cfg.bit 31 && m.canState j != 2 && (!f.fd || cfg.bit 29) then
    (m.canGood j).hubItem 16 (m.canMatch j f) (plainItem 6 f.sof (f.ident.setWidth 32) (BitVec.ofNat 32 f.data.length) f.data)
  else m

def execCanFrameRx (j : Fin 2) (f : CanFrame) (s : State) : Host.Outcome State Fault Refusal :=
  atHub s fun m => m.canRx j f

/-- A frame ended by an error frame is no item; the counters after it and the state they give (Table 3-12). -/
def Mach.canError (m : Mach) (j tec rec : Nat) : Mach :=
  if m.rbit (Reg.SNS_CAN_CFG j) 31 && m.canState j != 2 then
    let m := m.setReg (Reg.SNS_CAN_STAT j) (canStat tec rec)
    if m.canState j = 2 then m.raise Reg.SNS_EVENT 0x4 else m
  else m

def execCanErrorFrame (j : Fin 2) (tec : BitVec 9) (rec : BitVec 8) (s : State) : Host.Outcome State Fault Refusal :=
  atHub s fun m => m.canError j tec.toNat rec.toNat

/-- Recovery from bus-off: error active, both counters 0 (ISO 11898-1, Table 3-4). -/
def execCanBusoffRecovery (j : Fin 2) (s : State) : Host.Outcome State Fault Refusal :=
  atHub s fun m => if m.canState j = 2 then m.setReg (Reg.SNS_CAN_STAT j) 0 else m

/-! ## Encoders (R78) -/

def Mach.encOf (m : Mach) (e : Nat) : Enc := sget (fun _ => {}) m.ports.enc e
def Mach.setEnc (m : Mach) (e : Nat) (x : Enc) : Mach := m.onPorts fun p => { p with enc := sput (fun _ => {}) e x p.enc }

/-- Counts of one transition of A and B: +1 where A leads B (log entry 20). -/
def quadStep (a b a' b' : Bool) : Int :=
  if a != a' then (if a' == b then -1 else 1) else if b != b' then (if b' == a then 1 else -1) else 0

/-- Levels of A, B and Z after the glitch filter. The levels are followed while the port is disabled or the hub stands still,
without an edge, and a change of SNS_ENC_CFG.invert is none of itself (log entry 136); inversion turns all three. -/
def Mach.encEdge (m : Mach) (e : Nat) (a b z : Bool) : Mach :=
  let cfg := m.reg (Reg.SNS_ENC_CFG e)
  let x := m.encOf e
  let y := { x with a := a, b := b, z := z }
  if cfg.bit 31 && m.runs 164 then
    let inv := fun (v : Bool) => v != cfg.bit 30
    let m := m.setEnc e { y with
      edge := if a != x.a || b != x.b then m.now else x.edge
      zEdge := if inv z && !inv x.z && cfg.bit 29 then m.now else x.zEdge }
    if a != x.a && b != x.b then m.incReg (Reg.SNS_ENC_STAT e)
    else m.setReg (Reg.SNS_ENC_COUNT e) (m.reg (Reg.SNS_ENC_COUNT e) + BitVec.ofInt 32 (quadStep (inv x.a) (inv x.b) (inv a) (inv b)))
  else m.setEnc e y

def execEncoderEdge (e : Fin 8) (a b z : Bool) (s : State) : Host.Outcome State Fault Refusal :=
  act s fun m => m.encEdge e a b z

def Mach.encPeriod (m : Mach) (e : Nat) : Word := BitVec.ofNat 32 (m.fld (Reg.SNS_ENC_CFG e) 0 16 * 1000)

/-- A sample at its boundary: count, edge stamp, Z stamp. -/
def Mach.encSample (m : Mach) (e : Nat) : Mach :=
  let x := m.encOf e
  match x.next with
  | some t =>
    if m.rbit (Reg.SNS_ENC_CFG e) 31 && reached m.now t then
      let m := m.setEnc e { x with next := some (t + m.encPeriod e) }
      m.hubItem 8 (fun s => m.strFrom s 5 e)
        (plainItem 5 t (m.reg (Reg.SNS_ENC_COUNT e)) 0 (wordBytes x.edge ++ wordBytes x.zEdge))
    else m
  | none => m

def execEncoderSample (e : Fin 8) (s : State) : Host.Outcome State Fault Refusal :=
  atHub s fun m => m.encSample e

/-! ## GPIO (R78, R79, R115) -/

/-- New output levels; an output pin that changes is an edge to the groups it triggers (R115). -/
def Mach.driveGpio (m : Mach) (v : Word) : Mach :=
  let old := m.reg Reg.SNS_GPIO_OUT
  let dir := m.reg Reg.SNS_GPIO_DIR
  let now := m.now
  (List.range 16).foldl (fun m p => if dir.bit p && old.bit p != v.bit p then m.gpioTrigger p (v.bit p) now else m)
    (m.setReg Reg.SNS_GPIO_OUT (v &&& 0xFFFF))

/-- A level change at an input pin. An enabled edge is an item with an empty payload (log entry 79). -/
def Mach.gpioEdge (m : Mach) (pin : Nat) (level : Bool) : Mach :=
  if m.rbit Reg.SNS_GPIO_DIR pin || m.rbit Reg.SNS_GPIO_IN pin == level then m
  else
    let t := m.now
    let m := m.setRBit Reg.SNS_GPIO_IN pin level
    let m :=
      if m.rbit Reg.SNS_GPIO_EDGE (if level then 16 + pin else pin) then
        m.hubItem 0 (fun s => m.strKind s == 7 && m.rbit (Reg.STR_MATCH s) pin)
          (plainItem 7 t 0 (BitVec.ofNat 32 (pin * 16 + level.toNat)) [])
      else m
    m.gpioTrigger pin level t

def execGpioEdge (pin : Fin 16) (level : Bool) (s : State) : Host.Outcome State Fault Refusal :=
  atHub s fun m => m.gpioEdge pin level

/-- A write of SNS_GPIO_TARM (R79, R341). Pin and level are those of SNS_GPIO_TCFG at arming (log entry 137). -/
def Mach.gpioTarm (m : Mach) (v : Word) : Effect :=
  let pin := m.fld Reg.SNS_GPIO_TCFG 4 4
  let t := m.reg Reg.SNS_GPIO_TAT
  if !v.bit 0 then (false, m)
  else if m.ports.timed.isSome || !m.aheadWithin t 1000 2000000000 || (m.showHome && pin == 0) then m.bad
  else (false, m.onPorts fun p => { p with timed := some (t, pin, m.rbit Reg.SNS_GPIO_TCFG 0) })

def execGpioTarm (v : Word) (s : State) : Host.Outcome State Fault Refusal :=
  act s fun m => m.arriveWith Reg.SNS_GPIO_TARM v (m.gpioTarm v)

/-- Short time reaches SNS_GPIO_TAT. -/
def Mach.gpioTimed (m : Mach) : Mach :=
  match m.ports.timed with
  | some (t, pin, level) =>
    if reached m.now t then
      let m := m.onPorts fun p => { p with timed := none }
      m.driveGpio ((m.reg Reg.SNS_GPIO_OUT).setBit pin level)
    else m
  | none => m

def execGpioTimedOutput (s : State) : Host.Outcome State Fault Refusal := atHub s fun m => m.gpioTimed

/-- A write of SNS_GPIO_OUT; under Show Home bit 0 stays as STOP_NEAR drives it (R341). -/
def Mach.gpioOut (m : Mach) (v : Word) : Effect :=
  (false, m.driveGpio (if m.showHome then v.setBit 0 (m.rbit Reg.SNS_GPIO_OUT 0) else v))

/-! ## Port enables (R94) and the SNS block (R96) -/

/-- A sample that was being read when its port closed (R94). -/
def Mach.spiClose (m : Mach) (i : Nat) : Mach :=
  match (m.spiOf i).reading with
  | some (t, dest) => (m.setSpi i {}).spiItem i dest { plainItem 4 t 0 0 [] with damaged := true }
  | none => m

/-- The link of a MAC follows what its PHY signals: up where the MAC is enabled, its island does not stand in STANDBY (R453) and the
rate is not above the highest one set; a link that comes up brings the reports of its groups. -/
def Mach.macJudge (m : Mach) (p : Nat) : Mach :=
  let cfg := m.reg (Reg.SNS_MAC_CFG p)
  let was := m.rbit (Reg.SNS_MAC_STAT p) 0
  let sig := sget (fun _ => none) m.ports.macSignal p
  let on := cfg.bit 31 && !(m.island (152 + p)).stopped.contains .standby && sig.any fun r => decide (cfg.field 29 2 ≤ r)
  let m := (m.setRBit (Reg.SNS_MAC_STAT p) 0 on).setFld (Reg.SNS_MAC_STAT p) 1 2 (sig.getD (m.fld (Reg.SNS_MAC_STAT p) 1 2))
  if on = was then m else (m.raise Reg.SNS_EVENT 0x2).reportGroups p

/-- What follows when a port's enable has changed: items in progress close as damaged, a disabled MAC's PTP port is DISABLED
(R39), an encoder begins to count its samples. -/
def Mach.portChanged (m : Mach) (a : Nat) (on : Bool) : Mach :=
  let o := a - 0x100000
  if 0x1000 ≤ o ∧ o < 0x2000 then (if on then m else m.closeDamaged ((o - 0x1000) / 0x100) fun _ => true)
  else if 0x2000 ≤ o ∧ o < 0x3000 then (if on then m else (m.ptpState ((o - 0x2000) / 0x100) 3).servoCheck)
  else if 0x3000 ≤ o ∧ o < 0x3200 then (if on then m else m.spiClose ((o - 0x3000) / 0x40))
  else if 0x3400 ≤ o ∧ o < 0x3600 then
    let e := (o - 0x3400) / 0x20
    m.setEnc e { m.encOf e with next := if on then some (m.now + m.encPeriod e) else none }
  else m

/-- A write of a port's configuration register. -/
def Mach.portCfg (m : Mach) (a : Nat) (v : Word) : Effect :=
  let was := m.rbit a 31
  let m := m.storeReg a v
  (false, if v.bit 31 == was then m else m.portChanged a (v.bit 31))

/-- A write of SNS_MAC_CFGm, after which the link is judged anew (Table 3-3). -/
def Mach.macCfg (m : Mach) (a : Nat) (v : Word) : Effect := (false, (m.portCfg a v).2.macJudge ((a - 0x102000) / 0x100))

/-- What the SNS block makes of a write. -/
def Mach.snsWrite (m : Mach) (a : Nat) (v : Word) : Effect :=
  let o := a - 0x100000
  if 0x1000 ≤ o ∧ o < 0x2000 then
    let n := (o - 0x1000) / 0x100
    match o % 0x100 with
    | 0x00 => m.portCfg a v
    | 0x40 => m.fsyncCfg n v
    | 0x44 => m.fsyncPeriod n v
    | 0x48 => m.fsyncNext n v
    | 0x84 => m.i3cCmd n v
    | 0x88 => m.i3cData n v
    | _ => (false, m.storeReg a v)
  else if 0x2000 ≤ o ∧ o < 0x3000 ∧ o % 0x100 = 0 then m.macCfg a v
  else if 0x3000 ≤ o ∧ o < 0x3200 ∧ o % 0x40 = 0 then m.portCfg a v
  else if 0x3200 ≤ o ∧ o < 0x3280 ∧ o % 0x40 = 0 then m.portCfg a v
  else if 0x3400 ≤ o ∧ o < 0x3500 ∧ o % 0x20 = 0 then m.portCfg a v
  else if o = 0x3608 then m.gpioOut v
  else if o = 0x3618 then m.gpioTarm v
  else (false, m.storeReg a v)

/-- The configuration register that holds a port's enable. -/
def portReg : PortRef → Nat
  | .csi n => Reg.SNS_CSI_CFG n
  | .mac p => Reg.SNS_MAC_CFG p
  | .spi i => Reg.SNS_SPI_CFG i
  | .can j => Reg.SNS_CAN_CFG j
  | .enc e => Reg.SNS_ENC_CFG e
  | .i3c n => Reg.SNS_I3C_CFG n
  | .fsync n => Reg.SNS_FSYNC_CFG n

def execPortEnableChange (p : PortRef) (on : Bool) (s : State) : Host.Outcome State Fault Refusal :=
  act s fun m => m.enableWrite (portReg p) on Mach.snsWrite

end Sys2Proof.Machine
end

