-- ==== Sys2Proof/Machine/Streams.lean ====
section
/-! DEFINITION. Reception of datagrams (R75, R76, R80), the spillway and the history rings (R91, R93), what a posted record sets
off, and stream control (R90, R94, R97). -/

namespace Sys2Proof.Machine

/-! ## What Show Home takes from a record (R338, R340, R341) -/

/-- Squared distance of a decoded point from the scanner's origin, exact. -/
def pointDist2 (p : List Byte) (i : Nat) : FVal :=
  FVal.sum ((List.range 3).map fun k => let v := f32 (w32 p (24 * i + 4 * k)); FVal.mul v v)

/-- Range in whole cm, at most 65,534 (log entry 21). -/
def pointCm (p : List Byte) (i : Nat) : Nat := min 65534 (FVal.mul (FVal.ofInt 10000) (pointDist2 p i)).floorInt.toNat.sqrt

/-- Within 0.3 m. -/
def pointNear (p : List Byte) (i : Nat) : Bool := FVal.le (FVal.mul (FVal.ofInt 100) (pointDist2 p i)) (FVal.ofInt 9)

/-- Which quarter of a quadrant holds the direction (a, b), a > 0 and b ≥ 0: exact at multiples of 22.5°. -/
def quarter (a b : FVal) : Nat :=
  let two := FVal.mul (FVal.ofInt 2) (FVal.mul a a)
  let sq := fun v => FVal.mul v v
  if FVal.lt (sq (FVal.add a b)) two then 0
  else if FVal.lt b a then 1
  else if FVal.lt (sq (FVal.add b (FVal.neg a))) two then 2
  else 3

/-- Sector of a direction (Table 11-10): azimuth −180° + 22.5° × j on. -/
def sectorOf (x y : FVal) : Nat :=
  let z := FVal.zero
  if FVal.lt z x && FVal.le z y then 8 + quarter x y
  else if FVal.lt z y then 12 + quarter y (FVal.neg x)
  else if FVal.lt x z then quarter (FVal.neg x) (FVal.neg y)
  else 4 + quarter (FVal.neg y) x

/-- A record posted while Show Home runs. -/
def Mach.shPost (m : Mach) (s : Nat) (r : RingRec) : Mach :=
  if !m.showHome then m
  else
    let now := m.time.count
    let p := r.item.payload
    let n := p.length / 24
    let idx := if m.strKind s = 2 then List.range n else []
    let pts := idx.map fun i => (s, now, sectorOf (f32 (w32 p (24 * i))) (f32 (w32 p (24 * i + 4))), pointCm p i, pointNear p i)
    let sh := m.sh
    let sh := { sh with
      found := sh.found.map fun f => if f.stream = s then { f with lastAt := now, stamp := r.item.stamp } else f
      near := (sh.near.filter fun x => decide ((now - x.2.1).toNat ≤ 100000000)) ++ pts
      frames := if m.strKind s = 1 then (sh.frames.filter fun x => x.1 != s) ++ [(s, now, p)] else sh.frames }
    { m with sh := sh }

/-- STOP_NEAR rises when a point within 0.3 m of its scanner's origin arrives (R341). -/
def Mach.stopNear (m : Mach) (sc : Scan) : Mach :=
  if m.showHome && sc.pts.any fun p => !p.gone && pointNear (pointBytes p 0 false) 0 then
    ({ m with sh := { m.sh with stopAt := some m.time.count } }).driveGpio ((m.reg Reg.SNS_GPIO_OUT).setBit 0 true)
  else m

/-! ## Reception (R75, R76, R80) -/

/-- Outside Table 3-3: discarded and counted (R75). -/
def Mach.unsupported (m : Mach) (p : Nat) (d : Datagram) : Bool :=
  !d.supported || !d.checksumOk || decide (9216 < frameBytes d) || (isMulticast d.dstIp && !m.joined p d.dstIp)

/-- The datagram is an inter-module message (R281). -/
def Mach.isMessage (m : Mach) (d : Datagram) : Bool :=
  m.rbit Reg.EGR_MSG_CFG 17 && m.fld Reg.EGR_MSG_CFG 0 16 == d.dstPort.toNat

/-- A PTP message over UDP, which goes to the PTP engine and never to a stream (R75, Table 2-3). -/
def isPtp (d : Datagram) : Bool := d.dstPort == 319 || d.dstPort == 320

/-- A datagram received (R75, R76, R80). A frame with an FCS or length error is counted and nothing else (Table 3-12). -/
def Mach.datagramRx (m : Mach) (p : Nat) (d : Datagram) : Mach :=
  if !m.macUp p || m.isMessage d then m
  else
    let m := m.bump (500 + p) (frameBytes d)
    if !d.intact then m.incReg (Reg.SNS_MAC_RXERR p)
    else if m.unsupported p d then m.macDrop p
    else if isPtp d then m
    else
      let m := if cgpfOk d.payload then m.shSeesScanner p d else m
      match m.scannerStream p d with
      | none => m.macDrop p
      | some s =>
        let stamp := m.time.count - BitVec.ofNat 64 (m.fld (Reg.TIME_PTP_LAT p) 0 16)
        let x := m.stream s
        let scan :=
          if m.strKind s = 2 then (if cgpfOk d.payload then some (cgpfScan d.payload x.lastSweep) else none)
          else descScan (m.descriptor (m.fld (Reg.STR_SOURCE s) 5 5)) d.payload x.lastSweep x.lastAz
        match scan with
        | none => m.strMalf s
        | some sc => (m.stopNear sc).scanIn s stamp sc

def execDatagramRx (m : Fin 4) (d : Datagram) (s : State) : Host.Outcome State Fault Refusal :=
  act s fun x => x.datagramRx m d

/-! ## The ring (R91, R93) -/

/-- Record header (Table 3-11). -/
def recordHeader (s len : Nat) (it : Item) : List Byte :=
  let flags := it.damaged.toNat + it.offsetOnly.toNat * 2 + it.triggered.toNat * 4 + it.first.toNat * 8 + it.sweep.toNat * 16
  leBytes 4 len ++ leBytes 2 s ++ leBytes 1 it.kind ++ leBytes 1 flags ++ wordBytes it.seq ++ wordBytes it.stamp ++
    wordBytes it.tFirst ++ wordBytes it.tLast ++ wordBytes it.info0 ++ wordBytes it.info1

def Mach.ringBase (m : Mach) (s : Nat) : Nat := m.addr36 (Reg.STR_RING_BASE_LO s) (Reg.STR_RING_BASE_HI s)
def Mach.ringSize (m : Mach) (s : Nat) : Nat := m.fld (Reg.STR_RING_SIZE s) 16 16 * 65536

/-- The records in n bytes of the ring from an offset are lost. -/
def Mach.ringLose (m : Mach) (s off n : Nat) : Mach :=
  let x := m.stream s
  let hit := fun (r : RingRec) => r.live && overlaps r.off r.len off n
  let m := m.setStream s { x with ring := x.ring.map fun r => if hit r then { r with live := false } else r }
  if x.ring.any hit then m.setRBit (Reg.STR_STATUS s) 4 true else m

/-- Overwritten records that no scheduled instant can have chosen are forgotten. -/
def Mach.ringPrune (m : Mach) (s : Nat) : Mach :=
  if (List.range 16).any fun g => m.fusNames g s && !(m.group g).sched.isEmpty then m
  else m.onStream s fun x => { x with ring := x.ring.filter RingRec.live }

/-- What a record that lies whole in HBM sets off (R91, R95, R149). -/
def Mach.post (m : Mach) (s : Nat) (r : RingRec) : Mach :=
  if r.item.damaged then (m.strDrop s).raise (Reg.STR_EVENT s) 0x4
  else ((m.cisternPost s r).posePost s r).shPost s r

/-- A record written into the ring at its write position, from offset 0 where it does not fit before the end. -/
def Mach.ringWrite (m : Mach) (s : Nat) (it : Item) : Mach :=
  let n := recordBytes it.payload.length
  let size := m.ringSize s
  let base := m.ringBase s
  if size < n then (m.strDrop s).raise (Reg.STR_EVENT s) 0x2
  else
    let wr := (m.reg (Reg.STR_RING_WR s)).toNat
    let wraps := decide (size < wr + n)
    let m :=
      if wraps && decide (wr < size) then
        (m.ringLose s wr (size - wr)).setBytes (base + wr) (padTo 32 (leBytes 4 0 ++ leBytes 2 s ++ leBytes 1 it.kind))
      else m
    let off := if wraps then 0 else wr
    let m := (m.ringLose s off n).setBytes (base + off) (padTo n (recordHeader s n it ++ it.payload))
    let m := m.setReg (Reg.STR_RING_WR s) (BitVec.ofNat 32 (off + n))
    let m := ((m.incReg (Reg.STR_ITEMS s)).bumpStream s 32 32).setReg (Reg.STR_LAST_STAMP s) it.stamp
    let m := if m.rbit (Reg.STR_STATUS s) 5 then m
      else (m.setRBit (Reg.STR_STATUS s) 5 true).raise (Reg.STR_EVENT s) 0x1
    let r : RingRec := { off := off, len := n, item := it, at_ := m.time.count }
    let m := m.onStream s fun x => { x with ring := x.ring ++ [r] }
    ((m.post s r).ringPrune s)

/-! ## The spillway (R91) -/

/-- Readable bytes of the queue taken out for an item with `left` bytes in it: the queue after it and the rest. -/
def spillStep (g : QGeom) (qn : Tbq × Nat) : Tbq × Nat :=
  let q := qn.1.settle g true
  let n := min (q.l - q.rd) qn.2
  let q := { q with rd := q.rd + n, rl := q.rd + n }
  (q.settle g true, qn.2 - n)

/-- Bytes of an item taken out of its queue, over at most its two basins and the swaps between them. -/
def spillBytes (g : QGeom) (q : Tbq) (left : Nat) : Tbq × Nat := spillStep g (spillStep g (spillStep g (q, left)))

/-- The spillway serves stream s: the oldest closed item goes whole to the ring; of a frame still open, what has
come so far leaves the queue. -/
def Mach.spill (m : Mach) (s : Nat) : Mach :=
  let x := m.stream s
  let g := m.inqGeom s
  match x.items with
  | it :: rest =>
    let (q, left) := spillBytes g x.q it.left
    if left = 0 then
      ((m.setStream s { x with q := q, items := rest }).ringWrite s { it with left := 0 }).strDrained s
    else m.setStream s { x with q := q, items := { it with left := left } :: rest }
  | [] =>
    let ports := m.ports.frames.filterMap fun p => (p.2.find? fun f => f.stream == s && !f.skip).map fun f => (p.1, f)
    match ports with
    | (n, f) :: _ =>
      let (q, left) := spillBytes g x.q f.item.left
      (m.setStream s { x with q := q }).putFrame n { f with item := { f.item with left := left } }
    | [] => m

/-- The queue of stream s is not empty: it holds a closed item, or bytes of an open frame that the spillway can read. -/
def Mach.spillable (m : Mach) (s : Nat) : Bool :=
  let x := m.stream s
  !x.items.isEmpty || (let q := x.q.settle (m.inqGeom s) true; decide (q.rd < q.l))

/-- The stream whose turn it is: the first non-empty queue after the one served last, in cyclic order (R91, log entry 142). -/
def Mach.spillNext (m : Mach) : Option Nat :=
  ((List.range 256).map fun i => (m.ports.spillTurn + 1 + i) % 256).find? m.spillable

/-- The spillway serves stream s in its turn. -/
def Mach.spillServe (m : Mach) (s : Nat) : Mach :=
  if m.runs 150 && m.spillNext == some s then (m.onPorts fun p => { p with spillTurn := s }).spill s else m

def execSpillwayWrite (st : Fin 256) (s : State) : Host.Outcome State Fault Refusal :=
  act s fun m => m.spillServe st

/-! ## The STR block (R90, R94, R97) -/

/-- A write of STR_CTRLs: a scanner's deviation limit is at least 1; a stream is not enabled without a queue or
while it drains, nor with a queue that breaks the rules of R90 or a kind that is off (log entry 141). -/
def Mach.strCtrl (m : Mach) (s : Nat) (v : Word) : Effect :=
  let a := Reg.STR_CTRL s
  let was := m.strEnabled s
  let on := v.bit 31
  let scanner := m.strKind s == 2 || m.strKind s == 3
  if (scanner && v.field 0 16 == 0) || (on && !was && (m.rbit (Reg.STR_STATUS s) 3 || !m.inqOk s (m.reg (Reg.STR_SOURCE s)) (m.reg (Reg.STR_INQ s)))) then
    m.bad
  else
    let m := (m.storeReg a v).setRBit a 31 was
    (false, if on == was then m else if on then m.strStart s else m.strStop s)

/-- A write of a ring register leaves the ring within installed HBM. -/
def Mach.strRing (m : Mach) (s a : Nat) (v : Word) : Effect :=
  let m' := m.storeReg a v
  if m.hbmSize < m'.ringBase s + m'.ringSize s then m.bad else (false, m')

/-- With this source, no enabled slot of a triggered group that names stream s is a camera slot of interval 0 (R113). -/
def Mach.sourceTriggerable (m : Mach) (s : Nat) (src : Word) : Bool :=
  src.field 28 4 != 1 || (List.range 16).all fun g => !m.triggered g ||
    (List.range 32).all fun i => !m.slotOn g i || m.slotStream g i != s || m.fld (Reg.FUS_MEM g i) 8 23 != 0

/-- What the STR block makes of a write. -/
def Mach.strWrite (m : Mach) (a : Nat) (v : Word) : Effect :=
  let o := a - 0x140000
  let s := o / 0x100
  if 0x10000 ≤ o then (false, m.storeReg a v)
  else match o % 0x100 with
    | 0x00 => m.strCtrl s v
    | 0x04 => if (m.strEnabled s && !m.inqOk s v (m.reg (Reg.STR_INQ s))) || !m.sourceTriggerable s v then m.bad else (false, m.storeReg a v)
    | 0x50 => if m.strEnabled s && !m.inqOk s (m.reg (Reg.STR_SOURCE s)) v then m.bad else (false, m.storeReg a v)
    | 0x10 => m.strRing s a v
    | 0x14 => m.strRing s a v
    | 0x18 => m.strRing s a v
    | _ => (false, m.storeReg a v)

def execStreamEnable (st : Fin 256) (s : State) : Host.Outcome State Fault Refusal :=
  act s fun m => m.enableWrite (Reg.STR_CTRL st) true Mach.strWrite

def execStreamDisable (st : Fin 256) (s : State) : Host.Outcome State Fault Refusal :=
  act s fun m => m.enableWrite (Reg.STR_CTRL st) false Mach.strWrite

end Sys2Proof.Machine
end

