-- ==== Sys2Proof/Machine/Egress.lean ====
section
/-! DEFINITION. Egress (R272 to R281): framing and validity of packets, their way over Ethernet and into the host
result queue, EMIT, skipped instants, and received inter-module messages. -/

namespace Sys2Proof.Machine


/-! ## Ethernet (R277, R278) -/

/-- Where a packet goes over Ethernet: the key of its serial number, the MAC, the address and ports, the limit. -/
structure Dest where
  key : Nat
  mac : Nat
  ip : List Byte
  sport : Nat
  dport : Nat
  limit : Nat
  /-- EGR_DEST_CFGd.multicast: no address resolution is needed -/
  multi : Bool
deriving DecidableEq, Repr

/-- EGR destination d, when it is enabled (Table 11-12). -/
def Mach.dest (m : Mach) (d : Nat) : Option Dest :=
  let cfg := m.reg (Reg.EGR_DEST_CFG d)
  let w := fun i => beWord (m.reg (Reg.EGR_DEST_IP d i))
  if cfg.bit 31 then
    some { key := d, mac := cfg.field 24 2, ip := if cfg.bit 30 then w 0 ++ w 1 ++ w 2 ++ w 3 else w 0,
           sport := m.fld (Reg.EGR_DEST_PORT d) 0 16, dport := m.fld (Reg.EGR_DEST_PORT d) 16 16, limit := cfg.field 0 14, multi := cfg.bit 29 }
  else none

/-- FPL_SH_DEST, when it is enabled under Show Home; its limit lies within the range of a destination's (R342, Table 13-8). -/
def Mach.shDestOn (m : Mach) : Option Dest :=
  let d := m.reg Reg.FPL_SH_DEST
  let ip := beWord (m.reg Reg.FPL_SH_DEST_IP)
  if m.showHome && d.bit 31 then
    some { key := 8, mac := d.field 24 2, ip := ip, sport := Config.shPort.toNat, dport := d.field 0 16,
           limit := 576 + Config.shLimit % 8425, multi := isMulticast ip }
  else none

/-- Where reports go over Ethernet (R340). -/
def Mach.shDest (m : Mach) : Option Dest := if m.rbit Reg.FPL_SH_CTRL 16 then m.shDestOn else none

/-- The module's own address on a MAC. -/
def Mach.ownIp (m : Mach) (p : Nat) (six : Bool) : List Byte :=
  if six then (List.range 4).flatMap fun w => beWord (m.reg (Reg.NET_IP6 p w)) else beWord (m.reg (Reg.NET_IP4 p))

def Mach.nbrs (m : Mach) (p : Nat) : List (List Byte × BitVec 48 × BitVec 64) := sget (fun _ => []) m.egr.nbrs p

/-- A destination that frames can reach: its MAC up, its link-layer address known (R278). -/
def Mach.reachable (m : Mach) (d : Dest) : Bool :=
  m.macUp d.mac && (d.multi || (m.nbrs d.mac).any fun n => n.1 == d.ip)

/-- One datagram handed to its MAC, or dropped and counted. -/
def Mach.sendDatagram (m : Mach) (d : Dest) (payload : List Byte) : Mach :=
  if m.reachable d then
    let g : Datagram := { srcIp := m.ownIp d.mac (d.ip.length == 16), dstIp := d.ip, srcPort := BitVec.ofNat 16 d.sport,
                          dstPort := BitVec.ofNat 16 d.dport, vlan := m.macVlan d.mac, payload := payload, supported := true, checksumOk := true }
    (m.transmit d.mac (.udp g)).bump (496 + d.mac) (frameBytes g)
  else (m.incReg Reg.EGR_NETDROPS).raise Reg.EGR_EVENT 0x4

/-- A packet cut into datagrams in index order (R277). -/
def Mach.sendPacket (m : Mach) (d : Dest) (bytes : List Byte) : Mach :=
  let serial := sget (fun _ => 0) m.egr.serials d.key
  let step := d.limit - 8
  let total := (bytes.length + step - 1) / step
  let m := m.onEgr fun e => { e with serials := sput (fun _ => 0) d.key (serial + 1) e.serials }
  (List.range total).foldl (fun m i =>
    m.sendDatagram d (leBytes 4 serial.toNat ++ leBytes 2 i ++ leBytes 2 total ++ (bytes.drop (i * step)).take step)) m

/-! ## Packets (R274 to R276, R349) -/

/-- A packet to be framed: its kind, part and payload, its destinations, and whether the host takes it. -/
structure Packet where
  kind : Nat
  part : Nat := 0
  payload : List Byte
  dests : List Dest
  host : Bool
deriving DecidableEq, Repr

/-- The instant is earlier than the step that ended the last time-epoch reset: it leaves invalid (Table 2-2 step 4). -/
def Mach.beforeStep (m : Mach) (tk : BitVec 64) : Bool := m.time.stepAt.any fun s => decide (tk.toInt < (s.toNat : Int))

/-- The holds that end at the framing of a packet (Table 14-1); `tk` is that of its instant, and the time of a Show Home
report (log entry 37). -/
def Mach.framingHolds (m : Mach) (tk : Option (BitVec 64)) : Mach :=
  let m := if m.hold 2 && tk.isSome && m.fld Reg.FPL_STATUS 1 3 ≤ 1 then m.endHold 2 else m
  let m := if m.hold 3 && m.time.stepAt.isSome && tk.any (fun t => !m.beforeStep t) then m.endHold 3 else m
  let m := if m.hold 9 && m.fld Reg.GCTL_STATUS 8 3 = 0 && m.pins.entering.isNone then m.endHold 9 else m
  if m.hold 11 && m.fld Reg.SAFE_HOLD 0 16 = 2 ^ 11 then m.endHold 11 else m

/-- Age of an instant now, in ns. -/
def Mach.ageOf (m : Mach) (tk : BitVec 64) : Int := (m.time.count - tk).toInt

/-- The deadline of group g in ns (R128). -/
def Mach.deadlineNs (m : Mach) (g : Nat) : Int := (m.reg (Reg.FUS_DEADLINE g)).toNat * 1000

/-- Framing judged for a fusion instant: the group's hold, its count of late packets, and the valid bit (R57, R349, R359,
R360, Table 14-8). -/
def Mach.judgeInstant (m : Mach) (g : Nat) (x : Live) : Bool × Mach :=
  let late := decide (m.deadlineNs g < m.ageOf x.tk)
  let m := if late then ((m.beginHold (16 + g)).incReg (Reg.SAFE_AGEMISS g)).ageDetected else if x.aged then m else m.endHold (16 + g)
  (!m.moduleHold && !x.discarded && !late && !x.aged && !m.beforeStep x.tk, m)

/-- The 32-byte header and the payload (Table 11-8). -/
def Mach.packetBytes (m : Mach) (p : Packet) (valid last : Bool) (g : Nat) (k : Word) (drops : Nat × Nat) : List Byte :=
  let sat := fun (n : Nat) => min n 0xFFFFFF
  let tooBig := decide (0xFFFFFF < drops.1) || decide (0xFFFFFF < drops.2)
  let w := m.wide
  let hdr := leBytes 1 p.kind ++ leBytes 1 (0x40 + valid.toNat + 2 * last.toNat + 4 * tooBig.toNat) ++
    leBytes 1 (g % 16 + 16 * m.fld Reg.NET_MODULE 0 4) ++ leBytes 2 p.part ++ leBytes 3 p.payload.length ++ leBytes 4 k.toNat ++
    w.toBytes ++ leBytes 3 (sat drops.1) ++ leBytes 3 (sat drops.2)
  hdr ++ leBytes 4 (crc32c (hdr ++ p.payload)).toNat ++ p.payload

/-- Egress has stopped (R450, Table 11-11). -/
def Mach.ejected (m : Mach) : Bool := m.rbit Reg.EGR_STATUS 3

/-- A packet's bytes to every destination and the host. -/
def Mach.deliver (m : Mach) (p : Packet) (bytes : List Byte) : Mach :=
  let m := m.incReg Reg.EGR_PACKETS
  let m := p.dests.foldl (fun m d => m.sendPacket d bytes) m
  if p.host then m.hqPut bytes else m

/-- One packet of an instant. A packet of kind 5 carries the message number in place of k, and its valid bit follows the
module holds and the discarding of its instant only (Table 11-8, R281). -/
def Mach.frame (m : Mach) (g : Nat) (x : Live) (drops : Nat × Nat) (p : Packet) (last : Bool) : Mach :=
  if m.ejected then m
  else
    let m := m.framingHolds (some x.tk)
    let (ok, m) := m.judgeInstant g x
    let message := p.kind == 5
    let valid := if message then !m.moduleHold && !x.discarded else ok
    let (k, m) := if message then (m.egr.msgNo, m.onEgr fun e => { e with msgNo := e.msgNo + 1 }) else (x.k, m)
    let bytes := m.packetBytes p valid last g k (if message then (0, 0) else drops)
    let m := m.deliver p bytes
    if valid then m else m.bump (480 + g) 1

/-- Egress takes the drop accumulator of (g, k) (R275). -/
def Mach.takeDrops (m : Mach) (g : Nat) (k : Word) : (Nat × Nat) × Mach :=
  let e := k.toNat % 8
  if m.dropOpen g k then
    (((m.reg (Reg.PNT_DPTS g e)).toNat, (m.reg (Reg.PNT_DCELL g e)).toNat), m.setRBit (Reg.PNT_DSTAT g e) 1 true)
  else if m.rbit (Reg.PNT_DSTAT g e) 0 && m.reg (Reg.PNT_DK g e) == k then
    (((m.reg (Reg.PNT_DPTS g e)).toNat, (m.reg (Reg.PNT_DCELL g e)).toNat), m)
  else ((0, 0), m)

/-- The instant has left egress: its last packet is framed. -/
def Mach.leave (m : Mach) (g : Nat) (k : Word) : Mach :=
  let x := m.group g
  let m := m.setGroup g { x with open_ := x.open_.eraseP fun l => l.k == k, left := some k }
  m.drainGroup g

/-- A Tk lies within a loss of the 25 MHz reference (Table 14-3). -/
def Mach.inLoss (m : Mach) (tk : BitVec 64) : Bool :=
  (!m.time.refOk && decide ((m.time.refLostAt.toNat : Int) ≤ tk.toInt)) ||
    m.time.losses.any fun l => decide ((l.1.toNat : Int) ≤ tk.toInt) && decide (tk.toInt ≤ (l.2.toNat : Int))

/-- The packets of instant x framed in order, flags[1] on the last; a discarded instant sends one empty packet of
each kind (R276). Packets without a destination are not framed. -/
def Mach.frameAll (m : Mach) (g : Nat) (x : Live) (l : List Packet) : Mach :=
  let x := { x with discarded := x.discarded || m.inLoss x.tk }
  let l := if x.discarded then
      [1, 3, 2, 5].filterMap fun kind => (l.find? fun p => p.kind == kind).map fun p =>
        { p with part := 0, payload := [], host := l.any fun x => x.kind == kind && x.host }
    else l
  let l := l.filter fun p => p.host || !p.dests.isEmpty
  let (drops, m) := m.takeDrops g x.k
  let n := l.length
  let m := (l.zipIdx).foldl (fun m p => m.frame g x drops p.1 (p.2 + 1 == n)) m
  m.leave g x.k

/-! ## What an EMIT sends (R270, R279, Table 11-9) -/

def Mach.dests (m : Mach) (mask : Nat) : List Dest := (List.range 8).filterMap fun d => if mask.testBit d then m.dest d else none

def Mach.gridBase (m : Mach) (g : Nat) (k : Word) : Nat :=
  m.addr36 (Reg.EGR_GRID_BASE_LO g) (Reg.EGR_GRID_BASE_HI g) + 8388608 * (k.toNat % 2)
def Mach.tilesX (m : Mach) (g : Nat) : Nat := m.fld (Reg.EGR_GRID_CFG g) 25 5
def Mach.tilesY (m : Mach) (g : Nat) : Nat := m.fld (Reg.EGR_GRID_CFG g) 20 5
/-- Flat address of cell (ix, iy) in a copy. -/
def Mach.cellAt (m : Mach) (g : Nat) (base ix iy : Nat) : Nat := base + 8 * (iy * (64 * m.tilesX g) + ix)

/-- The records of tile (tx, ty). -/
def Mach.tileBytes (m : Mach) (g : Nat) (k : Word) (tx ty : Nat) : List Byte :=
  (List.range 64).flatMap fun r => m.bytes (m.cellAt g (m.gridBase g k) (64 * tx) (64 * ty + r)) 512

/-- The host takes tile (tx, ty). -/
def Mach.hostTile (m : Mach) (g tx ty : Nat) : Bool :=
  let w := m.reg (Reg.EGR_HOSTTILE g)
  decide (w.field 24 4 ≤ tx) && decide (tx ≤ w.field 8 4) && decide (w.field 16 4 ≤ ty) && decide (ty ≤ w.field 0 4)

/-- Where group g's grid goes over Ethernet: under Show Home also to FPL_SH_DEST (R342). -/
def Mach.gridDests (m : Mach) (g : Nat) : List Dest := m.dests (m.fld (Reg.EGR_ROUTE g) 24 8) ++ m.shDestOn.toList

def Mach.gridPackets (m : Mach) (g : Nat) (k : Word) : List Packet :=
  let route := m.reg (Reg.EGR_ROUTE g)
  (List.range (m.tilesY g)).flatMap fun ty => (List.range (m.tilesX g)).map fun tx =>
    { kind := 1, part := ty * m.tilesX g + tx, payload := m.tileBytes g k tx ty, dests := m.gridDests g,
      host := route.bit 0 && m.hostTile g tx ty }

/-- The pose block: p, q and four reserved bytes. -/
def poseBlock (p : List Word × List Word) : List Byte := poseWords p ++ leBytes 4 0

def Mach.trkBase (m : Mach) (copy : Nat) : Nat := m.addr36 Reg.EGR_TRK_BASE_LO Reg.EGR_TRK_BASE_HI + 262144 * copy
def Mach.trkFirst (m : Mach) (g : Nat) : Nat := m.fld (Reg.EGR_TRK_RANGE g) 16 12
def Mach.trkCount (m : Mach) (g : Nat) : Nat := m.fld (Reg.EGR_TRK_RANGE g) 0 13
/-- The slots of a group's range. -/
def Mach.trkSlots (m : Mach) (g : Nat) : List Nat := (List.range (m.trkCount g)).map fun i => m.trkFirst g + i
def Mach.track (m : Mach) (copy i : Nat) : List Byte := m.bytes (m.trkBase copy + 64 * i) 64
def trackState (r : List Byte) : Nat := u8 r 5 % 4

def Mach.trackPacket (m : Mach) (g : Nat) (k tk : Word) : Packet :=
  let route := m.reg (Reg.EGR_ROUTE g)
  let live := (m.trkSlots g).filterMap fun i =>
    let r := m.track (k.toNat % 2) i
    if trackState r = 0 then none else some r
  { kind := 2, payload := poseBlock (m.poseAt tk).1 ++ live.flatten, dests := m.dests (route.field 8 8), host := route.bit 2 }

/-- Flat address of addr_a and addr_b of a FUSE command. -/
def fuseA (core : Nat) (b : List Byte) : Nat := spaceBase core (u8 b 0x30 % 16) + u64 b 0x20
def fuseB (core : Nat) (b : List Byte) : Nat := spaceBase core (u8 b 0x30 / 16) + u64 b 0x28

/-- The packets that an EMIT selects, in the order of R272. -/
def Mach.emitPackets (m : Mach) (core : Nat) (b : List Byte) (tk : Word) : List Packet :=
  let g := u8 b 0x11
  let k := w32 b 0x14
  let kinds := u8 b 0x13
  let route := m.reg (Reg.EGR_ROUTE g)
  (if kinds.testBit 0 then m.gridPackets g k else []) ++
  (if kinds.testBit 1 then
    [{ kind := 3, payload := m.bytes (fuseA core b) (32 * u32 b 0x1C), dests := m.dests (route.field 16 8), host := route.bit 1 }]
   else []) ++
  (if kinds.testBit 2 then [m.trackPacket g k tk] else []) ++
  (if kinds.testBit 3 then
    [{ kind := 5, payload := leBytes 1 (m.fld Reg.NET_MODULE 0 4) ++ leBytes 1 (u8 b 0x31) ++ leBytes 2 0 ++
        m.bytes (fuseA core b) (u32 b 0x1C),
       dests := m.dests (m.fld Reg.EGR_MSG_CFG 24 8), host := m.rbit Reg.EGR_MSG_CFG 16 }]
   else [])

/-- The group has framed this instant already, or has passed it (R273). -/
def Mach.passed (m : Mach) (g : Nat) (k : Word) : Bool :=
  !((m.group g).open_.any fun l => l.k == k) && (m.group g).left.any fun l => decide (0 ≤ (l - k).toInt)

/-- An EMIT is held: an earlier released instant has not left egress (R272). -/
def Mach.mustHold (m : Mach) (g : Nat) (k : Word) : Bool :=
  match (m.group g).open_ with
  | [] => false
  | l :: _ => l.k != k && !m.passed g k

/-- An EMIT frames its instant, or nothing when the instant has passed. -/
def Mach.emitNow (m : Mach) (core : Nat) (b : List Byte) : Mach :=
  let g := u8 b 0x11
  let k := w32 b 0x14
  if m.passed g k then m
  else
    let x := ((m.group g).open_.find? fun l => l.k == k).getD { k := k, tk := BitVec.ofInt 64 (m.ext (w32 b 0x18)) }
    m.frameAll g x (m.emitPackets core b (w32 b 0x18))

def Mach.setHeld (m : Mach) (g : Nat) (l : List HeldEmit) : Mach := m.onEgr fun e => { e with held := sput (fun _ => []) g l e.held }

/-- A started EMIT reaches egress: held, or framed. -/
def emitRun (m : Mach) (q : Nat) (c : Started) : Mach :=
  let g := u8 c.bytes 0x11
  let k := w32 c.bytes 0x14
  if m.mustHold g k then m.setHeld g (m.heldEmits g ++ [{ q := q, num := c.num, k := k }])
  else m.emitNow (m.queueCore q) c.bytes

/-- The held EMIT of group g that may proceed (R272), while its command is still in flight. -/
def Mach.emitReady (m : Mach) (g : Nat) : Option (HeldEmit × Started) :=
  (m.heldEmits g).findSome? fun h =>
    if m.mustHold g h.k then none else ((m.cmdq h.q).started.find? fun c => c.num == h.num).map fun c => (h, c)

/-- EMIT_RESUME: a held EMIT proceeds. -/
def Mach.emitResume (m : Mach) (g : Nat) : Mach :=
  match m.emitReady g with
  | some (h, c) => (m.setHeld g ((m.heldEmits g).erase h)).emitNow (m.queueCore h.q) c.bytes
  | none => m

def execEmitResume (g : Fin 16) (s : State) : Host.Outcome State Fault Refusal := act s fun m => if m.runs 151 then m.emitResume g else m

/-- The kinds that EGR_ROUTEg routes, as empty packets in the order of R272. -/
def Mach.routed (m : Mach) (g : Nat) : List Packet :=
  let route := m.reg (Reg.EGR_ROUTE g)
  [{ kind := 1, payload := [], dests := m.gridDests g, host := route.bit 0 },
   { kind := 3, payload := [], dests := m.dests (route.field 16 8), host := route.bit 1 },
   { kind := 2, payload := [], dests := m.dests (route.field 8 8), host := route.bit 2 }]

/-- DEADLINE_SKIP (R273): a later EMIT is held, the oldest instant has reached its deadline, and none for it has come. -/
def Mach.deadlineSkip (m : Mach) (g : Nat) : Mach :=
  match (m.group g).open_ with
  | x :: _ =>
    let held := m.heldEmits g
    if held.any (fun h => h.k != x.k) && !(held.any fun h => h.k == x.k) && decide (m.deadlineNs g ≤ m.ageOf x.tk) then
      -- the age of these packets exceeds the deadline: the group's hold begins
      ((m.beginHold (16 + g)).frameAll g { x with discarded := true, aged := true } (m.routed g)).incReg Reg.EGR_SKIPPED
    else m
  | [] => m

def execDeadlineSkip (g : Fin 16) (s : State) : Host.Outcome State Fault Refusal := act s fun m => if m.runs 151 then m.deadlineSkip g else m

/-! ## The checks of R271 -/

/-- A group's grid is enabled; its track range is. -/
def Mach.gridOn (m : Mach) (g : Nat) : Bool := m.rbit (Reg.EGR_GRID_CFG g) 31
def Mach.trkOn (m : Mach) (g : Nat) : Bool := m.rbit Reg.EGR_TRK_CFG 31 && m.trkCount g != 0

/-- Bytes at addr_a and addr_b that a FUSE command reaches; 0 for an operand it does not use. -/
def Mach.fuseLens (m : Mach) (b : List Byte) : Nat × Nat :=
  let g := u8 b 0x11 % 16
  let n := u32 b 0x1C
  match cmdOp b with
  | 0x02 => (8 * (64 * m.tilesX g) * (64 * m.tilesY g), 0)
  | 0x04 => (32 * n, 2 * m.trkCount g)
  | 0x05 => (32 * n, 64 * m.trkCount g)
  | 0x06 => (max (if (u8 b 0x13).testBit 1 then 32 * n else 0) (if (u8 b 0x13).testBit 3 then n else 0), 0)
  | _ => (0, 0)

/-- A kind that EMIT selects is routed nowhere. -/
def Mach.unrouted (m : Mach) (g kinds : Nat) : Bool :=
  let r := m.reg (Reg.EGR_ROUTE g)
  (kinds.testBit 0 && r.field 24 8 == 0 && !r.bit 0) || (kinds.testBit 1 && r.field 16 8 == 0 && !r.bit 1) ||
    (kinds.testBit 2 && r.field 8 8 == 0 && !r.bit 2) ||
    (kinds.testBit 3 && m.fld Reg.EGR_MSG_CFG 24 8 == 0 && !m.rbit Reg.EGR_MSG_CFG 16)

/-- The checks on a FUSE command. -/
def Mach.fuseErrs (m : Mach) (b : List Byte) : List (Option CmdErr) :=
  let op := cmdOp b
  let g := u8 b 0x11
  let slot := u8 b 0x12
  let kinds := u8 b 0x13
  let n := u32 b 0x1C
  let emit := op == 6
  let grid := op == 1 || op == 2 || op == 3 || (emit && kinds.testBit 0)
  let trk := op == 4 || op == 5 || (emit && kinds.testBit 2)
  let lens := m.fuseLens b
  let useA := op == 2 || op == 4 || op == 5 || (emit && (kinds.testBit 1 || kinds.testBit 3))
  let useB := op == 4 || op == 5
  [ errIf (op == 0 || 6 < op) 0x10 0x02,
    errIf (15 < g) 0x11 0x02,
    errIf (g ≤ 15 && ((grid && !m.gridOn g) || (trk && !m.trkOn g))) 0x11 0x07,
    errIf (if op == 2 then 31 < slot else slot != 0xFF) 0x12 0x02,
    errIf (op == 2 && g ≤ 15 && slot ≤ 31 && !m.slotOn g slot) 0x12 0x07,
    errIf (16 ≤ kinds) 0x13 0x01,
    errIf (emit && m.unrouted (g % 16) kinds) 0x13 0x02,
    errIf ((useB || (emit && kinds.testBit 1)) && 4096 < n) 0x1C 0x02,
    errIf (emit && kinds.testBit 3 && 8192 < n) 0x1C 0x02,
    errIf (useA && 2 < u8 b 0x30 % 16) 0x30 0x02,
    errIf (useB && 2 < u8 b 0x30 / 16) 0x30 0x02,
    errIf (useA && !m.extentOk (u8 b 0x30 % 16) (u64 b 0x20) lens.1 32) 0x20 0x03,
    errIf (useB && !m.extentOk (u8 b 0x30 / 16) (u64 b 0x28) lens.2 32) 0x28 0x03,
    errIf (emit && kinds.testBit 3 && 15 < u8 b 0x31 && u8 b 0x31 != 0xFF) 0x31 0x02,
    fieldErr b 0x32 14 ]

def fuseCheck (m : Mach) (_q : Nat) (b : List Byte) : Except CmdErr Unit := firstErr (m.fuseErrs b)

/-- EMIT. -/
def execEmit (q : Fin 256) (s : State) : Host.Outcome State Fault Refusal :=
  act s fun m => m.startRun q 5 6 fuseCheck emitRun

/-! ## Inter-module messages (R281) -/

def Mach.reasm (m : Mach) (p : Nat) : List Reasm := sget (fun _ => []) m.egr.reasm p
def Mach.setReasm (m : Mach) (p : Nat) (l : List Reasm) : Mach := m.onEgr fun e => { e with reasm := sput (fun _ => []) p l e.reasm }

/-- A message packet dropped. -/
def Mach.msgError (m : Mach) : Mach := (m.incReg Reg.EGR_MSGERR).raise Reg.EGR_EVENT 0x10

/-- The message stage queue (R281, R324). -/
def Mach.msgQueue (m : Mach) : Option Nat :=
  (List.range 128).find? fun n => (m.stageCfgOf n).any fun c => c.producer == .messages

/-- A whole packet: its kind, its CRC, its destination, then its record, filled up to a multiple of 4 bytes (log entry 149). -/
def Mach.msgPacket (m : Mach) (b : List Byte) : Mach :=
  let ok := decide (36 ≤ b.length) && u8 b 0 == 5 && fieldAt b 5 3 + 32 == b.length &&
    w32 b 0x1C == crc32c (b.take 0x1C ++ b.drop 0x20) && (u8 b 0x21 == m.fld Reg.NET_MODULE 0 4 || u8 b 0x21 == 0xFF)
  match ok, m.msgQueue with
  | true, some n =>
    let (b, padded) := m.padRecord b
    let (m', done) := padded.stagePush n b
    if done then (m'.incReg Reg.EGR_MSGRX).raise Reg.EGR_EVENT 0x1 else m.msgError
  | _, _ => m.msgError

/-- A datagram of a packet: inconsistent, or taken into its packet, which may become whole. -/
def Mach.msgPart (m : Mach) (p : Nat) (d : Datagram) : Mach :=
  let serial := w32 d.payload 0
  let i := u16 d.payload 4
  let n := u16 d.payload 6
  let part := (i, d.payload.drop 8)
  let mine := fun (r : Reasm) => r.src == d.srcIp && r.serial == serial
  match (m.reasm p).find? mine with
  | some r =>
    let rest := (m.reasm p).filter fun r => !mine r
    if n != r.total || n ≤ i || r.parts.any (fun x => x.1 == i) then (m.setReasm p rest).msgError
    else
      let r := { r with parts := r.parts ++ [part] }
      if r.parts.length = r.total then
        (m.setReasm p rest).msgPacket ((List.range r.total).flatMap fun j => ((r.parts.find? fun x => x.1 == j).map Prod.snd).getD [])
      else m.setReasm p (rest ++ [r])
  | none =>
    if d.payload.length < 8 || n ≤ i then m.msgError
    else if n = 1 then m.msgPacket part.2
    else if 8 ≤ (m.reasm p).length then m.msgError
    else m.setReasm p (m.reasm p ++ [{ src := d.srcIp, serial := serial, total := n, firstAt := m.time.count, parts := [part] }])

/-- A datagram to the message port. -/
def Mach.messageRx (m : Mach) (p : Nat) (d : Datagram) : Mach :=
  if !m.macUp p || !m.isMessage d then m
  else
    let m := m.bump (500 + p) (frameBytes d)
    if !d.intact then m.incReg (Reg.SNS_MAC_RXERR p) else if m.unsupported p d then m.macDrop p else m.msgPart p d

def execMessageDatagramRx (m : Fin 4) (d : Datagram) (s : State) : Host.Outcome State Fault Refusal :=
  act s fun x => x.messageRx m d

/-- Packets whose first datagram came 10 ms ago or more are dropped. -/
def Mach.reasmTimeout (m : Mach) (p : Nat) : Mach :=
  let old := fun (r : Reasm) => decide (10000000 ≤ (m.time.count - r.firstAt).toNat)
  let n := ((m.reasm p).filter old).length
  (List.range n).foldl (fun m _ => m.msgError) (m.setReasm p ((m.reasm p).filter fun r => !old r))

def execReassemblyTimeout (m : Fin 4) (s : State) : Host.Outcome State Fault Refusal := act s fun x => x.reasmTimeout m

end Sys2Proof.Machine
end

