-- ==== Sys2Proof/Machine/Grid.lean ====
section
/-! DEFINITION. The grid unit (R257 to R262): GRID_BEGIN, GRID_EVIDENCE and GRID_CLOSE. -/

namespace Sys2Proof.Machine

/-! ## Cells and evidence (Tables 11-1, 11-2) -/

/-- A cell record. -/
structure GridCell where
  occ : Int
  cls : Nat
  flags : Nat
  height : Nat
  age : Nat
deriving DecidableEq, Repr

def GridCell.read (b : List Byte) : GridCell :=
  { occ := s16 b 0, cls := u8 b 2, flags := u8 b 3, height := u16 b 4, age := u8 b 6 }

def GridCell.write (c : GridCell) : List Byte :=
  leBytes 2 (c.occ % 65536).toNat ++ leBytes 1 c.cls ++ leBytes 1 c.flags ++ leBytes 2 c.height ++ leBytes 1 c.age ++ leBytes 1 0

/-- The record of a cell of which nothing is known. -/
def GridCell.unknown : GridCell := { occ := 0, cls := 0, flags := 0, height := 0, age := 255 }

/-- An evidence entry. -/
structure Evidence where
  delta : Int
  cls : Nat
  height : Nat
  scanner : Bool
deriving DecidableEq, Repr

def Evidence.read (b : List Byte) : Evidence :=
  { delta := s16 b 0, cls := u8 b 2, height := u16 b 4, scanner := (u8 b 6).testBit 0 }

/-! ## What becomes of one cell -/

/-- Step 3 of R259: an old record carried into the new copy. -/
def GridCell.decayed (decay : Nat) (c : GridCell) : GridCell :=
  { c with occ := c.occ - c.occ.sign * (min c.occ.natAbs decay : Nat), flags := c.flags / 8 * 8, age := min 255 (c.age + 1) }

/-- The evidence increment of R260 step 1. -/
def evidenceOf (w : Nat) (delta : Int) : Int := ((w : Int) * delta + 8) / 16

/-- flags after an increment (R260 step 3). -/
def seenFlags (flags : Nat) (cmag c : Int) : Nat :=
  let f := flags ||| (if cmag ≤ c then 2 else 0) ||| (if c ≤ -cmag then 4 else 0)
  if f.testBit 1 && f.testBit 2 then f ||| 1 else f

/-- One evidence entry with weight w applied to a cell (R260). -/
def GridCell.apply (w lmax cmag : Nat) (e : Evidence) (c : GridCell) : GridCell :=
  if e.delta = 0 then c
  else
    let x := evidenceOf w e.delta
    { occ := max (-(lmax : Int)) (min lmax (c.occ + x)),
      cls := if 0 < x ∧ e.cls ≠ 0 then e.cls else c.cls,
      flags := seenFlags c.flags cmag x,
      height := if 0 < x then c.height ||| e.height else c.height,
      age := if e.scanner then 0 else c.age }

/-- A cell at GRID_CLOSE (R261). -/
def GridCell.close (classOcc : Int) (c : GridCell) : GridCell :=
  { c with height := if c.occ ≤ 0 then 0 else c.height, cls := if c.occ < classOcc then 0 else c.cls }

/-! ## The geometry of a group's grid (R257) -/

def Mach.gridW (m : Mach) (g : Nat) : Nat := 64 * m.tilesX g
def Mach.gridH (m : Mach) (g : Nat) : Nat := 64 * m.tilesY g

/-- Cell edge and origin in FP32 metres. -/
def Mach.cellEdge (m : Mach) (g : Nat) : Word := fratio (m.fld (Reg.EGR_GRID_CFG g) 14 6) 100
def Mach.gridX0 (m : Mach) (g : Nat) : Word := fratio (signed 16 (m.fld (Reg.EGR_GRID_ORIG g) 16 16)) 100
def Mach.gridY0 (m : Mach) (g : Nat) : Word := fratio (signed 16 (m.fld (Reg.EGR_GRID_ORIG g) 0 16)) 100

/-- Centre of a cell along one axis: x0 + (i + 0.5) · s. -/
def centreOf (x0 s : Word) (i : Nat) : Word := fadd x0 (fmul (fratio (2 * i + 1) 2) s)

/-- The planar motion of P(Tk−1)⁻¹ · P(Tk): yaw and translation (R259). -/
def planarMotion (a b : List Word × List Word) : Word × Word × Word :=
  let inv := [fnth a.2 0, fneg (fnth a.2 1), fneg (fnth a.2 2), fneg (fnth a.2 3)]
  let rows := qrows (qmul inv b.2)
  let t := qrot inv (fminus b.1 a.1)
  (Config.atan2 (fnth (rows.getD 1 []) 0) (fnth (rows.getD 0 []) 0), fnth t 0, fnth t 1)

/-- c′ = R(θ)·c + (tx, ty). -/
def movePoint (mo : Word × Word × Word) (x y : Word) : Word × Word :=
  let c := Config.cos mo.1
  let s := Config.sin mo.1
  (fadd (fsub (fmul c x) (fmul s y)) mo.2.1, fadd (fadd (fmul s x) (fmul c y)) mo.2.2)

/-- The old cell that contains a coordinate along one axis. -/
def oldIndex (x0 s x : Word) : Int := (f32 (fdiv (fsub x x0) s)).floorInt

/-- The record of new cell (ix, iy) from the old copy (R259). -/
def Mach.beginCell (m : Mach) (g old : Nat) (mo : Word × Word × Word) (ix iy : Nat) : GridCell :=
  let s := m.cellEdge g
  let p := movePoint mo (centreOf (m.gridX0 g) s ix) (centreOf (m.gridY0 g) s iy)
  let ox := oldIndex (m.gridX0 g) s p.1
  let oy := oldIndex (m.gridY0 g) s p.2
  if 0 ≤ ox ∧ ox < m.gridW g ∧ 0 ≤ oy ∧ oy < m.gridH g ∧ (f32 p.1).isFinite ∧ (f32 p.2).isFinite then
    (GridCell.read (m.bytes (m.cellAt g old ox.toNat oy.toNat) 8)).decayed (m.fld (Reg.EGR_GRID_LO g) 0 16)
  else GridCell.unknown

/-- Every cell of a copy replaced: `f` gives the record of cell i in the order of R258 from the module before. -/
def Mach.mapCells (m : Mach) (g base : Nat) (f : Nat → GridCell) : Mach :=
  (List.range (m.gridW g * m.gridH g)).foldl (fun x i => x.setBytes (base + 8 * i) (f i).write) m

/-! ## The commands -/

/-- The Tk of an instant of group g that has been released: one of the last 64, which FUS_ILOGg holds (R120). -/
def Mach.releasedTk (m : Mach) (g : Nat) (k : Word) : Option Word :=
  let d := (m.reg (Reg.FUS_LAST_K g) - k).toInt
  if m.reg (Reg.FUS_RELEASES g) ≠ 0 ∧ 0 ≤ d ∧ d < 64 then some (m.reg (Reg.FUS_ILOG g (k.toNat % 64))) else none

/-- The Tk of the instant before k, whether or not it had a GRID_BEGIN: that of its release, or of the GRID_BEGIN that named it. -/
def Mach.tkBefore (m : Mach) (g : Nat) (k : Word) : Option Word :=
  (m.releasedTk g (k - 1)).or (((m.group g).gridTks.find? fun p => p.1 == k - 1).map Prod.snd)

/-- GRID_BEGIN. A group's first instant after it is enabled is k = 0, before that of any other instant (R114, R259). -/
def gridBeginRun (m : Mach) (_q : Nat) (c : Started) : Mach :=
  let g := u8 c.bytes 0x11
  let k := w32 c.bytes 0x14
  let tk := w32 c.bytes 0x18
  let x := m.group g
  let new := m.gridBase g k
  let before := (m.tkBefore g k).getD tk
  let m := m.setGroup g { x with gridTks := ((k, tk) :: x.gridTks.filter fun p => p.1 != k).take 3 }
  if k = 0 ∧ x.gridTks.all (fun p => p.1 == 0) then m.mapCells g new fun _ => GridCell.unknown
  else
    let old := m.gridBase g (k - 1)
    let (a, m) := m.poseLook before
    let (b, m) := m.poseLook tk
    let mo := planarMotion a b
    m.mapCells g new fun i => m.beginCell g old mo (i % m.gridW g) (i / m.gridW g)

/-- Weight of a member slot, Q4.4. -/
def Mach.gridWeight (m : Mach) (g slot : Nat) : Nat := m.fld (Reg.EGR_GRID_WT g (slot / 4)) (8 * (slot % 4)) 8

/-- GRID_EVIDENCE. -/
def gridEvidenceRun (m : Mach) (q : Nat) (c : Started) : Mach :=
  let g := u8 c.bytes 0x11
  let base := m.gridBase g (w32 c.bytes 0x14)
  let plane := fuseA (m.queueCore q) c.bytes
  let w := m.gridWeight g (u8 c.bytes 0x12)
  m.mapCells g base fun i =>
    (GridCell.read (m.bytes (base + 8 * i) 8)).apply w (m.fld (Reg.EGR_GRID_LO g) 16 16) (m.fld (Reg.EGR_GRID_CONF g) 0 16)
      (Evidence.read (m.bytes (plane + 8 * i) 8))

/-- GRID_CLOSE. -/
def gridCloseRun (m : Mach) (_q : Nat) (c : Started) : Mach :=
  let g := u8 c.bytes 0x11
  let base := m.gridBase g (w32 c.bytes 0x14)
  m.mapCells g base fun i =>
    (GridCell.read (m.bytes (base + 8 * i) 8)).close (signed 16 (m.fld (Reg.EGR_GRID_CONF g) 16 16))

/-- A FUSE command of this operation starts, unless its copy is busy. -/
def Mach.fuseStart (m : Mach) (q op kinds : Nat) (run : Mach → Nat → Started → Mach) : Mach :=
  let b := m.headBytes q
  if m.copyBusy (u8 b 0x11) (w32 b 0x14) kinds then m else m.startRun q 5 op fuseCheck run

def execGridBegin (q : Fin 256) (s : State) : Host.Outcome State Fault Refusal :=
  act s fun m => m.fuseStart q 1 1 gridBeginRun

def execGridEvidence (q : Fin 256) (s : State) : Host.Outcome State Fault Refusal :=
  act s fun m => m.startRun q 5 2 fuseCheck gridEvidenceRun

def execGridClose (q : Fin 256) (s : State) : Host.Outcome State Fault Refusal :=
  act s fun m => m.startRun q 5 3 fuseCheck gridCloseRun

end Sys2Proof.Machine
end

