-- ==== Sys2Proof/Machine/Tracks.lean ====
section
/-! DEFINITION. The track unit (R264 to R269): TRACK_ASSOC, TRACK_LIFE and the track table. -/

namespace Sys2Proof.Machine

/-! ## Detections and track slots (Tables 11-3, 11-5) -/

/-- A track slot but for gen and gen2; `body` is +0x10 to +0x3D. -/
structure Track where
  id : Word := 0
  state : Nat := 0
  cls : Nat := 0
  hits : Nat := 0
  misses : Nat := 0
  group : Nat := 0
  tUpdate : Word := 0
  body : List Byte := List.replicate 46 0
deriving DecidableEq, Repr

def Track.read (b : List Byte) : Track :=
  { id := w32 b 0, state := trackState b, cls := u8 b 6, hits := u8 b 7, misses := u8 b 8, group := u8 b 9 % 16,
    tUpdate := w32 b 0xC, body := (b.drop 0x10).take 46 }

/-- The 64 bytes of a slot with its gen. -/
def Track.write (t : Track) (gen : Byte) : List Byte :=
  leBytes 4 t.id.toNat ++ [gen] ++ leBytes 1 t.state ++ leBytes 1 t.cls ++ leBytes 1 t.hits ++ leBytes 1 t.misses ++
    leBytes 1 t.group ++ leBytes 2 0 ++ leBytes 4 t.tUpdate.toNat ++ t.body ++ [0] ++ [gen]

/-- A freed slot. -/
def Track.free : Track := {}

/-- A detection record. -/
structure Detect where
  pos : List Word
  size : List Byte
  yaw : Nat
  cls : Nat
  score : Nat
  slot : Nat
deriving DecidableEq, Repr

def Detect.read (b : List Byte) : Detect :=
  { pos := [w32 b 0, w32 b 4, w32 b 8], size := (b.drop 0xC).take 6, yaw := u16 b 0x12, cls := u8 b 0x14, score := u8 b 0x15,
    slot := u16 b 0x16 }

def Mach.detections (m : Mach) (a n : Nat) : List Detect := (List.range n).map fun i => Detect.read (m.bytes (a + 32 * i) 32)

/-- A position of the body frame at Tk in the odometry frame. -/
def odometry (pose : List Word × List Word) (p : List Word) : List Word := fplus pose.1 (qrot pose.2 p)

/-! ## TRACK_ASSOC (R265) -/

/-- Predicted position of a slot at Tk. -/
def Track.predict (t : Track) (tk : Word) : Word × Word :=
  let dt := fratio (tk - t.tUpdate).toInt 1000000000
  (fadd (w32 t.body 0) (fmul (w32 t.body 8) dt), fadd (w32 t.body 4) (fmul (w32 t.body 12) dt))

/-- The gate in metres. -/
def Mach.gate (m : Mach) : Word := fratio (m.fld Reg.EGR_TRK_GATE 16 16) 100

/-- The gate cell of a position, when both coordinates are finite. -/
def gateCell (gate x y : Word) : Option (Int × Int) :=
  let u := f32 (fdiv x gate)
  let v := f32 (fdiv y gate)
  if u.isFinite && v.isFinite then some (u.floorInt, v.floorInt) else none

/-- The association voxel table. -/
def Mach.assocTable (m : Mach) : Nat := m.fld Reg.EGR_TRK_CFG 24 5

/-- Slots found in a gate cell, in vz order up to the first miss. -/
def Mach.slotsFrom (m : Mach) (v epoch : Nat) (x y : Int) : Nat → Nat → List Nat
  | 0, _ => []
  | fuel + 1, n =>
    if inKeyRange x y 0 then
      match (m.probe v (packKey epoch x y n)).hit with
      | some b => (m.cell v b).point :: m.slotsFrom v epoch x y fuel (n + 1)
      | none => []
    else []

/-- A slot entered into the association table, or counted as not entered. -/
def Mach.enterSlot (m : Mach) (v epoch i : Nat) (c : Option (Int × Int)) : Mach :=
  match c with
  | none => m.incReg Reg.EGR_TRK_UNGATED
  | some (x, y) =>
    let n := (m.slotsFrom v epoch x y 16 0).length
    if !inKeyRange x y 0 || n = 16 then m.incReg Reg.EGR_TRK_UNGATED
    else
      let key := packKey epoch x y n
      let r := m.probe v key
      let m := m.probeMax v r.len
      match r.free with
      | some b =>
        -- stamp and dist of such a bucket are not given
        let (w, m) := m.free
        let (d, m) := m.free
        m.newCell v b { key := key, row := noRow, point := i, stamp := w, dist := d.toNat % 65536, age := 0, flags := 1 + 16 * epoch }
      | none =>
        (((m.incReg Reg.EGR_TRK_UNGATED).incReg (Reg.PNT_VT_PROBEFULL v)).incReg (Reg.PNT_VT_CELLDROPS v)).raise Reg.PNT_EVENT 0x6

/-- A candidate pair: squared distance, detection, slot. -/
structure Pair where
  d2 : Word
  det : Nat
  slot : Nat
deriving DecidableEq, Repr

/-- Order of acceptance: d², then detection, then slot. -/
def Pair.le (a b : Pair) : Bool :=
  if flt a.d2 b.d2 then true
  else if flt b.d2 a.d2 then false
  else decide (a.det < b.det) || (a.det == b.det && decide (a.slot ≤ b.slot))

/-- The pair of a detection and a slot, when it is a candidate. -/
def candidate (gate tk : Word) (i : Nat) (d : Detect) (p : List Word) (s : Nat) (t : Track) : Option Pair :=
  let q := t.predict tk
  let dx := fsub (fnth p 0) q.1
  let dy := fsub (fnth p 1) q.2
  let d2 := fadd (fmul dx dx) (fmul dy dy)
  if (d.cls = t.cls ∨ d.cls = 0 ∨ t.cls = 0) ∧ fle d2 (fmul gate gate) = true then some ⟨d2, i, s⟩ else none

/-- Pairs accepted in order, each detection and each slot once. -/
def acceptPairs (l : List Pair) : List Pair :=
  l.foldl (fun acc p => if acc.any (fun a => a.det == p.det || a.slot == p.slot) then acc else acc ++ [p]) []

/-- The candidate pairs of a detection list against a copy of the table. -/
def Mach.pairsOf (m : Mach) (copy epoch : Nat) (tk : Word) (pose : List Word × List Word) (ds : List Detect) : List Pair :=
  let gate := m.gate
  ds.zipIdx.flatMap fun (d, i) =>
    let p := odometry pose d.pos
    match gateCell gate (fnth p 0) (fnth p 1) with
    | none => []
    | some (x, y) =>
      ([-1, 0, 1].flatMap fun dx => [-1, 0, 1].flatMap fun dy => m.slotsFrom m.assocTable epoch (x + dx) (y + dy) 16 0).filterMap
        fun s => candidate gate tk i d p s (Track.read (m.track copy s))

/-- TRACK_ASSOC. -/
def trackAssocRun (m : Mach) (q : Nat) (c : Started) : Mach :=
  let b := c.bytes
  let core := m.queueCore q
  let g := u8 b 0x11
  let k := w32 b 0x14
  let tk := w32 b 0x18
  let copy := (k - 1).toNat % 2
  let epoch := k.toNat % 16
  let v := m.assocTable
  let ds := m.detections (fuseA core b) (u32 b 0x1C)
  let (pose, m) := m.poseLook tk
  let m := m.pointPurge v (2 ^ epoch)
  let m := (m.trkSlots g).foldl (fun m i =>
    let t := Track.read (m.track copy i)
    if t.state = 0 then m else m.enterSlot v epoch i (gateCell m.gate (t.predict tk).1 (t.predict tk).2)) m
  let pairs := acceptPairs ((m.pairsOf copy epoch tk pose ds).mergeSort Pair.le)
  let m := (List.range ds.length).foldl (fun m i =>
    m.setLe (fuseA core b + 32 * i + 0x16) 2 (((pairs.find? fun p => p.det == i).map Pair.slot).getD 0xFFFF)) m
  (m.trkSlots g).zipIdx.foldl (fun m (s, j) =>
    m.setLe (fuseB core b + 2 * j) 2 (((pairs.find? fun p => p.slot == s).map Pair.det).getD 0xFFFF)) m

def execTrackAssoc (q : Fin 256) (s : State) : Host.Outcome State Fault Refusal :=
  act s fun m => m.startRun q 5 4 fuseCheck trackAssocRun

/-! ## TRACK_LIFE (R267, R268) -/

/-- Table 11-4, for a live slot: a hit or a miss. -/
def Track.life (t : Track) (hit : Bool) (confirmHits maxMiss tentMiss : Nat) : Track :=
  if hit then
    let h := min 255 (t.hits + 1)
    { t with hits := h, misses := 0,
             state := if t.state = 1 then (if confirmHits ≤ h then 2 else 1) else 2 }
  else
    let n := if t.state = 2 then 1 else min 255 (t.misses + 1)
    if (if t.state = 1 then tentMiss else maxMiss) ≤ n then Track.free
    else { t with misses := n, state := if t.state = 2 then 3 else t.state }

/-- A live slot of the old copy at Tk: its detection, if any, and its working record. -/
def Mach.updateTrack (m : Mach) (tk : Word) (t : Track) (d : Option Detect) (work : List Byte) : Track :=
  let cfg := m.reg Reg.EGR_TRK_CFG
  let t := t.life d.isSome (cfg.field 16 8) (cfg.field 8 8) (cfg.field 0 8)
  if t.state = 0 then t
  else
    let cls := match d with
      | some d => if d.cls ≠ 0 then d.cls else t.cls
      | none => t.cls
    { t with tUpdate := tk, cls := cls, body := (work.drop 0x10).take 46 }

/-- FP16 bytes of an FP32 value. -/
def half (w : Word) : List Byte := leBytes 2 (FVal.convert fp16 (f32 w))

/-- The track born from a detection (R268). -/
def Mach.birth (m : Mach) (g : Nat) (tk : Word) (id : Word) (pose : List Word × List Word) (d : Detect) : Track :=
  let p := odometry pose d.pos
  let rows := qrows pose.2
  let yaw := fadd (toF32 (FVal.ofBits fp16 d.yaw)) (Config.atan2 (fnth (rows.getD 1 []) 0) (fnth (rows.getD 0 []) 0))
  let hg := fratio (m.fld Reg.EGR_TRK_GATE 16 16) 200
  let vi := fratio (m.fld Reg.EGR_TRK_GATE 0 8) 10
  let pv := half (fmul hg hg)
  let vv := half (fmul vi vi)
  let z := leBytes 2 0
  { id := id, state := 1, cls := d.cls, hits := 1, misses := 0, group := g, tUpdate := tk,
    body := wordBytes (fnth p 0) ++ wordBytes (fnth p 1) ++ leBytes 8 0 ++ half (fnth p 2) ++ half yaw ++ d.size ++
      pv ++ z ++ z ++ z ++ pv ++ z ++ z ++ vv ++ z ++ vv }

/-- The next id, from the register, skipping 0. -/
def nextId (w : Word) : Word := if w + 1 = 0 then 1 else w + 1

/-- The id of birth number n of this TRACK_LIFE: the one recorded for it when the command repeats an instant already
lived through, else the next. -/
def Mach.takeId (m : Mach) (g n : Nat) : Word × Mach :=
  let x := m.group g
  match x.lifeIds[n]? with
  | some id => (id, m)
  | none =>
    let id := m.reg Reg.EGR_TRK_NEXTID
    (id, (m.setReg Reg.EGR_TRK_NEXTID (nextId id)).setGroup g { x with lifeIds := x.lifeIds ++ [id] })

/-- Births in increasing detection index: the slots of the range with what they will hold, and the number born so
far (R268). -/
def Mach.births (m : Mach) (g : Nat) (tk : Word) (pose : List Word × List Word) (a : Nat) :
    List (Detect × Nat) → List (Nat × Track) → Nat → Mach × List (Nat × Track)
  | [], l, _ => (m, l)
  | (d, i) :: ds, l, n =>
    if d.slot = 0xFFFF ∧ m.fld Reg.EGR_TRK_GATE 8 8 ≤ d.score then
      match l.find? fun x => x.2.state == 0 with
      | none => ((m.incReg Reg.EGR_TRK_REFUSED).raise Reg.EGR_EVENT 0x8).births g tk pose a ds l n
      | some (s, _) =>
        let (id, m) := m.takeId g n
        let t := m.birth g tk id pose d
        let m := (m.setLe (a + 32 * i + 0x16) 2 s).setLe (a + 32 * i + 0x18) 4 id.toNat
        m.births g tk pose a ds (l.map fun x => if x.1 = s then (s, t) else x) (n + 1)
    else m.births g tk pose a ds l n

/-- The group whose range holds slot i: one enabled or draining, else the first. -/
def Mach.trkOwner (m : Mach) (i : Nat) : Option Nat :=
  let l := (List.range 16).filter fun g => decide (m.trkFirst g ≤ i) && decide (i < m.trkFirst g + m.trkCount g)
  match l.find? m.fusBusy with
  | some g => some g
  | none => l.head?

/-- The copy last made current for slot i. -/
def Mach.trkCopy (m : Mach) (i : Nat) : Nat :=
  match m.trkOwner i with
  | some g => sget (fun _ => 0) m.egr.trkCur g
  | none => 0

/-- The bytes of slot i in the TRK window (R269, R285). -/
def Mach.trkWindow (m : Mach) (i : Nat) : List Byte := m.track (m.trkCopy i) i

/-- Live slots, in the copies current. -/
def Mach.trkLive (m : Mach) : Nat :=
  ((List.range 4096).filter fun i => (m.trkOwner i).isSome && trackState (m.trkWindow i) != 0).length

/-- TRACK_LIFE. -/
def trackLifeRun (m : Mach) (q : Nat) (c : Started) : Mach :=
  let b := c.bytes
  let core := m.queueCore q
  let g := u8 b 0x11
  let k := w32 b 0x14
  let tk := w32 b 0x18
  let old := (k - 1).toNat % 2
  let new := k.toNat % 2
  let ds := m.detections (fuseA core b) (u32 b 0x1C)
  let x := m.group g
  let m := if x.lifeK = some k then m else m.setGroup g { x with lifeK := some k, lifeIds := [] }
  let slots := (m.trkSlots g).zipIdx.map fun (s, j) =>
    let t := Track.read (m.track old s)
    (s, if t.state = 0 then Track.free
        else m.updateTrack tk t (ds.find? fun d => d.slot == s) (m.bytes (fuseB core b + 64 * j) 64))
  let (pose, m) := m.poseLook tk
  let (m, slots) := m.births g tk pose (fuseA core b) ds.zipIdx slots 0
  let m := slots.foldl (fun m (s, t) =>
    m.setBytes (m.trkBase new + 64 * s) (t.write (BitVec.ofNat 8 (u8 (m.track old s) 4 + 1)))) m
  let m := m.onEgr fun e => { e with trkCur := sput (fun _ => 0) g new e.trkCur }
  m.setReg Reg.EGR_TRK_LIVE (BitVec.ofNat 32 m.trkLive)

def execTrackLife (q : Fin 256) (s : State) : Host.Outcome State Fault Refusal :=
  act s fun m => m.fuseStart q 5 4 trackLifeRun

end Sys2Proof.Machine
end

