-- ==== Sys2Proof/Machine/Watch.lean ====
section
/-! DEFINITION. What a watch point observes: a command's elements, their statistics and their digest (R408 to R410). -/

namespace Sys2Proof.Machine

/-! ## What a watch point observes (R408 to R410) -/

/-- How an element's bits are read. -/
inductive ElemKind where
  | int (width : Nat) (isSigned : Bool)
  | fp (f : FFmt)
deriving DecidableEq, Repr

/-- The elements of Table 9-1 that an output can hold. -/
def elemKind : Nat → ElemKind
  | 0 => .int 8 true
  | 1 => .int 8 false
  | 2 => .fp e4m3
  | 3 => .fp e5m2
  | 4 => .fp fp16
  | 5 => .fp bf16
  | 7 => .fp fp32
  | 8 => .int 16 true
  | _ => .int 32 true

/-- What one command wrote: its format code, how the elements are read, their size in bytes, and their bits in
canonical order. -/
structure Outputs where
  fmt : Nat
  kind : ElemKind
  size : Nat
  /-- elements of the command, which for a VECTOR command are lane words -/
  n : Nat
  elems : List Nat
deriving DecidableEq, Repr

/-- Elements in their order of arrival, which the spec leaves open (log entry 22). -/
def inArrival {α : Type} (seed : Nat) (l : List α) : List α :=
  (l.zipIdx.mergeSort fun a b => decide (Config.arrival seed a.2 ≤ Config.arrival seed b.2)).map Prod.fst

/-- The bin of an FP32 element. -/
def binIndex (x lo wid : Word) : Nat :=
  match f32 (fdiv (fsub x lo) wid) with
  | .nan => 0
  | .inf neg => if neg then 0 else 15
  | v => (min 15 (max 0 v.floorInt)).toNat

def bumpBin (l : List Nat) (i : Nat) : List Nat := l.set i (l.getD i 0 + 1)

/-- One integer element into the statistics. -/
def WatchAcc.addInt (x : WatchAcc) (v : Int) (isSigned : Bool) (lo wid : Word) : WatchAcc :=
  let w : Word := BitVec.ofInt 32 v
  let less := fun (a b : Word) => if isSigned then decide (a.toInt < b.toInt) else decide (a.toNat < b.toNat)
  { x with
    count := x.count + 1
    minV := if x.count = 0 || less w x.minV then w else x.minV
    maxV := if x.count = 0 || less x.maxV w then w else x.maxV
    sum := x.sum + BitVec.ofInt 64 v
    sumSq := x.sumSq + BitVec.ofInt 64 (v * v)
    zeros := x.zeros + (decide (v = 0)).toNat
    bins := bumpBin x.bins (binIndex (fofInt v) lo wid) }

/-- An FP64 sum with one more term. -/
def add64 (s : BitVec 64) (v : FVal) : BitVec 64 :=
  BitVec.ofNat 64 (FVal.toBits fp64 (FVal.add (FVal.ofBits fp64 s.toNat) v))

/-- One floating-point element, already FP32 in value. -/
def WatchAcc.addFp (x : WatchAcc) (v : FVal) (lo wid : Word) : WatchAcc :=
  match v with
  | .nan => { x with nans := x.nans + 1 }
  | _ =>
    let x := { x with
      count := x.count + 1
      minV := if x.count = 0 then toF32 v else toF32 (FVal.minV (f32 x.minV) v)
      maxV := if x.count = 0 then toF32 v else toF32 (FVal.maxV (f32 x.maxV) v) }
    if v.isFinite then
      { x with
        sum := add64 x.sum v
        sumSq := add64 x.sumSq (FVal.mul v v)
        zeros := x.zeros + (FVal.eq v FVal.zero).toNat
        bins := bumpBin x.bins (binIndex (toF32 v) lo wid) }
    else { x with infs := x.infs + 1 }

def WatchAcc.addElem (x : WatchAcc) (k : ElemKind) (lo wid : Word) (e : Nat) : WatchAcc :=
  match k with
  | .int w isSigned => x.addInt (if isSigned then signed w e else e) isSigned lo wid
  | .fp f => x.addFp (FVal.ofBits f e) lo wid

/-- k and group of a queue's latest META UNIT. -/
def Mach.unitMark (m : Mach) (q : Nat) : Word × Nat :=
  match (m.cmdq q).units with
  | u :: _ => (u.k, u.group)
  | [] => (0xFFFFFFFF, 0xFF)

/-- A DIGEST record of watch point w (R409, Table 16-5). -/
def Mach.watchDigest (m : Mach) (w q : Nat) (num : Word) (b : List Byte) (o : Outputs) (redo : Bool) : Mach :=
  let (k, g) := m.unitMark q
  let crc := crc32c (o.elems.flatMap (leBytes o.size))
  let (r, m) := m.makeRecord (0x40 + w) 0x28 redo.toNat m.now
    (leBytes 4 k.toNat ++ leBytes 1 g ++ leBytes 1 q ++ leBytes 2 0 ++ leBytes 2 (u16 b 4) ++ leBytes 2 (u16 b 6) ++
      leBytes 4 num.toNat ++ leBytes 4 o.n ++ leBytes 4 crc.toNat)
  m.offer true [r]

/-- Watch point w in statistics mode takes a command's elements, unless it accumulates for another queue or waits for a UNIT. -/
def Mach.watchStat (m : Mach) (w q : Nat) (o : Outputs) (redo : Bool) : Mach :=
  let x := m.watchAcc w
  if x.awaits || (x.active && x.queue != q) then m
  else
    let (k, g) := m.unitMark q
    let x := if x.active then x else { x with active := true, queue := q, k := k, group := g, fmt := o.fmt }
    let lo := m.reg (Reg.DBG_WATCH_LO w)
    let wid := m.reg (Reg.DBG_WATCH_WID w)
    let x := (inArrival m.freeCtr o.elems).foldl (fun x e => x.addElem o.kind lo wid e) x
    { m.setWatchAcc w { x with commands := x.commands + 1, redo := x.redo || redo } with freeCtr := m.freeCtr + 1 }

/-- A command of unit 0 (TENSOR) or 1 (VECTOR) has written its outputs. -/
def Mach.watchOutputs (m : Mach) (unit q : Nat) (num : Word) (b : List Byte) (o : Outputs) (redo : Bool) : Mach :=
  (List.range 64).foldl (fun m w =>
    let cfg := m.reg (Reg.DBG_WATCH_CFG w)
    if cfg.bit 31 && cfg.field 29 1 == unit && (m.reg (Reg.DBG_WATCH_ID w)).toNat == u16 b 4 * 2 ^ 16 + u16 b 6 then
      if cfg.bit 30 then m.watchDigest w q num b o redo else m.watchStat w q o redo
    else m) m

end Sys2Proof.Machine
end

