-- ==== Sys2Proof/Machine/Restart.lean ====
section
/-! DEFINITION. What discards instants and commands, restarts queues, reloads memories and moves queues between cores (R350,
R355, R356, R364), with the logs of the safety supervisor. -/

namespace Sys2Proof.Machine

def Mach.cc (m : Mach) (c : Nat) : Core := sget (fun _ => {}) m.core c
def Mach.setCc (m : Mach) (c : Nat) (x : Core) : Mach := { m with core := sput (fun _ => {}) c x m.core }
def Mach.onCc (m : Mach) (c : Nat) (f : Core → Core) : Mach := m.setCc c (f (m.cc c))

def Mach.onFpl (m : Mach) (f : Fpl → Fpl) : Mach := { m with fpl := f m.fpl }

/-! ## Logs (Table 14-8, R433) -/

/-- Life-cycle state. -/
def Mach.lifeState (m : Mach) : Nat := m.fld Reg.SEC_STATUS 2 3

/-- A record of the life-cycle event log, which wraps: the newest 1,048,576 stay (R433). -/
def Mach.lcLog (m : Mach) (kind state : Nat) (detail : List Byte) : Mach :=
  let r : LogRec := { time := m.wide, kind := kind, state := state, detail := padTo 20 detail }
  let m := { m with sec := { m.sec with log := (m.sec.log ++ [r]).drop (m.sec.log.length - 1048575) } }
  m.incReg Reg.SEC_LOG_COUNT

/-- Unit kind of SAFE_LOGi_1. -/
def unitCode : UnitKind → Nat
  | .core => 0
  | .pointUnit => 1
  | .cluster => 2
  | .port => 4
  | _ => 3

/-- Unit number of SAFE_LOGi_1: an island for kinds 3 and 4. -/
def unitNumber (d : Detection) : Nat :=
  match d.unit with
  | .timebase => 144
  | .supervisor => 145
  | .management => 146
  | .config => 146
  | .security => 147
  | _ => d.number

/-- An entry of the event log with its reaction; its copy in the life-cycle log. -/
def Mach.logFault (m : Mach) (d : Detection) (reaction : Nat) : Nat × Mach :=
  let i := (m.reg Reg.SAFE_LOG_COUNT).toNat % 64
  let w := BitVec.ofNat 32 (d.cause.toNat * 2 ^ 24 + unitCode d.unit * 2 ^ 16 + unitNumber d % 256 * 2 ^ 8 + reaction)
  let m := (((m.setReg (Reg.SAFE_LOG0 i) m.now).setReg (Reg.SAFE_LOG1 i) w).setReg (Reg.SAFE_LOG2 i) d.detail).setReg
    (Reg.SAFE_LOG3 i) 0
  (i, (m.incReg Reg.SAFE_LOG_COUNT).lcLog 7 m.lifeState (leBytes 4 w.toNat))

/-- Another reaction in entry i. -/
def Mach.logReaction (m : Mach) (i reaction : Nat) : Mach := m.setFld (Reg.SAFE_LOG1 i) 0 8 reaction

/-- A fatal fault (Table 14-3): hold 1 begins and FAULT_n is asserted. -/
def Mach.fatal (m : Mach) : Mach :=
  let m := (m.beginHold 1).raise Reg.SAFE_EVENT 0x10
  (m.onSafety fun x => { x with faultN := true }).setRBit Reg.SAFE_STATUS 2 true

/-! ## Instants discarded (R350) -/

def discardLive (p : Live → Bool) (l : List Live) : List Live := l.map fun x => if p x then { x with discarded := true } else x

/-- Released instant k of group g is discarded. -/
def Mach.discardInstant (m : Mach) (g : Nat) (k : Word) : Mach :=
  m.setGroup g { m.group g with open_ := discardLive (fun x => x.k == k) (m.group g).open_ }

/-- Every instant of every group whose Tk has come and that is not yet wholly framed is discarded, released or pending (R358). -/
def Mach.discardAll (m : Mach) : Mach :=
  (List.range 16).foldl (fun m g =>
    let x := m.group g
    m.setGroup g { x with
      open_ := discardLive (fun _ => true) x.open_
      sched := x.sched.map fun i => if i.due then { i with discarded := true } else i }) m

/-- The META UNIT whose span holds command n of queue q. -/
def Mach.unitAt (m : Mach) (q : Nat) (n : Word) : Option UnitMark := (m.cmdq q).units.find? fun u => decide (0 ≤ (n - u.num).toInt)

/-- The instant of command n of queue q is discarded. -/
def Mach.discardOf (m : Mach) (q : Nat) (n : Word) : Mach :=
  match m.unitAt q n with
  | some u => m.discardInstant u.group u.k
  | none => m

/-! ## Commands discarded and queues restarted (R355) -/

/-- An EMIT that egress held is no longer held. -/
def Mach.unhold (m : Mach) (q : Nat) (n : Word) : Mach :=
  (List.range 16).foldl (fun m g => if (m.heldEmits g).any (fun h => h.q == q && h.num == n) then
    m.setHeld g ((m.heldEmits g).filter fun h => !(h.q == q && h.num == n)) else m) m

/-- What a discarded command undoes: what it was writing is open, STAGE_GET rewinds to its mark, an EMIT leaves egress, DONE is
traced with outcome 2. -/
def Mach.undo (m : Mach) (q : Nat) (c : Started) : Mach :=
  let n := u8 c.bytes 0x12
  let m := m.dropWrites q c
  let m := if isStageGet c.bytes then m.setStage n (m.stage n).rewind else m
  let m := if isEmit c.bytes then m.unhold q c.num else m
  m.traceDone q c.num c.bytes 2 c.redo

/-- A command of the restarted span counted as completed before the fault. -/
def CmdQ.was (x : CmdQ) (n : Word) : Bool :=
  (match x.started.find? fun c => c.num == n with
    | some c => c.quiet
    | none => true) &&
  (match x.redo with
    | some p => decide ((n - p).toInt < 0) || x.redoDone.contains n
    | none => true)

/-- The numbers from a up to and not including b. -/
def numbers (a b : Word) : List Word := (List.range (b - a).toNat).map fun i => a + BitVec.ofNat 32 i

/-- Where queue q restarts: at its latest UNIT at or before its oldest started command; where that slot has been
overwritten, or no UNIT stands there, at its oldest uncompleted command. -/
def Mach.restartFrom (m : Mach) (q : Nat) (oldest : Word) : Word × Mach :=
  match m.unitAt q oldest with
  | some u =>
    if 2 ^ m.ringLog q ≤ (m.reg (Reg.CQ_TAIL q) - u.num).toNat then (m.reg (Reg.CQ_DONE q), m.discardInstant u.group u.k)
    else (u.num, m)
  | none => (m.reg (Reg.CQ_DONE q), m)

/-- Slot n of core c is discarded. -/
def Mach.dropSlot (m : Mach) (c n : Nat) : Mach :=
  { m.wipe (slotBase c n) 4096 with slots := sput (fun _ => {}) (16 * c + n) {} m.slots }

/-- The slots that queue q wrote last on its core are discarded with a TENSOR command of it (R216): the golden slot with a GOLDEN one. -/
def Mach.dropSlots (m : Mach) (q : Nat) (golden : Bool) : Mach :=
  let c := m.queueCore q
  if golden then m.dropSlot c 8
  else (List.range 8).foldl (fun m n => if (sget (fun _ => {}) m.slots (16 * c + n)).owner = some q then m.dropSlot c n else m) m

/-- What a core fault does to a started command of queue q besides discarding it: its slots go with a TENSOR command, the contexts
of a VECTOR command stop in fault_hold (R253), and a POINT command that an owner point unit has accepted runs to its end (R182). -/
def Mach.stopCommand (m : Mach) (q : Nat) (c : Started) : Mach :=
  match cmdClass c.bytes with
  | 1 => m.dropSlots q (isGolden c.bytes)
  | 2 => m.onContexts (fun _ x => x.holds q c.num) fun x => { x with state := .faultHold }
  | 4 => if cmdOp c.bytes ≤ 6 then m.pointDone q c.bytes else m
  | _ => m

/-- Queue q stops taking commands; its started ones are discarded and the span to repeat is fixed. -/
def Mach.stopQueue (m : Mach) (q : Nat) : Mach :=
  let x := m.cmdq q
  match x.started with
  | [] => m.onCmdq q fun x => { x with rehoming := true }
  | c :: cs =>
    let oldest := cs.foldl (fun n d => if (d.num - n).toInt < 0 then d.num else n) c.num
    let (start, m) := m.restartFrom q oldest
    let m := x.started.foldl (fun m d => (m.undo q d).stopCommand q d) m
    let head := m.reg (Reg.CQ_HEAD q)
    m.setCmdq q { x with
      started := [], rehoming := true, redo := some start, redoDone := (numbers start head).filter x.was,
      units := x.units.filter fun u => decide ((u.num - start).toInt < 0) }

/-- The queues bound to core c. -/
def Mach.queuesOf (m : Mach) (c : Nat) : List Nat := (List.range 256).filter fun q => m.queueCore q == c

/-- A queue takes commands again. -/
def Mach.goOn (m : Mach) (q : Nat) : Mach := (m.onCmdq q fun x => { x with rehoming := false }).checkHead q

/-- Started commands that p selects are discarded with their instants and count as completed without their signals:
a fault of a unit other than a core (log entry 25). -/
def Mach.dropCommands (m : Mach) (p : Nat → Started → Bool) : Mach :=
  (List.range 256).foldl (fun m q =>
    ((m.cmdq q).started.filter (p q)).foldl (fun m c =>
      let m := (m.undo q c).discardOf q c.num
      (((m.onCmdq q fun x => { x with started := x.started.filter fun d => d.num != c.num }).countDone q c.num).drainCheck q).checkHead q)
      m) m

/-! ## Reloads (Table 14-4, R356, R358) -/

/-- Flat address of a resident copy. -/
def WeightDest.at_ (d : WeightDest) : Nat := (if d.space = 1 then clusterBase d.unit else localBase d.unit) + d.addr

/-- Resident copies that p selects are written from their masters. -/
def Mach.reloadLayers (m : Mach) (p : WeightDest → Bool) : Mach :=
  m.fpl.plan.weights.foldl (fun m w =>
    (w.dests.filter p).foldl (fun m d => m.setBytes d.at_ (m.bytes w.master w.size)) m) m

/-- n bytes at an offset of the image, as the configuration copy holds them in HBM (R369). -/
def Mach.copyBytes (m : Mach) (off n : Nat) : List Byte :=
  match m.fpl.copyAt with
  | some a => m.bytes (a + off) n
  | none => slice m.fpl.image off n

/-- The data of layer n in the configuration copy. -/
def Mach.copyLayer (m : Mach) (n : Nat) : List Byte :=
  match parseImage m.fpl.image with
  | .ok im =>
    let d := im.dataOf 0x0A
    match (List.range (u32 d 0)).find? fun i => u16 d (32 + 96 * i) == n with
    | some i => m.copyBytes (im.offOf 0x0A + u32 d (32 + 96 * i + 0x10)) (u32 d (32 + 96 * i + 4))
    | none => []
  | .error _ => []

/-- The program of control core c in the configuration copy. -/
def Mach.copyProg (m : Mach) (c : Nat) : Option (List Byte) :=
  (m.fpl.plan.progs.find? fun p => p.cc == c).map fun p =>
    match parseImage m.fpl.image with
    | .ok im =>
      let before := m.fpl.plan.progs.takeWhile fun p => p.cc != c
      m.copyBytes (im.offOf 9 + (before.map fun p => 12 + p.code.length).sum + 12) p.code.length
    | .error _ => p.code

def Mach.ccEntry (m : Mach) (c : Nat) : Nat :=
  m.fld (if c < 32 then Reg.CLU_CC_ENTRY (c / 4) (c % 4) else Reg.CLU_CC_ENTRY (c - 32) 4) 0 18

/-- A control core starts at its entry with every register 0 (R358). -/
def Mach.ccRestart (m : Mach) (c : Nat) : Mach :=
  m.setCc c { pc := BitVec.ofNat 18 (m.ccEntry c), state := if (m.cc c).state = .idle then .idle else .running }

/-- Sequencer memory of control core c restored from the configuration copy, and the core restarted. -/
def Mach.reloadProg (m : Mach) (c : Nat) : Mach :=
  match m.copyProg c with
  | some code => ((m.wipe (seqBase c) seqSize).setBytes (seqBase c) code).ccRestart c
  | none => m.wipe (seqBase c) seqSize

/-! ## Placements (R307, R329, R330, R356) -/

/-- The ring of queue q copied to another base, which becomes its own. -/
def Mach.moveRing (m : Mach) (q ring : Nat) : Mach :=
  let n := 64 * 2 ^ m.ringLog q
  let a := m.slotAddr q 0
  let data := m.bytes a n
  let m := (m.setReg (Reg.CQ_BASE_LO q) (BitVec.ofNat 32 ring)).setReg (Reg.CQ_BASE_HI q) (BitVec.ofNat 32 (ring / 2 ^ 32))
  m.setBytes (m.slotAddr q 0) data

/-- Queue q bound to core c. -/
def Mach.bindQueue (m : Mach) (q c : Nat) (again : Bool) : Mach :=
  let old := m.queueCore q
  ((m.setReg (Reg.CQ_CORE q) (BitVec.ofNat 32 (c + 256 * again.toNat))).raise (Reg.CQ_EVENT q) 0x2).raise (Reg.CLU_EVENT (old / 4)) 0x4

/-- One record of a placement. -/
def Mach.placeRec (m : Mach) : PlaceRec → Mach
  | .move q core ring => (if ring = 0 then m else m.moveRing q ring).bindQueue q core true
  | .reload space layer addr unit =>
    match m.fpl.plan.weights.find? fun w => w.layer == layer with
    | some w => m.setBytes ({ space := space, unit := unit, addr := addr } : WeightDest).at_ (m.bytes w.master w.size)
    | none => m
  | .entry c pc =>
    let a := if c < 32 then Reg.CLU_CC_ENTRY (c / 4) (c % 4) else Reg.CLU_CC_ENTRY (c - 32) 4
    (m.setReg a (BitVec.ofNat 32 pc)).ccRestart c

/-- A placement applied; the ring bases and program entries it changes are part of the committed configuration from
then on, and the configuration copy takes them (log entry 38). -/
def Mach.place (m : Mach) (p : Placement) : Mach := ((p.recs.foldl Mach.placeRec m).retakeSegments [3, 11]).copyWords

/-- Core c goes out of service. -/
def Mach.coreOut (m : Mach) (c : Nat) : Mach :=
  let m := (m.setRBit (Reg.CLU_CORE_STATE (c / 4)) (c % 4) false).setRBit Reg.FPL_CORES_OUT c true
  m.onFpl fun f => { f with applied := f.applied ++ [c] }

/-- The four islands of core c stop (R39). -/
def Mach.stopIslands (m : Mach) (c : Nat) : Mach :=
  (List.range 4).foldl (fun m i =>
    let x := m.island (4 * c + i)
    if x.stopped.contains .coreOut then m else m.setIsland (4 * c + i) { x with stopped := x.stopped ++ [.coreOut] }) m

/-- Cores out of service. -/
def Mach.coresOut (m : Mach) : List Nat := (List.range 32).filter fun c => m.rbit Reg.FPL_CORES_OUT c

/-- The placement for a core that fails permanently, and the reaction: the fallback, or the degraded placement of its
pair, or none. -/
def Mach.placementFor (m : Mach) (c : Nat) : Option (Placement × Nat) :=
  match m.coresOut with
  | [] => some ((m.fpl.plan.fallback.find? fun p => p.core == c).getD { core := c, core2 := 0xFF, reload := 0, recs := [] }, 2)
  | [d] => (m.fpl.plan.degrade.find? fun p => p.core == min c d && p.core2 == max c d).map fun p => (p, 3)
  | _ => none

/-- Core c is found permanently faulty (R356 from step 2): the placement is applied, or the fault is fatal. -/
def Mach.corePermanent (m : Mach) (c i : Nat) : Mach :=
  match m.placementFor c with
  | some (p, r) =>
    let m := (m.logReaction i r).coreOut c
    let m := (m.place p).stopIslands c
    if r = 2 then m.raise Reg.FPL_EVENT 0x20 else (m.setRBit Reg.FPL_STATUS 5 true).raise Reg.FPL_EVENT 0x40
  | none => ((m.logReaction i 6).coreOut c).stopIslands c |>.fatal

/-! ## Planned re-homing (R364) -/

def Mach.selfTestOf (m : Mach) (c : Nat) : SelfTest := sget (fun _ => {}) m.safety.selfTest c
def Mach.setSelfTest (m : Mach) (c : Nat) (x : SelfTest) : Mach :=
  m.onSafety fun y => { y with selfTest := sput (fun _ => {}) c x y.selfTest }

/-- The queues that a placement moves. -/
def Placement.queues (p : Placement) : List Nat := p.recs.filterMap fun r => match r with
  | .move q _ _ => some q
  | _ => none

/-- Where the queues and programs that a placement moves stand now. -/
def Mach.standing (m : Mach) (p : Placement) : List (Nat × Nat) × List (Nat × Nat) :=
  (p.queues.map fun q => (q, m.addr36 (Reg.CQ_BASE_LO q) (Reg.CQ_BASE_HI q)),
   p.recs.filterMap fun r => match r with
    | .entry cc _ => some (cc, m.ccEntry cc)
    | _ => none)

/-- The fallback placement of core c. -/
def Mach.fallbackOf (m : Mach) (c : Nat) : Option Placement := m.fpl.plan.fallback.find? fun p => p.core == c

/-- The queues that a planned re-homing of core c moves next: away, or back. -/
def Mach.leavingQueues (m : Mach) (c : Nat) : List Nat :=
  let x := m.selfTestOf c
  if x.rehomed then x.rings.map Prod.fst
  else match m.fallbackOf c with
    | some p => p.queues
    | none => []

/-- R364 step 1: the fallback placement of core c is applied; no hold begins. -/
def Mach.rehomeAway (m : Mach) (c : Nat) : Mach :=
  match m.fallbackOf c with
  | some p =>
    let old := m.standing p
    (m.place p).setSelfTest c { m.selfTestOf c with leaving := false, rehomed := true, rings := old.1, entries := old.2 }
  | none => m

/-- R364 step 3: the queues return to core c, with its layers. -/
def Mach.rehomeBack (m : Mach) (c : Nat) : Mach :=
  let x := m.selfTestOf c
  let m := x.rings.foldl (fun m r =>
    (if m.addr36 (Reg.CQ_BASE_LO r.1) (Reg.CQ_BASE_HI r.1) = r.2 then m else m.moveRing r.1 r.2).bindQueue r.1 c false) m
  let m := m.reloadLayers fun w => w.space == 2 && w.unit == c
  let m := x.entries.foldl (fun m e => m.placeRec (.entry e.1 e.2)) m
  (m.retakeSegments [3, 11]).copyWords.setSelfTest c { x with leaving := false, rehomed := false, rings := [], entries := [] }

/-- The queues of a planned re-homing of core c move, and start commands again. -/
def Mach.rehomeMove (m : Mach) (c : Nat) : Mach :=
  let l := m.leavingQueues c
  l.foldl Mach.goOn (if (m.selfTestOf c).rehomed then m.rehomeBack c else m.rehomeAway c)

/-- A planned re-homing of core c that waits for started commands takes place once there are none. -/
def Mach.leaveDue (m : Mach) (c : Nat) : Mach :=
  let x := m.selfTestOf c
  let busy := if x.rehomed then (m.leavingQueues c).any fun q => !(m.cmdq q).started.isEmpty else m.coreInFlight c != 0
  if x.leaving && !busy then m.rehomeMove c else m

/-- The planned re-homings that wait, after a command has completed. -/
def Mach.leaveAll (m : Mach) : Mach :=
  (m.safety.selfTest.filter fun p => p.2.leaving).foldl (fun m p => m.leaveDue p.1) m

/-- A planned re-homing of core c begins: its queues start nothing more and read rehoming (R366). -/
def Mach.rehomeStart (m : Mach) (c : Nat) : Mach :=
  let m := (m.leavingQueues c).foldl (fun m q => m.onCmdq q fun x => { x with rehoming := true }) m
  (m.setSelfTest c { m.selfTestOf c with leaving := true }).leaveDue c

end Sys2Proof.Machine
end

