-- ==== Sys2Proof/Machine/Recovery.lean ====
section
/-! DEFINITION. What the safety supervisor does about a detection (R351 to R358, R370): the class, the record, the reaction of
each unit, and data faults. -/

namespace Sys2Proof.Machine

/-! ## Data faults (R353) -/

/-- The region of an HBM address. -/
def Mach.regionOf (m : Mach) (a : Nat) : Option Region :=
  m.fpl.plan.regions.find? fun r => decide (r.base ≤ a) && decide (a < r.base + r.size)

/-- The word at address a rewritten; what it then holds is not given. -/
def Mach.rewrite (m : Mach) (a : Nat) : Mach :=
  (List.range 8).foldl (fun m i =>
    let (w, m) := m.free
    m.setWord (a / 32 * 32 + 4 * i) w) m

/-- A history-ring record that holds address a is marked damaged and counted. -/
def Mach.damageRecord (m : Mach) (a : Nat) : Mach :=
  (List.range 256).foldl (fun m s =>
    let base := m.addr36 (Reg.STR_RING_BASE_LO s) (Reg.STR_RING_BASE_HI s)
    let hit := fun (r : RingRec) => r.live && decide (base + r.off ≤ a) && decide (a < base + r.off + r.len)
    match (m.stream s).ring.find? hit with
    | some r =>
      let m := (m.setByte (base + r.off + 7) (m.byte (base + r.off + 7) ||| 1)).strDrop s
      m.onStream s fun x => { x with
        ring := x.ring.map fun r => if hit r then { r with live := false, lost := true, item := { r.item with damaged := true } } else r }
    | none => m) m

/-- The instants that core c computes: those of the latest UNIT of each of its queues. -/
def Mach.instantsOf (m : Mach) (c : Nat) : List (Nat × Word) :=
  (m.queuesOf c).filterMap fun q => (m.cmdq q).units.head?.map fun u => (u.group, u.k)

/-- Some instants are discarded. -/
def Mach.discardThese (m : Mach) (l : List (Nat × Word)) : Mach := l.foldl (fun m x => m.discardInstant x.1 x.2) m

/-- Both copies of group g's grid become unknown. -/
def Mach.gridUnknown (m : Mach) (g : Nat) : Mach :=
  (m.mapCells g (m.gridBase g 0) fun _ => GridCell.unknown).mapCells g (m.gridBase g 1) fun _ => GridCell.unknown

/-- Group g's range is freed in both copies. -/
def Mach.tracksFree (m : Mach) (g : Nat) : Mach :=
  let m := (m.trkSlots g).foldl (fun m i => [0, 1].foldl (fun m c =>
    m.setBytes (m.trkBase c + 64 * i) (Track.free.write (BitVec.ofNat 8 (u8 (m.track c i) 4 + 1)))) m) m
  m.setReg Reg.EGR_TRK_LIVE (BitVec.ofNat 32 m.trkLive)

/-- A command of an HBM ring is corrupted: its queue goes into error, cause 0x01 (R295). -/
def Mach.corruptRing (m : Mach) (a : Nat) : Mach :=
  (List.range 256).foldl (fun m q =>
    let base := m.addr36 (Reg.CQ_BASE_LO q) (Reg.CQ_BASE_HI q)
    let n := 2 ^ m.ringLog q
    if m.qEnabled q && m.fld (Reg.CQ_CFG q) 8 2 == 0 && decide (base ≤ a) && decide (a < base + 64 * n) then
      let done := (m.reg (Reg.CQ_DONE q)).toNat
      let num : Word := BitVec.ofNat 32 (done + ((a - base) / 64 + n - done % n) % n)
      if (num - m.reg (Reg.CQ_TAIL q)).toInt < 0 then
        ((m.onCmdq q fun x => { x with error := true }).setReg (Reg.CQ_ERR q) 0x01000000).setReg (Reg.CQ_ERRPOS q) num
          |>.raise (Reg.CQ_EVENT q) 0x1
      else m
    else m) m

/-- The layer whose master holds address a is restored, and its resident copies reloaded. -/
def Mach.restoreLayer (m : Mach) (a : Nat) : Mach :=
  match m.fpl.plan.weights.find? fun w => decide (w.master ≤ a) && decide (a < w.master + w.size) with
  | some w =>
    let m := m.setBytes w.master (m.copyLayer w.layer)
    w.dests.foldl (fun m d => m.setBytes d.at_ (m.bytes w.master w.size)) m
  | none => m

/-- The reaction to a data fault at address a: by the purpose of its region, where `point` discards the instants that the reading
unit computes. -/
def Mach.dataFault (m : Mach) (a : Nat) (point : Mach → Mach) : Mach :=
  let m := m.rewrite a
  match (m.regionOf a).map Region.purpose with
  | some 1 => m.damageRecord a
  | some 2 => point m
  | some 4 => point m
  | some 10 => point m
  | some 3 =>
    match (List.range 32).find? fun v => m.vtOn v && decide (m.vtBase v ≤ a) && decide (a < m.vtBase v + 2 ^ 26) with
    | some v => if m.vtAccumulated v then m.pointPurge v 0xFFFF else point m
    | none => point m
  | some 5 =>
    match (List.range 16).find? fun g => m.gridOn g && decide (m.gridBase g 0 ≤ a) && decide (a < m.gridBase g 0 + 2 ^ 24) with
    | some g => m.gridUnknown g
    | none => m
  | some 6 =>
    match m.trkOwner ((a - m.trkBase 0) / 64 % 4096) with
    | some g => m.tracksFree g
    | none => m
  | some 7 => m.onPose fun p => { p with ticks := [], first := p.next.getD 0 }
  | some 8 => m.restoreLayer a
  | some 9 => (point m).corruptRing a
  | some 11 => m.loseRecords false 1
  | some 12 => m.fatal
  | _ => m

/-! ## Reactions (Table 14-3) -/

/-- The unit's earlier detections within the window of R354 make this one permanent; so do a self-test segment, and a recovery of the
same core still in progress (R370). A test jet that fails makes it permanent during the recovery (R355). -/
def Mach.isPermanent (m : Mach) (d : Detection) : Bool :=
  let window := m.fld Reg.SAFE_CFG 0 16 * 1000000
  d.cause == 0x06 ||
    (m.safety.past.any fun p => p.unit == d.unit && p.number == d.number && decide ((m.time.count - p.at_).toNat ≤ window)) ||
    m.safety.recoveries.any fun r => r.det.unit == d.unit && r.det.number == d.number

/-- Control core c stands still: its core or its cluster is under recovery. -/
def Mach.ccRecovering (m : Mach) (c : Nat) : Bool :=
  m.safety.recoveries.any fun r => match r.det.unit with
    | .core => r.det.number % 32 == c
    | .cluster => r.det.number % 8 == (if c < 32 then c / 4 else c - 32)
    | _ => false

/-- A recovery in progress: hold 0, and how long it lasts (log entry 24). -/
def Mach.openRecovery (m : Mach) (d : Detection) (i : Nat) (permanent : Bool) : Mach :=
  let key := m.freeCtr
  let m := { m with freeCtr := key + 1 }
  (m.beginHold 0).onSafety fun x => { x with
    recoveries := x.recoveries ++ [{ det := d, at_ := m.time.count, logIndex := i, permanent := permanent, key := key }] }

/-- Core c stops: its queues discard their started commands and wait. -/
def Mach.stopCore (m : Mach) (c : Nat) : Mach := (m.queuesOf c).foldl Mach.stopQueue m

/-- The same HBM word has failed again during the recovery of the unit that reads it (R353): entry i of the event log shows that data
was cleared (log entry 168). -/
def Mach.again (m : Mach) (d : Detection) (i : Nat) (point : Mach → Mach) : Mach :=
  if d.cause = 0x08 ∧ d.again then
    if (m.regionOf d.addr).map Region.purpose = some 12 then (m.logReaction i 6).dataFault d.addr point
    else (m.logReaction i 8).dataFault d.addr point
  else m

/-- A detection during a planned re-homing of core c: its commands are discarded, so its queues move now (R370). They restart
when the recovery ends. -/
def Mach.rehomeStopped (m : Mach) (c : Nat) : Mach := if (m.selfTestOf c).rehomed then m.rehomeBack c else m.rehomeAway c

/-- A detection of a core; its test jet runs, and is counted, in the recovery (R355, R362). -/
def Mach.coreFault (m : Mach) (d : Detection) (i : Nat) (permanent : Bool) : Mach :=
  let c := d.number % 32
  if !m.inService c then m
  else
    let computed := m.instantsOf c
    let m := ((m.openRecovery d i permanent).stopCore c).again d i fun m => m.discardThese computed
    let m := if (m.selfTestOf c).leaving then m.rehomeStopped c else m
    if permanent then m.corePermanent c i else m

/-- The point unit that runs a started command. -/
def Mach.onPointUnit (m : Mach) (k q : Nat) (c : Started) : Bool := cmdClass c.bytes == 4 && m.unitOf (m.queueCore q) c.bytes == k

/-- The instants whose point tables unit k owns are discarded (R182). -/
def Mach.discardTables (m : Mach) (k : Nat) : Mach :=
  ((List.range 32).filter fun t => m.ptOn t && m.pointUnit (Reg.PNT_PT_CFG t) == k).foldl
    (fun m t => m.discardInstant (m.ptGroup t) (m.reg (Reg.PNT_PT_K t))) m

/-- A detection of a point unit (R182). -/
def Mach.pointFault (m : Mach) (d : Detection) (i : Nat) (permanent : Bool) : Mach :=
  let k := d.number % 8
  let m := (((m.openRecovery d i permanent).dropCommands (m.onPointUnit k)).discardTables k).again d i fun m => m.discardTables k
  let owned := (List.range 32).filter fun v => m.vtOn v && m.vtAccumulated v && m.pointUnit (Reg.PNT_VT_CFG v) == k
  let m := owned.foldl (fun m v => m.pointPurge v 0xFFFF) m
  if permanent then
    if (m.safety.pointOut.filter (· < 8)).isEmpty then m.onSafety fun x => { x with pointOut := x.pointOut ++ [k] } else (m.logReaction i 6).fatal
  else m

/-- A detection of a cluster memory, fabric or scheduler. -/
def Mach.clusterFault (m : Mach) (d : Detection) (i : Nat) (permanent : Bool) : Mach :=
  let k := d.number % 8
  let cores := (List.range 4).map fun j => 4 * k + j
  let computed := cores.flatMap m.instantsOf
  let m := (cores.foldl Mach.stopCore (m.openRecovery d i permanent)).again d i fun m => m.discardThese computed
  if permanent then m.fatal else m

/-- Commands in flight in a die unit. -/
def inDieUnit (island : Nat) (b : List Byte) : Bool :=
  if island = 150 then cmdClass b == 5 && !isEmit b
  else if island = 151 then isEmit b
  else if island = 165 then false
  else cmdClass b == 3

/-- A permanent fault of this die unit is fatal; of the debug island, which Table 14-3 leaves out, it is not (log entry 28). -/
def dieFatal (d : Detection) (permanent : Bool) : Bool := permanent && d.number != 165

/-- A detection of the fusion front end, egress, the die fabric or the HBM controller; the debug island resumes with nothing in
flight. The instants of its commands in flight are discarded with them. -/
def Mach.dieFault (m : Mach) (d : Detection) (i : Nat) (permanent : Bool) : Mach :=
  let m := ((m.openRecovery d i permanent).dropCommands fun _ c => inDieUnit d.number c.bytes).again d i id
  if dieFatal d permanent then m.fatal else m

/-- Kind and port number of a stream's source on the island of a port: a MAC, a CSI-2 receiver or the hub. -/
def Mach.onPortIsland (m : Mach) (island s : Nat) : Bool :=
  let kind := m.strKind s
  let port := m.fld (Reg.STR_SOURCE s) 24 4
  if island < 156 then (kind == 2 || kind == 3) && port == island - 152
  else if island < 164 then kind == 1 && port == island - 156
  else decide (4 ≤ kind)

/-- The items in progress at the ports of an island are recorded damaged: open CSI-2 frames, SPI reads of the hub. -/
def Ports.damage (x : Ports) (island : Nat) : Ports :=
  { x with
    frames := x.frames.map fun p =>
      if 156 + p.1 = island then (p.1, p.2.map fun f => { f with item := { f.item with damaged := true } }) else p
    spi := if island = 164 then x.spi.map fun p => if p.2.reading.isSome then (p.1, { p.2 with broken := true }) else p else x.spi }

/-- A detection of a port: the item in progress is recorded damaged, or the port stops. -/
def Mach.portFault (m : Mach) (d : Detection) (i : Nat) (permanent : Bool) : Mach :=
  let m := (m.openRecovery d i permanent).again d i id
  let m := { m with ports := m.ports.damage d.number }
  if permanent then
    let x := m.island d.number
    let m := m.onSafety fun y => { y with pointOut := y.pointOut ++ [d.number] }
    let m := if x.stopped.contains .port then m else m.setIsland d.number { x with stopped := x.stopped ++ [.port] }
    ((List.range 256).filter fun s => m.strEnabled s && m.onPortIsland d.number s).foldl Mach.makeAbsent m
  else m

/-- A core or cluster is under recovery. -/
def Mach.coreRecovery (m : Mach) : Bool := m.safety.recoveries.any fun r => r.det.unit == .core || r.det.unit == .cluster

/-- A configuration fault (R358): nothing not yet framed is valid, and the reload begins, after a core recovery in progress (R370);
whether it verifies shows at its end. -/
def Mach.configFault (m : Mach) (d : Detection) (i : Nat) : Mach :=
  let wait := m.coreRecovery
  let m := m.openRecovery d i false
  if wait then m.onSafety fun x => { x with configWaiting := x.configWaiting ++ [d] } else m.discardAll

/-- A step of phase B from 4 onward fails: Show Home is moved in in the same way (R334). -/
def Mach.loadFailed (m : Mach) : Mach :=
  ((m.setFld Reg.FPL_STATUS 1 3 2).raise Reg.FPL_EVENT 0x4).onFpl fun f => { f with staged := some [] }

/-- A move-in in progress is abandoned (R26): in phase A nothing else changes, in phase B Show Home follows. -/
def Mach.abandonMoveIn (m : Mach) : Mach :=
  if m.phase = 0 then m
  else if m.phase = 1 then ((m.setFld Reg.FPL_STATUS 1 3 0).raise Reg.FPL_EVENT 0x4).onFpl fun f => { f with staged := none, stagedAt := none }
  else m.loadFailed

/-- The error of a detection is an uncorrectable HBM word of the image that phase B loads: a read of the image (R334), which comes with
the phase loading (log entry 161). -/
def Mach.imageError (m : Mach) (d : Detection) : Bool :=
  d.cause == 0x08 && m.phase == 3 &&
    match m.fpl.stagedAt, m.fpl.staged with
    | some a, some img => decide (a ≤ d.addr) && decide (d.addr < a + img.length)
    | _, _ => false

/-- The management core or the security island: an event only; the management core restarts its firmware, and the servo stops
meanwhile (R24, R58). -/
def Mach.managementFault (m : Mach) (d : Detection) : Mach :=
  let m := m.abandonMoveIn
  if d.unit = .management then (m.onObs fun o => { o with mgmtHalted := true }).servoCheck else m

/-- An uncorrectable HBM word as MEM shows it (Table 15-8). -/
def Mach.memError (m : Mach) (addr : Nat) : Mach :=
  let m := (m.incReg Reg.MEM_UNCORR).setReg Reg.MEM_ERR_ADDR_LO (BitVec.ofNat 32 (addr / 32 * 32))
  (m.setReg Reg.MEM_ERR_ADDR_HI (BitVec.ofNat 32 (addr / 2 ^ 32 % 16))).raise Reg.MEM_EVENT 0x4

/-- Uncorrectable words counted (Table 16-2). -/
def Mach.countWord (m : Mach) (d : Detection) : Mach :=
  if d.cause = 0x07 then m.bump 417 1
  else if d.cause = 0x08 then (m.bump 419 1).memError d.addr
  else if d.cause = 0x09 then m.bump 421 1
  else m

/-- A corrected single-bit error: counted, its word rewritten corrected, and no fault (R351, Tables 15-8 and 16-2). -/
def Mach.corrected (m : Mach) : EccStore → Mach
  | .sram => m.bump 416 1
  | .hbm => ((m.bump 418 1).incReg Reg.MEM_CORR).raise Reg.MEM_EVENT 0x2
  | .sequencer => m.bump 420 1
  | .registerFile => m.bump 422 1

/-- Bits of SAFE_EVENT that a detection raises. -/
def detectBits (d : Detection) (permanent : Bool) : Nat :=
  2 + (if permanent then 8 else 0) + (if d.cause = 0x0C ∨ d.cause = 0x0D then 0x40 else 0) +
    (if d.cause = 0x05 ∨ d.cause = 0x14 then 0x80 else 0) + (if d.cause = 0x06 then 0x100 else 0)

/-- The reaction that the event log shows of a detection (Table 14-8). -/
def Mach.firstReaction (m : Mach) (d : Detection) (permanent : Bool) : Nat :=
  if d.cause = 0x0F then 0
  else match d.unit with
    | .core => if !m.inService (d.number % 32) then 0 else if permanent then 2 else 1
    | .pointUnit => if permanent then 2 else 5
    | .cluster => if permanent then 6 else 1
    | .dieUnit => if dieFatal d permanent then 6 else 5
    | .port => if permanent then 7 else 0
    | .config => 4
    | .timebase => 6
    | .supervisor => 6
    | .management => 5
    | .security => 5

/-- A detection recorded: classed, counted, and entered in the event log. The answer is its entry and its class. -/
def Mach.record (m : Mach) (d : Detection) : (Nat × Bool) × Mach :=
  let permanent := m.isPermanent d
  let m := (m.raise Reg.SAFE_EVENT (detectBits d permanent)).countWord d
  let m := if permanent then (m.incReg Reg.SAFE_PERMANENT).bump 426 1 else (m.incReg Reg.SAFE_TRANSIENT).bump 425 1
  let m := m.onSafety fun x => { x with past := x.past ++ [{ unit := d.unit, number := d.number, at_ := m.time.count }] }
  let r := m.logFault d (m.firstReaction d permanent)
  ((r.1, permanent), r.2)

/-- The reaction of a detection's unit (Table 14-3). -/
def Mach.handle (m : Mach) (d : Detection) (i : Nat) (permanent : Bool) : Mach :=
  if d.cause = 0x0F then m.beginHold 10
  else
    match d.unit with
    | .core => m.coreFault d i permanent
    | .pointUnit => m.pointFault d i permanent
    | .cluster => m.clusterFault d i permanent
    | .dieUnit => m.dieFault d i permanent
    | .port => m.portFault d i permanent
    | .config => m.configFault d i
    | .timebase => m.fatal
    | .supervisor => m.fatal
    | .management => m.managementFault d
    | .security => m.managementFault d

/-- A detection recorded and met by its unit's reaction, in one clock of the supervisor (R386). -/
def Mach.react (m : Mach) (d : Detection) : Mach :=
  m.oneClock Reg.SAFE_EVENT fun m => let r := m.record d; r.2.handle d r.1.1 r.1.2

/-- The faults recorded during a move-in are handled once it has ended: after its commit against the new floorplan (R26), and where it
ended in phase A against the one that goes on running (log entry 154). -/
def Mach.handleLate (m : Mach) : Mach :=
  if m.phase = 0 then
    m.fpl.deferred.foldl (fun m x => m.oneClock Reg.SAFE_EVENT fun m => m.handle x.1 x.2.1 x.2.2) (m.onFpl fun f => { f with deferred := [] })
  else m

/-- A detection reaches the supervisor: it is counted, and may freeze the counters. During a move-in it is recorded, and its unit's
reaction waits for the commit, unless it is of the management core or the security island, which abandons the move-in (R26); an
uncorrectable word of the image fails the load (R334). -/
def Mach.fault (m : Mach) (d : Detection) : Mach :=
  let m := (m.bump 424 1).freezeOnFault
  if 1 ≤ m.phase ∧ d.unit ≠ .management ∧ d.unit ≠ .security then
    let failed := m.imageError d
    let r := m.record d
    let m := r.2.onFpl fun f => { f with deferred := f.deferred ++ [(d, r.1.1, r.1.2)] }
    (if failed then m.loadFailed else m).stillOnFault
  else (m.react d).handleLate.stillOnFault

/-- A detection, or an error that SEC-DED has corrected. -/
def Mach.detect (m : Mach) (d : Detection) : Mach :=
  match d.corrected with
  | some store => m.corrected store
  | none => m.fault d

/-- A Still snapshot is in progress or holding. -/
def Mach.still (m : Mach) : Bool := m.rbit Reg.DBG_STATUS 4 || m.rbit Reg.DBG_STATUS 5

end Sys2Proof.Machine
end

