-- ==== Sys2Proof/Machine/Commands.lean ====
section
/-! DEFINITION. The CQ block: doorbells, completion, enabling and disabling a queue, skip, resume, reset and step, and
raising a completion signal (R290 to R299, R314). -/

namespace Sys2Proof.Machine

/-! ## Completion (R294) -/

/-- Started command n of queue q completes: its unit runs, no failed check has stopped it (R209), egress does not hold it, and a VECTOR
command holds a context in which its items have run (R235). -/
def Mach.commandComplete (m : Mach) (q : Nat) (n : Word) : Mach :=
  match (m.cmdq q).started.find? fun c => c.num == n with
  | some c =>
    if m.heldEmit q n || !m.runs (m.unitIsland q c.bytes) || c.stopped || (cmdClass c.bytes == 2 && !m.holdsContext q n) then m
    else ((m.pointDone q c.bytes).complete q c).leaveAll.drainGroups
  | none => m

def execCommandComplete (q : Fin 256) (n : Word) (s : State) : Host.Outcome State Fault Refusal :=
  act s fun m => m.commandComplete q n

/-! ## The doorbell (R291) -/

/-- The host's posted writes through the HBM window reach HBM, each at the address of its decode (R389). -/
def Mach.drainWindow (m : Mach) : Mach :=
  let put := fun (m : Mach) (p : Posted) =>
    p.words.foldl (fun (m : Mach) w => m.setWord (p.winBase * 2 ^ 26 + (w.2.1 - 0x40000000)) w.2.2) m
  let m := (m.port.posted.filter fun p => p.block == .window).foldl put m
  m.onPort fun x => { x with posted := x.posted.filter fun p => p.block != .window }

/-- A write of CQ_TAILq, held until every earlier host write through the HBM window has reached HBM. -/
def Mach.cqTail (m : Mach) (q : Nat) (v : Word) : Effect :=
  let m := m.drainWindow
  if m.rbit (Reg.CQ_CFG q) 31 || decide ((v - m.reg (Reg.CQ_TAIL q)).toInt < 0) ||
      decide (2 ^ m.ringLog q < (v - m.reg (Reg.CQ_DONE q)).toNat) then m.bad
  else (false, (m.setReg (Reg.CQ_TAIL q) v).checkHead q)

/-! ## Enabling and disabling (R290, R297) -/

/-- The ring of queue q lies within installed HBM, or within the cluster memory of its home core's cluster. -/
def Mach.ringInside (m : Mach) (q : Nat) : Bool :=
  let base := m.addr36 (Reg.CQ_BASE_LO q) (Reg.CQ_BASE_HI q)
  decide (base + 64 * 2 ^ m.ringLog q ≤ if m.fld (Reg.CQ_CFG q) 8 2 = 0 then m.hbmSize else clusterSize)

/-- The queue drains: nothing more starts, and it is disabled once nothing is in flight. -/
def Mach.queueOff (m : Mach) (q : Nat) : Mach := (m.onCmdq q fun x => { x with draining := true }).drainCheck q

/-- A write of CQ_CTRLq. -/
def Mach.cqCtrl (m : Mach) (q : Nat) (v : Word) : Effect :=
  let was := m.qEnabled q
  if v.bit 31 && !was && ((m.cmdq q).draining || !m.ringInside q) then m.bad
  else
    let m := m.storeReg (Reg.CQ_CTRL q) v
    (false, if was && !v.bit 31 then m.queueOff q else m.checkHead q)

/-- Two configurations place the ring alike: space, size and, in cluster memory, the home core's cluster. -/
def sameRing (a b : Word) : Bool :=
  a.field 8 2 == b.field 8 2 && a.field 0 5 == b.field 0 5 && (a.field 8 2 == 0 || a.field 13 3 == b.field 13 3)

/-- The queue takes no change of its ring: it is enabled or draining. -/
def Mach.ringFixed (m : Mach) (q : Nat) : Bool := m.qEnabled q || (m.cmdq q).draining

/-- A write of CQ_CFGq: a host's ring lies in HBM; the queue is bound to its home core unless a re-homing has moved
it. -/
def Mach.cqCfg (m : Mach) (q : Nat) (v : Word) : Effect :=
  let a := Reg.CQ_CFG q
  if (!v.bit 31 && v.field 8 2 != 0) || (m.ringFixed q && !sameRing (m.reg a) v) then m.bad
  else
    let m := m.storeReg a v
    (false, if m.rbit (Reg.CQ_CORE q) 8 then m else m.setReg (Reg.CQ_CORE q) (BitVec.ofNat 32 (v.field 11 5)))

/-- A write of CQ_BASE_LOq or CQ_BASE_HIq. -/
def Mach.cqBase (m : Mach) (q a : Nat) (v : Word) : Effect :=
  let m' := m.storeReg a v
  if m.ringFixed q && m'.reg a != m.reg a then m.bad else (false, m')

/-! ## CQ_CMDq (R296, R412) -/

/-- The erring command counts as completed, without effect and without signals. -/
def Mach.queueSkip (m : Mach) (q : Nat) : Mach :=
  let m := (m.onCmdq q fun x => { x with error := false }).countDone q (m.reg (Reg.CQ_ERRPOS q))
  (m.drainCheck q).checkHead q

/-- The start stage takes the command at CQ_ERRPOSq again. -/
def Mach.queueResume (m : Mach) (q : Nat) : Mach :=
  (m.onCmdq q fun x => { x with error := false, retake := true }).checkHead q

/-- HEAD and DONE are set to TAIL, and every unstarted command is discarded. -/
def Mach.queueReset (m : Mach) (q : Nat) : Mach :=
  let t := m.reg (Reg.CQ_TAIL q)
  ((m.setReg (Reg.CQ_HEAD q) t).setReg (Reg.CQ_DONE q) t).onCmdq q fun x => { x with
    error := false, retake := false, redo := none, redoDone := [], ahead := [], units := [], stepWaited := false }

/-- A step credit; without debug access a step has no effect. -/
def Mach.queueStep (m : Mach) (q : Nat) : Mach :=
  if m.debugAccess then m.onCmdq q fun x => { x with credit := true } else m

/-- A write of CQ_CMDq: bit 0 step, 1 resume, 2 skip, 3 reset, at most one of the last three. -/
def Mach.cqCmd (m : Mach) (q : Nat) (v : Word) : Effect :=
  let n := (v.bit 1).toNat + (v.bit 2).toNat + (v.bit 3).toNat
  if 1 < n || ((v.bit 1 || v.bit 2) && !(m.cmdq q).error) || (v.bit 3 && (m.qEnabled q || (m.cmdq q).draining)) then m.bad
  else
    let m := if v.bit 0 then m.queueStep q else m
    let m := if v.bit 1 then m.queueResume q else m
    let m := if v.bit 2 then m.queueSkip q else m
    (false, if v.bit 3 then m.queueReset q else m)

/-! ## Writes of the CQ block (R314) -/

/-- What the CQ block makes of a write. -/
def Mach.cqWrite (m : Mach) (a : Nat) (v : Word) : Effect :=
  let o := a - 0x80000
  let q := o / 0x100
  if a = Reg.CQ_CSIG_RAISE then (false, m.addCsig (v.field 0 8) 1)
  else if 0x10000 ≤ o then (false, m.storeReg a v)
  else match o % 0x100 with
    | 0x00 => m.cqCtrl q v
    | 0x04 => m.cqCfg q v
    | 0x08 => m.cqBase q a v
    | 0x0C => m.cqBase q a v
    | 0x10 => m.cqTail q v
    | 0x2C => m.cqCmd q v
    | _ => (false, m.storeReg a v)

/-- A write that has reached the CQ block. -/
def Mach.cqArrive (m : Mach) (a : Nat) (v : Word) : Mach := m.arriveWith a v (m.cqWrite a v)

def execHostDoorbell (q : Fin 256) (tail : Word) (s : State) : Host.Outcome State Fault Refusal :=
  act s fun m => m.cqArrive (Reg.CQ_TAIL q) tail
def execQueueEnable (q : Fin 256) (s : State) : Host.Outcome State Fault Refusal :=
  act s fun m => m.enableWrite (Reg.CQ_CTRL q) true Mach.cqWrite
def execQueueDisable (q : Fin 256) (s : State) : Host.Outcome State Fault Refusal :=
  act s fun m => m.enableWrite (Reg.CQ_CTRL q) false Mach.cqWrite
def execQueueReset (q : Fin 256) (s : State) : Host.Outcome State Fault Refusal :=
  act s fun m => m.cqArrive (Reg.CQ_CMD q) 0x8
def execQueueSkip (q : Fin 256) (s : State) : Host.Outcome State Fault Refusal :=
  act s fun m => m.cqArrive (Reg.CQ_CMD q) 0x4
def execQueueResume (q : Fin 256) (s : State) : Host.Outcome State Fault Refusal :=
  act s fun m => m.cqArrive (Reg.CQ_CMD q) 0x2
def execQueueStep (q : Fin 256) (s : State) : Host.Outcome State Fault Refusal :=
  act s fun m => m.cqArrive (Reg.CQ_CMD q) 0x1
def execCsigRaise (v : Word) (s : State) : Host.Outcome State Fault Refusal :=
  act s fun m => m.cqArrive Reg.CQ_CSIG_RAISE v

end Sys2Proof.Machine
end

