-- ==== Sys2Proof/Machine/Net.lean ====
section
/-! DEFINITION. The Ethernet links and the NET block (R75, R282): PAUSE frames, link changes, answered requests, address
resolution and multicast membership. -/

namespace Sys2Proof.Machine

/-- A received PAUSE frame holds transmission of its MAC for its quanta, where SNS_MAC_CFG.pause_rx is 1 (Table 3-3). -/
def Mach.pauseRx (m : Mach) (p quanta : Nat) : Mach :=
  if m.macUp p && m.rbit (Reg.SNS_MAC_CFG p) 28 then
    m.onEgr fun e => { e with pause := sput (fun _ => 0) p quanta e.pause }
  else m

def execPauseRx (m : Fin 4) (quanta : BitVec 16) (s : State) : Host.Outcome State Fault Refusal :=
  act s fun x => x.pauseRx m quanta.toNat

/-- The PHY signals that a MAC's link goes up at a rate, or down (Table 3-3). -/
def Mach.macLink (m : Mach) (p : Nat) (up : Bool) (rate : Nat) : Mach :=
  (m.onPorts fun x => { x with macSignal := sput (fun _ => none) p (if up then some rate else none) x.macSignal }).macJudge p

/-- A write of the NET block: a change of the groups of a MAC is reported. -/
def Mach.netWrite (m : Mach) (a : Nat) (v : Word) : Effect :=
  let o := a - 0x2C0000
  let m' := m.storeReg a v
  (false, if o < 0x1000 ∧ 0x30 ≤ o % 0x400 ∧ m'.reg a ≠ m.reg a then m'.reportGroups (o / 0x400) else m')

def execMacLinkChange (m : Fin 4) (up : Bool) (rate : BitVec 2) (s : State) : Host.Outcome State Fault Refusal :=
  act s fun x => x.macLink m up rate.toNat

/-- The address a request asks for, and whether it is one of IPv6. -/
def reqTarget : NetRequest → List Byte
  | .arp t => t
  | .neighbourSolicitation t => t
  | .echo t => t

def reqSix (r : NetRequest) : Bool :=
  match r with
  | .arp _ => false
  | .neighbourSolicitation _ => true
  | .echo t => t.length == 16

/-- A request is answered when respond is 1, its protocol is enabled and it asks for the module's address. -/
def Mach.netRequest (m : Mach) (p : Nat) (r : NetRequest) : Mach :=
  let cfg := m.reg (Reg.NET_CFG p)
  if m.macUp p && cfg.bit 29 && cfg.bit (if reqSix r then 30 else 31) && reqTarget r == m.ownIp p (reqSix r) then
    m.transmit p (.reply r)
  else m

def execNetRequestRx (m : Fin 4) (r : NetRequest) (s : State) : Host.Outcome State Fault Refusal :=
  act s fun x => x.netRequest m r

/-- The neighbour table of a MAC after an address resolution: the answer recorded among at most 16 entries, or the
entry gone when there was none. -/
def refreshed (l : List (List Byte × BitVec 48 × BitVec 64)) (ip : List Byte) (answer : Option (BitVec 48)) (at_ : BitVec 64) :
    List (List Byte × BitVec 48 × BitVec 64) :=
  let rest := l.filter fun n => n.1 != ip
  match answer with
  | some a => if rest.length < 16 then rest ++ [(ip, a, at_)] else rest
  | none => rest

/-- A unicast address that some enabled destination on a MAC names. -/
def Mach.resolves (m : Mach) (p : Nat) (ip : List Byte) : Bool :=
  (((List.range 8).filterMap m.dest) ++ m.shDestOn.toList).any fun d => d.mac == p && d.ip == ip && !d.multi

/-- The address is due for resolution: it is not resolved, or was 60 s ago or more. -/
def Mach.resolveDue (m : Mach) (p : Nat) (ip : List Byte) : Bool :=
  (m.nbrs p).all fun n => n.1 != ip || decide (60000000000 ≤ (m.time.count - n.2.2).toNat)

/-- Address resolution of a neighbour (R282): a request goes out, and its answer, if one comes, is recorded. -/
def Mach.refreshNeighbour (m : Mach) (p : Nat) (ip : List Byte) (answer : Option (BitVec 48)) : Mach :=
  if m.macUp p && m.resolves p ip && m.resolveDue p ip then
    let l := refreshed (m.nbrs p) ip answer m.time.count
    ((m.transmit p (.resolve ip)).onEgr fun e => { e with nbrs := sput (fun _ => []) p l e.nbrs }).setReg (Reg.NET_NBR p)
      (BitVec.ofNat 32 l.length)
  else m

def execNeighbourRefresh (m : Fin 4) (ip : List Byte) (answer : Option (BitVec 48)) (s : State) :
    Host.Outcome State Fault Refusal :=
  act s fun x => x.refreshNeighbour m ip answer

end Sys2Proof.Machine
end

