-- ==== Sys2Proof/Machine/Layout.lean ====
section
/-! DEFINITION. Tensor layouts (R217 to R232): element formats, tiles, bit planes, descriptors, the intake's
reading of a logical tile, and the Cascade. -/

namespace Sys2Proof.Machine

/-! ## Formats (R217, Table 9-1) -/

/-- Width of a stored element in bits. -/
def elemBits (fmt bits : Nat) : Nat :=
  match fmt with
  | 4 => 16
  | 5 => 16
  | 6 => 32
  | 7 => 32
  | 8 => 16
  | 9 => bits
  | 10 => bits
  | _ => 8

def elemBytes (fmt bits : Nat) : Nat := elemBits fmt bits / 8

/-- The floating-point format of a stored format code, if it is one. -/
def fmtFloat : Nat → Option FFmt
  | 2 => some e4m3
  | 3 => some e5m2
  | 4 => some fp16
  | 5 => some bf16
  | 7 => some fp32
  | _ => none

/-- The conversions of Table 9-3. -/
def convertible (fmt cvt : Nat) : Bool :=
  fmt == cvt || match fmt with
    | 7 => [4, 5, 2, 3].contains cvt
    | 4 => [5, 2, 3].contains cvt
    | 5 => [4, 2, 3].contains cvt
    | _ => false

/-- An element's bits converted from a stored to a delivered format (R226). -/
def convertBits (fmt cvt v : Nat) : Nat :=
  match fmtFloat fmt, fmtFloat cvt with
  | some f, some g => if fmt = cvt then v else FVal.convert g (FVal.ofBits f v)
  | _, _ => v

/-! ## Descriptors (Table 9-5) -/

/-- A tensor descriptor. -/
structure TDesc where
  base : Nat
  space : Nat
  fmt : Nat
  bits : Nat
  flags : Nat
  rows : Nat
  cols : Nat
  tr0 : Nat
  tc0 : Nat
  pad : Nat
  cvt : Nat
  pitch : Nat
  count1 : Nat
  count2 : Nat
  count3 : Nat
  stride1 : Nat
  stride2 : Nat
  stride3 : Nat
  stages : List Nat
  /-- the reserved fields are 0 -/
  clean : Bool
deriving DecidableEq, Repr

def readDesc (l : List Byte) : TDesc :=
  { base := u32 l 0, space := u8 l 4 % 4, fmt := u8 l 5, bits := u8 l 6, flags := u8 l 7, rows := u32 l 8, cols := u32 l 12,
    tr0 := u16 l 0x10, tc0 := u16 l 0x12, pad := u32 l 0x14, cvt := u8 l 0x18, pitch := u16 l 0x1A, count1 := u16 l 0x1C,
    count2 := u16 l 0x1E, count3 := u16 l 0x2C, stride1 := u32 l 0x20, stride2 := u32 l 0x24, stride3 := u32 l 0x28,
    stages := (List.range 10).map fun i => u8 l (0x30 + i),
    clean := u8 l 4 < 4 && u8 l 7 < 8 && u8 l 0x19 == 0 && u16 l 0x2E == 0 && (firstNonZero l (span 0x3A 0x40)).isNone }

def TDesc.planar (d : TDesc) : Bool := d.flags.testBit 0
def TDesc.transpose (d : TDesc) : Bool := d.flags.testBit 1
def TDesc.rowMajor (d : TDesc) : Bool := d.flags.testBit 2
/-- The delivered format (R226). -/
def TDesc.delivered (d : TDesc) : Nat := if d.cvt = 0xFF then d.fmt else d.cvt

/-- Tile rows and columns of the stored matrix (R219). -/
def TDesc.storedRows (d : TDesc) : Nat := (d.rows + 31) / 32
def TDesc.storedCols (d : TDesc) : Nat := (d.cols + 31) / 32
/-- The same after the exchange of R222. -/
def TDesc.ntr (d : TDesc) : Nat := if d.transpose then d.storedCols else d.storedRows
def TDesc.ntc (d : TDesc) : Nat := if d.transpose then d.storedRows else d.storedCols

/-- Bytes of a stored tile (R218, R221). -/
def TDesc.tileBytes (d : TDesc) : Nat := if d.planar then 128 * d.bits else 1024 * elemBytes d.fmt d.bits

/-- Index of stored tile (tr, tc) (R219). -/
def tileIndex (ntr ntc tr tc : Nat) : Nat :=
  let br := tr / 8
  let bc := tc / 8
  let bh := min 8 (ntr - 8 * br)
  let bw := min 8 (ntc - 8 * bc)
  8 * br * ntc + 8 * bh * bc + tr % 8 * bw + tc % 8

/-- Bytes of one stored matrix (R219, R220). -/
def TDesc.footprint (d : TDesc) : Nat :=
  if d.rowMajor then (d.rows - 1) * d.pitch + d.cols * elemBytes d.fmt d.bits
  else d.storedRows * d.storedCols * d.tileBytes

/-- Where the last matrix starts; its extent runs from there over the footprint (R222). -/
def TDesc.lastBase (d : TDesc) : Nat :=
  d.base + (d.count1 - 1) * d.stride1 + (d.count2 - 1) * d.stride2 + (d.count3 - 1) * d.stride3

/-- Logical tile (t, u): the matrix's base, its index among the matrices, and the tile in the exchanged matrix (R222). -/
structure TileAt where
  base : Nat
  index : Nat
  tr : Nat
  tc : Nat
deriving DecidableEq, Repr

def TDesc.tile (d : TDesc) (t u : Nat) : TileAt :=
  let h := d.ntr - d.tr0
  let q := t / h
  let i1 := q % d.count1
  let i2 := q / d.count1 % d.count2
  let i3 := q / (d.count1 * d.count2)
  { base := d.base + i1 * d.stride1 + i2 * d.stride2 + i3 * d.stride3, index := q, tr := d.tr0 + t % h, tc := d.tc0 + u }

/-- Logical tiles up to row t and column u (each exclusive) are mapped (R222). -/
def TDesc.mapsAll (d : TDesc) (t u : Nat) : Bool :=
  decide (d.tr0 < d.ntr) && decide ((t - 1) / (d.ntr - d.tr0) / (d.count1 * d.count2) < d.count3) &&
    decide (d.tc0 + (u - 1) < d.ntc)

/-! ## The Cascade (R227) -/

/-- Bits p and q of a position exchanged, or bit p complemented. -/
def stageMove (stage a : Nat) : Nat :=
  let p := stage % 16
  let q := stage / 16
  if stage = 0xFF then a
  else if p = q then (if a.testBit p then a - 2 ^ p else a + 2 ^ p)
  else if a.testBit p = a.testBit q then a
  else if a.testBit p then a - 2 ^ p + 2 ^ q
  else a - 2 ^ q + 2 ^ p

def stageOk (stage : Nat) : Bool := stage == 0xFF || (decide (stage % 16 ≤ 9) && decide (stage / 16 ≤ 9))

/-- Where the programme carries position a. -/
def cascade (stages : List Nat) (a : Nat) : Nat := stages.foldl (fun a s => stageMove s a) a

/-- The position from which the programme brings what lands at a: each stage undoes itself. -/
def cascadeFrom (stages : List Nat) (a : Nat) : Nat := stages.reverse.foldl (fun a s => stageMove s a) a

/-! ## Elements in memory -/

/-- The bits of stored element (r, c) of the matrix at a flat address (R218 to R221). -/
def Mach.storedElem (m : Mach) (d : TDesc) (a r c : Nat) : Nat :=
  let e := elemBytes d.fmt d.bits
  if d.rowMajor then m.le (a + r * d.pitch + c * e) e
  else
    let t := a + tileIndex d.storedRows d.storedCols (r / 32) (c / 32) * d.tileBytes
    let p := 32 * (r % 32) + c % 32
    if d.planar then
      ((List.range d.bits).map fun b => ((m.byte (t + 128 * b + p / 8)).toNat.testBit (p % 8)).toNat * 2 ^ b).sum
    else m.le (t + p * e) e

/-- The delivered bits at (r, c) of logical tile (t, u) of core c's operand: padding, conversion, Cascade (R224). -/
def Mach.operand (m : Mach) (core : Nat) (d : TDesc) (t u r c : Nat) : Nat :=
  let x := d.tile t u
  let a := cascadeFrom d.stages (32 * r + c)
  let (sr, sc) := if d.transpose then (x.tc, x.tr) else (x.tr, x.tc)
  let row := 32 * sr + a / 32
  let col := 32 * sc + a % 32
  let v :=
    if row < d.rows && col < d.cols then m.storedElem d (spaceBase core (2 - d.space) + x.base) row col
    else d.pad % 2 ^ elemBits d.fmt d.bits
  convertBits d.fmt d.delivered v

/-! ## The checks of R231 -/

/-- The space of a descriptor or auxiliary operand as R301 numbers spaces: local store 2, cluster memory 1. -/
def auxSpace (s : Nat) : Nat := 2 - s

/-- Form of a stored format. -/
def TDesc.formOk (d : TDesc) : Bool :=
  let packed := d.fmt == 9 || d.fmt == 10
  (if packed then decide (1 ≤ d.bits) && decide (d.bits ≤ 8) && (d.planar || d.bits == 8) else d.bits == 0 && !d.planar)

def TDesc.pitchOk (d : TDesc) : Bool :=
  if d.rowMajor then
    d.pitch % 4 == 0 && decide (4 ≤ d.pitch) && decide (d.cols * elemBytes d.fmt d.bits ≤ d.pitch)
  else d.pitch == 0

/-- The errors of a descriptor itself, reported at the offset of the field that names it. -/
def Mach.descErrs (m : Mach) (off : Nat) (d : TDesc) : List (Option CmdErr) :=
  [ errIf (!d.clean) off 0x01,
    errIf (1 < d.space || 10 < d.fmt || (10 < d.cvt && d.cvt != 0xFF) || !d.formOk) off 0x02,
    errIf ((d.planar || d.transpose) && d.rowMajor || !d.pitchOk) off 0x02,
    errIf (!convertible d.fmt d.delivered) off 0x02,
    errIf (d.rows == 0 || 1048576 < d.rows || d.cols == 0 || 1048576 < d.cols) off 0x02,
    errIf (d.ntr ≤ d.tr0 || d.ntc ≤ d.tc0) off 0x02,
    errIf (d.count1 == 0 || d.count2 == 0 || d.count3 == 0) off 0x02,
    errIf (d.stride1 % 32 != 0 || d.stride2 % 32 != 0 || d.stride3 % 32 != 0) off 0x02,
    errIf (!d.stages.all stageOk) off 0x02,
    errIf (d.base % (if d.rowMajor then 4 else 128) != 0) off 0x03,
    errIf (!m.extentOk (auxSpace d.space) d.lastBase d.footprint 1) off 0x03 ]

/-- What R230 asks of an output descriptor for an output format. -/
def TDesc.outOk (d : TDesc) (ofmt : Nat) : Bool :=
  !d.planar && !d.transpose && d.cvt == 0xFF && d.stages.all (· == 0xFF) && d.fmt == [0, 1, 8, 6, 2, 3, 4, 5, 7].getD ofmt 0xFF

end Sys2Proof.Machine
end

