-- ==== Sys2Proof/Machine/Tensor.lean ====
section
/-! DEFINITION. The tensor engine (R185 to R216): operand paths, steps, accumulator slots, the checksum row, the
outflow stage and the TENSOR commands. -/

namespace Sys2Proof.Machine

/-! ## Slots -/

def Mach.slot (m : Mach) (c n : Nat) : Slot := sget (fun _ => {}) m.slots (16 * c + n)
def Mach.setSlot (m : Mach) (c n : Nat) (x : Slot) : Mach := { m with slots := sput (fun _ => {}) (16 * c + n) x m.slots }

/-- Word a of a slot, unit (a ÷ 32, a mod 32). -/
def Mach.slotWord (m : Mach) (c n a : Nat) : Word := m.word (slotBase c n + 4 * a)

/-- Every word of a slot replaced. -/
def Mach.mapSlot (m : Mach) (c n : Nat) (f : Nat → Word → Word) : Mach :=
  m.setBytes (slotBase c n) ((List.range 1024).flatMap fun a => wordBytes (f a (m.slotWord c n a)))

/-- A slot cleared for a queue. -/
def Mach.clearSlot (m : Mach) (c n q : Nat) : Mach :=
  (m.mapSlot c n fun _ _ => 0).setSlot c n { owner := some q }

/-! ## Paths (R188 to R190) -/

/-- The operand paths of Table 8-1. -/
inductive TPath where
  | int
  | fp8
  | fp16
  | bf16
deriving DecidableEq, Repr

def tensorPath (afmt wfmt : Nat) : Option TPath :=
  if afmt ≤ 1 ∧ wfmt ≤ 1 then some .int
  else if (afmt = 2 ∨ afmt = 3) ∧ (wfmt = 2 ∨ wfmt = 3) then some .fp8
  else if afmt = 4 ∧ wfmt = 4 then some .fp16
  else if afmt = 5 ∧ wfmt = 5 then some .bf16
  else none

/-- Depth of a step (R189, R190). -/
def stepDepth (p : TPath) (wbits : Nat) : Nat :=
  match p with
  | .int => if wbits ≤ 2 then 128 else if wbits ≤ 4 then 64 else 32
  | _ => 32

/-- Clocks of a step (R190). -/
def stepClocks : TPath → Nat
  | .int => 1
  | .fp8 => 2
  | _ => 4

/-- Products of one clock of a floating-point step. -/
def clockDepth : TPath → Nat
  | .fp8 => 16
  | _ => 8

/-- Index of the path's MAC counter (Table 16-3). -/
def macCounter (p : TPath) (wbits : Nat) : Nat :=
  match p with
  | .int => if wbits ≤ 2 then 2 else if wbits ≤ 4 then 1 else 0
  | .fp8 => 3
  | .fp16 => 4
  | .bf16 => 5

/-! ## The TENSOR command -/

/-- A TENSOR command, its descriptors read once (R229). -/
structure TCmd where
  core : Nat
  q : Nat
  b : List Byte
  act : TDesc
  wgt : TDesc
  out : TDesc
  golden : Bool
deriving DecidableEq, Repr

namespace TCmd

def op (t : TCmd) : Nat := cmdOp t.b
def afmt (t : TCmd) : Nat := u8 t.b 0x11
def wfmt (t : TCmd) : Nat := u8 t.b 0x12
def wbits (t : TCmd) : Nat := u8 t.b 0x13
def ofmt (t : TCmd) : Nat := u8 t.b 0x14
def s0 (t : TCmd) : Nat := if t.golden then 8 else u8 t.b 0x15 % 8
def g (t : TCmd) : Nat := if t.golden then 1 else u8 t.b 0x15 / 8 % 8 + 1
def cont (t : TCmd) : Bool := (u8 t.b 0x15).testBit 6
def drain (t : TCmd) : Bool := (u8 t.b 0x15).testBit 7
def useCol (t : TCmd) : Bool := (u8 t.b 0x16).testBit 0
def useTable (t : TCmd) : Bool := (u8 t.b 0x16).testBit 1
def aux (t : TCmd) : Nat := u8 t.b 0x17
def mT (t : TCmd) : Nat := u16 t.b 0x18
def nT (t : TCmd) : Nat := u16 t.b 0x1A
def kS (t : TCmd) : Nat := u16 t.b 0x1C
def path (t : TCmd) : TPath := (tensorPath t.afmt t.wfmt).getD .int
def isFp (t : TCmd) : Bool := if t.op = 3 then t.afmt == 7 else t.path != .int
def depth (t : TCmd) : Nat := stepDepth t.path t.wbits
def thin (t : TCmd) : Bool := t.op == 2
/-- Bytes of one checksum record (R205). -/
def recSize (t : TCmd) : Nat := if t.isFp then 256 else 4 * t.depth
/-- Flat base of the space of chk, colp and table. -/
def auxBase (t : TCmd) : Nat := spaceBase t.core (auxSpace t.aux)

end TCmd

def Mach.readTCmd (m : Mach) (core q : Nat) (b : List Byte) : TCmd :=
  let d := fun off => readDesc (m.bytes (localBase core + u32 b off) 64)
  { core := core, q := q, b := b, act := d 0x20, wgt := d 0x24, out := d 0x28, golden := isGolden b }

/-! ## Values -/

/-- An integer element of a delivered operand. -/
def intValue (isSigned : Bool) (w v : Nat) : Int := if isSigned then signed w v else v

/-- Activation (row, depth) and weight (depth, column) of an integer step; rows and columns count over the operand. -/
def Mach.actInt (m : Mach) (t : TCmd) (row d : Nat) : Int :=
  intValue (t.afmt == 0) 8 (m.operand t.core t.act (row / 32) (d / 32) (row % 32) (d % 32))
def Mach.wgtInt (m : Mach) (t : TCmd) (d col : Nat) : Int :=
  intValue (t.wfmt == 0) t.wbits (m.operand t.core t.wgt (d / 32) (col / 32) (d % 32) (col % 32))

def fmtVal (fmt v : Nat) : FVal := FVal.ofBits ((fmtFloat fmt).getD fp32) v

def Mach.actFp (m : Mach) (t : TCmd) (row d : Nat) : FVal :=
  fmtVal t.afmt (m.operand t.core t.act (row / 32) (d / 32) (row % 32) (d % 32))
def Mach.wgtFp (m : Mach) (t : TCmd) (d col : Nat) : FVal :=
  fmtVal t.wfmt (m.operand t.core t.wgt (d / 32) (col / 32) (d % 32) (col % 32))

/-- A sum of FP32 roundings from the left (log entry 23). -/
def sumRounded : List FVal → Word
  | [] => 0
  | v :: vs => vs.foldl (fun s x => toF32 (FVal.add (f32 s) x)) (toF32 v)

/-- Pairs of neighbours added, with a rounding each (R193). -/
def addPairs : List FVal → List FVal
  | a :: b :: l => FVal.round fp32 (FVal.add a b) :: addPairs l
  | l => l

/-- The sum of one clock's products: once rounded, or on BF16 in the fixed pairwise order (R193). -/
def clockSum (p : TPath) (products : List FVal) : Word :=
  match p with
  | .bf16 => toF32 ((addPairs (addPairs (addPairs products))).headD FVal.zero)
  | _ => toF32 (FVal.sum products)

/-! ## A step (R186, R187, R192, R193, R206) -/

/-- What a step adds: to word a of the slot, the clock sums in order; and its checksums and magnitudes, by row. -/
structure StepRes where
  adds : List (List Word)
  sums : List Word
  mags : List Word
  /-- rows whose check fails, and rows excluded from it -/
  bad : Nat
  skipped : Nat

/-- The comparison of R206: `none` for an excluded row. -/
def rowPasses (fp : Bool) (s c g : Word) : Option Bool :=
  if fp then
    if (f32 s).isFinite && (f32 c).isFinite then some (fle (fsub s c &&& 0x7FFFFFFF) (fmul 0x3A800000 g)) else none
  else some (s == c)

/-- Rows checked together: the mask of failing rows and the number excluded. -/
def checkRows (fp : Bool) (l : List (Word × Word × Word)) : Nat × Nat :=
  let r := l.map fun x => rowPasses fp x.1 x.2.1 x.2.2
  ((r.zipIdx.map fun x => if x.1 = some false then 2 ^ x.2 else 0).sum, (r.filter Option.isNone).length)

/-- An integer step: activation rows `row` on, depth from d0, weight columns `col` on for each unit; `unit` gives the
activation row and weight column of unit a, `rows` the units of checked row i. -/
def Mach.intStep (m : Mach) (t : TCmd) (d0 chk : Nat) (unit : Nat → Nat × Nat) (rows : List (List Nat)) : StepRes :=
  let ds := List.range t.depth
  let outs := (List.range 1024).map fun a =>
    (ds.map fun d => m.actInt t (unit a).1 (d0 + d) * m.wgtInt t (d0 + d) (unit a).2).sum
  let cs := rows.map fun us =>
    BitVec.ofInt 32 (ds.map fun d => m.actInt t (unit (us.headD 0)).1 (d0 + d) * (m.word (chk + 4 * d)).toInt).sum
  let ss := rows.map fun us => BitVec.ofInt 32 (us.map fun a => outs.getD a 0).sum
  let r := checkRows false ((ss.zip cs).map fun x => (x.1, x.2, 0))
  { adds := outs.map fun x => [BitVec.ofInt 32 x], sums := cs, mags := cs.map fun _ => 0, bad := r.1, skipped := r.2 }

/-- A floating-point step, full mode. -/
def Mach.fpStep (m : Mach) (t : TCmd) (d0 chk : Nat) (unit : Nat → Nat × Nat) (rows : List (List Nat)) : StepRes :=
  let n := clockDepth t.path
  let outs := (List.range 1024).map fun a =>
    (List.range (32 / n)).map fun i => clockSum t.path
      ((List.range n).map fun d => FVal.mul (m.actFp t (unit a).1 (d0 + n * i + d)) (m.wgtFp t (d0 + n * i + d) (unit a).2))
  let dot := fun (f : FVal → FVal) (off : Nat) (us : List Nat) =>
    toF32 (FVal.sum ((List.range 32).map fun d =>
      FVal.mul (f (m.actFp t (unit (us.headD 0)).1 (d0 + d))) (f32 (m.word (chk + off + 4 * d)))))
  let cs := rows.map (dot id 0)
  let gs := rows.map (dot FVal.abs 128)
  let ss := rows.map fun us => sumRounded ((us.flatMap fun a => outs.getD a []).map f32)
  let r := checkRows true (ss.zip (cs.zip gs))
  { adds := outs, sums := cs, mags := gs, bad := r.1, skipped := r.2 }

/-- The state of a running command: the module, the rows of a failed check, what it has written, its step clocks. -/
structure TRun where
  m : Mach
  bad : Nat := 0
  outs : List ((Nat × Nat × Nat) × Nat) := []
  clocks : Nat := 0

def TRun.on (r : TRun) (f : Mach → Mach) : TRun := { r with m := f r.m }

/-- The rows of a slot that are checked together: in full mode the 32 rows, in thin mode the whole slot. -/
def checkedRows (thin : Bool) : List (List Nat) :=
  if thin then [List.range 1024] else (List.range 32).map fun i => (List.range 32).map fun j => 32 * i + j

/-- Does a row of a slot hold a NaN or an infinity. -/
def Mach.rowFinite (m : Mach) (c n : Nat) (us : List Nat) : Bool := us.all fun a => (f32 (m.slotWord c n a)).isFinite

/-- The slot check (R207): the mask of failing rows and the number excluded. -/
def Mach.slotCheck (m : Mach) (t : TCmd) (n : Nat) : Nat × Nat :=
  let x := m.slot t.core n
  let rows := checkedRows t.thin
  if t.isFp then
    let l := rows.zipIdx.map fun u =>
      if m.rowFinite t.core n u.1 then
        rowPasses true (sumRounded (u.1.map fun a => f32 (m.slotWord t.core n a))) (x.sums.getD u.2 0) (x.mags.getD u.2 0)
      else none
    ((l.zipIdx.map fun p => if p.1 = some false then 2 ^ p.2 else 0).sum, (l.filter Option.isNone).length)
  else
    checkRows false (rows.zipIdx.map fun u =>
      (BitVec.ofNat 32 (u.1.map fun a => (m.slotWord t.core n a).toNat).sum, x.sums.getD u.2 0, 0))

def TRun.check (r : TRun) (t : TCmd) (n : Nat) : TRun :=
  let x := r.m.slotCheck t n
  { r with m := r.m.bump (64 + t.core) x.2, bad := x.1 }

def addWord (fp : Bool) (a b : Word) : Word := if fp then fadd a b else a + b

/-- A step's results taken into slot n, and the slot check every 128 steps. -/
def TRun.accept (r : TRun) (t : TCmd) (n : Nat) (s : StepRes) : TRun :=
  let m := r.m.bump (64 + t.core) s.skipped
  if s.bad = 0 then
    let x := m.slot t.core n
    let m := m.mapSlot t.core n fun a w => (s.adds.getD a []).foldl (addWord t.isFp) w
    let m := m.setSlot t.core n { x with
      steps := x.steps + 1
      sums := x.sums.zipIdx.map fun p => addWord t.isFp p.1 (s.sums.getD p.2 0)
      mags := x.mags.zipIdx.map fun p => addWord t.isFp p.1 (s.mags.getD p.2 0) }
    let r := { r with m := m, clocks := r.clocks + stepClocks t.path }
    if (x.steps + 1) % 128 = 0 then r.check t n else r
  else { r with m := m, bad := s.bad, clocks := r.clocks + stepClocks t.path }

/-- Step (m, k, n) of a MATMUL into a slot (Table 9-2). -/
def TRun.step (r : TRun) (t : TCmd) (slot mt k nt : Nat) : TRun :=
  if r.bad ≠ 0 then r
  else
    let chk := t.auxBase + u32 t.b 0x2C + (nt * t.kS + k) * t.recSize
    let unit := fun a => (32 * mt + a / 32, 32 * nt + a % 32)
    let f := if t.isFp then r.m.fpStep else r.m.intStep
    r.accept t slot (f t (k * t.depth) chk unit (checkedRows false))

/-! ## Weight latches (R185, R187) -/

def Mach.latchesOf (m : Mach) (c : Nat) : Latches := sget (fun _ => {}) m.latches c
def Mach.setLatches (m : Mach) (c : Nat) (x : Latches) : Mach := { m with latches := sput (fun _ => {}) c x m.latches }

/-- The weight set in the active latch. -/
def Latches.active (x : Latches) : Latch := if x.second then x.two else x.one

/-- A weight set into the inactive latch. -/
def Latches.load (x : Latches) (w : Latch) : Latches := if x.second then { x with one := w } else { x with two := w }

/-- The latches swap. -/
def Latches.swap (x : Latches) : Latches := { x with second := !x.second }

/-- Weight set k of a THIN: the weight vector of each unit. -/
def Mach.weightSet (m : Mach) (t : TCmd) (k : Nat) : Latch :=
  (List.range 1024).map fun u => (List.range t.depth).map fun d => m.wgtInt t (k * t.depth + d) u

/-- Set k loads into the inactive latch, and the latches swap once the vectors of the set before have issued. -/
def TRun.loadSet (r : TRun) (t : TCmd) (k : Nat) : TRun :=
  if r.bad ≠ 0 then r else r.on fun m => m.setLatches t.core ((m.latchesOf t.core).load (m.weightSet t k)).swap

/-- Vector v of set k of a THIN: every unit's weights in the active latch against one broadcast vector, checked as one row (R206). -/
def Mach.thinInt (m : Mach) (t : TCmd) (v k chk : Nat) : StepRes :=
  let a := (List.range t.depth).map fun d => m.actInt t v (k * t.depth + d)
  let dot := fun (w : List Int) => (List.zipWith (· * ·) a w).sum
  let outs := (m.latchesOf t.core).active.map dot
  let c := BitVec.ofInt 32 (dot ((List.range t.depth).map fun d => (m.word (chk + 4 * d)).toInt))
  let r := checkRows false [(BitVec.ofInt 32 outs.sum, c, 0)]
  { adds := outs.map fun x => [BitVec.ofInt 32 x], sums := [c], mags := [0], bad := r.1, skipped := r.2 }

/-- Vector v of set k of a THIN into a slot (Table 9-2). -/
def TRun.thinStep (r : TRun) (t : TCmd) (slot v k : Nat) : TRun :=
  if r.bad ≠ 0 then r
  else r.accept t slot (r.m.thinInt t v k (t.auxBase + u32 t.b 0x2C + k * t.recSize))

/-! ## The outflow stage (R200 to R203) -/

/-- The limits of an integer output format. -/
def outLimits : Nat → Int × Int
  | 0 => (-128, 127)
  | 1 => (0, 255)
  | _ => (-32768, 32767)

/-- Requantisation (R200). -/
def requant (acc bias : Int) (mult shift : Nat) (zp lo hi : Int) : Int :=
  let p := (acc + bias) * mult
  let y := if shift = 0 then p else (p + 2 ^ (shift - 1)) / 2 ^ shift
  max lo (min hi (y + zp))

/-- The format of a floating-point output code. -/
def outFloat : Nat → FFmt
  | 4 => e4m3
  | 5 => e5m2
  | 6 => fp16
  | 7 => bf16
  | _ => fp32

/-- One element through an integer output (R200, R201): its bits. -/
def Mach.outInt (m : Mach) (t : TCmd) (acc : Word) (col : Nat) : Nat :=
  let a := t.auxBase + u32 t.b 0x30 + 8 * col
  let rec' := if t.useCol then m.bytes a 8 else [0, 0, 0, 0, 1, 0, 0, 0]
  let lim := outLimits t.ofmt
  let y := requant acc.toInt (s32 rec' 0) (u16 rec' 4) (u8 rec' 6) (s8 rec' 7) lim.1 lim.2
  if t.useTable then (m.byte (t.auxBase + u32 t.b 0x34 + 4 * (if t.ofmt = 0 then y + 128 else y).toNat)).toNat
  else (y % 2 ^ elemBits t.out.fmt 0).toNat

/-- The activation function of R202 on an FP32 element. -/
def Mach.activate (m : Mach) (t : TCmd) (x : Word) : Word :=
  if (f32 x).isNan then 0x7FC00000
  else
    let i := FVal.toBits fp16 (f32 x) / 256 % 256
    let e := m.word (t.auxBase + u32 t.b 0x34 + 4 * i)
    toF32 (FVal.add (FVal.mul (FVal.ofBits fp16 (e.field 16 16)) (f32 x)) (FVal.ofBits fp16 (e.field 0 16)))

/-- One element through a floating-point output (R202, R203): its bits. -/
def Mach.outFp (m : Mach) (t : TCmd) (acc : Word) (col : Nat) : Nat :=
  let a := t.auxBase + u32 t.b 0x30 + 8 * col
  let v := if t.isFp then acc else fofInt acc.toInt
  let bias := if t.useCol then m.word a else f0
  let scale := if t.useCol then m.word (a + 4) else f1
  let x := fmul (fadd v bias) scale
  let y := if t.useTable then m.activate t x else x
  if t.ofmt = 8 then y.toNat else FVal.convert (outFloat t.ofmt) (f32 y)

/-- One element through the outflow stage. -/
def Mach.outElem (m : Mach) (t : TCmd) (acc : Word) (col : Nat) : Nat :=
  if 4 ≤ t.ofmt then m.outFp t acc col
  else if t.ofmt = 3 then acc.toNat
  else m.outInt t acc col

/-- One element written at row, column of the logical output (R230); what a watch point sees of it. -/
def TRun.put (r : TRun) (t : TCmd) (row col : Nat) (v : Nat) : TRun :=
  let d := t.out
  let e := elemBytes d.fmt 0
  let x := d.tile (row / 32) (col / 32)
  let a := spaceBase t.core (auxSpace d.space) + x.base
  let sr := 32 * x.tr + row % 32
  let sc := 32 * x.tc + col % 32
  let inside := sr < d.rows && sc < d.cols
  let r := if inside then { r with outs := r.outs ++ [((x.index, sr, sc), v)] } else r
  if d.rowMajor then (if inside then r.on fun m => m.setLe (a + sr * d.pitch + sc * e) e v else r)
  else
    let p := a + tileIndex d.storedRows d.storedCols x.tr x.tc * d.tileBytes + (32 * (row % 32) + col % 32) * e
    r.on fun m => m.setLe p e (if inside then v else 0)

/-- Tile (mt, nt) of the output, from a function that gives its accumulator words. -/
def TRun.outTile (r : TRun) (t : TCmd) (mt nt : Nat) (acc : Nat → Word) : TRun :=
  (List.range 1024).foldl (fun r a =>
    r.put t (32 * mt + a / 32) (32 * nt + a % 32) (r.m.outElem t (acc a) (32 * nt + a % 32))) r

/-- Row v of the output of a THIN. -/
def TRun.outRow (r : TRun) (t : TCmd) (v : Nat) (acc : Nat → Word) : TRun :=
  (List.range 1024).foldl (fun r u => r.put t v u (r.m.outElem t (acc u) u)) r

/-- A slot checked and drained (R207). -/
def TRun.drainSlot (r : TRun) (t : TCmd) (n : Nat) (write : TRun → (Nat → Word) → TRun) : TRun :=
  if r.bad ≠ 0 then r
  else
    let r := r.check t n
    if r.bad ≠ 0 then r else write r fun a => r.m.slotWord t.core n a

/-- The end of a slot's part in a command: drained, or checked and kept. -/
def TRun.finish (r : TRun) (t : TCmd) (n : Nat) (write : TRun → (Nat → Word) → TRun) : TRun :=
  if r.bad ≠ 0 then r
  else if t.drain then
    (r.drainSlot t n write).on fun m => m.setSlot t.core n { m.slot t.core n with kept := false }
  else (r.check t n).on fun m => m.setSlot t.core n { m.slot t.core n with kept := true }

/-- A slot made ready: cleared, or with its contents kept by cont (R196). -/
def TRun.ready (r : TRun) (t : TCmd) (n : Nat) : TRun :=
  if r.bad ≠ 0 then r
  else if t.cont then r.on fun m => m.setSlot t.core n { m.slot t.core n with owner := some t.q }
  else r.on fun m => m.clearSlot t.core n t.q

/-! ## The operations -/

/-- The row tiles of one group of MATMUL. -/
def groupTiles (t : TCmd) (m0 : Nat) : List Nat := (List.range (min t.g (t.mT - m0))).map fun i => m0 + i

/-- MATMUL, in the order of R195. -/
def TRun.matmul (r : TRun) (t : TCmd) : TRun :=
  (List.range t.nT).foldl (fun r n =>
    (List.range ((t.mT + t.g - 1) / t.g)).foldl (fun r gi =>
      let m0 := gi * t.g
      let ms := groupTiles t m0
      let r := ms.foldl (fun r mt => r.ready t (t.s0 + mt - m0)) r
      let r := (List.range t.kS).foldl (fun r k => ms.foldl (fun r mt => r.step t (t.s0 + mt - m0) mt k n) r) r
      ms.foldl (fun r mt => r.finish t (t.s0 + mt - m0) fun r acc => r.outTile t mt n acc) r) r) r

/-- THIN (R214). -/
def TRun.thinRun (r : TRun) (t : TCmd) : TRun :=
  let slot := fun v => t.s0 + v % t.g
  if t.kS = 1 then
    (List.range t.nT).foldl (fun r v =>
      ((r.ready t (slot v)).thinStep t (slot v) v 0).finish t (slot v) fun r acc => r.outRow t v acc) (r.loadSet t 0)
  else
    let vs := List.range t.nT
    let r := vs.foldl (fun r v => r.ready t (slot v)) r
    let r := (List.range t.kS).foldl (fun r k => vs.foldl (fun r v => r.thinStep t (slot v) v k) (r.loadSet t k)) r
    vs.foldl (fun r v => r.finish t (slot v) fun r acc => r.outRow t v acc) r

/-- OUTFLOW: tiles of INT32 or FP32 through the outflow stage. -/
def TRun.outflow (r : TRun) (t : TCmd) : TRun :=
  (List.range t.mT).foldl (fun r mt => (List.range t.nT).foldl (fun r nt =>
    let src := r.m
    r.outTile t mt nt fun a => BitVec.ofNat 32 (src.operand t.core t.act mt nt (a / 32) (a % 32))) r) r

/-- A TENSOR command run to its end or to its first failed check; a GOLDEN one leaves the weight latches as they were (R198). -/
def Mach.runTensor (m : Mach) (t : TCmd) : TRun :=
  let r : TRun := { m := m }
  match t.op with
  | 1 => r.matmul t
  | 2 => if t.golden then (r.thinRun t).on fun x => { x with latches := m.latches } else r.thinRun t
  | _ => r.outflow t

/-! ## Errors (R215, R231) -/

/-- Logical tiles reached by each descriptor (Table 9-2): rows and columns, exclusive. -/
def TCmd.actTiles (t : TCmd) : Nat × Nat :=
  match t.op with
  | 1 => (t.mT, t.kS * (t.depth / 32))
  | 2 => ((t.nT + 31) / 32, t.kS * (t.depth / 32))
  | _ => (t.mT, t.nT)
def TCmd.wgtTiles (t : TCmd) : Nat × Nat := (t.kS * (t.depth / 32), if t.thin then 32 else t.nT)
def TCmd.outTiles (t : TCmd) : Nat × Nat := if t.thin then ((t.nT + 31) / 32, 32) else (t.mT, t.nT)

/-- Bytes at chk, colp and table. -/
def TCmd.chkLen (t : TCmd) : Nat := if t.op = 3 then 0 else (if t.thin then t.kS else t.nT * t.kS) * t.recSize
def TCmd.colLen (t : TCmd) : Nat := if t.useCol then 8 * (if t.thin then 1024 else 32 * t.nT) else 0
def TCmd.tableLen (t : TCmd) : Nat := if t.useTable then 1024 else 0

/-- The output's extent overlaps another of the command's (R231). -/
def TCmd.outOverlaps (t : TCmd) : Bool :=
  let hit := fun (s a n : Nat) => s == t.out.space && overlaps t.out.lastBase t.out.footprint a n
  hit t.act.space t.act.lastBase t.act.footprint || (t.op != 3 && hit t.wgt.space t.wgt.lastBase t.wgt.footprint) ||
    hit t.aux (u32 t.b 0x2C) t.chkLen || hit t.aux (u32 t.b 0x30) t.colLen || hit t.aux (u32 t.b 0x34) t.tableLen

/-- The delivered formats match the command (R226). -/
def TCmd.actMatches (t : TCmd) : Bool := t.act.delivered == t.afmt
def TCmd.wgtMatches (t : TCmd) : Bool :=
  if t.wfmt ≤ 1 then (t.wgt.delivered == 9 || t.wgt.delivered == 10) && t.wgt.bits == t.wbits else t.wgt.delivered == t.wfmt

/-- The slots of the command (R195). -/
def TCmd.slotGroup (t : TCmd) : List Nat := (List.range t.g).map fun i => t.s0 + i

/-- Slots that the command steps: of its g, as many as it has row tiles, or vectors. -/
def TCmd.slots (t : TCmd) : List Nat := (List.range (min t.g (if t.thin then t.nT else t.mT))).map fun i => t.s0 + i

/-- The bytes of one row of output tile (row ÷ 32, nt) that the outflow stage writes, with the index of their matrix: of a row-major
matrix those inside it, of a tiled one the whole row of the tile (R219, R220, R230). -/
def TCmd.rowWritten (t : TCmd) (row nt : Nat) : Option (Nat × (Nat × Nat)) :=
  let d := t.out
  let e := elemBytes d.fmt 0
  let x := d.tile (row / 32) nt
  let a := spaceBase t.core (auxSpace d.space) + x.base
  let sr := 32 * x.tr + row % 32
  if d.rowMajor then
    if sr < d.rows ∧ 32 * x.tc < d.cols then some (x.index, (a + sr * d.pitch + 32 * x.tc * e, min 32 (d.cols - 32 * x.tc) * e)) else none
  else some (x.index, (a + tileIndex d.storedRows d.storedCols x.tr x.tc * d.tileBytes + 32 * (row % 32) * e, 32 * e))

/-- Every extent that the command writes, with the index of its output matrix: none where it drains nothing; of a THIN the rows of its
vectors alone. -/
def TCmd.written (t : TCmd) : List (Nat × (Nat × Nat)) :=
  if t.op ≠ 3 ∧ !t.drain then []
  else (List.range (if t.thin then t.nT else 32 * t.mT)).flatMap fun row => (List.range t.outTiles.2).filterMap fun nt => t.rowWritten row nt

/-- What the command writes of each output matrix (R222). -/
def TCmd.writtenMatrices (t : TCmd) : List (List (Nat × Nat)) :=
  let h := t.out.ntr - t.out.tr0
  (List.range ((t.outTiles.1 + h - 1) / h)).map fun q => (t.written.filter fun x => x.1 == q).map Prod.snd

/-- What two extents share. -/
def shared (x y : Nat × Nat) : Option (Nat × Nat) :=
  let lo := max x.1 y.1
  let hi := min (x.1 + x.2) (y.1 + y.2)
  if lo < hi then some (lo, hi - lo) else none

/-- The bytes that lie in two matrices of a list. -/
def sharedBytes : List (List (Nat × Nat)) → List (Nat × Nat)
  | [] => []
  | x :: l => (x.flatMap fun a => l.flatMap fun y => y.filterMap (shared a)) ++ sharedBytes l

/-- The breaches of R196, R197 and R208. -/
def Mach.slotErrs (m : Mach) (t : TCmd) : List (Option CmdErr) :=
  if t.op = 3 then []
  else
    let tiles := if t.thin then t.nT else t.mT * t.nT
    [ errIf (!t.golden && 8 < t.s0 + t.g) 0x15 0x02,
      errIf (t.cont && (t.g < t.mT || t.nT != 1)) 0x15 0x02,
      errIf (!t.drain && t.g < tiles) 0x15 0x02,
      errIf (t.thin && 1 < t.kS && t.g < t.nT) 0x1A 0x02,
      errIf (t.cont && t.slotGroup.any fun n => (m.slot t.core n).owner.any (· != t.q)) 0x15 0x08,
      errIf (t.isFp && t.slots.any fun n => 8192 < (if t.cont then (m.slot t.core n).steps else 0) + t.kS) 0x1C 0x02 ]

/-- The checks on a TENSOR command before its first step. -/
def Mach.tensorErrs (m : Mach) (t : TCmd) : List (Option CmdErr) :=
  let of3 := t.op == 3
  let at_ := fun off => u32 t.b off
  let aux := fun off n al => !m.extentOk (auxSpace t.aux) (at_ off) n al
  [ errIf (t.op == 0 || 3 < t.op) 0x10 0x02,
    errIf (if of3 then !(t.afmt == 6 || t.afmt == 7) else 5 < t.afmt) 0x11 0x02,
    errIf (!of3 && (5 < t.wfmt || (tensorPath t.afmt t.wfmt).isNone)) 0x12 0x02,
    errIf (if !of3 && t.wfmt ≤ 1 then t.wbits == 0 || 8 < t.wbits else t.wbits != 0) 0x13 0x02,
    errIf (8 < t.ofmt || (t.isFp && t.ofmt < 4)) 0x14 0x02,
    errIf (t.thin && t.isFp) 0x11 0x02,
    errIf (4 ≤ u8 t.b 0x16) 0x16 0x01,
    errIf (t.useTable && (t.ofmt == 2 || t.ofmt == 3)) 0x16 0x02,
    errIf (4 ≤ t.aux) 0x17 0x01,
    errIf (1 < t.aux) 0x17 0x02,
    errIf (t.mT == 0 || 1024 < t.mT || (t.thin && t.mT != 1)) 0x18 0x02,
    errIf (t.nT == 0 || (!t.thin && 1024 < t.nT)) 0x1A 0x02,
    errIf (t.kS == 0 || 1024 < t.kS || (of3 && t.kS != 1)) 0x1C 0x02,
    errIf (u16 t.b 0x1E != 0) 0x1E 0x01,
    errIf (!m.extentOk 2 (at_ 0x20) 64 64) 0x20 0x03,
    errIf (of3 && at_ 0x24 != 0) 0x24 0x02,
    errIf (!of3 && !m.extentOk 2 (at_ 0x24) 64 64) 0x24 0x03,
    errIf (!m.extentOk 2 (at_ 0x28) 64 64) 0x28 0x03,
    errIf (if of3 then at_ 0x2C != 0 else at_ 0x2C == 0) 0x2C 0x02,
    errIf (!of3 && aux 0x2C t.chkLen 32) 0x2C 0x03,
    errIf (aux 0x30 t.colLen 32) 0x30 0x03,
    errIf (aux 0x34 t.tableLen 1024) 0x34 0x03,
    fieldErr t.b 0x38 8 ] ++ m.slotErrs t ++
  m.descErrs 0x20 t.act ++ (if of3 then [] else m.descErrs 0x24 t.wgt) ++ m.descErrs 0x28 t.out ++
  [ errIf (!t.actMatches) 0x20 0x02,
    errIf (!of3 && !t.wgtMatches) 0x24 0x02,
    errIf (!t.out.outOk t.ofmt) 0x28 0x02,
    errIf (!t.act.mapsAll t.actTiles.1 t.actTiles.2) 0x20 0x02,
    errIf (!of3 && !t.wgt.mapsAll t.wgtTiles.1 t.wgtTiles.2) 0x24 0x02,
    errIf (!t.out.mapsAll t.outTiles.1 t.outTiles.2) 0x28 0x02,
    errIf t.outOverlaps 0x28 0x04 ]

/-! ## Counting -/

/-- MACs of a command. -/
def TCmd.macs (t : TCmd) : Nat := if t.op = 3 then 0 else t.mT * t.nT * t.kS * t.depth * 1024

/-- Bytes the intake reads of one logical tile. -/
def TDesc.tileRead (d : TDesc) : Nat := if d.rowMajor then 1024 * elemBytes d.fmt d.bits else d.tileBytes

/-- Bytes read of activations and of weights, each weight block once per group of row tiles (R195), and written. -/
def TCmd.actRead (t : TCmd) : Nat :=
  match t.op with
  | 1 => t.mT * t.nT * t.kS * (t.depth / 32) * t.act.tileRead
  | 2 => t.nT * t.kS * t.depth
  | _ => t.mT * t.nT * t.act.tileRead
def TCmd.wgtRead (t : TCmd) : Nat :=
  match t.op with
  | 1 => (t.mT + t.g - 1) / t.g * t.nT * t.kS * (t.depth / 32) * t.wgt.tileRead
  | 2 => t.kS * (t.depth / 32) * 32 * t.wgt.tileRead
  | _ => 0

/-- n bytes read from or written to the space numbered as in an auxiliary field, counted for a command. -/
def Mach.countBytes (m : Mach) (core : Nat) (b : List Byte) (space : Nat) (write : Bool) (n : Nat) : Mach :=
  m.count core ((if space = 0 then 32 else if space = 1 then 34 else 36) + write.toNat) (u8 b 2 % 16) (u16 b 4) (u16 b 6) n

/-- The counts of a command that has run (Tables 16-2 and 16-3). -/
def TRun.counts (r : TRun) (t : TCmd) : Mach :=
  let m := r.m.bump t.core r.clocks
  let m := m.count t.core (macCounter t.path t.wbits) (u8 t.b 2 % 16) (u16 t.b 4) (u16 t.b 6) t.macs
  let m := m.countBytes t.core t.b t.act.space false t.actRead
  let m := m.countBytes t.core t.b t.wgt.space false t.wgtRead
  m.countBytes t.core t.b t.out.space true (r.outs.length * elemBytes t.out.fmt 0)

/-- What the command wrote, in the canonical order of R409. -/
def TRun.outputs (r : TRun) (t : TCmd) : Outputs :=
  let key := fun (x : (Nat × Nat × Nat) × Nat) => (x.1.1 * 2 ^ 20 + x.1.2.1) * 2 ^ 20 + x.1.2.2
  { fmt := t.out.fmt, kind := elemKind t.out.fmt, size := elemBytes t.out.fmt 0, n := r.outs.length,
    elems := (r.outs.mergeSort fun a b => decide (key a ≤ key b)).map Prod.snd }

/-- A tensor datapath fault: the command stops and the supervisor hears of it (R209). -/
def tensorFault (core mask : Nat) : Detection :=
  { cause := 1, unit := .core, number := core, detail := BitVec.ofNat 32 mask, jetFails := false, again := false, addr := 0,
    reloadFails := false }

/-- Where output matrices overlap, what a command wrote to both is undefined (R232). -/
def Mach.freeShared (m : Mach) (t : TCmd) : Mach := (sharedBytes t.writtenMatrices).foldl (fun m e => m.freeBytes e.1 e.2) m

/-- A started TENSOR command in its engine. One whose check fails stops there, with what it drained before in memory and the rest
unwritten, and never completes (R199, R204, R209). -/
def tensorRun (m : Mach) (q : Nat) (c : Started) : Mach :=
  let t := m.readTCmd (m.queueCore q) q c.bytes
  let r := m.runTensor t
  if r.bad = 0 then
    (((r.counts t).watchOutputs 0 q c.num c.bytes (r.outputs t) c.redo).freeShared t).noteLast q
      fun c => { c with wrote := t.written.map Prod.snd }
  else ((r.m.bump t.core r.clocks).noteLast q fun c => { c with stopped := true }).detect (tensorFault t.core r.bad)

def tensorCheck (m : Mach) (q : Nat) (b : List Byte) : Except CmdErr Unit :=
  firstErr (m.tensorErrs (m.readTCmd (m.queueCore q) q b))

/-- MATMUL. -/
def execMatmul (q : Fin 256) (s : State) : Host.Outcome State Fault Refusal :=
  act s fun m => m.startRun q 1 1 tensorCheck tensorRun

/-- THIN. -/
def execThin (q : Fin 256) (s : State) : Host.Outcome State Fault Refusal :=
  act s fun m => m.startRun q 1 2 tensorCheck tensorRun

/-- OUTFLOW. -/
def execOutflow (q : Fin 256) (s : State) : Host.Outcome State Fault Refusal :=
  act s fun m => m.startRun q 1 3 tensorCheck tensorRun

end Sys2Proof.Machine
end

