-- ==== Sys2Proof/Machine/Vector.lean ====
section
/-! DEFINITION. The vector engines (R233 to R256): element operations, chains and structured operations. -/

namespace Sys2Proof.Machine

/-! ## Element types (R244, Table 10-5) -/

/-- Elements per lane word and their width. -/
def vecShape (ty : Nat) : Nat × Nat := if ty ≤ 2 then (1, 32) else if ty ≤ 5 then (2, 16) else (4, 8)

def vecFloat : Nat → Option FFmt
  | 0 => some fp32
  | 3 => some fp16
  | 4 => some bf16
  | _ => none

def vecSigned (ty : Nat) : Bool := ty == 1 || ty == 5 || ty == 6

/-- Element n of a lane word. -/
def vecElem (ty : Nat) (w : Word) (n : Nat) : Nat := w.field ((vecShape ty).2 * n) (vecShape ty).2

/-- A lane word from its elements. -/
def vecPack (ty : Nat) (l : List Nat) : Word :=
  BitVec.ofNat 32 (l.zipIdx.map fun x => x.1 % 2 ^ (vecShape ty).2 * 2 ^ ((vecShape ty).2 * x.2)).sum

/-- An element's integer value. -/
def vecInt (ty v : Nat) : Int := if vecSigned ty then signed (vecShape ty).2 v else v

/-- The elements of a lane word computed one by one from up to three sources. -/
def vecMap (ty : Nat) (a b c : Word) (f : Nat → Nat → Nat → Nat) : Word :=
  vecPack ty ((List.range (vecShape ty).1).map fun n => f (vecElem ty a n) (vecElem ty b n) (vecElem ty c n))

/-- An integer kept in an element's low bits. -/
def wrapTo (w : Nat) (v : Int) : Nat := (v % 2 ^ w).toNat

/-- An arithmetic operation on elements: exact on integers and wrapped, or rounded once. -/
def vecArith (ty : Nat) (a b c : Word) (fi : Int → Int → Int → Int) (ff : FVal → FVal → FVal → FVal) : Word :=
  vecMap ty a b c fun x y z =>
    match vecFloat ty with
    | some f => FVal.toBits f (ff (FVal.ofBits f x) (FVal.ofBits f y) (FVal.ofBits f z))
    | none => wrapTo (vecShape ty).2 (fi (vecInt ty x) (vecInt ty y) (vecInt ty z))

/-- A comparison of elements: all ones or 0. -/
def vecCmp (ty : Nat) (a b : Word) (fi : Int → Int → Bool) (ff : FVal → FVal → Bool) : Word :=
  vecMap ty a b 0 fun x y _ =>
    let hit := match vecFloat ty with
      | some f => ff (FVal.ofBits f x) (FVal.ofBits f y)
      | none => fi (vecInt ty x) (vecInt ty y)
    if hit then 2 ^ (vecShape ty).2 - 1 else 0

/-- An integer clamped to an element type. -/
def clampTo (ty : Nat) (v : Int) : Nat :=
  let w := (vecShape ty).2
  let lo : Int := if vecSigned ty then -2 ^ (w - 1) else 0
  let hi : Int := if vecSigned ty then 2 ^ (w - 1) - 1 else 2 ^ w - 1
  wrapTo w (max lo (min hi v))

/-- A floating-point value as an element of an integer type (R244). -/
def floatToInt (ty : Nat) (v : FVal) : Nat :=
  match v with
  | .nan => 0
  | .inf neg => clampTo ty (if neg then -2 ^ 40 else 2 ^ 40)
  | v => clampTo ty v.rneInt

/-- One element converted (CVT). -/
def cvtElem (ty tgt v : Nat) : Nat :=
  match vecFloat ty, vecFloat tgt with
  | some f, some g => if ty = tgt then FVal.toBits f (FVal.ofBits f v) else FVal.convert g (FVal.ofBits f v)
  | some f, none => floatToInt tgt (FVal.ofBits f v)
  | none, some g => FVal.toBits g (FVal.ofInt (vecInt ty v))
  | none, none => wrapTo (vecShape tgt).2 (vecInt ty v)

/-- One element narrowed (NARROW). -/
def narrowElem (ty tgt v : Nat) : Nat :=
  match vecFloat ty, vecFloat tgt with
  | some f, some g => FVal.convert g (FVal.ofBits f v)
  | _, _ => clampTo tgt (vecInt ty v)

/-- The type of WIDEN's result. -/
def widenType (ty : Nat) : Nat :=
  match ty with
  | 3 => 0
  | 4 => 0
  | 5 => 1
  | _ => 5

/-- One element widened. -/
def widenElem (ty v : Nat) : Nat :=
  match vecFloat ty with
  | some f => FVal.toBits fp32 (FVal.ofBits f v)
  | none => wrapTo (2 * (vecShape ty).2) (vecInt ty v)

/-! ## Element operations (R245, Table 10-6) -/

/-- An FP32 function of one value (RCP to FLOOR). -/
def vecUnary (a : Word) (f : FVal → FVal) : Word := toF32 (f (f32 a))

/-- What an operation word asks for. -/
structure OpWord where
  op : Nat
  ty : Nat
  d : Nat
  a : Nat
  b : Nat
  c : Nat
  bs : Bool
  cs : Bool
deriving DecidableEq, Repr

def readOp (w : Word) : OpWord :=
  { op := w.field 26 6, ty := w.field 23 3, d := w.field 19 4, a := w.field 15 4, b := w.field 11 4, c := w.field 7 4,
    bs := w.bit 6, cs := w.bit 5 }

/-- The lane operations: all but IOTA and PERM, which need the lane. -/
def laneOp (o : OpWord) (a b c : Word) : Word :=
  let ty := o.ty
  let w := (vecShape ty).2
  match o.op with
  | 0x01 => vecArith ty a b c (fun x y _ => x + y) fun x y _ => FVal.add x y
  | 0x02 => vecArith ty a b c (fun x y _ => x - y) fun x y _ => FVal.add x y.neg
  | 0x03 => vecArith ty a b c (fun x y _ => x * y) fun x y _ => FVal.mul x y
  | 0x04 => vecArith ty a b c (fun x y z => x * y + z) fun x y z => FVal.add (FVal.mul x y) z
  | 0x05 => vecArith ty a b c (fun x y _ => min x y) fun x y _ => FVal.minV x y
  | 0x06 => vecArith ty a b c (fun x y _ => max x y) fun x y _ => FVal.maxV x y
  | 0x07 => vecArith ty a b c (fun x _ _ => x.natAbs) fun x _ _ => FVal.abs x
  | 0x08 => vecArith ty a b c (fun x _ _ => -x) fun x _ _ => FVal.neg x
  | 0x09 => vecArith ty a b c (fun x y z => min (max x y) z) fun x y z => FVal.minV (FVal.maxV x y) z
  | 0x0A => a &&& b
  | 0x0B => a ||| b
  | 0x0C => a ^^^ b
  | 0x0D => ~~~a
  | 0x0E => vecMap ty a b c fun x y _ => x * 2 ^ (y % w)
  | 0x0F => vecMap ty a b c fun x y _ => x / 2 ^ (y % w)
  | 0x10 => vecMap ty a b c fun x y _ => wrapTo w (signed w x / 2 ^ (y % w))
  | 0x11 => vecCmp ty a b (fun x y => x == y) FVal.eq
  | 0x12 => vecCmp ty a b (fun x y => decide (x < y)) FVal.lt
  | 0x13 => vecCmp ty a b (fun x y => decide (x ≤ y)) FVal.le
  | 0x14 => (c &&& a) ||| (~~~c &&& b)
  | 0x15 => vecPack (o.c % 8) ((List.range (vecShape ty).1).map fun n => cvtElem ty (o.c % 8) (vecElem ty a n))
  | 0x16 =>
    let n := (vecShape ty).1 / 2
    vecPack (widenType ty) ((List.range n).map fun i => widenElem ty (vecElem ty a (o.c % 2 * n + i)))
  | 0x17 =>
    let l := fun (x : Word) => (List.range (vecShape ty).1).map fun n => narrowElem ty (o.c % 8) (vecElem ty x n)
    vecPack (o.c % 8) (l a ++ l b)
  | 0x18 => c + BitVec.ofInt 32 ((List.range 4).map fun n => vecInt ty (vecElem ty a n) * vecInt ty (vecElem ty b n)).sum
  | 0x19 =>
    let f := (vecFloat ty).getD fp16
    let p := fun n => FVal.mul (FVal.ofBits f (vecElem ty a n)) (FVal.ofBits f (vecElem ty b n))
    toF32 (FVal.sum [f32 c, p 0, p 1])
  | 0x1A => withinUlps 1 (FVal.div (f32 f1) (f32 a)) (Config.ulpChoice a)
  | 0x1B => withinUlps 1 (FVal.div (f32 f1) (FVal.sqrt (f32 a))) (Config.ulpChoice a)
  | 0x1C => fsqrt a
  | 0x1D => withinUlps 2 (FVal.exp2 (f32 a)) (Config.exp2 a)
  | 0x1E => withinUlps 2 (FVal.log2 (f32 a)) (Config.log2 a)
  | 0x1F => vecUnary a FVal.floor
  | _ => b

/-- The types an opcode permits (R245). -/
def opTypes (op : Nat) : List Nat :=
  let all := [0, 1, 2, 3, 4, 5, 6, 7]
  if 0x01 ≤ op ∧ op ≤ 0x0D then all
  else if 0x0E ≤ op ∧ op ≤ 0x10 then [1, 2, 5, 6, 7]
  else if 0x11 ≤ op ∧ op ≤ 0x15 then all
  else match op with
    | 0x16 => [3, 4, 5, 6, 7]
    | 0x17 => [0, 1, 5]
    | 0x18 => [6, 7]
    | 0x19 => [3, 4]
    | 0x20 => [1, 2]
    | 0x21 => all
    | 0x22 => all
    | _ => if 0x1A ≤ op ∧ op ≤ 0x1F then [0] else []

/-- The immediate of CVT and NARROW names a type that fits. -/
def immOk (o : OpWord) : Bool :=
  let tgt := o.c % 8
  match o.op with
  | 0x15 => (vecShape tgt).1 == (vecShape o.ty).1
  | 0x17 => match o.ty with
    | 0 => tgt == 3 || tgt == 4
    | 1 => tgt == 5
    | _ => tgt == 6 || tgt == 7
  | _ => true

/-- The type of an operation's result. -/
def opResult (o : OpWord) : Nat :=
  match o.op with
  | 0x15 => o.c % 8
  | 0x16 => widenType o.ty
  | 0x17 => o.c % 8
  | 0x18 => 1
  | 0x19 => 0
  | _ => o.ty

/-- A transcendental (R237). -/
def isTrans (op : Nat) : Bool := decide (0x1A ≤ op) && decide (op ≤ 0x1E)

/-! ## The VECTOR command (Table 10-3) -/

/-- A chain programme, read once. -/
structure Chain where
  nops : Nat
  flags : Nat
  out : Nat
  ops : List OpWord
  consts : List Word
deriving DecidableEq, Repr

/-- A VECTOR command. -/
structure VCmd where
  core : Nat
  b : List Byte
  chain : Chain
deriving DecidableEq, Repr

namespace VCmd

def op (v : VCmd) : Nat := cmdOp v.b
def etype (v : VCmd) : Nat := u8 v.b 0x11
def count (v : VCmd) : Nat := u32 v.b 0x14
def vlen (v : VCmd) : Nat := u8 v.b 0x18
def spaceA (v : VCmd) : Nat := u8 v.b 0x19 % 4
def spaceB (v : VCmd) : Nat := u8 v.b 0x19 / 4 % 4
def spaceD (v : VCmd) : Nat := u8 v.b 0x19 / 16 % 4
def param (v : VCmd) : Nat := u8 v.b 0x1A
def param2 (v : VCmd) : Nat := u8 v.b 0x1B
def hbm (v : VCmd) : Nat := u64 v.b 0x30
/-- Offset of an operand within its space; HBM operands add hbm_base in 40 bits. -/
def offs (v : VCmd) (space a : Nat) : Nat := if space = 2 then (v.hbm + a) % 2 ^ 40 else a
def offA (v : VCmd) : Nat := v.offs v.spaceA (u32 v.b 0x1C)
def offB (v : VCmd) : Nat := v.offs v.spaceB (u32 v.b 0x20)
def offD (v : VCmd) : Nat := v.offs v.spaceD (u32 v.b 0x24)
def base (v : VCmd) (space : Nat) : Nat := spaceBase v.core (auxSpace space)
/-- Flat addresses of the operands. -/
def atA (v : VCmd) : Nat := v.base v.spaceA + v.offA
def atB (v : VCmd) : Nat := v.base v.spaceB + v.offB
def atD (v : VCmd) : Nat := v.base v.spaceD + v.offD
/-- Elements of an item, and items of the command. -/
def itemLen (v : VCmd) : Nat := 64 * v.vlen
def items (v : VCmd) : Nat := (v.count + v.itemLen - 1) / v.itemLen
def isFp (v : VCmd) : Bool := v.etype == 0

end VCmd

def readChain (l : List Byte) : Chain :=
  { nops := u8 l 0, flags := u8 l 1, out := u8 l 2, ops := (List.range 8).map fun i => readOp (w32 l (4 + 4 * i)),
    consts := (List.range 5).map fun i => w32 l (0x24 + 4 * i) }

def Mach.readVCmd (m : Mach) (core : Nat) (b : List Byte) : VCmd :=
  { core := core, b := b, chain := readChain (m.bytes (localBase core + u32 b 0x28) 64) }

/-! ## Chains (R246) -/

/-- A register of 64 lanes. -/
abbrev VReg := List Word

def vzero : VReg := List.replicate 64 0

/-- 64 lanes loaded, 0 in the inactive ones. -/
def Mach.loadLanes (m : Mach) (v : VCmd) (a e : Nat) : VReg :=
  (List.range 64).map fun l => if e + l < v.count then m.word (a + 4 * (e + l)) else 0

/-- One operation of a chain on the registers. -/
def runOp (sregs : List Word) (regs : List VReg) (o : OpWord) : List VReg :=
  let reg := fun n => regs.getD n vzero
  let src := fun (n : Nat) (scalar : Bool) (l : Nat) => if scalar then sregs.getD (n % 8) 0 else (reg n).getD l 0
  regs.set o.d ((List.range 64).map fun l =>
    match o.op with
    | 0x20 => sregs.getD 2 0 + BitVec.ofNat 32 l
    | 0x21 => (reg o.a).getD ((src o.b o.bs l).toNat % 64) 0
    | _ => laneOp o ((reg o.a).getD l 0) (src o.b o.bs l) (src o.c o.cs l))

/-- The running command: the module, the words it has written in the order of their elements, and refused lanes. -/
structure VRun where
  m : Mach
  outs : List Word := []
  refused : Nat := 0
  /-- flat addresses that a SCATTER_ADD adds to -/
  targets : List Nat := []
  /-- of a CHAIN, the registers and scalar registers that each item leaves -/
  regs : List (List VReg × List Word) := []

/-- Words written from an address on. -/
def VRun.write (r : VRun) (a : Nat) (l : List Word) : VRun :=
  { r with m := r.m.setBytes a (l.flatMap wordBytes), outs := r.outs ++ l }

/-- The scalar registers in vector j of item i. -/
def chainScalars (v : VCmd) (i j : Nat) : List Word :=
  [BitVec.ofNat 32 i, BitVec.ofNat 32 j, BitVec.ofNat 32 ((i * v.vlen + j) * 64)] ++ v.chain.consts

/-- One vector of a chain item. -/
def chainVector (v : VCmd) (i : Nat) (r : VRun × List VReg) (j : Nat) : VRun × List VReg :=
  let p := v.chain
  let s2 := (i * v.vlen + j) * 64
  let sregs := chainScalars v i j
  let regs := if p.flags.testBit 0 then r.2.set 0 (r.1.m.loadLanes v v.atA s2) else r.2
  let regs := if p.flags.testBit 1 then regs.set 1 (r.1.m.loadLanes v v.atB s2) else regs
  let regs := (p.ops.take p.nops).foldl (runOp sregs) regs
  if p.flags.testBit 2 && !p.out.testBit 4 then
    (r.1.write (v.atD + 4 * s2) ((regs.getD (p.out % 16) vzero).take (v.count - s2)), regs)
  else (r.1, regs)

/-- CHAIN: every item in order. -/
def VRun.chain (r : VRun) (v : VCmd) : VRun :=
  (List.range v.items).foldl (fun r i =>
    let x := (List.range v.vlen).foldl (chainVector v i) (r, List.replicate 16 vzero)
    let x := ({ x.1 with regs := x.1.regs ++ [(x.2, chainScalars v i (v.vlen - 1))] }, x.2)
    if v.chain.flags.testBit 2 && v.chain.out.testBit 4 then
      x.1.write (v.atD + 256 * i) (x.2.getD (v.chain.out % 16) vzero)
    else x.1) r

/-! ## Structured operations (R247 to R249) -/

/-- A lane's word lies in its space and in installed HBM. -/
def Mach.laneIn (m : Mach) (space off : Nat) : Bool := decide (off + 4 ≤ m.spaceSize (auxSpace space))

/-- GATHER. -/
def VRun.gather (r : VRun) (v : VCmd) : VRun :=
  (List.range v.count).foldl (fun r e =>
    let i := (r.m.word (v.atA + 4 * e)).toNat
    let off := if v.spaceB = 2 then (v.offB + 4 * i) % 2 ^ 40 else v.offB + 4 * i
    let d := v.atD + 4 * e
    if i = 0xFFFFFFFF then r.write d [0]
    else if r.m.laneIn v.spaceB off then r.write d [r.m.word (v.base v.spaceB + off)]
    else { r.write d [0] with refused := r.refused + 1 }) r

/-- The word added to by lane e of a SCATTER_ADD, when the lane is not skipped. -/
def Mach.scatterTarget (m : Mach) (v : VCmd) (e : Nat) : Option Nat :=
  let i := (m.word (v.atA + 4 * e)).toNat
  if i = 0xFFFFFFFF then none
  else some (if v.spaceD = 2 then (v.offD + 4 * i) % 2 ^ 40 else v.offD + 4 * i)

/-- SCATTER_ADD: in element order in golden mode and for integers, in an order the spec leaves open otherwise (R250,
R251, log entry 22). -/
def VRun.scatterAdd (r : VRun) (v : VCmd) : VRun :=
  let src := r.m
  let es := List.range v.count
  let order := if isGolden v.b || !v.isFp then es else inArrival src.freeCtr es
  let r := order.foldl (fun r e =>
    match src.scatterTarget v e with
    | none => r
    | some off =>
      if src.laneIn v.spaceD off then
        let a := v.base v.spaceD + off
        { r with m := r.m.setWord a (addWord v.isFp (r.m.word a) (src.word (v.atB + 4 * e))) }
      else { r with refused := r.refused + 1 }) r
  let targets := es.filterMap fun e =>
    (src.scatterTarget v e).bind fun off => if src.laneIn v.spaceD off then some (v.base v.spaceD + off) else none
  { r with m := { r.m with freeCtr := r.m.freeCtr + 1 }, outs := targets.map r.m.word, targets := targets }

/-- PROBE. -/
def VRun.probe (r : VRun) (v : VCmd) : VRun :=
  let t := v.param2 % 32
  (List.range v.count).foldl (fun r e =>
    let key := r.m.le (v.atA + 8 * e) 8
    let x := match (r.m.probe t key).hit with
      | none => 0xFFFFFFFF
      | some b => match v.param with
        | 0 => (r.m.cell t b).row
        | 1 => b
        | _ => (r.m.cell t b).point
    r.write (v.atD + 4 * e) [BitVec.ofNat 32 x]) r

/-- XFORM. -/
def VRun.xform (r : VRun) (v : VCmd) : VRun :=
  (List.range v.count).foldl (fun r e =>
    let b := r.m.bytes (v.atA + 32 * e) 32
    let mat := v.atB + 48 * u8 b 0x16
    let rows := (List.range 12).map fun i => r.m.word (mat + 4 * i)
    let p := transform rows [w32 b 0, w32 b 4, w32 b 8]
    r.write (v.atD + 32 * e) (p ++ (List.range 5).map fun i => w32 b (12 + 4 * i))) r

/-- The order of SORT's keys; FP32 keys order −NaN first, +NaN last, −0 below +0. -/
def sortKey (etype : Nat) (w : Word) : Int :=
  match etype with
  | 0 => if w.bit 31 then -(w.field 0 31 : Int) - 1 else w.field 0 31
  | 1 => w.toInt
  | _ => w.toNat

/-- One compare-exchange step on the pair of elements e and e + 2^j. -/
def VRun.exchange (r : VRun) (v : VCmd) (e f : Nat) (up : Bool) : VRun :=
  let x := r.m.bytes (v.atA + 8 * e) 8
  let y := r.m.bytes (v.atA + 8 * f) 8
  let kx := sortKey v.etype (w32 x 0)
  let ky := sortKey v.etype (w32 y 0)
  let swap := if up then decide (ky < kx) else decide (kx < ky)
  { r with m := (r.m.setBytes (v.atD + 8 * e) (if swap then y else x)).setBytes (v.atD + 8 * f) (if swap then x else y) }

/-- SORT. -/
def VRun.sort (r : VRun) (v : VCmd) : VRun :=
  let j := v.param % 16
  let k := v.param2 % 16
  let r := (List.range v.count).foldl (fun r e =>
    let f := e + 2 ^ j
    if e.testBit j then r
    else if f < v.count then r.exchange v e f (!e.testBit k || k == 15)
    else { r with m := r.m.setBytes (v.atD + 8 * e) (r.m.bytes (v.atA + 8 * e) 8) }) r
  { r with outs := (List.range (2 * v.count)).map fun i => r.m.word (v.atD + 4 * i) }

/-- Operation ⊕ of REDUCE and SCAN: 0 add, 1 min, 2 max, 3 and, 4 or. -/
def combine (etype op : Nat) (a b : Word) : Word :=
  let o := fun n => laneOp { op := n, ty := etype, d := 0, a := 0, b := 0, c := 0, bs := false, cs := false } a b 0
  match op with
  | 0 => o 0x01
  | 1 => o 0x05
  | 2 => o 0x06
  | 3 => a &&& b
  | _ => a ||| b

/-- Its identity (R249). -/
def identityOf (etype op : Nat) : Word :=
  match op with
  | 0 => if etype = 0 then 0x80000000 else 0
  | 1 => match etype with
    | 0 => 0x7F800000
    | 1 => 0x7FFFFFFF
    | _ => 0xFFFFFFFF
  | 2 => match etype with
    | 0 => 0xFF800000
    | 1 => 0x80000000
    | _ => 0
  | 3 => 0xFFFFFFFF
  | _ => 0

/-- Vector j of item i, with the identity in its inactive lanes. -/
def Mach.itemLanes (m : Mach) (v : VCmd) (op i j : Nat) : VReg :=
  let e := (i * v.vlen + j) * 64
  (List.range 64).map fun l => if e + l < v.count then m.word (v.atA + 4 * (e + l)) else identityOf v.etype op

/-- A halving step of REDUCE. -/
def halve (f : Word → Word → Word) (l : VReg) (s : Nat) : VReg :=
  (List.range 64).map fun i => if i < s then f (l.getD i 0) (l.getD (i + s) 0) else l.getD i 0

/-- REDUCE. -/
def VRun.reduce (r : VRun) (v : VCmd) : VRun :=
  let op := v.param % 8
  let f := combine v.etype op
  (List.range v.items).foldl (fun r i =>
    let vs := (List.range v.vlen).map fun j => r.m.itemLanes v op i j
    let l := match vs with
      | [] => vzero
      | x :: xs => xs.foldl (fun a b => List.zipWith f a b) x
    let l := [32, 16, 8, 4, 2, 1].foldl (halve f) l
    r.write (v.atD + 4 * i) [l.getD 0 0]) r

/-- A step of SCAN within a vector. -/
def scanStep (f : Word → Word → Word) (l : VReg) (s : Nat) : VReg :=
  (List.range 64).map fun i => if s ≤ i then f (l.getD (i - s) 0) (l.getD i 0) else l.getD i 0

/-- The inclusive prefixes of an item, vector by vector. -/
def scanVectors (f : Word → Word → Word) (carry : Word) : List VReg → List Word
  | [] => []
  | x :: xs =>
    let y := ([1, 2, 4, 8, 16, 32].foldl (scanStep f) x).map (f carry)
    y ++ scanVectors f (y.getD 63 carry) xs

/-- SCAN. -/
def VRun.scan (r : VRun) (v : VCmd) : VRun :=
  let op := v.param % 4
  (List.range v.items).foldl (fun r i =>
    let inc := scanVectors (combine v.etype op) (identityOf v.etype op) ((List.range v.vlen).map fun j => r.m.itemLanes v op i j)
    let total := inc.getLastD 0
    let l := if v.param.testBit 2 then identityOf v.etype op :: inc else inc
    let r := r.write (v.atD + 4 * (i * v.itemLen)) (l.take (min v.itemLen (v.count - i * v.itemLen)))
    if v.param.testBit 3 then { r with m := r.m.setWord (v.atB + 4 * i) total } else r) r

/-- A VECTOR command run over all its items. -/
def Mach.runVector (m : Mach) (v : VCmd) : VRun :=
  let r : VRun := { m := m }
  match v.op with
  | 1 => r.chain v
  | 2 => r.gather v
  | 3 => r.scatterAdd v
  | 4 => r.probe v
  | 5 => r.xform v
  | 6 => r.sort v
  | 7 => r.scan v
  | _ => r.reduce v

/-! ## Errors (R255) -/

/-- Extents of src_a, src_b and dst in bytes; 0 for an operand not used or not known beforehand. -/
def VCmd.extents (v : VCmd) : Nat × Nat × Nat :=
  let n := v.count
  match v.op with
  | 1 =>
    let f := v.chain.flags
    (if f.testBit 0 then 4 * n else 0, if f.testBit 1 then 4 * n else 0,
      if f.testBit 2 then (if v.chain.out.testBit 4 then 256 * v.items else 4 * n) else 0)
  | 2 => (4 * n, 0, 4 * n)
  | 3 => (4 * n, 4 * n, 0)
  | 4 => (8 * n, 0, 4 * n)
  | 5 => (32 * n, 12288, 32 * n)
  | 6 => (8 * n, 0, 8 * n)
  | 7 => (4 * n, if v.param.testBit 3 then 4 * v.items else 0, 4 * n)
  | _ => (4 * n, 0, 4 * v.items)

/-- A dst equal to src_a is allowed (R255). -/
def VCmd.inPlace (v : VCmd) : Bool :=
  v.spaceA == v.spaceD && v.offA == v.offD &&
    ((v.op == 1 && !v.chain.out.testBit 4) || [5, 6, 7].contains v.op)

def VCmd.dstOverlaps (v : VCmd) : Bool :=
  let (la, lb, ld) := v.extents
  (v.spaceA == v.spaceD && !v.inPlace && overlaps v.offD ld v.offA la) ||
    (v.spaceB == v.spaceD && v.op != 7 && overlaps v.offD ld v.offB lb)

/-- Errors of a chain programme; the first offending field of the command is prog. -/
def Mach.chainErrs (m : Mach) (v : VCmd) : List (Option CmdErr) :=
  let a := localBase v.core + u32 v.b 0x28
  let l := m.bytes a 64
  let p := v.chain
  [ errIf (!m.extentOk 2 (u32 v.b 0x28) 64 64) 0x28 0x03,
    errIf (p.nops == 0 || 8 < p.nops) 0x28 0x02,
    errIf (8 ≤ p.flags || 32 ≤ p.out || u8 l 3 != 0 || (firstNonZero l (span (4 + 4 * p.nops) 0x24)).isSome ||
      (firstNonZero l (span 0x38 0x40)).isSome ||
      (List.range (min 8 p.nops)).any fun i => (w32 l (4 + 4 * i)).field 0 5 != 0) 0x28 0x01,
    errIf ((p.ops.take p.nops).any fun o => !(opTypes o.op).contains o.ty || !immOk o) 0x28 0x02 ]

/-- The checks on a VECTOR command before its first item. -/
def Mach.vectorErrs (m : Mach) (v : VCmd) : List (Option CmdErr) :=
  let op := v.op
  let eng := u8 v.b 0x12
  let hbmA := v.spaceA == 2
  let hbmB := v.spaceB == 2 && op != 2
  let hbmD := v.spaceD == 2 && op != 3
  let anyHbm := v.spaceA == 2 || v.spaceB == 2 || v.spaceD == 2
  let ext := v.extents
  let j := v.param % 16
  let k := v.param2 % 16
  let flags := v.chain.flags
  let usesA := op != 1 || flags.testBit 0
  let usesB := if op == 1 then flags.testBit 1 else if op == 7 then v.param.testBit 3 else [2, 3, 5].contains op
  let usesD := op != 1 || flags.testBit 2
  [ errIf (op == 0 || 8 < op) 0x10 0x02,
    errIf (if op == 1 || op == 4 || op == 5 then v.etype != 0 else 2 < v.etype) 0x11 0x02,
    errIf (16 ≤ eng) 0x12 0x01,
    errIf (eng == 0) 0x12 0x02,
    errIf (isGolden v.b && !([1, 2, 4, 8].contains eng)) 0x12 0x02,
    errIf (u8 v.b 0x13 == 0 || 32 < u8 v.b 0x13) 0x13 0x02,
    errIf (v.count == 0 || 16777216 < v.count) 0x14 0x02,
    errIf (op == 6 && (v.itemLen == 0 || v.count % v.itemLen != 0)) 0x14 0x02,
    errIf (v.vlen == 0 || 64 < v.vlen) 0x18 0x02,
    errIf (64 ≤ u8 v.b 0x19) 0x19 0x01,
    errIf (v.spaceA == 3 || v.spaceB == 3 || v.spaceD == 3 || hbmA || hbmB || hbmD) 0x19 0x02,
    errIf (isGolden v.b && u8 v.b 0x19 != 0) 0x19 0x02,
    errIf (isGolden v.b && op == 4) 0x10 0x02,
    errIf (op == 6 && (11 < j || v.itemLen ≤ 2 ^ j)) 0x1A 0x02,
    errIf (op == 4 && 2 < v.param) 0x1A 0x02,
    errIf (op == 7 && (15 < v.param || v.param % 4 == 3)) 0x1A 0x02,
    errIf (op == 8 && 4 < v.param) 0x1A 0x02,
    errIf (op == 6 && !(k == 15 || (decide (j + 1 ≤ k) && decide (k ≤ 12)))) 0x1B 0x02,
    errIf (op == 4 && 32 ≤ v.param2) 0x1B 0x02,
    errIf (op == 4 && !m.vtOn (v.param2 % 32)) 0x1B 0x07,
    errIf (usesA && u32 v.b 0x1C % 4 != 0) 0x1C 0x03,
    errIf (0 < ext.1 && !m.extentOk (auxSpace v.spaceA) v.offA ext.1 1) 0x1C 0x03,
    errIf (usesB && v.spaceB != 2 && u32 v.b 0x20 % 4 != 0) 0x20 0x03,
    errIf (0 < ext.2.1 && !m.extentOk (auxSpace v.spaceB) v.offB ext.2.1 1) 0x20 0x03,
    errIf (usesD && v.spaceD != 2 && u32 v.b 0x24 % 4 != 0) 0x24 0x03,
    errIf (0 < ext.2.2 && !m.extentOk (auxSpace v.spaceD) v.offD ext.2.2 1) 0x24 0x03,
    errIf v.dstOverlaps 0x24 0x04,
    errIf (op != 1 && u32 v.b 0x28 != 0) 0x28 0x02,
    errIf (u32 v.b 0x2C != 0) 0x2C 0x01,
    errIf (2 ^ 36 ≤ v.hbm) 0x30 0x01,
    errIf (v.hbm % 32 != 0) 0x30 0x03,
    errIf (!anyHbm && v.hbm != 0) 0x30 0x02,
    fieldErr v.b 0x38 8 ] ++ (if op == 1 then m.chainErrs v else [])

/-! ## Counting and watching -/

/-- Issue clocks of the command (R237). -/
def VCmd.clocks (v : VCmd) : Nat :=
  if v.op = 1 then
    v.items * v.vlen * ((v.chain.ops.take v.chain.nops).map fun o => if isTrans o.op then 4 else 1).sum
  else (v.count + 63) / 64

/-- Metric (Table 16-3) and operations per lane word of an element operation (Table 10-1). -/
def opMetric (o : OpWord) : Nat × Nat :=
  if isTrans o.op then (20, 1)
  else if o.op = 0x18 then (18, 8)
  else
    let n := if o.op = 0x04 ∨ o.op = 0x19 then 2 * (vecShape o.ty).1 else 1
    match o.ty with
    | 0 => (16, n)
    | 3 => (17, n)
    | 4 => (17, n)
    | _ => (19, 1)

/-- The counts of a command that has run. -/
def VRun.counts (r : VRun) (v : VCmd) : Mach :=
  let cnt := fun (m : Mach) (i n : Nat) => m.count v.core i (u8 v.b 2 % 16) (u16 v.b 4) (u16 v.b 6) n
  let m := (r.m.bump (32 + v.core) v.clocks).bump (96 + v.core) r.refused
  let m :=
    if v.op = 1 then (v.chain.ops.take v.chain.nops).foldl (fun m o => cnt m (opMetric o).1 ((opMetric o).2 * v.count)) m
    else cnt m (if v.isFp then 16 else 19) v.count
  let ext := v.extents
  let m := m.countBytes v.core v.b v.spaceA false ext.1
  let m := m.countBytes v.core v.b v.spaceB (v.op == 7) (if v.op = 2 then 4 * v.count else ext.2.1)
  m.countBytes v.core v.b v.spaceD true (if v.op = 3 then 4 * v.count else ext.2.2)

/-- The element type of what a command writes. -/
def VCmd.outType (v : VCmd) : Nat :=
  match v.op with
  | 1 => (((v.chain.ops.take v.chain.nops).reverse.find? fun o => o.d == v.chain.out % 16).map opResult).getD 0
  | 4 => 2
  | _ => v.etype

/-- Its format code of Table 9-1 and reading. -/
def typeKind : Nat → Nat × ElemKind
  | 0 => (7, .fp fp32)
  | 1 => (6, .int 32 true)
  | 2 => (6, .int 32 false)
  | 3 => (4, .fp fp16)
  | 4 => (5, .fp bf16)
  | 5 => (8, .int 16 true)
  | 6 => (0, .int 8 true)
  | _ => (1, .int 8 false)

def VRun.outputs (r : VRun) (v : VCmd) : Outputs :=
  let ty := v.outType
  { fmt := (typeKind ty).1, kind := (typeKind ty).2, size := (vecShape ty).2 / 8, n := r.outs.length,
    elems := r.outs.flatMap fun w => (List.range (vecShape ty).1).map fun n => vecElem ty w n }

/-- A context keeps what an item left in its registers. -/
def Mach.keepRegs (m : Mach) (n : Nat) (r : Option (List VReg × List Word)) : Mach :=
  match r with
  | some x => m.setContext n { m.context n with v := x.1, s := x.2 }
  | none => m

/-- The contexts of a CHAIN keep the registers of the last item that each shows (R234). -/
def Mach.keepChain (m : Mach) (q : Nat) (n : Word) (regs : List (List VReg × List Word)) : Mach :=
  m.contexts.foldl (fun m x => if x.2.holds q n then m.keepRegs x.1 regs[x.2.item]? else m) m

/-- The extents that a VECTOR command writes, and the 32-byte words of HBM that it adds into. -/
def VRun.wrote (r : VRun) (v : VCmd) : List (Nat × Nat) :=
  if v.op = 3 then r.targets.map fun a => (a, 4)
  else (v.atD, v.extents.2.2) :: (if v.op = 7 then [(v.atB, v.extents.2.1)] else [])

/-- A started VECTOR command on its engines. Its adds into HBM may meet those of another point unit (R248). -/
def vectorRun (m : Mach) (q : Nat) (c : Started) : Mach :=
  let v := m.readVCmd (m.queueCore q) c.bytes
  let r := m.runVector v
  let m := ((r.counts v).watchOutputs 1 q c.num c.bytes (r.outputs v) c.redo).keepChain q c.num r.regs
  let m := m.noteLast q fun c => { c with wrote := r.wrote v }
  if v.op = 3 && v.spaceD == 2 then m.noteAdds q ((r.targets.map (· / 32)).dedup) else m

def vectorCheck (m : Mach) (q : Nat) (b : List Byte) : Except CmdErr Unit :=
  firstErr (m.vectorErrs (m.readVCmd (m.queueCore q) b))

/-- CHAIN. -/
def execVectorChain (q : Fin 256) (s : State) : Host.Outcome State Fault Refusal :=
  act s fun m => m.startRun q 2 1 vectorCheck vectorRun

/-- GATHER. -/
def execVectorGather (q : Fin 256) (s : State) : Host.Outcome State Fault Refusal :=
  act s fun m => m.startRun q 2 2 vectorCheck vectorRun

/-- SCATTER_ADD. -/
def execScatterAdd (q : Fin 256) (s : State) : Host.Outcome State Fault Refusal :=
  act s fun m => m.startRun q 2 3 vectorCheck vectorRun

/-- PROBE. -/
def execVectorProbe (q : Fin 256) (s : State) : Host.Outcome State Fault Refusal :=
  act s fun m => m.startRun q 2 4 vectorCheck vectorRun

/-- XFORM. -/
def execXform (q : Fin 256) (s : State) : Host.Outcome State Fault Refusal :=
  act s fun m => m.startRun q 2 5 vectorCheck vectorRun

/-- SORT. -/
def execVectorSort (q : Fin 256) (s : State) : Host.Outcome State Fault Refusal :=
  act s fun m => m.startRun q 2 6 vectorCheck vectorRun

/-- SCAN. -/
def execVectorScan (q : Fin 256) (s : State) : Host.Outcome State Fault Refusal :=
  act s fun m => m.startRun q 2 7 vectorCheck vectorRun

/-- REDUCE. -/
def execVectorReduce (q : Fin 256) (s : State) : Host.Outcome State Fault Refusal :=
  act s fun m => m.startRun q 2 8 vectorCheck vectorRun

end Sys2Proof.Machine
end

