-- ==== Sys2Proof/Machine/Jets.lean ====
section
/-! DEFINITION. The test jet (R362): the golden commands of a core, their digests, and the jets that a release sets
off. -/

namespace Sys2Proof.Machine

/-- The golden record of core c. -/
def Mach.golden (m : Mach) (c : Nat) : Option GoldenRec := m.fpl.plan.golden.find? fun g => g.core == c

/-- CRC-32C of the output extent of a tensor golden command, in the sense that R222 gives the word (log entry 152). -/
def Mach.tensorDigest (m : Mach) (t : TCmd) : Word :=
  crc32c (m.bytes (spaceBase t.core (auxSpace t.out.space) + t.out.lastBase) t.out.footprint)

/-- CRC-32C of the output of a vector golden command, in increasing address: of a SCATTER_ADD the words that it adds to. -/
def VRun.digest (s : VRun) (v : VCmd) : Word :=
  if v.op = 3 then
    crc32c (((s.targets.map fun a => (a, ())).foldl (fun l a => sput (fun _ => none) a.1 (some ()) l) []).flatMap fun p => wordBytes (s.m.word p.1))
  else crc32c (s.m.bytes v.atD v.extents.2.2)

/-- A test jet's end: both commands ran and both digests match, a digest differs, or the checksum row stopped the tensor command
at these rows (R209). -/
inductive JetResult where
  | passed
  | differs
  | stopped (rows : Nat)
deriving DecidableEq, Repr

/-- Core c runs its tensor golden command, then its vector golden command in the golden context of its engine. -/
def Mach.runJet (m : Mach) (c : Nat) (g : GoldenRec) : JetResult × Mach :=
  let t := m.readTCmd c 0 (m.bytes (seqBase c + g.cmd) 64)
  let r := m.runTensor t
  let m := (r.counts t).freeShared t
  let okT := m.tensorDigest t == g.tensor
  let v := m.readVCmd c (m.bytes (seqBase c + g.cmd + 64) 64)
  let s := m.runVector v
  let m' := (m.freeThreads c v.b).foldl (fun m n => m.keepRegs n s.regs.getLast?) (s.counts v)
  let okV := s.digest v == g.vector
  let ran := fun (m : Mach) => (m.bump 429 1).onSafety fun x => { x with jetAt := sput (fun _ => 0) c m.time.count x.jetAt }
  if r.bad ≠ 0 then (.stopped r.bad, ran m) else (if okT && okV then .passed else .differs, ran m')

/-- A detection of a core by its test jet. Its detail, and whether the jet of the recovery fails as well, are not given (R354). -/
def Mach.jetFault (m : Mach) (c : Nat) (cause : Byte) : Mach :=
  let (w, m) := m.free
  let (again, m) := m.free
  let d : Detection :=
    { cause := cause, unit := .core, number := c, detail := w, jetFails := again.bit 0, again := false, addr := 0, reloadFails := false }
  m.detect d

/-- The four islands of core c run, and it is in service and not under recovery. -/
def Mach.jetReady (m : Mach) (c : Nat) : Bool :=
  m.inService c && !m.ccRecovering c && (List.range 4).all fun i => m.runs (4 * c + i)

/-- The test jet of core c. -/
def Mach.jet (m : Mach) (c : Nat) : Mach :=
  match m.jetReady c, m.golden c with
  | true, some g =>
    match m.runJet c g with
    | (.passed, m) => m
    | (.differs, m) => (m.bump 430 1).jetFault c 0x05
    | (.stopped rows, m) => (m.bump 430 1).detect (tensorFault c rows)
  | _, _ => m

/-- The groups whose work core c carries. -/
def Mach.coreGroups (m : Mach) (c : Nat) : Nat := ((m.fpl.plan.place[c]?).map CorePlace.groups).getD 0

/-- The jets of the groups released since they last ran. -/
def Mach.runJets (m : Mach) : Mach :=
  let due := m.safety.jetDue
  let m := m.onSafety fun x => { x with jetDue := [] }
  due.foldl (fun m g => ((List.range 32).filter fun c => (m.coreGroups c).testBit g).foldl Mach.jet m) m

end Sys2Proof.Machine
end

