-- ==== Sys2Proof/Machine/Release.lean ====
section
/-! DEFINITION. The Cistern's happenings that can release an instant, with the test jets a release sets off (R116,
R117, R119, R362). -/

namespace Sys2Proof.Machine

/-- The fusion front end runs, so that instants are due and released (R37, R415). -/
def Mach.frontRuns (m : Mach) : Bool := m.runs 150

def execInstantDue (g : Fin 16) (s : State) : Host.Outcome State Fault Refusal :=
  act s fun m => if m.frontRuns then (m.instantDue g).runJets else m

def execInstantRelease (g : Fin 16) (s : State) : Host.Outcome State Fault Refusal :=
  act s fun m => if m.frontRuns then (m.releaseOne g).runJets else m

/-- Step 4 of a time-epoch reset: every pending instant of group g is released as though its wait limit had expired
(R57, Table 5-4); a front end that stands still releases them when it restarts (R416). -/
def Mach.epochDrain (m : Mach) (g : Nat) : Mach :=
  let x := m.group g
  let m := m.setGroup g { x with sched := x.sched.map fun i => if i.pending then { i with expired := true, epoch := true } else i }
  if m.frontRuns then (List.range (x.sched.filter Inst.pending).length).foldl (fun m _ => m.releaseOne g) m else m

/-- Step 4 for every group. -/
def Mach.epochDrainAll (m : Mach) : Mach := ((List.range 16).foldl Mach.epochDrain m).runJets

end Sys2Proof.Machine
end

