-- ==== Sys2Proof/Machine/TimeLine.lean ====
section
/-! DEFINITION. The time line (R45 to R70): the step of the count, capture, step, rate, time-epoch reset, PTP, PPS and
the 25 MHz reference. -/

namespace Sys2Proof.Machine

/-! ## The count (R45, R55, R68) -/

/-- What a rate correction adds to the count at each tick, in 2^-48 ns: rate · 2^32 / 10^9, rounded down or up where
it is no whole number (log entry 26). -/
def rateStep (rate : Int) : Int :=
  let n := rate * 2 ^ 32
  if n % 1000000000 = 0 then n / 1000000000 else n / 1000000000 + (if Config.rateUp rate then 1 else 0)

/-- The rate error in holdover: at most 100 ppm either way (R68). -/
def holdStep (t : Nat) : Int := (Config.holdover t).toNat % 56294995343 - 28147497671

/-- Nanoseconds and fraction after one tick. -/
def TimeLine.tick (x : TimeLine) : TimeLine :=
  let d : Int := 2 ^ 48 + rateStep x.rate + (if x.refOk then 0 else holdStep x.count.toNat)
  let n := (x.frac.toNat + d.toNat)
  { x with count := x.count + BitVec.ofNat 64 (n / 2 ^ 48), frac := BitVec.ofNat 48 n }

/-! ## Holds that follow the time line -/

/-- Hold 4: SAFE_CFG.require_anchor while unanchored (Table 14-1). -/
def Mach.anchorHold (m : Mach) : Mach :=
  if m.rbit Reg.SAFE_CFG 31 && !m.rbit Reg.TIME_STATUS 0 then m.beginHold 4 else m.endHold 4

/-! ## Capture, step and epoch (R51, R53, R57) -/

/-- TIME_CTRL.capture. -/
def Mach.timeCapture (m : Mach) : Mach :=
  let c := m.time.count
  let w := m.wide
  let m := (m.setReg Reg.TIME_CAP_COUNT_LO (c.setWidth 32)).setReg Reg.TIME_CAP_COUNT_HI (BitVec.ofNat 32 (c.toNat / 2 ^ 32))
  ((m.setReg Reg.TIME_CAP_WSEC_LO (BitVec.ofNat 32 w.sec)).setReg Reg.TIME_CAP_WSEC_HI (BitVec.ofNat 32 (w.sec / 2 ^ 32))).setReg
    Reg.TIME_CAP_WNS (BitVec.ofNat 32 w.ns)

/-- The target of the step registers. -/
def Mach.stepTarget (m : Mach) : Wide :=
  { sec := (m.reg Reg.TIME_STEP_WSEC_LO).toNat + m.fld Reg.TIME_STEP_WSEC_HI 0 16 * 2 ^ 32, ns := (m.reg Reg.TIME_STEP_WNS).toNat }

/-- The step of an epoch: at count c, wide time becomes w. -/
def Mach.applyStep (m : Mach) (c : BitVec 64) (w : Wide) : Mach :=
  let far := m.rbit Reg.TIME_STATUS 0
  let m := m.onTime fun x => { x with
    anchorCount := c, anchorWide := w, step := none, ppsAfter := some c,
    stepAt := if m.hold 3 then some c else x.stepAt }
  let m := (m.setRBit Reg.TIME_STATUS 0 true).setFld Reg.TIME_STATUS 3 2 0
  let m := if far then m else m.setRBit Reg.TIME_STATUS 5 false
  (m.raise Reg.TIME_EVENT 0x4).anchorHold

/-- Short time reaches the time of the armed step. -/
def Mach.stepApplied (m : Mach) : Mach :=
  match m.time.step with
  | some (w, t) => if reached m.now t then m.applyStep (m.time.count - ((m.now - t).setWidth 64)) w else m
  | none => m

def execStepApplied (s : State) : Host.Outcome State Fault Refusal := act s fun m => m.stepApplied

/-- TIME_STEP_AT lies 1 ms to 2 s ahead. -/
def Mach.stepAhead (m : Mach) : Bool :=
  let d := (m.reg Reg.TIME_STEP_AT - m.now).toInt
  decide (1000000 ≤ d) && decide (d ≤ 2000000000)

/-- The armed step latches its target and time. -/
def Mach.arm (m : Mach) : Mach :=
  (m.onTime fun x => { x with step := some (m.stepTarget, m.reg Reg.TIME_STEP_AT) }).setRBit Reg.TIME_STATUS 4 true

/-- A time-epoch reset, steps 1 to 4 (Table 2-2). The record that it was planned has a kind of its own, which the spec
does not number (log entry 27). The Sync messages that lead to the step of the new epoch are counted anew (log entry 129). -/
def Mach.epochReset (m : Mach) : Mach :=
  if m.rbit Reg.TIME_STATUS 3 then m
  else
    let m := ((m.setRBit Reg.TIME_STATUS 3 true).raise Reg.TIME_EVENT 0x8).beginHold 3
    let (w, m) := m.free
    let m := m.lcLog (w.toNat % 256) m.lifeState []
    let st := m.reg Reg.TIME_STATUS
    let st := ((st.setField 16 16 (st.field 16 16 + 1)).setBit 0 false).setBit 5 false |>.setBit 4 false
    let c := m.time.count
    let m := (m.setReg Reg.TIME_STATUS st).onTime fun x => { x with
      anchorCount := c, anchorWide := {}, step := none, ppsAfter := some c, stepAt := none, syncs := [] }
    m.anchorHold.epochDrainAll

/-- A write of TIME_CTRL (R53, R57). A new source begins the count of Sync messages below 100 ns anew (R61); a port that stays
SLAVE keeps the reference that it acquired for a return to PTP (log entry 164). -/
def Mach.timeCtrl (m : Mach) (v : Word) : Effect :=
  let src := v.field 8 2
  let pending := m.rbit Reg.TIME_STATUS 4
  let arm := v.bit 1
  if (arm && v.bit 2) || (pending && src != m.timeSource) ||
      (arm && (m.rbit Reg.TIME_STATUS 0 || pending || src == 1 || !m.stepAhead)) then m.bad
  else
    let m := if src = m.timeSource then m else m.onTime fun x => { x with inLock := 0 }
    let m := (m.setReg Reg.TIME_CTRL (BitVec.ofNat 32 (src * 256))).servoCheck
    let m := if v.bit 0 then m.timeCapture else m
    let m := if arm then m.arm else m
    (false, if v.bit 2 then m.epochReset else m)

/-! ## Rate and TIME_FAR (R55, R56) -/

/-- The rate correction that the two registers spell. -/
def rateOf (lo : Word) (hi : Nat) : Int := signed 40 (lo.toNat + hi % 256 * 2 ^ 32)

def rateMax : Int := 65536000000

/-- A write of TIME_RATE_HI. -/
def Mach.rateHi (m : Mach) (v : Word) : Effect :=
  let r := rateOf (m.reg Reg.TIME_RATE_LO) (v.field 0 8)
  if r < -rateMax ∨ rateMax < r ∨ m.timeSource ≠ 0 then m.bad
  else (false, (m.storeReg Reg.TIME_RATE_HI v).onTime fun x => { x with rate := r })

/-- A reported offset raises TIME_FAR where it is beyond the slew bound. -/
def Mach.report (m : Mach) (off : Word) : Mach :=
  let m := m.onTime fun x => { x with offset := off }
  let bound := m.fld Reg.TIME_FAR_CFG 0 10 * m.fld Reg.TIME_FAR_CFG 16 12 * 1000
  if off = 0x80000000 ∨ bound < off.toInt.natAbs then (m.setRBit Reg.TIME_STATUS 5 true).raise Reg.TIME_EVENT 0x10 else m

/-- A write of TIME_OFFSET_REPORT. -/
def Mach.offsetWrite (m : Mach) (v : Word) : Effect := if m.timeSource ≠ 0 then m.bad else (false, m.report v)

/-! ## What the TIME block makes of a write -/

/-- A write of TIME_PPS_CFG: out_mode off holds PPS_OUT low; a disabled input has no reference. The last accepted edge stays
known, and an edge within 100 ms of it is ignored though the input was disabled between them (R65). -/
def Mach.ppsCfg (m : Mach) (v : Word) : Mach :=
  let m := m.storeReg Reg.TIME_PPS_CFG v
  let m := if v.field 0 2 = 0 then m.onTime fun x => { x with ppsOut := false } else m
  (if v.bit 5 then m else m.onTime fun x => { x with ppsRef := false }).servoCheck

/-- Ports with role slave only and a profile other than off. -/
def slaveOnly (w : Word) : Bool := w.field 10 2 == 2 && w.field 4 3 != 0

/-- A PTP port whose profile is off or whose MAC is disabled is DISABLED (R39, log entry 130). -/
def Mach.ptpSettle (m : Mach) (p : Nat) : Mach :=
  if m.fld (Reg.TIME_PTP_CFG p) 4 3 = 0 || !m.rbit (Reg.SNS_MAC_CFG p) 31 then (m.ptpState p 3).servoCheck else m

/-- A write of TIME_PTP_CFGp. A role that bars the port's present state leaves that state until a message or a timeout gives another
(log entry 130). -/
def Mach.ptpCfg (m : Mach) (a : Nat) (v : Word) : Mach := (m.storeReg a v).ptpSettle ((a - 0x20080) / 16)

/-- The TIME block's own rules (R53 to R57, R70). -/
def Mach.timeWrite (m : Mach) (a : Nat) (v : Word) : Effect :=
  let o := a - 0x20000
  if o = 0 then m.timeCtrl v
  else if o = 0x38 then m.rateHi v
  else if o = 0x3C then m.offsetWrite v
  else if o = 0x44 then (false, m.ppsCfg v)
  else if 0x80 ≤ o ∧ o % 16 = 0 then
    let others := (List.range 4).any fun p => Reg.TIME_PTP_CFG p != a && slaveOnly (m.reg (Reg.TIME_PTP_CFG p))
    if slaveOnly v && others then m.bad else (false, m.ptpCfg a v)
  else (false, m.storeReg a v)

/-- A named write of the TIME block. -/
def Mach.timeArrive (m : Mach) (a : Nat) (v : Word) : Mach := m.arriveWith a v (m.timeWrite a v)

def execTimeCapture (s : State) : Host.Outcome State Fault Refusal :=
  act s fun m => m.timeArrive Reg.TIME_CTRL ((m.reg Reg.TIME_CTRL).setBit 0 true)

def execStepArm (s : State) : Host.Outcome State Fault Refusal :=
  act s fun m => m.timeArrive Reg.TIME_CTRL ((m.reg Reg.TIME_CTRL).setBit 1 true)

def execTimeEpochReset (s : State) : Host.Outcome State Fault Refusal :=
  act s fun m => m.timeArrive Reg.TIME_CTRL ((m.reg Reg.TIME_CTRL).setBit 2 true)

def execTimeSourceSelect (src : BitVec 2) (s : State) : Host.Outcome State Fault Refusal :=
  act s fun m => m.timeArrive Reg.TIME_CTRL (BitVec.ofNat 32 (src.toNat * 256))

def execRateCorrectionWrite (hi : Word) (s : State) : Host.Outcome State Fault Refusal :=
  act s fun m => m.timeArrive Reg.TIME_RATE_HI hi

def execTimeOffsetReport (off : Word) (s : State) : Host.Outcome State Fault Refusal :=
  act s fun m => m.timeArrive Reg.TIME_OFFSET_REPORT off

/-! ## The servo and PTP (R58 to R62) -/

/-- The largest slew either way, in rate units: slew_ppm. -/
def Mach.slewMax (m : Mach) : Int := m.fld Reg.TIME_FAR_CFG 0 10 * 65536000

/-- A servo update: it sets the rate within the slew limit and reports the offset. -/
def Mach.servoUpdate (m : Mach) (rate : BitVec 40) (off : Word) : Mach :=
  if m.servoCheck.rbit Reg.TIME_STATUS 2 then
    let r := max (-m.slewMax) (min m.slewMax rate.toInt)
    let b := (BitVec.ofInt 40 r).toNat
    let m := (m.setReg Reg.TIME_RATE_LO (BitVec.ofNat 32 b)).setReg Reg.TIME_RATE_HI (BitVec.ofNat 32 (b / 2 ^ 32))
    (m.onTime fun x => { x with rate := r }).report off
  else m

def execServoUpdate (rate : BitVec 40) (off : Word) (s : State) : Host.Outcome State Fault Refusal :=
  act s fun m => m.servoUpdate rate off

/-- A PTP port is in use: its MAC is enabled, a profile is on, and the management core runs. -/
def Mach.ptpServed (m : Mach) (p : Nat) : Bool :=
  m.rbit (Reg.SNS_MAC_CFG p) 31 && m.fld (Reg.TIME_PTP_CFG p) 4 3 != 0 && m.mgmtRuns

/-- It is in use and its link is up. -/
def Mach.ptpOn (m : Mach) (p : Nat) : Bool := m.macUp p && m.ptpServed p

/-- The transport of a port (Table 2-13). -/
def Mach.ptpTransport (m : Mach) (p : Nat) : PtpTransport :=
  match m.fld (Reg.TIME_PTP_CFG p) 7 2 with
  | 1 => .ipv4
  | 2 => .ipv6
  | _ => .layer2

/-- A state that the port's fixed role allows (Table 2-13): a master-only port never becomes SLAVE or UNCALIBRATED, a
slave-only port never PRE_MASTER or MASTER, a passive port none of these (log entry 130). -/
def Mach.roleAllows (m : Mach) (p st : Nat) : Bool :=
  match m.fld (Reg.TIME_PTP_CFG p) 10 2 with
  | 1 => !(st == 8 || st == 9)
  | 2 => !(st == 5 || st == 6)
  | 3 => !(st == 5 || st == 6 || st == 8 || st == 9)
  | _ => true

/-- The messages that a port's profile knows: peer delay under 802.1AS and peer-to-peer, delay requests under the default
delay request-response profile (Tables 2-3 and 2-13). -/
def Mach.profileKnows (m : Mach) (p : Nat) (k : PtpKind) : Bool :=
  let peer := m.fld (Reg.TIME_PTP_CFG p) 4 3 != 2
  match k with
  | .delayRequest | .delayResponse => !peer
  | .peerDelayRequest | .peerDelayResponse | .peerDelayFollowUp => peer
  | .sync | .followUp | .announce => true

/-- An event message, which is stamped at the pins (R60). -/
def ptpEvent : PtpKind → Bool
  | .sync | .delayRequest | .peerDelayRequest | .peerDelayResponse => true
  | _ => false

/-- A Sync message on a port in SLAVE state with source PTP (R61). -/
def Mach.ptpSync (m : Mach) (p : Nat) (msg : PtpRx) : Mach :=
  let n := if msg.delayValid then sget (fun _ => 0) m.time.syncs p + 1 else 0
  let m := m.onTime fun x => { x with
    syncs := sput (fun _ => 0) p n x.syncs
    inLock := if msg.offset.toInt.natAbs < 100 then x.inLock + 1 else 0 }
  if 4 ≤ n ∧ (m.time.ptpRef = none ∨ m.time.ptpRef = some p) then
    let m := m.onTime fun x => { x with ptpRef := some p }
    if m.rbit Reg.TIME_STATUS 0 then m else m.applyStep m.time.count { sec := msg.gmSec.toNat, ns := msg.gmNs.toNat }
  else m

/-- The stamp of a value of the count, before the anchor or after it (R47, R60). -/
def Mach.ptpStamp (m : Mach) (c : BitVec 64) : Wide :=
  let t : Int := m.time.anchorWide.total + (c - m.time.anchorCount).toInt
  { sec := (t / 1000000000 % 2 ^ 48).toNat, ns := (t % 1000000000).toNat }

/-- A PTP message received: one of the port's transport and domain, of its profile, whatever VLAN tag it carries (log entry 130). An
event message is stamped, with the ingress latency subtracted (R60). -/
def Mach.ptpRx (m : Mach) (p : Nat) (msg : PtpRx) : Mach :=
  if m.ptpOn p && msg.transport == m.ptpTransport p && msg.domain.toNat == m.fld Reg.TIME_PTP_CLOCK 0 8 && m.profileKnows p msg.kind then
    let w := m.ptpStamp (m.time.count - BitVec.ofNat 64 (m.fld (Reg.TIME_PTP_LAT p) 0 16))
    let m := if ptpEvent msg.kind then m.onTime fun x => { x with ptpRxStamp := sput (fun _ => {}) p w x.ptpRxStamp } else m
    let m := if m.roleAllows p msg.state.toNat then m.ptpState p msg.state else m
    let m := if msg.delayValid then m.setReg (Reg.TIME_PTP_DELAY p) msg.delay else m
    let slave := m.fld (Reg.TIME_PTP_STAT p) 0 4 == 9
    let m := if msg.kind == .sync && slave && m.timeSource == 1 then m.ptpSync p msg else m
    m.servoCheck
  else m

def execPtpMessageRx (m : Fin 4) (msg : PtpRx) (s : State) : Host.Outcome State Fault Refusal := act s fun x => x.ptpRx m msg

/-- The clockClass announced (R62). -/
def Mach.clockClass (m : Mach) : BitVec 8 :=
  if m.rbit Reg.TIME_STATUS 0 then BitVec.ofNat 8 (m.fld Reg.TIME_PTP_CLOCK 8 8) else 248

/-- The messages that a port's role lets it send: a slave-only or passive port sends no Sync, Follow_Up, Announce or
Delay_Resp, a master-only or passive port no Delay_Req (log entry 130). -/
def Mach.roleSends (m : Mach) (p : Nat) (k : PtpKind) : Bool :=
  match k with
  | .sync | .followUp | .announce | .delayResponse => m.roleAllows p 6
  | .delayRequest => m.roleAllows p 9
  | _ => true

/-- One-step transmit on a port (Table 2-13). -/
def Mach.oneStep (m : Mach) (p : Nat) : Bool := m.rbit (Reg.TIME_PTP_CFG p) 9

/-- The time that a message carries: the origin time that the MAC inserts into a one-step Sync; the stamp of the Sync in a
Follow_Up; the receipt of the request in a Delay_Resp and in a two-step Pdelay_Resp; the stamp of the response in its
follow-up (R60, log entry 130). -/
def Mach.ptpTime (m : Mach) (p : Nat) (k : PtpKind) (stamp : Wide) : Option Wide :=
  match k with
  | .sync => if m.oneStep p then some stamp else none
  | .followUp => some (sget (fun _ => {}) m.time.ptpSyncStamp p)
  | .delayResponse => some (sget (fun _ => {}) m.time.ptpRxStamp p)
  | .peerDelayResponse => if m.oneStep p then none else some (sget (fun _ => {}) m.time.ptpRxStamp p)
  | .peerDelayFollowUp => some (sget (fun _ => {}) m.time.ptpRespStamp p)
  | _ => none

/-- A PTP message transmitted (R60, R62). -/
def Mach.ptpFrame (m : Mach) (p : Nat) (k : PtpKind) : PtpSent :=
  let stamp := m.ptpStamp (m.time.count + BitVec.ofNat 64 (m.fld (Reg.TIME_PTP_LAT p) 16 16))
  let clock := m.reg Reg.TIME_PTP_CLOCK
  let byte := fun (n : Nat) => BitVec.ofNat 8 n
  let inserted := m.oneStep p && (k == .sync || k == .peerDelayResponse)
  { mac := p, kind := k, transport := m.ptpTransport p, vlan := m.macVlan p, domain := byte (clock.field 0 8), stamp := stamp
    time := m.ptpTime p k stamp
    correction := if m.oneStep p && k == .peerDelayResponse then
        some (stamp.total - (sget (fun _ => {}) m.time.ptpRxStamp p : Wide).total) else none
    checksum := match inserted, m.ptpTransport p with
      | true, .ipv4 => .cleared
      | true, .ipv6 => .corrected
      | _, _ => .absent
    announced := if k = .announce then
        some (byte (clock.field 24 8), byte (clock.field 16 8), m.clockClass, BitVec.ofNat 16 (m.fld Reg.TIME_UTC_OFFSET 0 16)) else none }

def Mach.ptpTx (m : Mach) (p : Nat) (k : PtpKind) : Mach :=
  if m.ptpOn p && m.profileKnows p k && m.roleSends p k then
    let f := m.ptpFrame p k
    m.onTime fun x => { x with
      ptpSent := x.ptpSent ++ [f]
      ptpSyncStamp := if k = .sync then sput (fun _ => {}) p f.stamp x.ptpSyncStamp else x.ptpSyncStamp
      ptpRespStamp := if k = .peerDelayResponse then sput (fun _ => {}) p f.stamp x.ptpRespStamp else x.ptpRespStamp }
  else m

def execPtpMessageTx (m : Fin 4) (msg : PtpKind) (s : State) : Host.Outcome State Fault Refusal := act s fun x => x.ptpTx m msg

/-- A port that stops receiving from its master takes the state that the best master clock algorithm gives, whether its link
is up or down. -/
def Mach.ptpTimeout (m : Mach) (p : Nat) (st : BitVec 4) : Mach :=
  if m.ptpServed p && m.roleAllows p st.toNat then (m.ptpState p st).servoCheck else m

def execPtpAnnounceTimeout (m : Fin 4) (st : BitVec 4) (s : State) : Host.Outcome State Fault Refusal :=
  act s fun x => x.ptpTimeout m st

/-! ## PPS (R64, R65) -/

/-- PPS_OUT runs in this mode and epoch. -/
def Mach.ppsRuns (m : Mach) : Bool :=
  match m.fld Reg.TIME_PPS_CFG 0 2 with
  | 1 => m.rbit Reg.TIME_STATUS 0
  | 2 => true
  | _ => false

/-- Wide time enters a new second: at nanosecond 0, or at 1 where the count advanced by 2 over it. The first second at
least 1 ms after a step brings no rising edge where the pulse from before the step is still high then; the next one does (log
entry 131). -/
def Mach.ppsRise (m : Mach) : Mach :=
  let clear := match m.time.ppsAfter with
    | some c => decide (1000000 + m.wide.ns ≤ (m.time.count - c).toNat)
    | none => true
  if m.ppsRuns && clear && !m.time.ppsOut && decide (m.wide.ns ≤ 1) then
    m.onTime fun x => { x with ppsOut := true, ppsRise := x.count }
  else m

def execPpsOutRise (s : State) : Host.Outcome State Fault Refusal := act s fun m => m.ppsRise

/-- The pulse has had its width. -/
def Mach.ppsFall (m : Mach) : Mach :=
  if m.time.ppsOut && decide (m.fld Reg.TIME_PPS_CFG 16 9 * 1000000 ≤ (m.time.count - m.time.ppsRise).toNat) then
    m.onTime fun x => { x with ppsOut := false }
  else m

def execPpsOutFall (s : State) : Host.Outcome State Fault Refusal := act s fun m => m.ppsFall

/-- An edge at PPS_IN. The last accepted edge counts for the reference though the input was disabled since (log entry 164). -/
def Mach.ppsEdge (m : Mach) (rising : Bool) : Mach :=
  if m.rbit Reg.TIME_PPS_CFG 5 && rising != m.rbit Reg.TIME_PPS_CFG 4 then
    let since := m.time.ppsIn.map fun c => (m.time.count - c).toNat
    if since.any fun d => decide (d ≤ 100000000) then m.bump 433 1
    else
      let m := m.onTime fun x => { x with ppsIn := some x.count, ppsRef := since.any fun d => decide (d ≤ 2000000000) }
      ((m.setReg Reg.TIME_PPSIN_STAMP m.now).raise Reg.TIME_EVENT 0x40).servoCheck.ppsTrigger m.now
  else m

def execPpsInEdge (rising : Bool) (s : State) : Host.Outcome State Fault Refusal := act s fun m => m.ppsEdge rising

/-- 2 s without an accepted edge. -/
def Mach.ppsLoss (m : Mach) : Mach :=
  if m.time.ppsIn.any fun c => decide (2000000000 ≤ (m.time.count - c).toNat) then
    (m.onTime fun x => { x with ppsRef := false }).servoCheck
  else m

def execPpsInReferenceLoss (s : State) : Host.Outcome State Fault Refusal := act s fun m => m.ppsLoss

/-! ## The 25 MHz reference (R68, Table 14-3) -/

/-- The loss as a detection of the supervisor. -/
def referenceFault : Detection :=
  { cause := 0x0E, unit := .timebase, number := 144, detail := 0, jetFails := false, again := false, addr := 0, reloadFails := false }

/-- The reference is lost: holdover, hold 5. -/
def Mach.refLost (m : Mach) : Mach :=
  if m.time.refOk then
    let m := m.onTime fun x => { x with refOk := false, refLostAt := x.count }
    let m := (m.setRBit Reg.TIME_STATUS 6 true).raise Reg.TIME_EVENT 0x20
    let m := (m.bump 424 1).freezeOnFault
    let m := m.oneClock Reg.SAFE_EVENT fun m => (((m.beginHold 5).bump 425 1).incReg Reg.SAFE_TRANSIENT).raise Reg.SAFE_EVENT 0x2
    (m.logFault referenceFault 0).2.stillOnFault
  else m

def execReferenceLost (s : State) : Host.Outcome State Fault Refusal := act s fun m => m.refLost

/-- The reference returns: the instants whose Tk lies within the loss stay discarded. -/
def Mach.refReturn (m : Mach) : Mach :=
  if m.time.refOk then m
  else
    let m := m.onTime fun x => { x with refOk := true, losses := x.losses ++ [(x.refLostAt, x.count)] }
    ((m.setRBit Reg.TIME_STATUS 6 false).raise Reg.TIME_EVENT 0x20).endHold 5

def execReferenceReturn (s : State) : Host.Outcome State Fault Refusal := act s fun m => m.refReturn

end Sys2Proof.Machine
end

