-- ==== Sys2Proof/Machine/BlockWrite.lean ====
section
/-! DEFINITION. What the blocks that a floorplan configures make of a write: PNT, EGR with its queue windows, and the
one dispatch over TIME, CQ, SNS, STR, FUS, CAL, PNT, EGR and NET (R184, R269, R284). -/

namespace Sys2Proof.Machine

/-- The registers of PNT that describe tables: they change only by move-in (Table 7-8). The counters beside them are
read-only, and a write of one is ignored (R16). -/
def pntDescriptor (a : Nat) : Bool :=
  decide (0x201000 ≤ a ∧ a < 0x203000) && (rowAt a).any fun r => r.1.acc == .rw

def Mach.pntWrite (m : Mach) (a : Nat) (v : Word) : Effect := if pntDescriptor a then m.bad else (false, m.storeReg a v)

/-- The group whose grid or track registers an address of EGR belongs to is enabled or draining (Table 11-11). -/
def Mach.egrBusy (m : Mach) (o : Nat) : Bool :=
  if 0x400 ≤ o ∧ o < 0x800 then m.fusBusy ((o - 0x400) / 0x40)
  else if 0x1100 ≤ o ∧ o < 0x1140 then m.fusBusy ((o - 0x1100) / 4)
  else decide (0x1000 ≤ o ∧ o < 0x1100) && (List.range 16).any fun g => m.fusBusy g && m.trkCount g != 0

/-- The host queue whose window holds an offset of EGR. -/
def windowAt (o : Nat) : Option HostQ :=
  if 0x2000 ≤ o ∧ o < 0x2200 then some .result
  else if 0x2200 ≤ o ∧ o < 0x2400 then some .inject
  else none

def Mach.egrWrite (m : Mach) (a : Nat) (v : Word) : Effect :=
  let o := a - 0x280000
  match windowAt o with
  | some h =>
    if a = Reg.Q_CMD (hqWindow h) then m.hqCommand h v
    else if a = Reg.Q_WDATA (hqWindow h) then m.hqWrite h v
    else (false, m.storeReg a v)
  | none => if m.egrBusy o && ((rowAt a).any fun r => r.1.acc == .rw) then m.bad else (false, m.storeReg a v)

/-- A write of a block that a floorplan configures. -/
def Mach.planWrite (m : Mach) (b : Block) (a : Nat) (v : Word) : Effect :=
  match b with
  | .time => m.timeWrite a v
  | .cq => m.cqWrite a v
  | .sns => m.snsWrite a v
  | .str => m.strWrite a v
  | .fus => m.fusWrite a v
  | .cal => m.calWrite a v
  | .pnt => m.pntWrite a v
  | .egr => m.egrWrite a v
  | .net => m.netWrite a v
  | _ => (false, m.storeReg a v)

end Sys2Proof.Machine
end

