-- ==== Sys2Proof/Machine/ConfigCheck.lean ====
section
/-! DEFINITION. The configuration check (R367 to R369): its CRC, the commit, and the passes. -/

namespace Sys2Proof.Machine

/-- CRC-32C of the whole configuration, and the words it covers. -/
def Mach.configCrc (m : Mach) : Word := crcOut ((List.range 19).foldl (fun c n => crcRun c (m.segBytes n)) 0xFFFFFFFF#32)
def Mach.configWords (m : Mach) : Nat := ((List.range 19).map fun n => (m.segBytes n).length / 4).sum

/-! ## Commit (R368, R369) -/

/-- CCHK_OPEN and the bit of SEC_STATUS that shows it. -/
def Mach.setOpen (m : Mach) (on : Bool) : Mach := (m.setRBit Reg.CCHK_OPEN 0 on).setRBit Reg.SEC_STATUS 7 on

/-- The configuration copy takes the registers of every segment and the active calibration entries. -/
def Mach.takeCopy (m : Mach) : Mach :=
  let addrs := ((List.range 12).flatMap segRegs).map Prod.fst ++ (List.range 256).flatMap fun s => (List.range 64).map fun j => Reg.CAL_ACTIVE s j
  (m.onFpl fun f => { f with copy := addrs.foldl (fun t a => sput regReset a (m.reg a) t) [] }).copyWords

/-- The configuration is committed: RWL fields lock, and hold 8 ends. -/
def Mach.commit (m : Mach) : Mach :=
  let crc := m.configCrc
  let m := ((m.setRBit Reg.CCHK_STATUS 1 true).setRBit Reg.CCHK_STATUS 2 false).setRBit Reg.CCHK_STATUS 3 true
  let m := (m.setReg Reg.CCHK_COMMITTED crc).setReg Reg.CCHK_COUNT (BitVec.ofNat 32 m.configWords)
  let m := (((m.setReg Reg.CCHK_LAST crc).incReg Reg.CCHK_PASSES).bump 432 1).onSafety fun x => { x with
    segCrc := (List.range 19).foldl (fun t n => sput (fun _ => 0) n (crcOut (crcRun 0xFFFFFFFF#32 (m.segBytes n))) t) []
    segment := 0, passOk := true, passCrc := 0xFFFFFFFF, commitAt := some m.time.count }
  ((m.setOpen false).endHold 8).takeCopy

/-- CCHK_CTRL.commit: a full pass against CCHK_REF begins. -/
def Mach.commitStart (m : Mach) : Mach :=
  (m.setRBit Reg.CCHK_STATUS 2 true).setRBit Reg.CCHK_STATUS 4 false

/-- A write of a CCHK register; a commit begun already goes on. -/
def Mach.cchkWrite (m : Mach) (a : Nat) (v : Word) : Effect :=
  if a = Reg.CCHK_CTRL then (false, if v.bit 0 && m.phase < 2 then m.commitStart else m) else (false, m.storeReg a v)

def execCchkCommit (s : State) : Host.Outcome State Fault Refusal :=
  act s fun m => m.arriveWith Reg.CCHK_CTRL 1 (m.cchkWrite Reg.CCHK_CTRL 1)

/-- The commit pass ends. -/
def Mach.commitDone (m : Mach) : Mach :=
  if !m.rbit Reg.CCHK_STATUS 2 || decide (2 ≤ m.phase) then m
  else if m.configCrc = m.reg Reg.CCHK_REF then m.commit
  else (m.setRBit Reg.CCHK_STATUS 2 false).setRBit Reg.CCHK_STATUS 4 true

def execCchkCommitDone (s : State) : Host.Outcome State Fault Refusal := act s fun m => m.commitDone

/-! ## Passes (R367) -/

/-- A configuration fault of a segment or an entry (Table 14-2). -/
def configDetection (cause : Byte) (n : Nat) : Detection :=
  { cause := cause, unit := .config, number := n, detail := BitVec.ofNat 32 n, jetFails := false, again := false, addr := 0,
    reloadFails := false }

/-- Registers of segment n may differ from what was committed: while CCHK_OPEN is set the owner changes them, and what Show Home has
changed since the last report boundary is committed at the next (log entry 30). -/
def Mach.segOpen (m : Mach) (n : Nat) : Bool := decide (n < 12) && (m.rbit Reg.CCHK_OPEN 0 || m.sh.changed)

/-- Segment n does not hold what was committed, nor what has been written since by one who may. -/
def Mach.segMismatch (m : Mach) (n : Nat) : Bool :=
  m.rbit Reg.CCHK_STATUS 1 && !m.segOpen n &&
    sget (fun _ => 0) m.safety.segCrc n != crcOut (crcRun 0xFFFFFFFF#32 (m.segBytes n))

/-- The active calibration entries whose crc fails (R143). -/
def Mach.badEntries (m : Mach) : List Nat :=
  (List.range 256).filter fun s => crc32c ((m.calEntry false s).take 252) != w32 (m.calEntry false s) 252

/-- The pass ends after segment 18: its CRC, its count, its outcome, and the calibration entries. -/
def Mach.passEnd (m : Mach) : Mach :=
  let x := m.safety
  let bad := m.badEntries
  let ok := x.passOk && bad.isEmpty
  let m := (((m.setReg Reg.CCHK_LAST (crcOut x.passCrc)).incReg Reg.CCHK_PASSES).bump 432 1).setRBit Reg.CCHK_STATUS 3 ok
  let m := m.onSafety fun x => { x with segment := 0, passOk := true, passCrc := 0xFFFFFFFF }
  bad.foldl (fun m s => m.detect (configDetection 0x0D s)) m

/-- One segment of the pass is read and compared. -/
def Mach.checkSegment (m : Mach) : Mach :=
  let n := m.safety.segment
  let wrong := m.segMismatch n
  let m := m.onSafety fun x => { x with
    segment := n + 1, passOk := x.passOk && !wrong, passCrc := crcRun x.passCrc (m.segBytes n) }
  let m := if wrong then (m.setReg Reg.CCHK_MISMATCH (BitVec.ofNat 32 n)).detect (configDetection 0x0C n) else m
  if n < 18 then m else m.passEnd

def execConfigCheckSegment (s : State) : Host.Outcome State Fault Refusal :=
  act s fun m => if m.rbit Reg.CCHK_STATUS 1 then m.checkSegment else m

end Sys2Proof.Machine
end

