-- ==== Sys2Proof/Machine/Control.lean ====
section
/-! DEFINITION. The control cores: their instructions (R308 to R313), their signature checker (R352), the waits and
barriers that end later, and the halt, resume and step of the debug port (R315, R413). A command names the
instruction that core c issues next; CC_STEP takes it from sequencer memory. -/

namespace Sys2Proof.Machine

/-! ## Registers, program counter and memory of a control core -/


/-- General register n of control core c; g0 reads 0 (R308). -/
def Mach.greg (m : Mach) (c n : Nat) : Word := if n = 0 then 0 else sget (fun _ => 0) (m.cc c).regs n

/-- A write of g0 is discarded (R308). -/
def Mach.setGreg (m : Mach) (c n : Nat) (v : Word) : Mach :=
  if n = 0 then m else m.onCc c fun x => { x with regs := sput (fun _ => 0) n v x.regs }

/-- The cluster of a control core, its index there, and the island that clocks it (Table 1-4). -/
def ccCluster (c : Nat) : Nat := if c < 32 then c / 4 else c - 32
def ccIndex (c : Nat) : Nat := if c < 32 then c % 4 else 4
def ccIsland (c : Nat) : Nat := if c < 32 then 4 * c + 3 else 128 + 2 * (c - 32)

/-- The next instruction in order. -/
def Mach.advance (m : Mach) (c : Nat) : Mach := m.onCc c fun x => { x with pc := x.pc + 4 }

/-- A record of control core c; the instruction count of BRANCH records begins again. -/
def Mach.traceCc (m : Mach) (c b kind : Nat) (needsDebug : Bool) (payload : List Byte) : Mach :=
  if m.tracesCore c b && (!needsDebug || m.debugAccess) then
    (m.trace c kind 0 (leBytes 4 (m.cc c).pc.toNat ++ payload)).onCc c fun x => { x with sinceTrace := 0 }
  else m

/-- A control core that stops at an instruction: its code, CLU_EVENT.trap and the HALT record (R313). -/
def Mach.ccStop (m : Mach) (c : Nat) (code : BitVec 16) : Mach :=
  let m := m.onCc c fun x => { x with state := .halted, code := code, stepping := false }
  (m.raise (Reg.CLU_EVENT (ccCluster c)) 0x1).traceCc c 3 0x05 false (leBytes 2 code.toNat)

/-- A stepped core halts again once its instruction has completed, with a HALT record and its halt code as it was (R407, R413). -/
def Mach.stepEnd (m : Mach) (c : Nat) : Mach :=
  if (m.cc c).stepping && (m.cc c).state == .running then
    (m.onCc c fun x => { x with stepping := false, state := .halted, debugHalt := some .running }).traceCc c 3 0x05 false
      (leBytes 2 (m.cc c).code.toNat)
  else m

/-- Control core c is clocked and not under a self-test segment: otherwise it holds all of its state (R37, R363). -/
def Mach.ccAwake (m : Mach) (c : Nat) : Bool := m.runs (ccIsland c) && (decide (32 ≤ c) || !m.inSelfTest c)

/-! ## The signature checker (R352) -/

def wordOpcode (w : Word) : Nat := w.field 26 6

/-- ORI g0, g0, imm. -/
def isCheckpoint (w : Word) : Bool := w.field 16 16 == 0x0C00

/-- A branch, a jump or JALR. -/
def isTransfer (w : Word) : Bool := decide (0x20 ≤ wordOpcode w) && decide (wordOpcode w ≤ 0x27)

/-- The checker at the issue of a word: none where a rule is broken. -/
def sigIssue (x : Core) (w : Word) : Option Core :=
  if isCheckpoint w then
    if x.sigOpen && x.sigCrc != x.sigWant then none
    else some { x with sigOpen := true, sigCrc := 0xFFFF, sigWant := w.setWidth 16, sigNeed := false, sigCount := 0 }
  else if x.sigNeed || 3000 ≤ x.sigCount then none
  else
    let crc := (wordBytes w).foldl crc16Byte x.sigCrc
    let x := { x with sigCrc := crc, sigCount := x.sigCount + 1 }
    if isTransfer w then
      if x.sigOpen && crc != x.sigWant then none
      else some { x with sigOpen := false, sigNeed := true }
    else some x

/-- Control core c can issue an instruction. -/
def Mach.ccReady (m : Mach) (c : Nat) : Bool :=
  (m.cc c).state == .running && m.ccAwake c && !m.ccRecovering c && (decide (32 ≤ c) || m.inService c)

/-- The fault of a broken signature, charged to the core or the cluster (Table 14-3). -/
def sigFault (c : Nat) : Detection :=
  { cause := 0x0A, unit := if c < 32 then .core else .cluster, number := if c < 32 then c else c - 32, detail := 0,
    jetFails := false, again := false, addr := 0, reloadFails := false }

/-- Core c issues the instruction of word w: the checker first, then its effect. -/
def Mach.ccIssue (m : Mach) (c : Nat) (w : Word) (body : Mach → Mach) : Mach :=
  if m.ccReady c then
    match sigIssue (m.cc c) w with
    | none => m.detect (sigFault c)
    | some x => (body (m.setCc c { x with sinceTrace := x.sinceTrace + 1 })).stepEnd c
  else m

/-! ## Encodings (Tables 12-5, 12-6) -/

def encR (func rd ra rb : Nat) : Word := BitVec.ofNat 32 (rd * 2 ^ 21 + ra * 2 ^ 16 + rb * 2 ^ 11 + func)
def encI (op rd ra : Nat) (imm : BitVec 16) : Word := BitVec.ofNat 32 (op * 2 ^ 26 + rd * 2 ^ 21 + ra * 2 ^ 16 + imm.toNat)
def encJ (off : BitVec 26) : Word := BitVec.ofNat 32 (0x26 * 2 ^ 26 + off.toNat)
def encWait (rd rv : Nat) (kind : BitVec 2) (rt : Nat) (obj : BitVec 8) : Word :=
  BitVec.ofNat 32 (0x31 * 2 ^ 26 + rd * 2 ^ 21 + rv * 2 ^ 16 + kind.toNat * 2 ^ 14 + rt * 2 ^ 9 + obj.toNat)
def encSignal (rv : Nat) (kind : BitVec 2) (obj : BitVec 8) : Word :=
  BitVec.ofNat 32 (0x32 * 2 ^ 26 + rv * 2 ^ 16 + kind.toNat * 2 ^ 14 + obj.toNat)

/-! ## Effects -/

/-- rd takes a value and the core goes on. -/
def Mach.ccSet (m : Mach) (c rd : Nat) (v : Word) : Mach := (m.setGreg c rd v).advance c

/-- Register-register arithmetic. -/
def ccAlu (m : Mach) (c rd ra rb : Nat) (f : Word → Word → Word) : Mach :=
  m.ccSet c rd (f (m.greg c ra) (m.greg c rb))

/-- Arithmetic with an immediate. -/
def ccAluI (m : Mach) (c rd ra : Nat) (v : Word) (f : Word → Word → Word) : Mach :=
  m.ccSet c rd (f (m.greg c ra) v)

def zext (i : BitVec 16) : Word := i.setWidth 32
def sext (i : BitVec 16) : Word := i.signExtend 32
def boolWord (b : Bool) : Word := if b then 1 else 0

/-- The shift amount: the low five bits. -/
def shamt (w : Word) : Nat := w.toNat % 32

def opSll (a b : Word) : Word := a <<< shamt b
def opSrl (a b : Word) : Word := a >>> shamt b
def opSra (a b : Word) : Word := a.sshiftRight (shamt b)
def opSlt (a b : Word) : Word := boolWord (decide (a.toInt < b.toInt))
def opSltu (a b : Word) : Word := boolWord (decide (a.toNat < b.toNat))
def opMulhu (a b : Word) : Word := BitVec.ofNat 32 (a.toNat * b.toNat / 2 ^ 32)
def opMin (a b : Word) : Word := if b.toInt < a.toInt then b else a
def opMax (a b : Word) : Word := if a.toInt < b.toInt then b else a
def opMinu (a b : Word) : Word := if b.toNat < a.toNat then b else a
def opMaxu (a b : Word) : Word := if a.toNat < b.toNat then b else a

/-- Address of a load or a store, or none where it is misaligned or above 0x3_FFFF (R313). -/
def Mach.ccAddr (m : Mach) (c ra : Nat) (imm : BitVec 16) (size : Nat) : Option Nat :=
  let a := (m.greg c ra + sext imm).toNat
  if a % size = 0 ∧ a < seqSize then some (seqBase c + a) else none

/-- A load of `size` bytes, made a word by `f`. -/
def ccLoad (m : Mach) (c rd ra : Nat) (imm : BitVec 16) (size : Nat) (f : Nat → Word) : Mach :=
  match m.ccAddr c ra imm size with
  | some a => m.ccSet c rd (f (m.le a size))
  | none => m.ccStop c 0xFFFF

/-- A store of the low `size` bytes of rs. -/
def ccStore (m : Mach) (c rs ra : Nat) (imm : BitVec 16) (size : Nat) : Mach :=
  match m.ccAddr c ra imm size with
  | some a => (m.setLe a size (m.greg c rs).toNat).advance c
  | none => m.ccStop c 0xFFFF

/-- A taken transfer: the BRANCH record and the new pc. -/
def Mach.ccJump (m : Mach) (c : Nat) (target : BitVec 18) : Mach :=
  (m.traceCc c 1 0x02 true (leBytes 4 target.toNat ++ leBytes 4 (m.cc c).sinceTrace.toNat)).onCc c
    fun x => { x with pc := target }

/-- A conditional branch (offset in words, from the branch). -/
def ccBranch (m : Mach) (c ra rb : Nat) (off : BitVec 16) (p : Word → Word → Bool) : Mach :=
  if p (m.greg c ra) (m.greg c rb) then
    m.ccJump c ((m.cc c).pc + BitVec.ofInt 18 (4 * off.toInt))
  else m.advance c

/-- JAL: g31 = pc + 4. -/
def ccJalBody (m : Mach) (c : Nat) (off : BitVec 26) : Mach :=
  let pc := (m.cc c).pc
  (m.setGreg c 31 ((pc + 4).setWidth 32)).ccJump c (pc + BitVec.ofInt 18 (4 * off.toInt))

/-- JALR: a target above 0x3_FFFF halts the core (R313). -/
def ccJalrBody (m : Mach) (c rd ra : Nat) (imm : BitVec 16) : Mach :=
  let t := (m.greg c ra + sext imm) &&& 0xFFFFFFFC#32
  if t.toNat < seqSize then (m.setGreg c rd (((m.cc c).pc + 4).setWidth 32)).ccJump c (t.setWidth 18)
  else m.ccStop c 0xFFFF

/-! ### ISSUE (R310) -/

/-- The 64 bytes enter the ring at TAIL, TAIL moves on and the core goes on; while the ring is full it waits. -/
def Mach.issueTry (m : Mach) (c q a : Nat) : Mach :=
  let tail := m.reg (Reg.CQ_TAIL q)
  if (tail - m.reg (Reg.CQ_DONE q)).toNat < 2 ^ m.ringLog q then
    let m := m.setBytes (m.slotAddr q tail) (m.bytes (seqBase c + a) 64)
    let m := m.setReg (Reg.CQ_TAIL q) (tail + 1)
    ((m.onCc c fun x => { x with state := .running }).advance c).checkHead q
  else m.onCc c fun x => { x with state := .issue, issueQ := q, issueAddr := a }

/-- The producer of queue q is control core c. -/
def Mach.produces (m : Mach) (c q : Nat) : Bool :=
  m.rbit (Reg.CQ_CFG q) 31 && m.fld (Reg.CQ_CFG q) 24 6 == c

def ccIssueBody (m : Mach) (c rd ra : Nat) (imm : BitVec 16) : Mach :=
  let a := (m.greg c ra + sext imm).toNat
  let q := (m.greg c rd).toNat % 256
  if a % 64 ≠ 0 then m.ccStop c 0xFFFC
  else if seqSize ≤ a then m.ccStop c 0xFFFF
  else if !m.produces c q then m.ccStop c 0xFFFC
  else
    let b := m.bytes (seqBase c + a) 64
    let m := m.traceCc c 0 0x01 true
      ([BitVec.ofNat 8 q, BitVec.ofNat 8 (u8 b 0), BitVec.ofNat 8 (u8 b 1), BitVec.ofNat 8 (u8 b 2)] ++
        leBytes 4 (m.reg (Reg.CQ_TAIL q)).toNat ++ leBytes 2 (u16 b 4) ++ leBytes 2 (u16 b 6))
    m.issueTry c q a

/-! ### WAIT and SIGNAL (R298, R299, R311) -/

/-- The condition of a WAIT. -/
def Mach.waitHolds (m : Mach) (c : Nat) (kind : BitVec 2) (obj : BitVec 8) (v : Word) : Bool :=
  match kind.toNat with
  | 0 => atLeast16 (m.sem (ccCluster c) obj.toNat) (v.setWidth 16)
  | 1 => atLeast16 (m.csig obj.toNat) (v.setWidth 16)
  | 2 => decide (0 ≤ (m.reg (Reg.CQ_DONE obj.toNat) - v).toInt)
  | _ => (m.stage obj.toNat).nextRecord.isSome

/-- An object that the kind has: 64 semaphores, 128 stage queues. -/
def waitObjOk (kind : BitVec 2) (obj : BitVec 8) : Bool :=
  match kind.toNat with
  | 0 => obj.toNat < 64
  | 3 => obj.toNat < 128
  | _ => true

/-- A WAIT record: 0 begins, 1 the condition held, 2 the deadline came first. -/
def Mach.traceWait (m : Mach) (c event : Nat) : Mach :=
  let x := m.cc c
  m.traceCc c 2 0x03 true
    ([x.waitKind.setWidth 8, x.waitObj, BitVec.ofNat 8 event, 0] ++ leBytes 4 x.waitVal.toNat ++
      leBytes 4 (x.waitDeadline.getD 0).toNat)

/-- The end of a WAIT that has begun, if it has come. -/
def Mach.waitTry (m : Mach) (c : Nat) : Mach :=
  let x := m.cc c
  let finish := fun (m : Mach) (event : Nat) (v : Word) =>
    ((m.traceWait c event).onCc c fun y => { y with state := .running }).ccSet c x.waitRd v
  if m.waitHolds c x.waitKind x.waitObj x.waitVal then finish m 1 0
  else match x.waitDeadline with
    | some t => if reached m.now t then finish m 2 1 else m
    | none => m

def ccWaitBody (m : Mach) (c rd rv : Nat) (kind : BitVec 2) (rt : Nat) (obj : BitVec 8) : Mach :=
  if waitObjOk kind obj then
    let v := m.greg c rv
    let t := if rt = 0 then none else some (m.greg c rt)
    let m := m.onCc c fun x => { x with
      state := .wait, waitKind := kind, waitObj := obj, waitVal := v, waitDeadline := t, waitRd := rd }
    (m.traceWait c 0).waitTry c
  else m.ccStop c 0xFFFE

/-- SIGNAL: kind 0 adds to a semaphore, kind 1 sets it, kind 2 adds to a completion signal. -/
def ccSignalBody (m : Mach) (c rv : Nat) (kind : BitVec 2) (obj : BitVec 8) : Mach :=
  let k := ccCluster c
  let v := (m.greg c rv).setWidth 16
  let n := obj.toNat
  match kind.toNat with
  | 0 => if n < 64 then (m.setSem k n (m.sem k n + v)).advance c else m.ccStop c 0xFFFE
  | 1 => if n < 64 then (m.setSem k n v).advance c else m.ccStop c 0xFFFE
  | 2 => if 16 ≤ n then (m.addCsig n v).advance c else m.ccStop c 0xFFFE
  | _ => m.ccStop c 0xFFFE

/-! ### BARRIER (R312) -/

/-- Control core of index i in cluster k. -/
def ccOf (k i : Nat) : Nat := if i < 4 then 4 * k + i else 32 + k

/-- Core x stands at barrier n. -/
def atBarrier (x : Core) (n : Nat) : Bool := (x.state == .barrier || x.debugHalt == some .barrier) && x.barNum == n

def ccBarrierBody (m : Mach) (c : Nat) (imm : BitVec 16) : Mach :=
  let mask := imm.toNat % 32
  let n := imm.toNat / 256 % 8
  let k := ccCluster c
  let clash := (List.range 5).any fun i => atBarrier (m.cc (ccOf k i)) n && (m.cc (ccOf k i)).barMask != mask
  if !mask.testBit (ccIndex c) || clash then m.ccStop c 0xFFFD
  else m.onCc c fun x => { x with state := .barrier, barNum := n, barMask := mask }

/-- Every control core that the mask names has arrived; a sequencer whose core is out of service counts as
arrived. -/
def Mach.barrierFull (m : Mach) (k n mask : Nat) : Bool :=
  (List.range 5).all fun i =>
    !mask.testBit i || atBarrier (m.cc (ccOf k i)) n || (decide (i < 4) && !m.inService (ccOf k i))

/-- A core leaves the barrier: one that CLU_CC_CTRLc has halted there goes on at its resume. -/
def Mach.leaveBarrier (m : Mach) (c : Nat) : Mach :=
  let m := m.onCc c fun x => if x.state = .barrier then { x with state := .running } else { x with debugHalt := some .running }
  (m.advance c).stepEnd c

/-- The barrier completes: all that stand at it resume. A core that holds its state stays where it is (R37, R363): the barrier then
waits for it, unless its core is out of service. -/
def barrierReleaseBody (m : Mach) (k n : Nat) : Mach :=
  let there := ((List.range 5).map (ccOf k)).filter fun c => atBarrier (m.cc c) n
  match there with
  | [] => m
  | c :: _ =>
    if m.barrierFull k n (m.cc c).barMask && there.all (fun c => m.ccAwake c || (decide (c < 32) && !m.inService c)) then
      (there.filter m.ccAwake).foldl Mach.leaveBarrier m
    else m

/-! ## The instructions -/

def execCcAdd (c : Fin 40) (rd ra rb : Fin 32) (s : State) : Host.Outcome State Fault Refusal :=
  act s fun m => m.ccIssue c (encR 0x0 rd ra rb) fun m => ccAlu m c rd ra rb (· + ·)
def execCcSub (c : Fin 40) (rd ra rb : Fin 32) (s : State) : Host.Outcome State Fault Refusal :=
  act s fun m => m.ccIssue c (encR 0x1 rd ra rb) fun m => ccAlu m c rd ra rb (· - ·)
def execCcAnd (c : Fin 40) (rd ra rb : Fin 32) (s : State) : Host.Outcome State Fault Refusal :=
  act s fun m => m.ccIssue c (encR 0x2 rd ra rb) fun m => ccAlu m c rd ra rb (· &&& ·)
def execCcOr (c : Fin 40) (rd ra rb : Fin 32) (s : State) : Host.Outcome State Fault Refusal :=
  act s fun m => m.ccIssue c (encR 0x3 rd ra rb) fun m => ccAlu m c rd ra rb (· ||| ·)
def execCcXor (c : Fin 40) (rd ra rb : Fin 32) (s : State) : Host.Outcome State Fault Refusal :=
  act s fun m => m.ccIssue c (encR 0x4 rd ra rb) fun m => ccAlu m c rd ra rb (· ^^^ ·)
def execCcSll (c : Fin 40) (rd ra rb : Fin 32) (s : State) : Host.Outcome State Fault Refusal :=
  act s fun m => m.ccIssue c (encR 0x5 rd ra rb) fun m => ccAlu m c rd ra rb opSll
def execCcSrl (c : Fin 40) (rd ra rb : Fin 32) (s : State) : Host.Outcome State Fault Refusal :=
  act s fun m => m.ccIssue c (encR 0x6 rd ra rb) fun m => ccAlu m c rd ra rb opSrl
def execCcSra (c : Fin 40) (rd ra rb : Fin 32) (s : State) : Host.Outcome State Fault Refusal :=
  act s fun m => m.ccIssue c (encR 0x7 rd ra rb) fun m => ccAlu m c rd ra rb opSra
def execCcSlt (c : Fin 40) (rd ra rb : Fin 32) (s : State) : Host.Outcome State Fault Refusal :=
  act s fun m => m.ccIssue c (encR 0x8 rd ra rb) fun m => ccAlu m c rd ra rb opSlt
def execCcSltu (c : Fin 40) (rd ra rb : Fin 32) (s : State) : Host.Outcome State Fault Refusal :=
  act s fun m => m.ccIssue c (encR 0x9 rd ra rb) fun m => ccAlu m c rd ra rb opSltu
def execCcMul (c : Fin 40) (rd ra rb : Fin 32) (s : State) : Host.Outcome State Fault Refusal :=
  act s fun m => m.ccIssue c (encR 0xA rd ra rb) fun m => ccAlu m c rd ra rb (· * ·)
def execCcMulhu (c : Fin 40) (rd ra rb : Fin 32) (s : State) : Host.Outcome State Fault Refusal :=
  act s fun m => m.ccIssue c (encR 0xB rd ra rb) fun m => ccAlu m c rd ra rb opMulhu
def execCcMin (c : Fin 40) (rd ra rb : Fin 32) (s : State) : Host.Outcome State Fault Refusal :=
  act s fun m => m.ccIssue c (encR 0xC rd ra rb) fun m => ccAlu m c rd ra rb opMin
def execCcMax (c : Fin 40) (rd ra rb : Fin 32) (s : State) : Host.Outcome State Fault Refusal :=
  act s fun m => m.ccIssue c (encR 0xD rd ra rb) fun m => ccAlu m c rd ra rb opMax
def execCcMinu (c : Fin 40) (rd ra rb : Fin 32) (s : State) : Host.Outcome State Fault Refusal :=
  act s fun m => m.ccIssue c (encR 0xE rd ra rb) fun m => ccAlu m c rd ra rb opMinu
def execCcMaxu (c : Fin 40) (rd ra rb : Fin 32) (s : State) : Host.Outcome State Fault Refusal :=
  act s fun m => m.ccIssue c (encR 0xF rd ra rb) fun m => ccAlu m c rd ra rb opMaxu

def execCcAddi (c : Fin 40) (rd ra : Fin 32) (imm : BitVec 16) (s : State) : Host.Outcome State Fault Refusal :=
  act s fun m => m.ccIssue c (encI 0x01 rd ra imm) fun m => ccAluI m c rd ra (sext imm) (· + ·)
def execCcAndi (c : Fin 40) (rd ra : Fin 32) (imm : BitVec 16) (s : State) : Host.Outcome State Fault Refusal :=
  act s fun m => m.ccIssue c (encI 0x02 rd ra imm) fun m => ccAluI m c rd ra (zext imm) (· &&& ·)
/-- ORI; with rd and ra both g0 it is a checkpoint (R352). -/
def execCcOri (c : Fin 40) (rd ra : Fin 32) (imm : BitVec 16) (s : State) : Host.Outcome State Fault Refusal :=
  act s fun m => m.ccIssue c (encI 0x03 rd ra imm) fun m => ccAluI m c rd ra (zext imm) (· ||| ·)
def execCcXori (c : Fin 40) (rd ra : Fin 32) (imm : BitVec 16) (s : State) : Host.Outcome State Fault Refusal :=
  act s fun m => m.ccIssue c (encI 0x04 rd ra imm) fun m => ccAluI m c rd ra (zext imm) (· ^^^ ·)
def execCcSlli (c : Fin 40) (rd ra : Fin 32) (imm : BitVec 16) (s : State) : Host.Outcome State Fault Refusal :=
  act s fun m => m.ccIssue c (encI 0x05 rd ra imm) fun m => ccAluI m c rd ra (zext imm) opSll
def execCcSrli (c : Fin 40) (rd ra : Fin 32) (imm : BitVec 16) (s : State) : Host.Outcome State Fault Refusal :=
  act s fun m => m.ccIssue c (encI 0x06 rd ra imm) fun m => ccAluI m c rd ra (zext imm) opSrl
def execCcSrai (c : Fin 40) (rd ra : Fin 32) (imm : BitVec 16) (s : State) : Host.Outcome State Fault Refusal :=
  act s fun m => m.ccIssue c (encI 0x07 rd ra imm) fun m => ccAluI m c rd ra (zext imm) opSra
def execCcSlti (c : Fin 40) (rd ra : Fin 32) (imm : BitVec 16) (s : State) : Host.Outcome State Fault Refusal :=
  act s fun m => m.ccIssue c (encI 0x08 rd ra imm) fun m => ccAluI m c rd ra (sext imm) opSlt
def execCcSltiu (c : Fin 40) (rd ra : Fin 32) (imm : BitVec 16) (s : State) : Host.Outcome State Fault Refusal :=
  act s fun m => m.ccIssue c (encI 0x09 rd ra imm) fun m => ccAluI m c rd ra (zext imm) opSltu

/-- LUI: ra must be g0; any other encoding is illegal (R309). -/
def ccLuiBody (m : Mach) (c rd ra : Nat) (imm : BitVec 16) : Mach :=
  if ra = 0 then m.ccSet c rd (zext imm <<< 16) else m.ccStop c 0xFFFE
def execCcLui (c : Fin 40) (rd ra : Fin 32) (imm : BitVec 16) (s : State) : Host.Outcome State Fault Refusal :=
  act s fun m => m.ccIssue c (encI 0x0A rd ra imm) fun m => ccLuiBody m c rd ra imm

def loadW (n : Nat) : Word := BitVec.ofNat 32 n
def loadH (n : Nat) : Word := (BitVec.ofNat 16 n).signExtend 32
def loadB (n : Nat) : Word := (BitVec.ofNat 8 n).signExtend 32

def execCcLw (c : Fin 40) (rd ra : Fin 32) (imm : BitVec 16) (s : State) : Host.Outcome State Fault Refusal :=
  act s fun m => m.ccIssue c (encI 0x10 rd ra imm) fun m => ccLoad m c rd ra imm 4 loadW
def execCcLh (c : Fin 40) (rd ra : Fin 32) (imm : BitVec 16) (s : State) : Host.Outcome State Fault Refusal :=
  act s fun m => m.ccIssue c (encI 0x11 rd ra imm) fun m => ccLoad m c rd ra imm 2 loadH
def execCcLhu (c : Fin 40) (rd ra : Fin 32) (imm : BitVec 16) (s : State) : Host.Outcome State Fault Refusal :=
  act s fun m => m.ccIssue c (encI 0x12 rd ra imm) fun m => ccLoad m c rd ra imm 2 loadW
def execCcLb (c : Fin 40) (rd ra : Fin 32) (imm : BitVec 16) (s : State) : Host.Outcome State Fault Refusal :=
  act s fun m => m.ccIssue c (encI 0x13 rd ra imm) fun m => ccLoad m c rd ra imm 1 loadB
def execCcLbu (c : Fin 40) (rd ra : Fin 32) (imm : BitVec 16) (s : State) : Host.Outcome State Fault Refusal :=
  act s fun m => m.ccIssue c (encI 0x14 rd ra imm) fun m => ccLoad m c rd ra imm 1 loadW
def execCcSw (c : Fin 40) (rs ra : Fin 32) (imm : BitVec 16) (s : State) : Host.Outcome State Fault Refusal :=
  act s fun m => m.ccIssue c (encI 0x18 rs ra imm) fun m => ccStore m c rs ra imm 4
def execCcSh (c : Fin 40) (rs ra : Fin 32) (imm : BitVec 16) (s : State) : Host.Outcome State Fault Refusal :=
  act s fun m => m.ccIssue c (encI 0x19 rs ra imm) fun m => ccStore m c rs ra imm 2
def execCcSb (c : Fin 40) (rs ra : Fin 32) (imm : BitVec 16) (s : State) : Host.Outcome State Fault Refusal :=
  act s fun m => m.ccIssue c (encI 0x1A rs ra imm) fun m => ccStore m c rs ra imm 1

def ltS (a b : Word) : Bool := decide (a.toInt < b.toInt)
def ltU (a b : Word) : Bool := decide (a.toNat < b.toNat)

def execCcBeq (c : Fin 40) (ra rb : Fin 32) (off : BitVec 16) (s : State) : Host.Outcome State Fault Refusal :=
  act s fun m => m.ccIssue c (encI 0x20 ra rb off) fun m => ccBranch m c ra rb off (· == ·)
def execCcBne (c : Fin 40) (ra rb : Fin 32) (off : BitVec 16) (s : State) : Host.Outcome State Fault Refusal :=
  act s fun m => m.ccIssue c (encI 0x21 ra rb off) fun m => ccBranch m c ra rb off (· != ·)
def execCcBlt (c : Fin 40) (ra rb : Fin 32) (off : BitVec 16) (s : State) : Host.Outcome State Fault Refusal :=
  act s fun m => m.ccIssue c (encI 0x22 ra rb off) fun m => ccBranch m c ra rb off ltS
def execCcBge (c : Fin 40) (ra rb : Fin 32) (off : BitVec 16) (s : State) : Host.Outcome State Fault Refusal :=
  act s fun m => m.ccIssue c (encI 0x23 ra rb off) fun m => ccBranch m c ra rb off fun a b => !ltS a b
def execCcBltu (c : Fin 40) (ra rb : Fin 32) (off : BitVec 16) (s : State) : Host.Outcome State Fault Refusal :=
  act s fun m => m.ccIssue c (encI 0x24 ra rb off) fun m => ccBranch m c ra rb off ltU
def execCcBgeu (c : Fin 40) (ra rb : Fin 32) (off : BitVec 16) (s : State) : Host.Outcome State Fault Refusal :=
  act s fun m => m.ccIssue c (encI 0x25 ra rb off) fun m => ccBranch m c ra rb off fun a b => !ltU a b
def execCcJal (c : Fin 40) (off : BitVec 26) (s : State) : Host.Outcome State Fault Refusal :=
  act s fun m => m.ccIssue c (encJ off) fun m => ccJalBody m c off
def execCcJalr (c : Fin 40) (rd ra : Fin 32) (imm : BitVec 16) (s : State) : Host.Outcome State Fault Refusal :=
  act s fun m => m.ccIssue c (encI 0x27 rd ra imm) fun m => ccJalrBody m c rd ra imm
def execCcIssue (c : Fin 40) (rd ra : Fin 32) (imm : BitVec 16) (s : State) : Host.Outcome State Fault Refusal :=
  act s fun m => m.ccIssue c (encI 0x30 rd ra imm) fun m => ccIssueBody m c rd ra imm
def execCcWait (c : Fin 40) (rd rv : Fin 32) (kind : BitVec 2) (rt : Fin 32) (obj : BitVec 8) (s : State) :
    Host.Outcome State Fault Refusal :=
  act s fun m => m.ccIssue c (encWait rd rv kind rt obj) fun m => ccWaitBody m c rd rv kind rt obj
def execCcSignal (c : Fin 40) (rv : Fin 32) (kind : BitVec 2) (obj : BitVec 8) (s : State) :
    Host.Outcome State Fault Refusal :=
  act s fun m => m.ccIssue c (encSignal rv kind obj) fun m => ccSignalBody m c rv kind obj
def execCcBarrier (c : Fin 40) (imm : BitVec 16) (s : State) : Host.Outcome State Fault Refusal :=
  act s fun m => m.ccIssue c (encI 0x33 0 0 imm) fun m => ccBarrierBody m c imm
/-- TIMEREAD: short time (R50). -/
def execCcTimeread (c : Fin 40) (rd : Fin 32) (s : State) : Host.Outcome State Fault Refusal :=
  act s fun m => m.ccIssue c (encI 0x34 rd 0 0) fun m => m.ccSet c rd m.now
/-- TRAP: codes above 0xFFFB are illegal (R309, R313). -/
def ccTrapBody (m : Mach) (c : Nat) (imm : BitVec 16) : Mach :=
  m.ccStop c (if imm.toNat ≤ 0xFFFB then imm else 0xFFFE)
def execCcTrap (c : Fin 40) (imm : BitVec 16) (s : State) : Host.Outcome State Fault Refusal :=
  act s fun m => m.ccIssue c (encI 0x35 0 0 imm) fun m => ccTrapBody m c imm

/-! ## What ends later -/

/-- The full ring has room again (R310). -/
def execIssueResume (c : Fin 40) (s : State) : Host.Outcome State Fault Refusal :=
  act s fun m =>
    let x := m.cc c
    if x.state == .issue && m.ccAwake c then (m.issueTry c x.issueQ x.issueAddr).stepEnd c else m

/-- The condition of a WAIT has come to hold, or its deadline has come (R311). -/
def execWaitResume (c : Fin 40) (s : State) : Host.Outcome State Fault Refusal :=
  act s fun m => if (m.cc c).state == .wait && m.ccAwake c then (m.waitTry c).stepEnd c else m

/-- All named by the mask have arrived (R312). -/
def execBarrierRelease (k : Fin 8) (n : Fin 8) (s : State) : Host.Outcome State Fault Refusal :=
  act s fun m => barrierReleaseBody m k n

/-! ## Halt, resume and step (R315, R413) -/

/-- The register that a halt or resume of core c writes. -/
def ccCtrlReg (c : Nat) : Nat := Reg.CLU_CC_CTRL (ccCluster c) (ccIndex c)

/-- CLU_CC_CTRLc.halt, with debug access only. -/
def Mach.ccHalt (m : Mach) (c : Nat) : Mach :=
  if !m.debugAccess then m.refuse (ccCtrlReg c)
  else if (m.cc c).debugHalt.isSome then m
  else
    let m := m.onCc c fun x => { x with debugHalt := some x.state, state := .halted }
    (m.raise (Reg.CLU_EVENT (ccCluster c)) 0x2).traceCc c 3 0x05 false (leBytes 2 (m.cc c).code.toNat)

def execCcHalt (c : Fin 40) (s : State) : Host.Outcome State Fault Refusal :=
  act s fun m => m.arriveWith (ccCtrlReg c) 1 (false, m.ccHalt c)

/-- CLU_CC_CTRLc.resume: a core that the debug port halted goes on in the state it had. -/
def Mach.ccResume (m : Mach) (c : Nat) : Mach :=
  if !m.debugAccess then m.refuse (ccCtrlReg c)
  else match (m.cc c).debugHalt with
    | some st => m.onCc c fun x => { x with debugHalt := none, state := st }
    | none => m

def execCcResume (c : Fin 40) (s : State) : Host.Outcome State Fault Refusal :=
  act s fun m => m.arriveWith (ccCtrlReg c) 2 (false, m.ccResume c)

/-- The instruction that a word spells, issued by core c (Table 12-6); every other encoding is illegal. -/
def ccRunWord (m : Mach) (c : Nat) (w : Word) : Mach :=
  let rd := w.field 21 5
  let ra := w.field 16 5
  let rb := w.field 11 5
  let imm : BitVec 16 := w.setWidth 16
  match wordOpcode w with
  | 0x00 =>
    if w.field 4 7 ≠ 0 then m.ccStop c 0xFFFE
    else
      let f : Word → Word → Word := match w.field 0 4 with
        | 0x0 => (· + ·) | 0x1 => (· - ·) | 0x2 => (· &&& ·) | 0x3 => (· ||| ·) | 0x4 => (· ^^^ ·)
        | 0x5 => opSll | 0x6 => opSrl | 0x7 => opSra | 0x8 => opSlt | 0x9 => opSltu
        | 0xA => (· * ·) | 0xB => opMulhu | 0xC => opMin | 0xD => opMax | 0xE => opMinu | _ => opMaxu
      ccAlu m c rd ra rb f
  | 0x01 => ccAluI m c rd ra (sext imm) (· + ·)
  | 0x02 => ccAluI m c rd ra (zext imm) (· &&& ·)
  | 0x03 => ccAluI m c rd ra (zext imm) (· ||| ·)
  | 0x04 => ccAluI m c rd ra (zext imm) (· ^^^ ·)
  | 0x05 => ccAluI m c rd ra (zext imm) opSll
  | 0x06 => ccAluI m c rd ra (zext imm) opSrl
  | 0x07 => ccAluI m c rd ra (zext imm) opSra
  | 0x08 => ccAluI m c rd ra (sext imm) opSlt
  | 0x09 => ccAluI m c rd ra (zext imm) opSltu
  | 0x0A => ccLuiBody m c rd ra imm
  | 0x10 => ccLoad m c rd ra imm 4 loadW
  | 0x11 => ccLoad m c rd ra imm 2 loadH
  | 0x12 => ccLoad m c rd ra imm 2 loadW
  | 0x13 => ccLoad m c rd ra imm 1 loadB
  | 0x14 => ccLoad m c rd ra imm 1 loadW
  | 0x18 => ccStore m c rd ra imm 4
  | 0x19 => ccStore m c rd ra imm 2
  | 0x1A => ccStore m c rd ra imm 1
  | 0x20 => ccBranch m c rd ra imm (· == ·)
  | 0x21 => ccBranch m c rd ra imm (· != ·)
  | 0x22 => ccBranch m c rd ra imm ltS
  | 0x23 => ccBranch m c rd ra imm fun a b => !ltS a b
  | 0x24 => ccBranch m c rd ra imm ltU
  | 0x25 => ccBranch m c rd ra imm fun a b => !ltU a b
  | 0x26 => ccJalBody m c (w.setWidth 26)
  | 0x27 => ccJalrBody m c rd ra imm
  | 0x30 => ccIssueBody m c rd ra imm
  | 0x31 =>
    if w.bit 8 then m.ccStop c 0xFFFE
    else ccWaitBody m c rd ra (BitVec.ofNat 2 (w.field 14 2)) (w.field 9 5) (w.setWidth 8)
  | 0x32 =>
    if rd ≠ 0 ∨ w.field 8 6 ≠ 0 then m.ccStop c 0xFFFE
    else ccSignalBody m c ra (BitVec.ofNat 2 (w.field 14 2)) (w.setWidth 8)
  | 0x33 => ccBarrierBody m c imm
  | 0x34 => if ra ≠ 0 ∨ imm ≠ 0 then m.ccStop c 0xFFFE else m.ccSet c rd m.now
  | 0x35 => ccTrapBody m c imm
  | _ => m.ccStop c 0xFFFE

/-- DBG_CC_STEP: exactly one instruction of a core that CLU_CC_CTRLc halted, then halted again (R413). A core that holds its state
goes on with it later (R37). -/
def Mach.ccStep (m : Mach) (v : Word) : Mach :=
  let c := v.field 0 6
  if 39 < c ∨ !m.debugAccess then m.refuse Reg.DBG_CC_STEP
  else match (m.cc c).debugHalt with
    | none => m.refuse Reg.DBG_CC_STEP
    | some st =>
      let m := m.onCc c fun x => { x with debugHalt := none, state := st, stepping := true }
      match st with
      | .running =>
        let w := m.word (seqBase c + (m.cc c).pc.toNat)
        m.ccIssue c w fun m => ccRunWord m c w
      | .wait => if m.ccAwake c then (m.waitTry c).stepEnd c else m
      | .issue => if m.ccAwake c then (m.issueTry c (m.cc c).issueQ (m.cc c).issueAddr).stepEnd c else m
      | .barrier => m
      | _ => m.onCc c fun x => { x with debugHalt := some st, state := .halted, stepping := false }

def execCcStep (v : Word) (s : State) : Host.Outcome State Fault Refusal :=
  act s fun m => m.arriveWith Reg.DBG_CC_STEP v (false, m.ccStep v)

/-- The control core that a command names and the word of its instruction (Tables 12-5, 12-6); none for every other
command. -/
def ctlWord : Instr → Option (Nat × Word)
  | .ccAdd c rd ra rb => some (c, encR 0x0 rd ra rb)
  | .ccSub c rd ra rb => some (c, encR 0x1 rd ra rb)
  | .ccAnd c rd ra rb => some (c, encR 0x2 rd ra rb)
  | .ccOr c rd ra rb => some (c, encR 0x3 rd ra rb)
  | .ccXor c rd ra rb => some (c, encR 0x4 rd ra rb)
  | .ccSll c rd ra rb => some (c, encR 0x5 rd ra rb)
  | .ccSrl c rd ra rb => some (c, encR 0x6 rd ra rb)
  | .ccSra c rd ra rb => some (c, encR 0x7 rd ra rb)
  | .ccSlt c rd ra rb => some (c, encR 0x8 rd ra rb)
  | .ccSltu c rd ra rb => some (c, encR 0x9 rd ra rb)
  | .ccMul c rd ra rb => some (c, encR 0xA rd ra rb)
  | .ccMulhu c rd ra rb => some (c, encR 0xB rd ra rb)
  | .ccMin c rd ra rb => some (c, encR 0xC rd ra rb)
  | .ccMax c rd ra rb => some (c, encR 0xD rd ra rb)
  | .ccMinu c rd ra rb => some (c, encR 0xE rd ra rb)
  | .ccMaxu c rd ra rb => some (c, encR 0xF rd ra rb)
  | .ccAddi c rd ra imm => some (c, encI 0x01 rd ra imm)
  | .ccAndi c rd ra imm => some (c, encI 0x02 rd ra imm)
  | .ccOri c rd ra imm => some (c, encI 0x03 rd ra imm)
  | .ccXori c rd ra imm => some (c, encI 0x04 rd ra imm)
  | .ccSlli c rd ra imm => some (c, encI 0x05 rd ra imm)
  | .ccSrli c rd ra imm => some (c, encI 0x06 rd ra imm)
  | .ccSrai c rd ra imm => some (c, encI 0x07 rd ra imm)
  | .ccSlti c rd ra imm => some (c, encI 0x08 rd ra imm)
  | .ccSltiu c rd ra imm => some (c, encI 0x09 rd ra imm)
  | .ccLui c rd ra imm => some (c, encI 0x0A rd ra imm)
  | .ccLw c rd ra imm => some (c, encI 0x10 rd ra imm)
  | .ccLh c rd ra imm => some (c, encI 0x11 rd ra imm)
  | .ccLhu c rd ra imm => some (c, encI 0x12 rd ra imm)
  | .ccLb c rd ra imm => some (c, encI 0x13 rd ra imm)
  | .ccLbu c rd ra imm => some (c, encI 0x14 rd ra imm)
  | .ccSw c rs ra imm => some (c, encI 0x18 rs ra imm)
  | .ccSh c rs ra imm => some (c, encI 0x19 rs ra imm)
  | .ccSb c rs ra imm => some (c, encI 0x1A rs ra imm)
  | .ccBeq c ra rb off => some (c, encI 0x20 ra rb off)
  | .ccBne c ra rb off => some (c, encI 0x21 ra rb off)
  | .ccBlt c ra rb off => some (c, encI 0x22 ra rb off)
  | .ccBge c ra rb off => some (c, encI 0x23 ra rb off)
  | .ccBltu c ra rb off => some (c, encI 0x24 ra rb off)
  | .ccBgeu c ra rb off => some (c, encI 0x25 ra rb off)
  | .ccJal c off => some (c, encJ off)
  | .ccJalr c rd ra imm => some (c, encI 0x27 rd ra imm)
  | .ccIssue c rd ra imm => some (c, encI 0x30 rd ra imm)
  | .ccWait c rd rv kind rt obj => some (c, encWait rd rv kind rt obj)
  | .ccSignal c rv kind obj => some (c, encSignal rv kind obj)
  | .ccBarrier c imm => some (c, encI 0x33 0 0 imm)
  | .ccTimeread c rd => some (c, encI 0x34 rd 0 0)
  | .ccTrap c imm => some (c, encI 0x35 0 0 imm)
  | _ => none

end Sys2Proof.Machine
end

