-- ==== Sys2Proof/Machine/Load.lean ====
section
/-! DEFINITION. Loading a floorplan: what is cleared before it, and how its sections are applied (R320, R324 to R326, R333). -/

namespace Sys2Proof.Machine

/-! ## What the old floorplan leaves behind (Table 13-6 steps 4 and 5, R334) -/

/-- Registers that an empty register image sets anew: those of CQ to NET and of the clusters, less the levels of the
pins and of the camera lanes. -/
def planRegister (a : Nat) : Bool :=
  ((decide (0x80000 ≤ a) && decide (a < 0x300000)) || (decide (0x400000 ≤ a) && decide (a < 0x800000))) &&
    a != Reg.SNS_GPIO_IN && !((List.range 8).any fun n => a == Reg.SNS_CSI_STAT n)

/-- The RWL fields of a register at their values in an empty register image. -/
def Mach.emptyFields (m : Mach) (a : Nat) : Mach :=
  match rowAt a with
  | some (r, j) => m.setReg a ((m.reg a &&& ~~~r.lmask) ||| (r.rst j &&& r.lmask))
  | none => m

/-- TIME keeps its source while a step is pending; a move-in never steps the time line. -/
def Mach.emptyTime (m : Mach) : Mach :=
  let addrs := ((timeRows.filter fun r => r.lmask != 0).flatMap rowOffsets).map fun o => 0x20000 + o
  addrs.foldl (fun m a => if a = Reg.TIME_CTRL ∧ m.rbit Reg.TIME_STATUS 4 then m else m.emptyFields a) m

/-- What a host write of TIME_PPS_CFG and of TIME_PTP_CFGp does besides storing the word, for registers that the image leaves as an
empty image has them: PPS_OUT low, no PPS reference, ports DISABLED whose profile is off or whose MAC the image leaves disabled (R64, R65,
R59, R39). -/
def Mach.settleTime (m : Mach) : Mach :=
  let m := m.ppsCfg (m.reg Reg.TIME_PPS_CFG)
  (List.range 4).foldl Mach.ptpSettle m

/-- SAFE and DBG: the RWL fields, the Cellar as the new floorplan will place it, and tracing and watch points off. -/
def Mach.emptyDebug (m : Mach) : Mach :=
  let m := [Reg.SAFE_CFG, Reg.DBG_CELLAR_BASE_LO, Reg.DBG_CELLAR_BASE_HI, Reg.DBG_CELLAR_SIZE].foldl Mach.emptyFields m
  let m := ((m.setReg Reg.DBG_CELLAR_WR 0x40000).setRBit Reg.DBG_STATUS 3 false).setRBit Reg.DBG_TRACE_CTRL 31 false
  let m := (List.range 64).foldl (fun m w => m.setRBit (Reg.DBG_WATCH_CFG w) 31 false) m
  m.onObs fun o => { o with watch := [] }

/-- The sensor ports, less the levels at the encoder inputs and what the PHYs signal. -/
def Ports.cleared (p : Ports) : Ports :=
  { enc := p.enc.map fun e => (e.1, { a := e.2.a, b := e.2.b, z := e.2.z }), macSignal := p.macSignal }

/-- Faults of the cores and ports that the old floorplan met: they are cores and ports of the new one again. -/
def Mach.clearFaults (m : Mach) : Mach :=
  let m := m.onSafety fun x => { x with
    jetDue := [], pointOut := [], selfTest := [], jetAt := [], past := [], segment := 0, segCrc := [], passOk := true,
    passCrc := 0xFFFFFFFF, commitAt := none }
  let gone := fun (c : StopCause) => !(c == .coreOut || c == .port)
  { m with islands := m.islands.foldl (fun t p => sput (fun _ => {}) p.1 { p.2 with stopped := p.2.stopped.filter gone } t) [] }

/-- What of a host queue a new floorplan leaves as it was: the value that an empty read returns, the sticky underrun and the counts,
which only a reset clears (R104). -/
def Tbq.carried (q : Tbq) : Tbq := { underrun := q.underrun, lastRead := q.lastRead, swaps := q.swaps, drops := q.drops }

/-- The module with nothing of a floorplan in it: SRAM zeroed, semaphores and completion signals 0, every register of
the blocks that a floorplan configures at its value in an empty register image. -/
def Mach.clearPlan (m : Mach) : Mach :=
  let m := { m with
    regs := m.regs.filter fun p => !planRegister p.1
    mem := m.mem.filter fun p => decide (p.1 < 2 ^ 36)
    stageCfg := [], stageQ := [], resultQ := m.resultQ.carried, injectQ := m.injectQ.carried, cq := [], lastQ := [], core := [], streams := []
    groups := [], cal := {}, slots := [], latches := [], contexts := [], dropShare := [], sh := {}
    egr := { sent := m.egr.sent }, ports := m.ports.cleared
    fpl := { m.fpl with plan := {}, patch := none, patchSeq := 0, image := [], copy := [], copyAt := none, firstFramed := false, unitQueues := [], applied := [] } }
  let m := m.emptyTime.emptyDebug.clearFaults
  let m := ((m.setReg Reg.FPL_CORES_OUT 0).setRBit Reg.FPL_STATUS 5 false).setRBit Reg.FPL_STATUS 6 false
  let m := [1, 3].foldl (fun m b => m.setRBit Reg.CCHK_STATUS b false) m
  (List.range 16).foldl (fun m g => m.endHold (16 + g)) m

/-! ## Register images (R320, Table 13-3) -/

/-- Offsets of EGR that hold grid and track registers. -/
def gridOrTrack (o : Nat) : Bool := (decide (0x400 ≤ o) && decide (o < 0x800)) || (decide (0x1000 ≤ o) && decide (o < 0x1140))

/-- A register image of section type t may name address a. -/
def sectionAllows (t a : Nat) : Bool :=
  match blockOf a with
  | some (.sns, _) => t == 4
  | some (.str, _) => t == 4
  | some (.fus, _) => t == 6
  | some (.pnt, _) => t == 6
  | some (.egr, o) => t == (if gridOrTrack o then 6 else 0xF)
  | some (.cq, _) => t == 8
  | some (.time, _) => t == 0xF
  | some (.net, _) => t == 0xF
  | some (.cal, o) => t == 0xF && decide (0x20100 ≤ o) && decide (o < 0x20150)
  | some (.dbg, o) => t == 0xF && (o == 0x54 || o == 0x58 || o == 0x5C)
  | _ => false

/-- The image writes this register. -/
def Image.names (im : Image) (a : Nat) : Bool := im.writes.any fun w => w.addr == a

/-- The records of a register image fill its bytes exactly: the offset of the field of the first that does not, its address or its
count. The fuel is the length. -/
def imageFault : Nat → Nat → List Byte → Option Nat
  | 0, _, _ => none
  | fuel + 1, off, l =>
    let n := u32 l 4
    if l.isEmpty then none
    else if l.length < 8 ∨ u32 l 0 % 4 ≠ 0 then some off
    else if n = 0 ∨ 65536 < n ∨ l.length < 8 + 4 * n then some (off + 4)
    else imageFault fuel (off + 8 + 4 * n) (l.drop (8 + 4 * n))

/-- Registers whose bit 31 starts a queue, a stream or a group: it takes effect when the floorplan starts. -/
def deferredEnable (a : Nat) : Bool :=
  (List.range 256).any (fun q => a == Reg.CQ_CTRL q) || (List.range 256).any (fun s => a == Reg.STR_CTRL s) ||
    (List.range 16).any fun g => a == Reg.FUS_CTRL g

/-- The registers that the image leaves enabled, in the order in which they start: queues, streams, groups. -/
def Image.enables (im : Image) : List Nat :=
  let last := fun a => (im.writes.reverse.find? fun w => w.addr == a).any fun w => w.value.bit 31
  ((List.range 256).map Reg.CQ_CTRL).filter last ++ ((List.range 256).map Reg.STR_CTRL).filter last ++
    ((List.range 16).map Reg.FUS_CTRL).filter last

/-- A word outside its register's range, or no register. -/
def rangeBad (a : Nat) (v : Word) : Bool :=
  match rowAt a with
  | none => true
  | some (r, _) => match r.acc with
    | .rw => r.bad (v &&& r.mask)
    | .wo => r.bad (v &&& r.mask)
    | _ => false

/-- A TIME register image changes configuration only (R334): the RWL fields of a register, as a host write would change them. A word
of TIME_CTRL that would change the source while a step is pending is refused (R53). -/
def Mach.timeConfig (m : Mach) (a : Nat) (v : Word) : Effect :=
  match rowAt a with
  | some (r, _) => if r.lmask = 0 then (false, m) else m.timeWrite a ((m.reg a &&& ~~~r.lmask) ||| (v &&& r.lmask))
  | none => m.bad

/-- One word of a register image, as a host write with the lock lifted: its own block's rule stands. Descriptors of
PNT, which a host never writes, and the Cellar registers have the range rule alone; the split of ingress memory, which
a host only reads, is the floorplan's (R90). -/
def Mach.imageEffect (m : Mach) (a : Nat) (v : Word) : Effect :=
  let v := if deferredEnable a then v.setBit 31 false else v
  if Reg.SNS_INQ_SIZE 0 ≤ a ∧ a ≤ Reg.SNS_INQ_SIZE 13 then
    let m' := m.setReg a (v &&& 0xFFF)
    if 256 < ((List.range 14).map fun q => (m'.reg (Reg.SNS_INQ_SIZE q)).toNat).sum then m.bad else (false, m')
  else match blockOf a with
  | some (.time, _) => m.timeConfig a v
  | some (.pnt, _) => (false, m.storeReg a v)
  | some (.dbg, _) => (false, m.storeReg a v)
  | some (b, _) => m.planWrite b a v
  | none => m.bad

/-- The cause of a refusal by a register's own rule: the rules that R327 lists of FUS, CQ and CAL are cause 0x07. -/
def ruleCause (a : Nat) : Nat :=
  match blockOf a with
  | some (.fus, _) => 7
  | some (.cq, _) => 7
  | some (.cal, _) => 7
  | _ => 5

def Mach.imageWrite (m : Mach) (w : ImageWrite) : Except Refused Mach :=
  if !sectionAllows w.sec w.addr || (rowAt w.addr).isNone then .error (5, w.off)
  else if rangeBad w.addr w.value then .error (5, w.field)
  else
    let e := m.imageEffect w.addr w.value
    if e.1 then .error (ruleCause w.addr, w.field) else .ok e.2

/-! ## The other sections -/

/-- CALIB: each entry to both its copies (R459). -/
def Mach.loadCalib (m : Mach) (d : List Byte) : Mach :=
  (records 260 d).foldl (fun m r => m.calLoad (u32 r 0 % 256) (slice r 4 256)) m

/-- The stage-queue records of QUEUE (R324). -/
def Image.stages (im : Image) : List (List Byte) :=
  let d := im.dataOf 8
  records 16 (stageBytes d.length d)

def Mach.loadStages (m : Mach) (l : List (List Byte)) : Mach :=
  l.foldl (fun m r => let p := parseStage r; { m with stageCfg := sput (fun _ => none) p.1 (some p.2) m.stageCfg }) m

/-- The entry register of control core c. -/
def ccEntryReg (c : Nat) : Nat := if c < 32 then Reg.CLU_CC_ENTRY (c / 4) (c % 4) else Reg.CLU_CC_ENTRY (c - 32) 4

/-- A program in its control core's sequencer memory (R325). -/
def Mach.loadProg (m : Mach) (p : Prog) : Mach :=
  (m.setBytes (seqBase p.cc) p.code).setReg (ccEntryReg p.cc) (BitVec.ofNat 32 p.entry)

/-- A layer in its master and its resident copies (R326). -/
def Mach.loadLayer (m : Mach) (w : WeightRec × List Byte) : Mach :=
  w.1.dests.foldl (fun m d => m.setBytes d.at_ w.2) (m.setBytes w.1.master w.2)

/-- The sections applied in directory order to a module that holds nothing of a floorplan; `zero` says whether the
regions with flags[0] are zeroed first. -/
def Mach.applyImage (m : Mach) (img : List Byte) (im : Image) (zero : Bool) : Except Refused Mach := do
  let plan := im.plan (Config.sha256 (img.take im.sigOff))
  let m := if zero then (plan.regions.filter Region.zero).foldl (fun m r => m.wipe r.base r.size) m else m
  let m := m.onFpl fun f => { f with plan := plan, image := img }
  let m ← (im.writesOf 0x04).foldlM Mach.imageWrite m
  let m ← (im.writesOf 0x06).foldlM Mach.imageWrite m
  let m := m.loadCalib (im.dataOf 0x07)
  let m ← (im.writesOf 0x08).foldlM Mach.imageWrite m
  let m := m.loadStages im.stages
  let m := plan.progs.foldl Mach.loadProg m
  let m := (parseWeights (im.dataOf 0x0A)).foldl Mach.loadLayer m
  let m ← (im.writesOf 0x0F).foldlM Mach.imageWrite m
  return m.settleTime

/-! ## The start of what the image enables (Table 13-6 step 7) -/

/-- The write that enables a queue, a stream or a group. -/
def Mach.startWrite (m : Mach) (a : Nat) : Effect :=
  let v := (m.reg a).setBit 31 true
  match blockOf a with
  | some (.cq, _) => m.cqWrite a v
  | some (.str, _) => m.strWrite a v
  | _ => m.fusWrite a v

/-- Each enable in its turn, unless one is refused. -/
def Mach.startAll (m : Mach) (l : List Nat) : Option Mach :=
  l.foldlM (fun m a => let e := m.startWrite a; if e.1 then none else some e.2) m

end Sys2Proof.Machine
end

