-- ==== Sys2Proof/Machine/Checks.lean ====
section
/-! DEFINITION. The checks of R327 that an image must pass before the module drains anything. Each refusal gives the cause and the
byte offset of the field at fault: of a word of a register image, or of a field of a section's record. -/

namespace Sys2Proof.Machine

/-! ## Where a field stands -/

/-- The offset of the word that a register image of section t last writes to register a; the start of the section where the image
leaves the register as an empty image has it. -/
def Image.fieldOf (im : Image) (t a : Nat) : Nat :=
  (((im.writesOf t).reverse.find? fun w => w.addr == a).map ImageWrite.field).getD (im.offOf t)

/-- The records of n bytes of section t with their offsets. -/
def Image.recordsOf (im : Image) (t n : Nat) : List (List Byte × Nat) :=
  (records n (im.dataOf t)).zipIdx.map fun p => (p.1, im.offOf t + n * p.2)

/-- The stage-queue records with their offsets (R324). -/
def Image.stageRecords (im : Image) : List (List Byte × Nat) :=
  let d := im.dataOf 8
  let l := stageBytes d.length d
  (records 16 l).zipIdx.map fun p => (p.1, im.offOf 8 + (d.length - l.length) + 16 * p.2)

/-- The records of the weight directory with their offsets (R326). -/
def Image.weightRecords (im : Image) : List (List Byte × Nat) :=
  let d := im.dataOf 0xA
  (List.range (min 4096 (u32 d 0))).map fun i => (slice d (32 + 96 * i) 96, im.offOf 0xA + 32 + 96 * i)

/-- The placements of FALLBACK and DEGRADE with their offsets. -/
def Image.fallbacks (im : Image) : List (Nat × Placement) := placementsAt 32 (im.offOf 0xB) (im.dataOf 0xB)
def Image.degrades (im : Image) : List (Nat × Placement) := placementsAt 496 (im.offOf 0xC) (im.dataOf 0xC)

/-- Elements of a list that repeat an earlier one by a key. -/
def repeated {α : Type} [DecidableEq α] (l : List (α × Nat)) : List (Bool × Nat) :=
  l.zipIdx.map fun p => ((l.take p.2).any fun x => x.1 = p.1.1, p.1.2)

/-! ## Causes 0x02 to 0x04 -/

/-- Owner key slot k is enrolled and not revoked. -/
def Mach.keyUsable (m : Mach) (k : Nat) : Bool := decide (k < 4) && m.rbit Reg.SEC_KEYS k && !m.rbit Reg.SEC_KEYS (4 + k)

def Mach.ownerKey (m : Mach) (k : Nat) : BitVec 256 := sget (fun _ => 0) m.sec.ownerKeys k

/-! ## The form of an HSS signature (R420) -/

/-- A big-endian word at an offset. -/
def be32 (l : List Byte) (o : Nat) : Nat := ofLe ((l.drop o).take 4).reverse

/-- Tree height of an LMS type code; none for a code that R420 does not list. -/
def lmsHeight : Nat → Option Nat
  | 6 => some 10
  | 7 => some 15
  | 8 => some 20
  | _ => none

/-- Type code of the LMS signature at the head of the bytes, which stands behind its LMOTS signature. -/
def lmsType (l : List Byte) : Nat := be32 l 2184

/-- Length of the LMS signature at the head of the bytes; none where one of its type codes is another than those of R420. -/
def lmsLength (l : List Byte) : Option Nat :=
  if be32 l 4 = 3 then (lmsHeight (lmsType l)).map fun h => 2188 + 32 * h else none

/-- `below` signed public keys and the signature of the message fill the bytes, each key of a type of R420 and of the type of the
signature made with it. -/
def hssLevels : Nat → List Byte → Bool
  | 0, l => lmsLength l == some l.length
  | below + 1, l =>
    match lmsLength l with
    | some n =>
      let key := l.drop n
      let next := key.drop 56
      decide (n + 56 ≤ l.length) && be32 key 0 == lmsType next && be32 key 4 == 3 && hssLevels below next
    | none => false

/-- The signature has L from 1 to 3, the type codes of R420 and the sizes that follow from them. -/
def hssForm (sig : List Byte) : Bool := decide (4 ≤ sig.length) && decide (be32 sig 0 ≤ 2) && hssLevels (be32 sig 0) (sig.drop 4)

/-- The signature verifies. -/
def verifies (key : BitVec 256) (message sig : List Byte) : Bool := hssForm sig && Config.hssVerify key message sig

/-- Cause 0x02: an owner floorplan is accepted in DEVELOP and DEPLOY, its key is usable, its signature and the hash of
every section verify (R318, Table 17-5). -/
def Mach.checkSigned (m : Mach) (img : List Byte) (im : Image) : Except Refused Unit := do
  refuseIf (!(m.lifeState == 1 || m.lifeState == 2)) 2 0x2C
  refuseIf (!m.keyUsable im.keyId.toNat) 2 0x2C
  refuseIf (!verifies (m.ownerKey im.keyId.toNat) (img.take im.sigOff) (img.drop im.sigOff)) 2 im.sigOff
  im.secs.zipIdx.forM fun p => refuseIf ((Config.sha256 p.1.data).toNat != p.1.hash) 2 (64 + 48 * p.2 + 0x10)

/-- Cause 0x04 (R4, R323). -/
def Mach.checkRegions (m : Mach) (im : Image) (regions : List Region) : Except Refused Unit := do
  let off := im.offOf 3
  refuseIf (im.minHbm * 2 ^ 30 > m.hbmSize) 4 0x23
  refuseIf ((im.dataOf 3).length % 32 != 0) 4 off
  refuseFirst 4 ((im.recordsOf 3 32).flatMap fun p =>
    [(u64 p.1 0 % 4096 != 0, p.2), (u64 p.1 8 % 4096 != 0 || m.hbmSize < u64 p.1 0 + u64 p.1 8, p.2 + 8),
     (u8 p.1 16 == 0 || 12 < u8 p.1 16, p.2 + 16), (1 < u8 p.1 17, p.2 + 17), reservedField p.1 p.2 (span 18 32)])
  refuseFirst 4 (regions.zipIdx.map fun p =>
    ((regions.take p.2).any fun r => overlaps r.base r.size p.1.base p.1.size, off + 32 * p.2))

/-! ## Cause 0x07: the refusals of the earlier chapters -/

/-- An HBM extent lies within one region of a purpose. -/
def fitsPurpose (regions : List Region) (purpose base size : Nat) : Bool :=
  regions.any fun r => r.purpose == purpose && decide (r.base ≤ base) && decide (base + size ≤ r.base + r.size)

/-- Queues that the floorplan binds. -/
def Image.boundQueues (im : Image) : List Nat := (List.range 256).filter fun q => im.names (Reg.CQ_CFG q)

def Image.enabledQueues (im : Image) : List Nat := (List.range 256).filter fun q => im.enables.contains (Reg.CQ_CTRL q)

/-- Enabled groups, and enabled streams. -/
def Image.enabledGroups (im : Image) : List Nat := (List.range 16).filter fun g => im.enables.contains (Reg.FUS_CTRL g)
def Image.enabledStreams (im : Image) : List Nat := (List.range 256).filter fun s => im.enables.contains (Reg.STR_CTRL s)

/-- Bytes of the largest packet that group g sends to the host (Table 11-9). -/
def Mach.hostLargest (m : Mach) (g : Nat) : Nat :=
  let r := m.reg (Reg.EGR_ROUTE g)
  max (if r.bit 0 && m.gridOn g then 32800 else 0)
    (max (if r.bit 1 then 32 + 32 * 4096 else 0) (if r.bit 2 && m.trkOn g then 64 + 64 * m.trkCount g else 0))

/-- The floorplan uses a host queue: it sends results or messages to the host, or a stage queue takes injected records. -/
def Mach.hostUsed (m : Mach) (im : Image) : HostQ → Bool
  | .result => m.rbit Reg.EGR_MSG_CFG 16 || (List.range 16).any fun g => m.hostLargest g != 0
  | .inject => im.stages.any fun r => u8 r 1 == 2

/-- An HBM extent that the configuration names: the field that names it, its base and size, and its purpose. -/
structure Extent where
  at_ : Nat
  base : Nat
  size : Nat
  purpose : Nat
  /-- what lies there is enabled, or has no enable of its own -/
  on : Bool := true

/-- An address register is named by the image, or what it belongs to is on. -/
def Image.uses (im : Image) (on : Bool) (l : List Nat) : Bool := on || l.any im.names

/-- Every HBM extent that the loaded configuration names (R323): what is on, or whose address registers the image writes. Rings
of queues that the image binds count whether or not it enables them; the basins of a host queue where the floorplan uses it. -/
def Mach.namedExtents (m : Mach) (im : Image) : List Extent :=
  let base := fun (t lo hi size purpose : Nat) => ({ at_ := im.fieldOf t lo, base := m.addr36 lo hi, size := size, purpose := purpose } : Extent)
  (((List.range 256).filter fun s => m.ringSize s != 0).map fun s => base 4 (Reg.STR_RING_BASE_LO s) (Reg.STR_RING_BASE_HI s) (m.ringSize s) 1) ++
  (((List.range 32).filter fun t => im.uses (m.ptOn t) [Reg.PNT_PT_BASE_LO t, Reg.PNT_PT_BASE_HI t]).map fun t =>
    { base 6 (Reg.PNT_PT_BASE_LO t) (Reg.PNT_PT_BASE_HI t) (32 * ptEntries) 2 with on := m.ptOn t }) ++
  (((List.range 32).filter fun v => im.uses (m.vtOn v) [Reg.PNT_VT_BASE_LO v, Reg.PNT_VT_BASE_HI v]).map fun v =>
    { base 6 (Reg.PNT_VT_BASE_LO v) (Reg.PNT_VT_BASE_HI v) (32 * vtBuckets) 3 with on := m.vtOn v }) ++
  (((List.range 16).filter fun g => im.uses (m.gridOn g) [Reg.EGR_GRID_BASE_LO g, Reg.EGR_GRID_BASE_HI g]).map fun g =>
    base 6 (Reg.EGR_GRID_BASE_LO g) (Reg.EGR_GRID_BASE_HI g) (2 ^ 24) 5) ++
  (if im.uses (m.rbit Reg.EGR_TRK_CFG 31) [Reg.EGR_TRK_BASE_LO, Reg.EGR_TRK_BASE_HI] then
    [base 6 Reg.EGR_TRK_BASE_LO Reg.EGR_TRK_BASE_HI 524288 6] else []) ++
  (if im.uses (m.rbit Reg.CAL_POSE_CFG 31) [Reg.CAL_POSE_BASE_LO, Reg.CAL_POSE_BASE_HI] then
    [base 0xF Reg.CAL_POSE_BASE_LO Reg.CAL_POSE_BASE_HI 262144 7] else []) ++
  (im.weightRecords.map fun r => { at_ := r.2 + 8, base := u64 r.1 8, size := u32 r.1 4, purpose := 8 }) ++
  (((List.range 256).filter fun q =>
      im.uses (im.names (Reg.CQ_CFG q)) [Reg.CQ_CTRL q, Reg.CQ_BASE_LO q, Reg.CQ_BASE_HI q] && m.fld (Reg.CQ_CFG q) 8 2 == 0).map fun q =>
    base 8 (Reg.CQ_BASE_LO q) (Reg.CQ_BASE_HI q) (64 * 2 ^ m.ringLog q) 9) ++
  (im.stageRecords.filterMap fun r => let c := (parseStage r.1).2
    if c.inCluster then none else some { at_ := r.2 + 8, base := c.base, size := 2 * c.basin, purpose := 9 }) ++
  (([HostQ.result, HostQ.inject].filter fun h => im.uses (m.hostUsed im h) [Reg.Q_CFG (hqWindow h), Reg.Q_BASE (hqWindow h)]).map fun h =>
    { at_ := im.fieldOf 0xF (Reg.Q_BASE (hqWindow h)), base := (m.hqGeom h).base, size := 2 * (m.hqGeom h).size, purpose := 9 }) ++
  (if im.uses false [Reg.DBG_CELLAR_BASE_LO, Reg.DBG_CELLAR_BASE_HI, Reg.DBG_CELLAR_SIZE] then
    [base 0xF Reg.DBG_CELLAR_BASE_LO Reg.DBG_CELLAR_BASE_HI m.cellarSize 11] else []) ++
  ((im.fallbacks ++ im.degrades).flatMap fun p => p.2.recs.zipIdx.filterMap fun r => match r.1 with
    | .move q _ ring => if ring = 0 || m.fld (Reg.CQ_CFG q) 8 2 == 1 then none else some { at_ := p.1 + 8 + 16 * r.2 + 8, base := ring, size := 64 * 2 ^ m.ringLog q, purpose := 9 }
    | _ => none)

/-- Cluster k is one whose cores the floorplan uses. -/
def Plan.usesCluster (p : Plan) (k : Nat) : Bool := (List.range 4).any fun j => (p.place[4 * k + j]?).any CorePlace.used

/-- The owner and fallback cluster of a table are used. -/
def Mach.tableClusters (m : Mach) (cfg : Nat) : Bool :=
  m.fpl.plan.usesCluster (m.fld cfg 24 3) && m.fpl.plan.usesCluster (m.fld cfg 20 3)

/-- Group g has a stream of these declared limits. -/
def Mach.limitOf (m : Mach) (g : Nat) (l : Nat × Nat) : Bool := m.fusNames g l.1 && (m.strKind l.1 == 2 || m.strKind l.1 == 3)

/-- The declared maxima of the scanner streams of group g (R169). -/
def Mach.declaredPoints (m : Mach) (g : Nat) : Nat := ((m.fpl.plan.limits.filter (m.limitOf g)).map Prod.snd).sum

/-- The extents of the tables, the grids and the track table, which lie in installed HBM (R184, R285). -/
def Mach.tableExtents (m : Mach) (im : Image) : List Extent :=
  (m.namedExtents im).filter fun e => decide (2 ≤ e.purpose) && decide (e.purpose ≤ 6)

/-- The members of a list of extents that share a byte with an earlier one. -/
def overlapping (l : List Extent) : List (Bool × Nat) :=
  l.zipIdx.map fun p => ((l.take p.2).any fun e => overlaps e.base e.size p.1.base p.1.size, p.1.at_)

/-- Those that must not overlap: the grids, the track table and the enabled tables (R184, R285). -/
def Mach.apartExtents (m : Mach) (im : Image) : List Extent := (m.tableExtents im).filter Extent.on

/-- The ranges of track slots of enabled groups (R264). -/
def Mach.trackRanges (m : Mach) (im : Image) (groups : List Nat) : List Extent :=
  groups.map fun g => { at_ := im.fieldOf 6 (Reg.EGR_TRK_RANGE g), base := m.trkFirst g, size := m.trkCount g, purpose := 6 }

/-- A stage-queue record (R300, R324). -/
def stageFields (r : List Byte × Nat) : List (Bool × Nat) :=
  let c := (parseStage r.1).2
  let kind := u8 r.1 1
  [(128 ≤ u8 r.1 0, r.2), (3 < kind, r.2 + 1), ((kind == 1 && 16 ≤ u8 r.1 2) || (2 ≤ kind && u8 r.1 2 != 0), r.2 + 2),
   (u16 r.1 4 == 0 || 8192 < u16 r.1 4, r.2 + 4), (1 < u8 r.1 6, r.2 + 6), (u8 r.1 7 != 0, r.2 + 7),
   (c.inCluster && clusterSize < c.base + 2 * c.basin, r.2 + 8)]

/-- PROG holds whole records, one for a control core, each in its sequencer memory (R325). The fuel counts records. -/
def progFields : Nat → List Nat → Nat → List Byte → List (Bool × Nat)
  | 0, _, off, l => [(!l.isEmpty, off)]
  | fuel + 1, seen, off, l =>
    if l.isEmpty then []
    else
      [(l.length < 12 || 40 ≤ u8 l 0 || seen.contains (u8 l 0), off), reservedField l off (span 1 4), (seqSize ≤ u32 l 4, off + 4),
       (seqSize < u32 l 8 || l.length < 12 + u32 l 8, off + 8)] ++
        progFields fuel (u8 l 0 :: seen) (off + 12 + u32 l 8) (l.drop (12 + u32 l 8))

/-- A resident copy of a weight directory record, of a layer of n bytes. -/
def weightDestFields (e : List Byte) (n at_ : Nat) : List (Bool × Nat) :=
  [(u8 e 0 != 1 && u8 e 0 != 2, at_), (if u8 e 0 = 1 then 8 ≤ u8 e 1 else 32 ≤ u8 e 1, at_ + 1),
   ((if u8 e 0 = 1 then clusterSize else localSize) < u32 e 4 + n, at_ + 4), reservedField e at_ (span 2 4 ++ span 8 16)]

/-- A weight directory record (Table 13-4). -/
def weightFields (d : List Byte) (r : List Byte × Nat) : List (Bool × Nat) :=
  let n := u8 r.1 3
  [(decide (16 ≤ u8 r.1 2), r.2 + 2), (n == 0 || 4 < n, r.2 + 3), (d.length < u32 r.1 0x10 + u32 r.1 4, r.2 + 0x10),
   (crc32c (slice d (u32 r.1 0x10) (u32 r.1 4)) != w32 r.1 0x14, r.2 + 0x14), reservedField r.1 r.2 (span 0x18 0x20)] ++
    (List.range 4).flatMap fun i =>
      let e := slice r.1 (0x20 + 16 * i) 16
      let at_ := r.2 + 0x20 + 16 * i
      if i < n then weightDestFields e (u32 r.1 4) at_ else [reservedField e at_ (span 0 16)]

/-- WEIGHT (R326). -/
def Image.weightsFields (im : Image) : List (Bool × Nat) :=
  let d := im.dataOf 0xA
  let off := im.offOf 0xA
  [(u32 d 0 == 0 || 4096 < u32 d 0 || d.length < 32 + 96 * u32 d 0, off), reservedField d off (span 4 32)] ++
    im.weightRecords.flatMap (weightFields d) ++ repeated (im.weightRecords.map fun r => (u16 r.1 0, r.2))

/-- Moves of a placement that R306 forbids: to another cluster, of a queue whose commands name a cluster semaphore or a
cluster-memory space. Which queues do so is the image's to say, in a way that the spec does not give (log entry 64). -/
def Mach.clusterMoves (m : Mach) (p : Nat × Placement) : List (Bool × Nat) :=
  p.2.recs.zipIdx.map fun r => match r.1 with
    | .move q c _ => (c / 4 != m.fld (Reg.CQ_CFG q) 11 5 / 4 && Config.namesCluster m.fpl.image q, p.1 + 8 + 16 * r.2 + 2)
    | _ => (false, p.1)

/-- The queues after the sixteenth that the image binds to a core (R292). -/
def Mach.crowded (m : Mach) (im : Image) : List (Bool × Nat) :=
  (List.range 32).flatMap fun c =>
    ((im.boundQueues.filter fun q => m.fld (Reg.CQ_CFG q) 11 5 == c).drop 16).map fun q => (true, im.fieldOf 8 (Reg.CQ_CFG q))

/-- The words of a register image that the rules of the earlier chapters refuse over the whole configuration. -/
def Mach.ruleFields (m : Mach) (im : Image) : List (Bool × Nat) :=
  let plan := m.fpl.plan
  let groups := im.enabledGroups
  let pts := List.range 32
  groups.flatMap (fun g =>
    [((m.releaseQueue g).isNone, im.fieldOf 6 (Reg.FUS_CTRL g)),
     (m.fld (Reg.FUS_DEADLINE g) 0 21 ≤ m.fld (Reg.FUS_WAIT g) 0 21, im.fieldOf 6 (Reg.FUS_DEADLINE g))]) ++
  overlapping (m.apartExtents im) ++ ((m.tableExtents im).map fun e => (decide (m.hbmSize < e.base + e.size), e.at_)) ++
  pts.map (fun t => (m.ptOn t && !m.tableClusters (Reg.PNT_PT_CFG t), im.fieldOf 6 (Reg.PNT_PT_CFG t))) ++
  pts.map (fun v => (m.vtOn v && !m.tableClusters (Reg.PNT_VT_CFG v), im.fieldOf 6 (Reg.PNT_VT_CFG v))) ++
  overlapping (m.trackRanges im groups) ++
  [(!m.poseCfgOk (m.reg Reg.CAL_POSE_CFG), im.fieldOf 0xF Reg.CAL_POSE_CFG)] ++
  im.enabledQueues.flatMap (fun q =>
    [(!m.ringInside q, im.fieldOf 8 (Reg.CQ_BASE_LO q)),
     (!m.rbit (Reg.CQ_CFG q) 31 && m.fld (Reg.CQ_CFG q) 8 2 != 0, im.fieldOf 8 (Reg.CQ_CFG q))]) ++
  m.crowded im ++
  im.boundQueues.map (fun q => (!(plan.place[m.fld (Reg.CQ_CFG q) 11 5]?).any CorePlace.used, im.fieldOf 8 (Reg.CQ_CFG q))) ++
  [(decide ((m.hqGeom .result).size < ((List.range 16).map m.hostLargest).foldl max 0), im.fieldOf 0xF (Reg.Q_CFG Reg.HRQ)),
   (m.rbit Reg.EGR_MSG_CFG 16 && (m.hqGeom .result).size < 36 + 8192, im.fieldOf 0xF (Reg.Q_CFG Reg.HRQ))]

/-- An entry of CALIB: its stream, and what makes it invalid (R135). -/
def Mach.calibFields (m : Mach) (r : List Byte × Nat) : List (Bool × Nat) :=
  let cause := calCause (slice r.1 4 256) (m.strKind (u32 r.1 0))
  [(255 < u32 r.1 0, r.2), (cause = 1, r.2 + 4 + 0xFC), (cause != 0, r.2 + 4)]

/-- Bytes that a rule-book region must hold, in submanifold mode or in downsample mode (R176). -/
def ruleBookSize (sub : Bool) : Nat := 256 + 8 * (if sub then 27 else 1) * 1048576

/-- Cause 0x07 over the loaded configuration: the refusals of the earlier chapters. A rule-book region holds what its
mode needs; which mode RULES commands name over it is an opaque reading of the image (R176, log entry 160). -/
def Mach.checkRules (m : Mach) (im : Image) : Except Refused Unit := do
  let plan := m.fpl.plan
  refuseIf (!plan.regions.any fun r => r.purpose == 12 && m.fpl.image.length ≤ r.size) 7 (im.offOf 3)
  refuseIf ((im.dataOf 2).length != 256) 7 (im.offOf 2)
  refuseFirst 7 ((im.recordsOf 2 8).flatMap fun r => [(1 < u8 r.1 0, r.2), reservedField r.1 r.2 (span 4 8)])
  refuseIf ((im.dataOf 5).length % 8 != 0) 7 (im.offOf 5)
  refuseFirst (if (im.section? 5).isNone then 1 else 7) (im.enabledStreams.map fun s =>
    ((m.strKind s == 2 || m.strKind s == 3) && !plan.limits.any fun l => l.1 == s, im.fieldOf 4 (Reg.STR_CTRL s)))
  refuseFirst 7 ((im.recordsOf 5 8).zipIdx.flatMap fun r => (List.range 16).map fun g =>
    (m.limitOf g (u8 r.1.1 0, u32 r.1.1 4) &&
      4194304 < (((plan.limits.take (r.2 + 1)).filter (m.limitOf g)).map Prod.snd).sum, r.1.2 + 4))
  refuseIf ((im.dataOf 7).length % 260 != 0) 7 (im.offOf 7)
  refuseFirst 7 ((im.recordsOf 7 260).flatMap m.calibFields)
  refuseFirst 7 ((im.recordsOf 3 32).zipIdx.map fun r =>
    (u8 r.1.1 16 == 4 && u64 r.1.1 8 < ruleBookSize (Config.submanifold m.fpl.image r.2), r.1.2 + 8))
  refuseFirst 7 (m.ruleFields im)
  refuseIf ((stageBytes (im.dataOf 8).length (im.dataOf 8)).length % 16 != 0) 7 (im.offOf 8)
  refuseFirst 7 (im.stageRecords.flatMap stageFields ++ repeated (im.stageRecords.map fun r => (u8 r.1 0, r.2)) ++
    ((im.stageRecords.filter fun r => u8 r.1 1 == 3).drop 1).map fun r => (true, r.2 + 1))
  refuseFirst 7 (progFields 41 [] (im.offOf 9) (im.dataOf 9))
  refuseFirst 7 (if (im.section? 0xA).isSome then im.weightsFields else [])
  refuseFirst 7 ((im.fallbacks ++ im.degrades).flatMap m.clusterMoves)
  refuseFirst 7 ((m.namedExtents im).map fun e => (e.size != 0 && !fitsPurpose plan.regions e.purpose e.base e.size, e.at_))

/-! ## Causes 0x08 and 0x09 -/

/-- The core that queue q is bound to after a placement. -/
def Placement.coreOf (p : Placement) (m : Mach) (q : Nat) : Nat :=
  (p.recs.findSome? fun r => match r with
    | .move n c _ => if n = q then some c else none
    | _ => none).getD (m.fld (Reg.CQ_CFG q) 11 5)

/-- One record of a placement, at an offset (Table 13-5): no queue goes to a core that is out, and a reload names a layer of
WEIGHT. -/
def Mach.placeFields (m : Mach) (out : Nat → Bool) (r : PlaceRec) (at_ : Nat) : List (Bool × Nat) :=
  match r with
  | .move _ c _ => [(32 ≤ c || out c, at_ + 2)]
  | .reload s l _ u =>
    [(s != 1 && s != 2, at_ + 1), (!m.fpl.plan.weights.any fun w => w.layer == l, at_ + 2), (if s = 1 then 8 ≤ u else 32 ≤ u, at_ + 8)]
  | .entry c e => [(40 ≤ c, at_ + 1), (seqSize ≤ e, at_ + 4)]

/-- What of a placement R329 forbids. R306 is cause 0x07. -/
def Mach.placementFields (m : Mach) (im : Image) (p : Nat × Placement) : List (Bool × Nat) :=
  let out := fun c => c == p.2.core || c == p.2.core2
  let sizes := p.2.recs.map fun r => match r with
    | .reload _ l _ _ => ((m.fpl.plan.weights.find? fun w => w.layer == l).map WeightRec.size).getD 0
    | _ => 0
  (p.2.recs.zipIdx.flatMap fun r => m.placeFields out r.1 (p.1 + 8 + 16 * r.2)) ++
  [((im.boundQueues.any fun q => out (p.2.coreOf m q)), p.1 + 2),
   (((List.range 32).any fun c => decide (16 < (im.boundQueues.filter fun q => p.2.coreOf m q == c).length)), p.1 + 2),
   (sizes.sum != p.2.reload || 2 ^ 26 < p.2.reload, p.1 + 4)]

/-- FALLBACK and DEGRADE consist of whole placements whose records have the types of Table 13-5. The fuel counts
placements. -/
def placementLayout : Nat → Nat → List Byte → List (Bool × Nat)
  | 0, off, l => [(!l.isEmpty, off)]
  | fuel + 1, off, l =>
    if l.isEmpty then []
    else
      [(decide (l.length < 8 + 16 * u8 l 2), off + 2), (u8 l 3 != 0, off + 3)] ++
        ((records 16 (slice l 8 (16 * u8 l 2))).zipIdx.map fun r => (u8 r.1 0 == 0 || 3 < u8 r.1 0, off + 8 + 16 * r.2)) ++
        placementLayout fuel (off + 8 + 16 * u8 l 2) (l.drop (8 + 16 * u8 l 2))

/-- Cause 0x08. -/
def Mach.checkPlacements (m : Mach) (im : Image) : Except Refused Unit := do
  refuseFirst 8 (placementLayout 32 (im.offOf 0xB) (im.dataOf 0xB))
  refuseIf (im.fallbacks.length != 32) 8 (im.offOf 0xB)
  refuseFirst 8 (im.fallbacks.zipIdx.flatMap fun p => [(p.1.2.core != p.2, p.1.1), (p.1.2.core2 != 0xFF, p.1.1 + 1)])
  refuseFirst 8 (im.fallbacks.flatMap (m.placementFields im))
  refuseFirst 8 (placementLayout 496 (im.offOf 0xC) (im.dataOf 0xC))
  refuseFirst 8 (im.degrades.flatMap fun p => [(32 ≤ p.2.core2 || p.2.core2 ≤ p.2.core, p.1 + 1)])
  refuseFirst 8 (repeated (im.degrades.map fun p => ((p.2.core, p.2.core2), p.1)))
  refuseFirst 8 (im.degrades.flatMap (m.placementFields im))

/-- Cause 0x09: GOLDEN and SAFEWIN (R331), and the reference of CCHK (R332). -/
def Mach.checkReference (m : Mach) (im : Image) : Except Refused Unit := do
  let c := im.dataOf 0x10
  refuseIf ((im.dataOf 0xD).length != 512) 9 (im.offOf 0xD)
  refuseFirst 9 ((im.recordsOf 0xD 16).zipIdx.flatMap fun p =>
    [(u8 p.1.1 0 != p.2, p.1.2), reservedField p.1.1 p.1.2 (span 1 4), (seqSize < u32 p.1.1 12 + 128, p.1.2 + 12)])
  refuseIf ((im.dataOf 0xE).length % 16 != 0 || 1024 < (im.dataOf 0xE).length) 9 (im.offOf 0xE)
  refuseFirst 9 ((im.recordsOf 0xE 16).flatMap fun r =>
    [(15 < u8 r.1 0, r.2), reservedField r.1 r.2 (span 1 4), (u32 r.1 8 == 0 || 2000000 < u32 r.1 8, r.2 + 8)])
  refuseIf (c.length != 8) 9 (im.offOf 0x10)
  refuseFirst 9 [(w32 c 0 != m.configCrc, im.offOf 0x10), (u32 c 4 != m.configWords, im.offOf 0x10 + 4)]

/-! ## Every check -/

/-- The module as the image would configure it, on a copy. -/
def Mach.trial (m : Mach) (img : List Byte) (im : Image) : Except Refused Mach := m.clearPlan.applyImage img im false

/-- The enables of queues and streams, each in its turn: the first that its own rule refuses. Whether a group may start depends on
the time at which it does, and shows at step 7. -/
def Mach.checkEnables (m : Mach) (im : Image) : Except Refused Unit :=
  ((im.enables.filter fun a => decide (a < 0x180000)).foldlM (fun m a =>
    let e := m.startWrite a
    if e.1 then .error (7, im.fieldOf (if a < 0x100000 then 8 else 4) a) else .ok e.2) m : Except Refused Mach).map fun _ => ()

/-- Every check on a full floorplan, in the order of its causes (R327, R328). -/
def Mach.checkFloorplan (m : Mach) (img : List Byte) : Except Refused Image := do
  let im ← parseImage img
  refuseIf (im.kind != 1) 1 6
  m.checkSigned img im
  refuseIf (decide (im.version.toNat < (m.reg Reg.SEC_MINVER).toNat)) 3 0xC
  m.checkRegions im (parseRegions (im.dataOf 3))
  imageSections.forM fun t =>
    match imageFault (im.imageBytes t).length (im.offOf t) (im.imageBytes t) with
    | some off => .error (5, off)
    | none => .ok ()
  checkIslands (im.offOf 1) (im.dataOf 1)
  let t ← m.trial img im
  t.checkRules im
  t.checkEnables im
  t.checkPlacements im
  t.checkReference im
  return im

end Sys2Proof.Machine
end

