-- ==== Sys2Proof/Machine/Floorplan.lean ====
section
/-! DEFINITION. Move-in (R333, R334, Table 13-6), weight patches (R335 to R337), storing an image in NAND (R434), and
the Show Home configuration (R338, R342, Table 13-10). -/

namespace Sys2Proof.Machine

/-! ## The image that the FPL registers name (R333) -/

/-- The image-staging region of Show Home's own HBM map (log entry 16). -/
def shStaging : Nat := 0x320000000

/-- The bytes of the image: in HBM, or in a NAND slot; an empty slot gives none. -/
def Mach.namedImage (m : Mach) : List Byte :=
  if m.fld Reg.FPL_SRC 0 2 = 1 then sget (fun _ => []) m.fpl.nand (m.fld Reg.FPL_SRC 4 3)
  else m.bytes (m.addr36 Reg.FPL_ADDR_LO Reg.FPL_ADDR_HI) (m.reg Reg.FPL_LEN).toNat

/-- An image in HBM lies in a staging region of the running floorplan; Show Home's own HBM map is not given, so under
it every place in installed HBM serves (log entry 32). -/
def Mach.stagingOk (m : Mach) : Bool :=
  let a := m.addr36 Reg.FPL_ADDR_LO Reg.FPL_ADDR_HI
  let n := (m.reg Reg.FPL_LEN).toNat
  m.fld Reg.FPL_SRC 0 2 == 1 || (decide (a + n ≤ m.hbmSize) && (m.showHome || fitsPurpose m.fpl.plan.regions 12 a n))

/-! ## Refusals and failures -/

def Mach.setPhase (m : Mach) (n : Nat) : Mach := m.setFld Reg.FPL_STATUS 1 3 n

/-- FPL_REFUSE and FPL_REFUSE_OFF. -/
def Mach.refusal (m : Mach) (r : Refused) : Mach :=
  (m.setReg Reg.FPL_REFUSE (BitVec.ofNat 32 r.1)).setReg Reg.FPL_REFUSE_OFF (BitVec.ofNat 32 r.2)

/-- Phase A refuses the image: the move-in ends, and nothing else changes (R328). -/
def Mach.refuseImage (m : Mach) (r : Refused) : Mach :=
  ((((m.refusal r).setPhase 0).raise Reg.FPL_EVENT 0x2).onFpl fun f => { f with staged := none, stagedAt := none }).handleLate

/-! ## Patches (R335 to R337) -/

/-- A patch refused, or discarded at a move-in. -/
def Mach.dropPatch (m : Mach) : Mach :=
  if m.fpl.patch.isSome then
    ((m.setRBit Reg.FPL_STATUS 6 false).raise Reg.FPL_EVENT 0x10).onFpl fun f => { f with patch := none }
  else m

/-- A record of the patch names a layer of the running floorplan with the same group, destinations, size and master: what differs, at the
offset of its field; the record itself where there is no such layer (R327, R335). -/
def Plan.patchFields (p : Plan) (w : WeightRec) (off : Nat) : List (Bool × Nat) :=
  match p.weights.find? fun x => x.layer == w.layer with
  | none => [(true, off)]
  | some x =>
    [(x.group != w.group, off + 2), (x.dests.length != w.dests.length, off + 3), (x.size != w.size, off + 4),
      (x.master != w.master, off + 8)] ++ (w.dests.zip x.dests).zipIdx.map fun d => (d.1.1 != d.1.2, off + 0x20 + 16 * d.2)

/-- Every check on a weight patch: as in phase A, and R335 (cause 0x0A). -/
def Mach.checkPatch (m : Mach) (img : List Byte) : Except Refused Patch := do
  let im ← parseImage img
  refuseIf (im.kind != 2) 1 6
  m.checkSigned img im
  refuseIf (decide (im.version.toNat < (m.reg Reg.SEC_MINVER).toNat)) 3 0xC
  refuseIf (im.minHbm * 2 ^ 30 > m.hbmSize) 4 0x23
  refuseIf (im.baseId != m.reg Reg.FPL_IMAGE_ID) 0xA 0x10
  refuseIf (decide (im.seq.toNat ≤ m.fpl.patchSeq.toNat)) 0xA 0x14
  let d := im.dataOf 0xA
  refuseFirst 0xA im.weightsFields
  refuseFirst 0xA (((parseWeights d).zip im.weightRecords).flatMap fun p => m.fpl.plan.patchFields p.1.1 p.2.2)
  let layers := parseWeights d
  let groups := (List.range 16).filter fun g => layers.any fun w => w.1.group == g
  return { seq := im.seq, layers := layers, groups := groups.map fun g => (g, m.reg (Reg.FUS_NEXT_K g)) }

/-- A patch is verified: it waits for its switch, and FPL_WUPD_K shows k_s of its lowest group. -/
def Mach.acceptPatch (m : Mach) (p : Patch) : Mach :=
  let ks := (p.groups.head?.map Prod.snd).getD 0
  (((m.setRBit Reg.FPL_STATUS 6 true).setReg Reg.FPL_WUPD_K ks)).onFpl fun f => { f with patch := some p }

/-- FPL_CTRL.wupd_start. The model verifies the patch at once (log entry 33). -/
def Mach.patchStart (m : Mach) : Mach :=
  match (if m.stagingOk then m.checkPatch m.namedImage else .error (1, 0)) with
  | .ok p => m.acceptPatch p
  | .error r => (m.refusal r).raise Reg.FPL_EVENT 0x10

/-- The head of queue q is a UNIT that the patch holds for group g. -/
def Mach.heldUnit (m : Mach) (g q : Nat) : Bool :=
  m.hasHead q && isUnit (m.headBytes q) && u8 (m.headBytes q) 0x11 == g && m.patchHolds (m.headBytes q)

/-- A META UNIT of group g stands in the ring of queue q between its head and its tail. -/
def Mach.unitQueued (m : Mach) (g q : Nat) : Bool :=
  (numbers (m.headNum q) (m.reg (Reg.CQ_TAIL q))).any fun n =>
    let b := m.bytes (m.slotAddr q n) 64
    isUnit b && u8 b 0x11 == g

/-- Queue q carries group g: it has started a UNIT of g since the move-in and is enabled, or a UNIT of g stands in its ring. -/
def Mach.carries (m : Mach) (g q : Nat) : Bool := (m.fpl.unitQueues.contains (g, q) && m.qEnabled q) || m.unitQueued g q

/-- An instant of group g before k_s is in the pipeline, and no queue has taken its work yet: it is still to be computed with the old
weights. -/
def Mach.oldWaits (m : Mach) (g : Nat) (ks : Word) : Bool :=
  (List.range 256).all (fun q => !m.carries g q) &&
    (m.group g).open_.any fun x => decide ((x.k - ks).toInt < 0) && !x.discarded && !x.aged

/-- Every command of g's queues before the held UNITs has completed (R336 step 2, log entry 175). -/
def Mach.patchReady (m : Mach) (g : Nat) (ks : Word) : Bool :=
  !m.oldWaits g ks && ((List.range 256).filter (m.carries g)).all fun q => m.heldUnit g q && (m.cmdq q).started.isEmpty

/-- The layers of group g copied to their masters and resident copies; the held UNITs of g go on. After the last
group the patch has been applied. -/
def Mach.patchSwitch (m : Mach) (g : Nat) : Mach :=
  match m.fpl.patch with
  | some p =>
    if p.groups.any fun x => x.1 == g && m.patchReady g x.2 then
      let m := (p.layers.filter fun w => w.1.group == g).foldl Mach.loadLayer m
      let rest := p.groups.filter fun x => x.1 != g
      if rest.isEmpty then
        ((m.setRBit Reg.FPL_STATUS 6 false).raise Reg.FPL_EVENT 0x8).onFpl fun f => { f with patch := none, patchSeq := p.seq }
      else m.onFpl fun f => { f with patch := some { p with groups := rest } }
    else m
  | none => m

def execWeightPatchSwitch (g : Fin 16) (s : State) : Host.Outcome State Fault Refusal :=
  act s fun m => if m.mgmtRuns then m.patchSwitch g else m

/-! ## NAND slots (R433, R434) -/

/-- MiB that an image takes. -/
def mib (n : Nat) : Nat := (n + 1048575) / 1048576

/-- A store fails. -/
def Mach.storeFailed (m : Mach) : Mach := m.raise Reg.SEC_EVENT 0x80

/-- FPL_CTRL.store: the image is verified and its write begins. A store while another is in progress fails (log entry
34), and so does one during hold 6, when no new NAND program begins (R450). -/
def Mach.storeStart (m : Mach) : Mach :=
  let img := m.namedImage
  let ok := m.stagingOk && (match parseImage img with
    | .ok im => (m.checkSigned img im).isOk
    | .error _ => false)
  let room := decide (mib img.length ≤ m.fld Reg.SEC_NAND_STATUS 0 11) && decide (m.fld Reg.SEC_NAND_STATUS 24 8 < 100)
  if !ok || !room || m.fpl.storing.isSome || m.hold 6 then m.storeFailed
  else (m.setRBit Reg.SEC_STATUS 10 true).onFpl fun f => { f with storing := some (m.fld Reg.FPL_SRC 4 3, img) }

/-- Blocks of the NAND have been erased: the highest erase count is a value that the spec does not give, and no lower one (log entry
179). -/
def Mach.nandWorn (m : Mach) : Mach :=
  let (w, m) := m.free
  m.setReg Reg.SEC_NAND_ERASE_MAX (if (m.reg Reg.SEC_NAND_ERASE_MAX).toNat ≤ w.toNat then w else m.reg Reg.SEC_NAND_ERASE_MAX)

/-- The store ends: the slot directory names the new image, or the slot is as it was. -/
def Mach.storeDone (m : Mach) (ok : Bool) : Mach :=
  match m.fpl.storing with
  | some (slot, img) =>
    let old := sget (fun _ => []) m.fpl.nand slot
    let free := m.fld Reg.SEC_NAND_STATUS 0 11 + mib old.length - mib img.length
    let m := (m.setRBit Reg.SEC_STATUS 10 false).onFpl fun f => { f with storing := none }
    if ok then
      ((m.onFpl fun f => { f with nand := sput (fun _ => []) slot img f.nand }).setFld Reg.SEC_NAND_STATUS 0 11 free).nandWorn.raise
        Reg.SEC_EVENT 0x40
    else m.storeFailed
  | none => m

def execFplStoreDone (ok : Bool) (s : State) : Host.Outcome State Fault Refusal :=
  act s fun m => if m.mgmtRuns then m.storeDone ok else m

/-! ## FPL_CTRL and the FPL block (R345, R344) -/

/-- The first region of purpose 12 that holds n bytes; Show Home has one of its own map (log entry 16). -/
def Mach.stagingFor (m : Mach) (n : Nat) : Option Nat :=
  if m.showHome then some shStaging
  else (m.fpl.plan.regions.find? fun r => r.purpose == 12 && decide (n ≤ r.size)).map Region.base

/-- Phase A begins. An image from NAND is copied into a staging region of the running floorplan; one in HBM lies in one (R333). -/
def Mach.stageBegin (m : Mach) (img : List Byte) : Mach :=
  if m.fld Reg.FPL_SRC 0 2 = 1 then
    let at_ := m.stagingFor img.length
    let m := match at_ with
      | some a => m.setBytes a img
      | none => m
    (m.setPhase 1).onFpl fun f => { f with staged := some img, stagedAt := at_ }
  else (m.setPhase 1).onFpl fun f => { f with staged := some img, stagedAt := some (m.addr36 Reg.FPL_ADDR_LO Reg.FPL_ADDR_HI) }

/-- FPL_CTRL.start. -/
def Mach.moveInStart (m : Mach) : Mach := if m.stagingOk then m.stageBegin m.namedImage else m.refuseImage (1, 0)

/-- FPL_CTRL.abort ends phase A. -/
def Mach.moveInAbort (m : Mach) : Mach :=
  if m.phase = 1 then ((m.setPhase 0).onFpl fun f => { f with staged := none, stagedAt := none }).handleLate else m

/-- A write of FPL_CTRL: start and wupd_start are bus errors while a move-in, a patch or a Still snapshot is in
progress. -/
def Mach.fplCtrl (m : Mach) (v : Word) : Effect :=
  if (v.bit 0 || v.bit 2) && (m.phase != 0 || m.fpl.patch.isSome || m.still || (v.bit 0 && v.bit 2)) then m.bad
  else
    let m := if v.bit 1 then m.moveInAbort else m
    let m := if v.bit 0 then m.moveInStart else m
    let m := if v.bit 2 then m.patchStart else m
    (false, if v.bit 3 then m.storeStart else m)

/-- A write of an FPL_SH register: refused under an owner floorplan, otherwise kept for the next report boundary (R343). -/
def Mach.shWrite (m : Mach) (a : Nat) (v : Word) : Effect :=
  if !m.showHome then m.bad
  else match rowAt a with
    | some (r, _) =>
      if a = Reg.FPL_SH_IMU ∧ v &&& r.mask ≠ 0 ∧ rangeBad (Reg.SNS_SPI_CFG 0) v then m.bad
      else if r.acc = .rw then (false, { m with sh := { m.sh with pendingCfg := (m.sh.pendingCfg.filter fun p => p.1 != a) ++ [(a, v &&& r.mask)] } })
      else (false, m)
    | none => (false, m)

/-- What the FPL block makes of a write. -/
def Mach.fplWrite (m : Mach) (a : Nat) (v : Word) : Effect :=
  if a = Reg.FPL_CTRL then m.fplCtrl v
  else if 0x60100 ≤ a ∧ a < 0x60200 then m.shWrite a v
  else if 0x68000 ≤ a then m.cchkWrite a v
  else (false, m.storeReg a v)

/-- A write that has reached the FPL block. -/
def Mach.fplArrive (m : Mach) (a : Nat) (v : Word) : Mach := m.arriveWith a v (m.fplWrite a v)

def execMoveInStart (s : State) : Host.Outcome State Fault Refusal := act s fun m => m.fplArrive Reg.FPL_CTRL 0x1
def execMoveInAbort (s : State) : Host.Outcome State Fault Refusal := act s fun m => m.fplArrive Reg.FPL_CTRL 0x2
def execWeightPatchStart (s : State) : Host.Outcome State Fault Refusal := act s fun m => m.fplArrive Reg.FPL_CTRL 0x4
def execFplStore (s : State) : Host.Outcome State Fault Refusal := act s fun m => m.fplArrive Reg.FPL_CTRL 0x8

/-! ## Phase B (Table 13-6) -/

/-- The oldest instant of group g released whether or not its descriptor finds room: its result leaves in any case, with valid
clear (Table 13-6 step 2). -/
def Mach.releaseNow (m : Mach) (g : Nat) : Mach :=
  match m.judge g with
  | some (x, cov, _, _) => m.release g x cov
  | none => m

/-- Step 2 for group g: scheduling stops and every pending instant is released at once, as on expiry. -/
def Mach.groupChangeover (m : Mach) (g : Nat) : Mach :=
  if m.fusEnabled g || (m.group g).draining then
    let m := m.groupStop g
    let x := m.group g
    let m := m.setGroup g { x with sched := x.sched.map fun i => { i with pending := true, expired := true } }
    ((List.range x.sched.length).foldl (fun m _ => m.releaseNow g) m).drainGroup g
  else m

/-- Steps 1 to 3 begin: the outputs fall invalid, groups, queues and streams stop. -/
def Mach.beginPhaseB (m : Mach) (detail : List Byte) : Mach :=
  let m := (m.setPhase 2).beginHold 2
  let m := (m.onFpl fun f => { f with phaseBAt := m.time.count }).lcLog 6 m.lifeState detail
  let m := m.setRBit Reg.DBG_TRACE_CTRL 31 false
  let m := (List.range 16).foldl Mach.groupChangeover m
  let m := m.discardAll
  let m := ((List.range 256).filter m.qEnabled).foldl (fun m q => (m.setRBit (Reg.CQ_CTRL q) 31 false).queueOff q) m
  let m := ((List.range 256).filter m.strEnabled).foldl Mach.strStop m
  m.dropPatch

/-- Steps 2 and 3 end: what is still in the pipeline leaves with valid clear, and every port's last record is
written, the items in progress at the ports as damaged ones (R94). -/
def Mach.endPipeline (m : Mach) : Mach :=
  let m := (List.range 8).foldl (fun m n => m.closeDamaged n fun _ => true) m
  let m := (List.range 4).foldl Mach.spiClose m
  let m := (List.range 16).foldl (fun m g =>
    (m.group g).open_.foldl (fun m x => m.frameAll g { x with discarded := true } (m.routed g)) m) m
  (List.range 256).foldl (fun m s => (List.range (m.stream s).items.length).foldl (fun m _ => m.spill s) m) m

/-! ## The configuration of Show Home -/

/-- Show Home's own HBM map beside the history rings (log entry 16): Cellar, grid, track table, pose history. -/
def shCellar : Nat := 0x300000000
def shGrid : Nat := 0x310000000
def shTracks : Nat := 0x311000000
def shPose : Nat := 0x311080000

def Mach.setAddr36 (m : Mach) (lo hi a : Nat) : Mach :=
  (m.setReg lo (BitVec.ofNat 32 a)).setReg hi (BitVec.ofNat 32 (a / 2 ^ 32))

/-- SNS_CSI_CFGn under Show Home: enable, lanes and rate of FPL_SH_CSIn, frame timeout 100 ms, deskew above 1,500 Mb/s. -/
def Mach.shCsi (m : Mach) (n : Nat) : Word :=
  let w := m.reg (Reg.FPL_SH_CSI n)
  BitVec.ofNat 32 (2 ^ 31 + w.field 29 2 * 2 ^ 29 + w.field 16 13 * 2 ^ 16 + 100 * 2 ^ 8 + if 1500 < w.field 16 13 then 1 else 0)

/-- The low-rate sensors that FPL_SH_CTRL selects: SPI0 with stream 192, ENC0 to ENC7 with streams 200 to 207. Their ports
change as a write of their registers changes them: an encoder begins to sample (R78). Streams so created are discovered in
one clock, and raise sh_change (R338, R386, log entry 125). While FPL_SH_IMU holds its reset value 0, which is no setting of
SPI0, SPI0 stays off (log entry 35). -/
def Mach.shHub (m : Mach) : Mach :=
  let set := m.reg Reg.FPL_SH_IMU
  let imu := m.rbit Reg.FPL_SH_CTRL 0 && set != 0
  let newWheel := (List.range 8).any fun e => m.rbit Reg.FPL_SH_CTRL (8 + e) && !m.strEnabled (200 + e)
  let m := if (imu && !m.strEnabled 192) || newWheel then m.raise Reg.FPL_EVENT 0x80 else m
  let m := (m.portCfg (Reg.SNS_SPI_CFG 0) (if set = 0 then regReset (Reg.SNS_SPI_CFG 0) else set.setBit 31 imu)).2.setReg
    (Reg.SNS_SPI_CMD 0) (m.reg Reg.FPL_SH_IMUCMD)
  let m := if imu && !m.strEnabled 192 then m.shCreate 192 0x40000000 0 0 32
    else if !imu && m.strEnabled 192 then m.strStop 192
    else m
  (List.range 8).foldl (fun m e =>
    let on := m.rbit Reg.FPL_SH_CTRL (8 + e)
    let m := (m.portCfg (Reg.SNS_ENC_CFG e) (((0x20000000 + 1000 : Word)).setBit 31 on)).2
    if on && !m.strEnabled (200 + e) then
      m.shCreate (200 + e) (BitVec.ofNat 32 (5 * 2 ^ 28 + e * 2 ^ 24)) 0 0 (BitVec.ofNat 32 ((64 + 16 * e) * 2 ^ 20 + 8))
    else if !on && m.strEnabled (200 + e) then m.strStop (200 + e)
    else m) m

/-- The ports and streams that the FPL_SH registers configure. -/
def Mach.shPorts (m : Mach) : Mach :=
  ((List.range 8).foldl (fun m n => m.setReg (Reg.SNS_CSI_CFG n) (m.shCsi n)) m).shHub

/-- Group 0 and its grid, as R342 holds them whether it runs or not; the descriptors go to stage queue 0 (log entry
12). -/
def Mach.shGroup (m : Mach) : Mach :=
  let m := (((m.setReg (Reg.FUS_CTRL 0) 0x00400000).setReg (Reg.FUS_PERIOD 0) 50000000).setReg (Reg.FUS_WAIT 0) 30000).setReg
    (Reg.FUS_DEADLINE 0) 100000
  let m := ((m.setReg (Reg.EGR_GRID_CFG 0) (BitVec.ofNat 32 (4 * 2 ^ 25 + 4 * 2 ^ 20 + 10 * 2 ^ 14 + 4 * 2 ^ 8))).setReg
    (Reg.EGR_GRID_ORIG 0) 0xFB00FB00).setReg (Reg.EGR_GRID_HGT 0) 50
  let m := (m.setReg (Reg.EGR_GRID_LO 0) (BitVec.ofNat 32 (3000 * 2 ^ 16 + 20))).setReg (Reg.EGR_GRID_CONF 0)
    (BitVec.ofNat 32 (256 * 2 ^ 16 + 400))
  let m := (List.range 8).foldl (fun m w => m.setReg (Reg.EGR_GRID_WT 0 w) 0x10101010) m
  let m := (m.setReg (Reg.EGR_ROUTE 0) 1).setReg (Reg.EGR_HOSTTILE 0) 0x00000303
  let queue : StageCfg := { producer := .group 0, consumer := 0, base := 0x311100000, basin := 65536 }
  { m with stageCfg := sput (fun _ => none) 0 (some queue) m.stageCfg }

/-- Show Home over a module that holds nothing of a floorplan (Table 13-10). Its host result queue has basins of
64 KiB in its own HBM map (log entry 16). -/
def Mach.applyShowHome (m : Mach) : Mach :=
  let m := (List.range 4).foldl (fun m p => m.setReg (Reg.SNS_MAC_CFG p) 0x90000000) m
  let m := m.shPorts.setReg Reg.SNS_GPIO_DIR 1
  let m := ((m.setAddr36 Reg.DBG_CELLAR_BASE_LO Reg.DBG_CELLAR_BASE_HI shCellar).setReg Reg.DBG_CELLAR_SIZE 128).setAddr36
    (Reg.EGR_GRID_BASE_LO 0) (Reg.EGR_GRID_BASE_HI 0) shGrid
  let m := (m.setAddr36 Reg.EGR_TRK_BASE_LO Reg.EGR_TRK_BASE_HI shTracks).setAddr36 Reg.CAL_POSE_BASE_LO Reg.CAL_POSE_BASE_HI shPose
  let m := ((m.setReg Reg.CAL_POSE_CFG (BitVec.ofNat 32 (192 * 2 ^ 16 + 2000))).setReg Reg.CAL_POSE_GAIN 328)
  let m := (List.range 8).foldl (fun m w => m.setReg (Reg.CAL_POSE_WHEEL w) (BitVec.ofNat 32 (200 + w))) m
  let m := (m.setReg (Reg.Q_CFG Reg.HRQ) (BitVec.ofNat 32 (2 ^ 30 + 2 ^ 28 + 64))).setReg (Reg.Q_BASE Reg.HRQ)
    (BitVec.ofNat 32 (0x311200000 / 1024))
  m.shGroup

/-! ## Steps 4 to 7 -/

/-- The verified image in the new floorplan's staging region: the configuration copy (R369). -/
def Mach.copyImage (m : Mach) (img : List Byte) : Mach :=
  match (m.fpl.plan.regions.find? fun r => r.purpose == 12 && decide (img.length ≤ r.size)).map Region.base with
  | some a => (m.setBytes a img).onFpl fun f => { f with copyAt := some a }
  | none => m

/-- Steps 5 and 6: the sections are applied, and the commit starts. -/
def Mach.loadPhase (m : Mach) (img : List Byte) : Mach :=
  if img.isEmpty then
    let m := m.applyShowHome.settleTime.onFpl fun f => { f with copyAt := some shStaging }
    ((m.setReg Reg.CCHK_REF m.configCrc).setPhase 4).commitStart
  else
    match parseImage img with
    | .error _ => m.loadFailed
    | .ok im =>
      match m.applyImage img im true with
      | .error _ => m.loadFailed
      | .ok m' => (((m'.copyImage img).setReg Reg.CCHK_REF (w32 (im.dataOf 0x10) 0)).setPhase 4).commitStart

/-- Identifier and version of an image, 0 for Show Home. -/
def imageIds (img : List Byte) : Word × Word := if img.isEmpty then (0, 0) else (w32 img 8, w32 img 0xC)

/-- PHASE_B_CHANGEOVER. From verifying: the checks of R327, then, once no recovery is in progress (R26), steps 1 to 3. From draining:
the end of the pipeline and step 4. From loading: steps 5 and 6. The move-in pauses while the management core is halted, and phase B waits for a Still
snapshot (R344, R416). -/
def Mach.changeover (m : Mach) : Mach :=
  if !m.mgmtRuns || m.still then m
  else match m.fpl.staged with
    | none => m
    | some img =>
      if m.phase = 1 then
        match (if img.isEmpty then .error (1, 0) else m.checkFloorplan img) with
        | .error r => m.refuseImage r
        | .ok _ => if m.hold 0 then m else m.beginPhaseB (wordBytes (imageIds img).1 ++ wordBytes (imageIds img).2)
      else if m.phase = 2 then m.endPipeline.clearPlan.setPhase 3
      else if m.phase = 3 then m.loadPhase img
      else m

def execPhaseBChangeover (s : State) : Host.Outcome State Fault Refusal := act s fun m => m.changeover

/-- The control cores with a program start at their entries (R308). -/
def Mach.startPrograms (m : Mach) : Mach :=
  m.fpl.plan.progs.foldl (fun m p => m.setCc p.cc { pc := BitVec.ofNat 18 (m.ccEntry p.cc), state := .running }) m

/-- What the image enables; Show Home starts nothing here. -/
def enablesOf (img : List Byte) : List Nat :=
  match parseImage img with
  | .ok im => im.enables
  | .error _ => []

/-- The first self-test round of every core counts from the move-in (R364). -/
def Mach.roundsBegin (m : Mach) : Mach :=
  m.onSafety fun x => { x with
    selfTest := (List.range 32).foldl (fun t c => sput (fun _ => {}) c ({ roundAt := m.runClock } : SelfTest) t) x.selfTest }

/-- The move-in ends: FPL shows what is in force, and the faults met meanwhile are handled against the new floorplan
(R26). A CCHK_OPEN granted during phase B takes effect (R435). -/
def Mach.endMoveIn (m : Mach) (img : List Byte) : Mach :=
  let ids := imageIds img
  let m := ((m.setPhase 0).setRBit Reg.FPL_STATUS 4 img.isEmpty).raise Reg.FPL_EVENT 0x1
  let m := { m with sh := { m.sh with boundary := m.time.count.toNat / 50000000 } }
  let m := (m.setReg Reg.FPL_IMAGE_ID ids.1).setReg Reg.FPL_IMAGE_VER ids.2
  let m := (m.setReg Reg.FPL_MOVEIN_TIME (BitVec.ofNat 32 ((m.time.count - m.fpl.phaseBAt).toNat / 1000))).roundsBegin
  let m := if m.sec.openAfter then
      let m := (m.setOpen true).beginHold 8
      { m with sec := { m.sec with openAfter := false } }
    else m
  (m.onFpl fun f => { f with staged := none, stagedAt := none }).handleLate

/-- MOVE_IN_COMMITTED: the first full pass matches the reference, and what the image enables starts; otherwise Show
Home follows. -/
def Mach.committed (m : Mach) : Mach :=
  match m.fpl.staged with
  | some img =>
    if m.phase ≠ 4 || !m.mgmtRuns then m
    else if m.configCrc ≠ m.reg Reg.CCHK_REF then m.loadFailed
    else
      match m.commit.startPrograms.startAll (enablesOf img) with
      | some m' => m'.endMoveIn img
      | none => m.loadFailed
  | none => m

def execMoveInCommitted (s : State) : Host.Outcome State Fault Refusal := act s fun m => m.committed

end Sys2Proof.Machine
end

