-- ==== Sys2Proof/Machine/Islands.lean ====
section
/-! DEFINITION. Clock islands and sluices (R33 to R43): stretching, stopping and restarting an island, and the checks
and credits of a sluice channel. -/

namespace Sys2Proof.Machine

/-! ## Stretching (R34, R35) -/

/-- Target and limit of an island in the floorplan, in 1/256 of nominal (R321); Show Home and an island not listed have
limit 2.0. -/
def Mach.islandPlan (m : Mach) (i : Nat) : Nat × Nat := sget (fun _ => (256, 512)) m.fpl.plan.islands i

/-- The period island i runs at, in 1/256 of nominal: the longest of its plan and its requests, each cut to its limit. -/
def Mach.islandPeriod (m : Mach) (i : Nat) : Nat :=
  if fixedIsland i then 256
  else
    let x := m.island i
    let plan := m.islandPlan i
    let cut := fun (lim : Nat) (r : Option Nat) => min lim (r.getD 256)
    max plan.1 (max (cut 512 x.droop) (max (cut plan.2 x.thermal) (cut plan.2 x.cap)))

/-- A source's request on an island, or its absence. -/
def Island.request (x : Island) (src : StretchSrc) (r : Option Nat) : Island :=
  match src with
  | .droop => { x with droop := r }
  | .thermal => { x with thermal := r }
  | .powerCap => { x with cap := r }

/-- A stretch request; against an island of R35 telemetry records it, while the management core runs (R24), and it is not applied. -/
def Mach.stretch (m : Mach) (i : Nat) (src : StretchSrc) (period : Nat) : Mach :=
  let x := m.island i
  if fixedIsland i then (if m.mgmtRuns then m.setIsland i { x with refused := x.refused + 1 } else m) else m.setIsland i (x.request src (some period))

def execStretchRequest (i : Fin 166) (src : StretchSrc) (period : Nat) (s : State) : Host.Outcome State Fault Refusal :=
  act s fun m => m.stretch i src period

def Mach.unstretch (m : Mach) (i : Nat) (src : StretchSrc) : Mach := m.setIsland i ((m.island i).request src none)

def execStretchWithdraw (i : Fin 166) (src : StretchSrc) (s : State) : Host.Outcome State Fault Refusal :=
  act s fun m => m.unstretch i src

/-! ## Stopping (R37, R39) -/

/-- Power state being entered, or the one reached: 0 RUN, 1 IDLE, 2 STANDBY. -/
def Mach.powerTarget (m : Mach) : Nat := m.pins.entering.getD (m.fld Reg.GCTL_STATUS 8 3)

/-- The enables of the ports of an island: a MAC's, a CSI-2 port's, those of every port of the hub. -/
def portCfgs (i : Nat) : List Nat :=
  if i < 156 then [Reg.SNS_MAC_CFG (i - 152)]
  else if i < 164 then [Reg.SNS_CSI_CFG (i - 156)]
  else (List.range 4).map Reg.SNS_SPI_CFG ++ (List.range 2).map Reg.SNS_CAN_CFG ++ (List.range 8).map Reg.SNS_ENC_CFG ++
    (List.range 8).map Reg.SNS_I3C_CFG ++ (List.range 8).map Reg.SNS_FSYNC_CFG

/-- Allocation of ingress memory of an island's ports. -/
def portAlloc (i : Nat) : Nat := if i < 156 then i - 144 else if i < 164 then i - 156 else 12

/-- No record of an island's ports has still to be written (R94). -/
def Mach.portIdle (m : Mach) (i : Nat) : Bool :=
  m.streams.all fun e => e.2.items.isEmpty || allocOf (m.reg (Reg.STR_SOURCE e.1)) != some (portAlloc i)

/-- The ports of an island have failed, or are all disabled with their last record written. -/
def Mach.portStopped (m : Mach) (i : Nat) : Bool :=
  m.safety.pointOut.contains i || ((portCfgs i).all (fun a => !m.rbit a 31) && m.portIdle i)

/-- A case of R39 that stops island i holds. -/
def Mach.stopCase (m : Mach) (i : Nat) : StopCause → Bool
  | .idle => decide (i < 144) && m.powerTarget == 1
  | .standby => !(i == 144 || i == 145 || i == 146) && m.powerTarget == 2
  | .port => decide (152 ≤ i ∧ i ≤ 164) && m.portStopped i
  | .coreOut => decide (i < 128) && m.rbit Reg.FPL_CORES_OUT (i / 4)
  | .still => (decide (i < 144) || i == 150 || i == 151) && (m.rbit Reg.DBG_STATUS 4 || m.rbit Reg.DBG_STATUS 5)

/-- Island i stands still for a cause. -/
def Mach.stopFor (m : Mach) (i : Nat) (why : StopCause) : Mach :=
  let x := m.island i
  if x.stopped.contains why then m else m.setIsland i { x with stopped := x.stopped ++ [why] }

/-- A stop order of the safety supervisor: it is given only in the cases of R39. -/
def Mach.stopOrder (m : Mach) (i : Nat) (why : StopCause) : Mach := if m.stopCase i why then m.stopFor i why else m

def execIslandStop (i : Fin 166) (why : StopCause) (s : State) : Host.Outcome State Fault Refusal :=
  act s fun m => m.stopOrder i why

/-! ## Sluices (R40 to R42) -/

/-- Key of channel ch from island a to island b. -/
def sluiceKey (a b ch : Nat) : Nat := (a * 166 + b) * 256 + ch

def Mach.sluice (m : Mach) (k : Nat) : Sluice := sget (fun _ => {}) m.sluices k
def Mach.setSluice (m : Mach) (k : Nat) (x : Sluice) : Mach := { m with sluices := sput (fun _ => {}) k x m.sluices }

/-- The receiving island consumes what its buffer holds: every credit returns. -/
def Sluice.consumed (x : Sluice) : Sluice := { x with credit := x.credit + x.buffer.length, buffer := [], waiting := false }

/-- Island b consumes the bundles that reached it while it stood still. -/
def Mach.consume (m : Mach) (b : Nat) : Mach :=
  m.sluices.foldl (fun m p => if p.1 / 256 % 166 = b then m.setSluice p.1 p.2.consumed else m) m

/-- The start stage of the core whose sequencer island i is looks at the heads of its queues (R295). -/
def Mach.lookAgain (m : Mach) (i : Nat) : Mach :=
  if i < 128 ∧ i % 4 = 3 then (m.queuesOf (i / 4)).foldl Mach.checkHead m else m

/-- A restart order: the causes that no longer hold are withdrawn, and an island with none left runs. -/
def Mach.restartIsland (m : Mach) (i : Nat) : Mach :=
  let x := m.island i
  let m := m.setIsland i { x with stopped := x.stopped.filter fun c => m.stopCase i c }
  if m.runs i then (if x.stopped.isEmpty then m.consume i else (m.consume i).lookAgain i) else m

def execIslandRestart (i : Fin 166) (s : State) : Host.Outcome State Fault Refusal := act s fun m => m.restartIsland i

/-- The unit to which a fault of an island is charged (R41, Table 14-3). -/
def islandUnit (i : Nat) : UnitKind × Nat :=
  if i < 128 then (.core, i / 4)
  else if i < 144 then (if i % 2 = 0 then .cluster else .pointUnit, (i - 128) / 2)
  else if i = 144 then (.timebase, i)
  else if i = 145 then (.supervisor, i)
  else if i = 146 then (.management, i)
  else if i = 147 then (.security, i)
  else if i < 152 then (.dieUnit, i)
  else if i < 165 then (.port, i)
  else (.dieUnit, i)

/-- A sluice fault of receiving island b. Its detail is not given. -/
def Mach.sluiceFault (m : Mach) (b : Nat) : Mach :=
  let (w, m) := m.free
  let u := islandUnit b
  let d : Detection :=
    { cause := 0x0B, unit := u.1, number := u.2, detail := w, jetFails := false, again := false, addr := 0, reloadFails := false }
  m.detect d

/-- The receiver's check of a bundle fails: a parity bit of a 32-bit portion, or the sequence bit (R41). -/
def Sluice.bad (x : Sluice) (bundle : List Word) (parity : List Bool) (seqBit : Bool) : Bool :=
  (bundle.map evenParity != parity) || seqBit == x.seqBit

/-- One handshake from island a to island b. Without a credit the sender waits; a stopped sender delivers nothing; a
running receiver consumes the bundle, a stopped one holds it. A bundle that is discarded leaves the credits as they were, a point
that the spec leaves open (log entry 150). -/
def Mach.transfer (m : Mach) (a b ch : Nat) (bundle : List Word) (parity : List Bool) (seqBit : Bool) : Mach :=
  let k := sluiceKey a b ch
  let x := m.sluice k
  if a = b ∨ !m.runs a then m
  else if x.credit = 0 then m.setSluice k { x with waiting := true }
  else if x.bad bundle parity seqBit then (m.setSluice k { x with seqBit := seqBit, waiting := false }).sluiceFault b
  else if m.runs b then m.setSluice k { x with seqBit := seqBit, waiting := false }
  else m.setSluice k { x with seqBit := seqBit, waiting := false, credit := x.credit - 1, buffer := x.buffer ++ [bundle] }

def execSluiceTransfer (a b : Fin 166) (ch : Fin 256) (bundle : List Word) (parity : List Bool) (seqBit : Bool) (s : State) :
    Host.Outcome State Fault Refusal := act s fun m => m.transfer a b ch bundle parity seqBit

end Sys2Proof.Machine
end

