-- ==== Sys2Proof/Machine/Safety.lean ====
section
/-! DEFINITION. The safety supervisor's own happenings: detections, the recovery bound, the age monitor, OUT_VALID, the
test jet, the deep self-test and the scrub (R348, R354 to R365). -/

namespace Sys2Proof.Machine

/-! ## Faults -/

def execFaultDetected (d : Detection) (s : State) : Host.Outcome State Fault Refusal := act s fun m => m.detect d

/-- A recovery that has not completed at 1 ms becomes fatal (R357); a Still snapshot that holds the islands stops its
clock (R416). -/
def Mach.recoveryBound (m : Mach) : Mach :=
  let late := m.safety.recoveries.filter fun r =>
    decide (1000000 ≤ (m.time.count - r.at_).toNat) && m.fld (Reg.SAFE_LOG1 r.logIndex) 0 8 != 6
  if late.isEmpty || m.still then m
  else m.oneClock Reg.SAFE_EVENT fun m => (late.foldl (fun m r => m.logReaction r.logIndex 6) m).fatal

def execRecoveryTimeout (s : State) : Host.Outcome State Fault Refusal := act s fun m => m.recoveryBound

/-- The management core has restarted its firmware (Table 14-3). -/
def Mach.mgmtRestart (m : Mach) : Mach := (m.onObs fun o => { o with mgmtHalted := false }).servoCheck.telemetry

def execMgmtFwRestart (s : State) : Host.Outcome State Fault Refusal := act s fun m => m.mgmtRestart

/-! ## The age monitor (R359) -/

/-- Short time has reached Tk + deadline of group g. -/
def Mach.overAge (m : Mach) (g : Nat) (tk : BitVec 64) : Bool := decide (m.deadlineNs g ≤ m.ageOf tk)

/-- What every expiry does, in one clock, and what a detection of it sets off. -/
def Mach.ageMiss (m : Mach) (g : Nat) : Mach :=
  (m.oneClock Reg.SAFE_EVENT fun m => ((m.beginHold (16 + g)).incReg (Reg.SAFE_AGEMISS g)).raise Reg.SAFE_EVENT 0x20).ageDetected

/-- The monitor watches this instant in the pipeline: the rule of its release says so (R366), and it has not expired. -/
def Live.watched (l : Live) : Bool := l.ageRule && !l.aged

/-- The oldest instant that is watched and has not been expired, released or not, expires. -/
def Mach.ageExpire (m : Mach) (g : Nat) : Mach :=
  let x := m.group g
  match x.open_.find? Live.watched, (if m.ageOn g then x.sched.find? fun i => !i.aged else none) with
  | some l, _ =>
    if m.overAge g l.tk then
      (m.setGroup g { x with open_ := mapFirst Live.watched (fun l => { l with aged := true }) x.open_ }).ageMiss g
    else m
  | none, some i =>
    if m.overAge g i.tk then
      (m.setGroup g { x with sched := mapFirst (fun i => !i.aged) (fun i => { i with aged := true }) x.sched }).ageMiss g
    else m
  | none, none => m

def execAgeExpiry (g : Fin 16) (s : State) : Host.Outcome State Fault Refusal := act s fun m => m.ageExpire g

/-! ## OUT_VALID (R348) -/

/-- OUT_VALID rises: no hold is in effect, and it has been low for at least 10 µs. -/
def Mach.outRise (m : Mach) : Mach :=
  let low := (m.time.count - m.safety.lowAt).toNat
  if m.safety.outValid || m.reg Reg.SAFE_HOLD != 0 || low < 10000 then m
  else
    ((m.onSafety fun x => { x with outValid := true }).setRBit Reg.SAFE_STATUS 1 true).setReg Reg.SAFE_LAST_OUT
      (BitVec.ofNat 32 (min low (2 ^ 32 - 1)))

def execOutValidRise (s : State) : Host.Outcome State Fault Refusal := act s fun m => m.outRise

/-- What the SAFE block makes of a write: SAFE_CTRL is hold 7, and SAFE_CFG may begin or end hold 4 (Table 14-1). -/
def Mach.safeWrite (m : Mach) (a : Nat) (v : Word) : Effect :=
  let m := m.storeReg a v
  (false, if a = Reg.SAFE_CTRL then (if v.bit 0 then m.beginHold 7 else m.endHold 7)
    else if a = Reg.SAFE_CFG then m.anchorHold
    else m)

def execForceInvalid (on : Bool) (s : State) : Host.Outcome State Fault Refusal :=
  act s fun m =>
    let v : Word := BitVec.ofNat 32 on.toNat
    m.arriveWith Reg.SAFE_CTRL v (m.safeWrite Reg.SAFE_CTRL v)

/-! ## The test jet (R362) -/

/-- A core that serves no group runs its jet every 50 ms. -/
def Mach.jetPeriodic (m : Mach) (c : Nat) : Mach :=
  let last := sget (fun _ => 0) m.safety.jetAt c
  if m.coreGroups c = 0 ∧ 50000000 ≤ (m.time.count - last).toNat then m.jet c else m

def execTestJetPeriodic (c : Fin 32) (s : State) : Host.Outcome State Fault Refusal := act s fun m => m.jetPeriodic c

/-- A jet of core c that began is not complete within 50 µs. -/
def Mach.jetTimeout (m : Mach) (c : Nat) : Mach :=
  if m.jetReady c && (m.golden c).isSome then ((m.bump 429 1).bump 430 1).jetFault c 0x14 else m

def execTestJetTimeout (c : Fin 32) (s : State) : Host.Outcome State Fault Refusal := act s fun m => m.jetTimeout c

/-! ## The deep self-test (R363, R364) -/

/-- Tk of the instants of group g that the module knows: scheduled, in the pipeline, and in FUS_ILOG. -/
def Mach.knownTks (m : Mach) (g : Nat) : List Int :=
  let x := m.group g
  let n := (m.reg (Reg.FUS_NEXT_K g)).toNat
  (x.sched.map fun i => i.tk.toInt) ++ (x.open_.map fun l => l.tk.toInt) ++
    (List.range (min n 64)).map fun i => m.ext (m.reg (Reg.FUS_ILOG g ((n - 1 - i) % 64)))

/-- The segment that starts now would not end before a window from a to b starts, or starts within it. -/
def Mach.windowMeets (m : Mach) (a b : Int) : Bool := decide (a ≤ m.time.count.toNat + 52000) && decide ((m.time.count.toNat : Int) < b)

/-- A window of a future instant of a periodic group meets the segment: of those that end after now, the first. -/
def Mach.futureMeets (m : Mach) (g : Nat) (start len : Int) : Bool :=
  let p : Int := (m.reg (Reg.FUS_PERIOD g)).toNat
  match (m.group g).latest with
  | some t =>
    if m.triggered g || !(m.group g).running then false
    else
      let first : Int := t.toNat + start
      let j := max 1 ((m.time.count.toNat - len - first) / p + 1)
      m.windowMeets (first + j * p) (first + j * p + len)
  | none => false

/-- A SAFEWIN window whose mask includes core c meets a segment that starts now. -/
def Mach.windowBlocks (m : Mach) (c : Nat) : Bool :=
  (m.fpl.plan.safewin.filter fun w => w.mask.testBit c).any fun w =>
    let start := w.start * 1000
    let len : Int := w.length * 1000
    (m.knownTks w.group).any (fun t => m.windowMeets (t + start) (t + start + len)) || m.futureMeets w.group start len

/-- No accumulator slot of core c is kept for a later command. -/
def Mach.slotsFree (m : Mach) (c : Nat) : Bool := (List.range 8).all fun n => !(sget (fun _ => {}) m.slots (16 * c + n)).kept

/-- A segment of core c starts where R363 lets it; those of a re-homed core run back to back (R364). -/
def Mach.segmentStart (m : Mach) (c : Nat) : Mach :=
  let x := m.selfTestOf c
  if m.inService c && !x.running && !m.ccRecovering c && m.coreInFlight c == 0 && m.slotsFree c && (x.rehomed || !m.windowBlocks c) then
    m.setSelfTest c { x with running := true, done := if 8 ≤ x.done then 0 else x.done, startedAt := m.time.count }
  else m

def execSelfTestSegment (c : Fin 32) (s : State) : Host.Outcome State Fault Refusal := act s fun m => m.segmentStart c

/-- A self-test fault of core c, always permanent. Its detail is not given. -/
def Mach.selfTestFault (m : Mach) (c : Nat) : Mach :=
  let (w, m) := m.free
  let d : Detection :=
    { cause := 0x06, unit := .core, number := c, detail := w, jetFails := false, again := false, addr := 0, reloadFails := false }
  m.detect d

/-- The segment of core c ends: it starts commands again, or is found permanently faulty. -/
def Mach.segmentDone (m : Mach) (c : Nat) (pass : Bool) : Mach :=
  let x := m.selfTestOf c
  if x.running then
    let done := if pass then x.done + 1 else x.done
    let m := (m.bump 431 1).setSelfTest c { x with running := false, done := done, roundAt := if done = 8 then m.runClock else x.roundAt }
    if pass then (m.queuesOf c).foldl Mach.checkHead m else m.selfTestFault c
  else m

def execSelfTestSegmentDone (c : Fin 32) (pass : Bool) (s : State) : Host.Outcome State Fault Refusal :=
  act s fun m => m.segmentDone c pass

/-- The round of core c is still incomplete after 3,300 s in RUN (R364, R453). -/
def Mach.roundLate (m : Mach) (c : Nat) : Bool := decide (3300000000000 ≤ (m.runClock - (m.selfTestOf c).roundAt).toNat)

/-- A planned re-homing at a release of a group that core c serves: away while its round is late, back when the round is
complete. -/
def Mach.rehome (m : Mach) (c : Nat) : Mach :=
  let x := m.selfTestOf c
  if !m.inService c then m
  else if x.rehomed then (if 8 ≤ x.done then m.rehomeStart c else m)
  else if m.roundLate c && (m.fallbackOf c).isSome then m.rehomeStart c
  else m

def execSelfTestRehome (c : Fin 32) (s : State) : Host.Outcome State Fault Refusal := act s fun m => m.rehome c

/-! ## Scrub and recalibration (R365) -/

/-- A detection by the scrubber, handled as a read. Its detail is not given. -/
def Mach.scrubFault (m : Mach) (cause : Byte) (unit : UnitKind) (n : Nat) : Mach :=
  let (w, m) := m.free
  let d : Detection :=
    { cause := cause, unit := unit, number := n, detail := w, jetFails := false, again := false, addr := 0, reloadFails := false }
  m.detect d

/-- A word scrubbed. -/
def Mach.scrub (m : Mach) : ScrubResult → Mach
  | .cleanSram => m
  | .correctedSram => m.bump 416 1
  | .correctedSeq => m.bump 420 1
  | .uncorrectableSram (.core c) => m.scrubFault 0x07 .core c
  | .uncorrectableSram (.cluster k) => m.scrubFault 0x07 .cluster k
  | .uncorrectableSram .ingress => m.scrubFault 0x07 .dieUnit 150
  | .uncorrectableSeq c => if c.val < 32 then m.scrubFault 0x09 .core c else m.scrubFault 0x09 .cluster (c - 32)

def execSramScrub (r : ScrubResult) (s : State) : Host.Outcome State Fault Refusal := act s fun m => m.scrub r

/-- A recalibration, at which the stack reports its temperature: a free byte (Table 15-8, log entry 158). -/
def Mach.recalibrate (m : Mach) : Mach :=
  let (w, m) := m.free
  (m.incReg Reg.MEM_RECAL).setReg Reg.MEM_TEMP ((w.setWidth 8).setWidth 32)

def execHbmRecalibration (s : State) : Host.Outcome State Fault Refusal := act s Mach.recalibrate

end Sys2Proof.Machine
end

