-- ==== Sys2Proof/Machine/Debug.lean ====
section
/-! DEFINITION. The debug block (R403 to R418): SYNC records, the restart of a stopped trace ring, the Still snapshot with
its triggers and layout, stepping, the management core held in debug (R24), and the registers that show queues and
control cores. -/

namespace Sys2Proof.Machine

/-! ## What CQ_STATUSq and CLU_CC_STATUSc show (Tables 12-8, 12-9) -/

/-- CQ_STATUSq.state. -/
def Mach.cqState (m : Mach) (q : Nat) : Nat :=
  let x := m.cmdq q
  if x.error then 4
  else if x.rehoming then 6
  else if x.draining then 5
  else if !m.qEnabled q then 0
  else if m.hasHead q && m.waitReason q != 0 then 3
  else if m.hasHead q || !x.started.isEmpty then 2
  else 1

/-- CQ_STATUSq. -/
def Mach.cqStatus (m : Mach) (q : Nat) : Word :=
  let wait := if m.cqState q = 3 then m.waitReason q else 0
  BitVec.ofNat 32 ((m.cmdq q).started.length * 2 ^ 16 + wait * 2 ^ 8 + m.cqState q)

/-- CLU_CC_STATUSc.state of control core c. -/
def Mach.ccStateCode (m : Mach) (c : Nat) : Nat :=
  if !m.runs (ccIsland c) || (decide (c < 32) && !m.inService c) then 7
  else if m.ccRecovering c then 6
  else match (m.cc c).state with
    | .idle => 0
    | .running => 1
    | .wait => 2
    | .issue => 3
    | .barrier => 4
    | .halted => 5
    | .faultHold => 6
    | .stopped => 7

/-- CLU_CC_STATUSc. -/
def Mach.ccStatus (m : Mach) (c : Nat) : Word :=
  let x := m.cc c
  BitVec.ofNat 32 (x.code.toNat * 2 ^ 16 + x.waitKind.toNat * 2 ^ 8 + m.ccStateCode c)

/-- CQ_SQSTATn; 0, its reset value, for a stage queue that the floorplan does not wire (log entry 123). -/
def Mach.sqStat (m : Mach) (n : Nat) : Word :=
  let q := m.stage n
  if (m.stageCfgOf n).isSome then
    BitVec.ofNat 32 (2 ^ 31 + q.waiting.toNat * 2 ^ 30 + q.empty.toNat * 2 ^ 29 + q.filling.toNat * 2 ^ 28 + (q.l - q.rd) % 2 ^ 24)
  else 0

/-- PNT_USTATc: a started POINT command keeps the unit busy. -/
def Mach.unitStat (m : Mach) (k : Nat) : Word :=
  if m.cq.any fun p => p.2.started.any fun c => m.onPointUnit k p.1 c then 0x10000 else 0

/-! ## Trace (R404, R406) -/

/-- A SYNC record of control core c. -/
def Mach.traceSync (m : Mach) (c : Nat) : Mach := m.traceCc c 3 0x04 false (leBytes 1 (m.ccStateCode c))

def execTraceSyncRecord (c : Fin 40) (s : State) : Host.Outcome State Fault Refusal := act s fun m => m.traceSync c

/-- A write of DBG_CELLAR_WR restarts a ring that stands full with stop 1; an offset outside the ring is refused (log
entry 40). -/
def Mach.cellarRestart (m : Mach) (v : Word) : Effect :=
  let o := (v &&& 0x7FFFFFE0).toNat
  if !(m.rbit Reg.DBG_TRACE_CTRL 30 && m.cellarFull) || o < 0x40000 || m.cellarSize ≤ o then m.bad
  else (false, (m.setReg Reg.DBG_CELLAR_WR (BitVec.ofNat 32 o)).setRBit Reg.DBG_STATUS 3 false)

/-- SYNC records of every control core selected for trace, once sync_ms have passed since the last ones (R406). -/
def Mach.syncDue (m : Mach) : Mach :=
  if m.traceOn && m.rbit Reg.DBG_TRACE_KINDS 3 && decide (m.fld Reg.DBG_TRACE_CTRL 0 10 * 1000000 ≤ (m.time.count - m.obs.syncAt).toNat) then
    (List.range 40).foldl Mach.traceSync (m.onObs fun o => { o with syncAt := m.time.count })
  else m

/-- A write of DBG_TRACE_CTRL: with stop 0 a ring that stands full wraps (R404). -/
def Mach.traceCtrl (m : Mach) (v : Word) : Mach :=
  let m := m.storeReg Reg.DBG_TRACE_CTRL v
  if m.cellarFull && !v.bit 30 then m.cellarWrap.setRBit Reg.DBG_STATUS 3 false else m

/-- A write of DBG_CELLAR_SIZE: the Cellar lies within a region of purpose 11, or of Show Home's own map (R403, Table 16-12). -/
def Mach.cellarResize (m : Mach) (v : Word) : Effect :=
  let t := m.storeReg Reg.DBG_CELLAR_SIZE v
  if t.reg Reg.DBG_CELLAR_SIZE = m.reg Reg.DBG_CELLAR_SIZE then (false, t)
  else if (if m.showHome then decide (shCellar ≤ t.cellarBase ∧ t.cellarBase + t.cellarSize ≤ shCellar + 2 ^ 28)
      else fitsPurpose m.fpl.plan.regions 11 t.cellarBase t.cellarSize) then (false, t)
  else m.bad

/-! ## Watch points (R416) -/

/-- A watch point reconfigured while it accumulates: its six records are dropped, and it waits for the queue's next UNIT. -/
def Mach.watchReset (m : Mach) (w : Nat) : Mach :=
  if (m.watchAcc w).active then
    let m := (m.setWatchAcc w { queue := (m.watchAcc w).queue, awaits := true }).onObs fun o => { o with
      seqs := sput (fun _ => 0) (0x40 + w) (sget (fun _ => 0) o.seqs (0x40 + w) + 6) o.seqs }
    (m.loseRecords true 6).raise Reg.DBG_EVENT 0x1
  else m

/-- A write of a register of watch point w. -/
def Mach.watchWrite (m : Mach) (w a : Nat) (v : Word) : Mach :=
  let m' := m.storeReg a v
  if m'.reg a = m.reg a then m else (m.watchReset w).storeReg a v

/-! ## The Still snapshot (R414, R415, Tables 16-8, 16-9) -/

/-- The islands that a Still snapshot stops. -/
def stillIslands : List Nat := List.range 144 ++ [150, 151]

/-- Queue q in the snapshot. -/
def Mach.stillQueue (m : Mach) (q : Nat) : List Byte :=
  [m.reg (Reg.CQ_TAIL q), m.reg (Reg.CQ_HEAD q), m.reg (Reg.CQ_DONE q), m.cqStatus q, m.reg (Reg.CQ_ERR q),
    m.reg (Reg.CQ_ERRPOS q), m.reg (Reg.CQ_CORE q), m.reg (Reg.CQ_LAST q)].flatMap wordBytes

/-- Control core c in the snapshot. -/
def Mach.stillCc (m : Mach) (c : Nat) : List Byte :=
  let x := m.cc c
  padTo 64 ([BitVec.ofNat 8 (m.ccStateCode c), BitVec.ofNat 8 x.waitKind.toNat, x.waitObj, 0] ++ leBytes 4 x.pc.toNat ++
    leBytes 2 x.code.toNat ++ leBytes 2 0 ++ wordBytes x.waitVal ++ wordBytes (x.waitDeadline.getD 0)) ++
    (List.range 32).flatMap fun n => wordBytes (m.greg c n)

/-- The TENSOR commands in flight on core c with their queues: a GOLDEN one first, which suspends the others, then in the order of
their starts. -/
def Mach.tensorHeld (m : Mach) (c : Nat) : List (Nat × Started) :=
  let l := (m.queuesOf c).flatMap fun q => ((m.cmdq q).started.filter fun d => cmdClass d.bytes == 1).map fun d => (q, d)
  let l := l.mergeSort fun a b => decide (a.2.at_.toNat ≤ b.2.at_.toNat)
  (l.filter fun x => isGolden x.2.bytes) ++ l.filter fun x => !isGolden x.2.bytes

/-- The queue and number of the TENSOR command that runs on core c. -/
def Mach.tensorRunning (m : Mach) (c : Nat) : Option (Nat × Word) := (m.tensorHeld c).head?.map fun x => (x.1, x.2.num)

/-- State of the tensor engine of core c (Table 16-9): fault hold, a command suspended by a GOLDEN one, idle, or at work on a command;
whether it then waits for its intake is open (log entry 170). -/
def Mach.tensorState (m : Mach) (c : Nat) : Nat :=
  let l := m.tensorHeld c
  if m.ccRecovering c then 4
  else if (l.any fun x => isGolden x.2.bytes) && l.any fun x => !isGolden x.2.bytes then 3
  else if l.isEmpty then 0
  else if Config.intakeWaits (m.reg Reg.DBG_STILL_SEQ).toNat c then 2
  else 1

/-- Core c in the snapshot. -/
def Mach.stillCore (m : Mach) (c : Nat) : List Byte :=
  let run := m.tensorRunning c
  let moves := ((m.queuesOf c).map fun q => ((m.cmdq q).started.filter fun d => cmdClass d.bytes == 3).length).sum
  padTo 32 ([BitVec.ofNat 8 (m.inService c).toNat, BitVec.ofNat 8 (m.coreInFlight c), BitVec.ofNat 8 (m.tensorState c), BitVec.ofNat 8 moves,
    BitVec.ofNat 8 ((run.map Prod.fst).getD 0), 0, 0, 0] ++ wordBytes ((run.map Prod.snd).getD 0) ++ leBytes 4 0 ++
    (List.range 8).map fun n => BitVec.ofNat 8 (((m.slot c n).owner).getD 0xFF))

/-- Stage queue n in the snapshot. -/
def Mach.stillStage (m : Mach) (n : Nat) : List Byte :=
  let q := m.stage n
  padTo 32 (leBytes 4 q.f ++ leBytes 4 q.l ++ leBytes 4 q.rd ++ leBytes 4 q.rl ++ leBytes 4 q.mark ++
    leBytes 4 (q.markValid.toNat + 2 * q.flushPending.toNat + 4 * q.filling.toNat + 8 * q.waiting.toNat) ++ wordBytes q.swaps)

/-- Point unit k in the snapshot. -/
def Mach.stillPoint (m : Mach) (k : Nat) : List Byte :=
  let held := m.cq.flatMap fun p => p.2.started.filter fun c => m.onPointUnit k p.1 c
  let first := fun (o : Nat) => BitVec.ofNat 8 ((held.head?.map fun c => u8 c.bytes o).getD 0)
  padTo 32 (wordBytes (m.unitStat k) ++ [BitVec.ofNat 8 held.length, first 0x10, first 0x11])

/-- The code of a context's state (Table 10-2). -/
def ctxCode : CtxState → Nat
  | .free => 0
  | .ready => 1
  | .operand => 2
  | .memLocal => 3
  | .memHbm => 4
  | .credit => 5
  | .golden => 6
  | .faultHold => 7
  | .stopped => 8

/-- The golden context of context n's engine holds a command. -/
def Mach.goldenIssues (m : Mach) (n : Nat) : Bool := (m.context (4096 + n / 32)).state == .ready

/-- The state of a context of core c (R240): stopped where its island stands still for another cause than the snapshot itself (R37);
of a thread that could issue, golden while the golden context of its engine holds the issue unit. -/
def Mach.ctxState (m : Mach) (n c : Nat) : CtxState :=
  let x := (m.context n).state
  if (m.island (4 * c + 2)).stopped.any fun x => x != .still then .stopped
  else if n < 4096 ∧ x = .ready ∧ m.goldenIssues n then .golden
  else x

/-- Context n, of core c, in the snapshot. -/
def Mach.stillContext (m : Mach) (n c : Nat) : List Byte :=
  let x := m.context n
  padTo 16 ([BitVec.ofNat 8 (ctxCode (m.ctxState n c)), BitVec.ofNat 8 x.queue, 0, 0] ++ wordBytes x.num ++ leBytes 4 x.item ++
    leBytes 1 x.vec)

/-- The sluice channels recorded: those of the die, and any other that has moved a bundle (log entry 41). -/
def Mach.stillChannels (m : Mach) : List Nat :=
  (Config.channels ++ (m.sluices.map Prod.fst).filter fun k => !Config.channels.contains k).take 4096

/-- A sluice channel in the snapshot. -/
def Mach.stillSluice (m : Mach) (k : Nat) : List Byte :=
  let x := m.sluice k
  leBytes 1 (k / 256 / 166) ++ leBytes 1 (k / 256 % 166) ++ leBytes 1 (k % 256) ++ leBytes 1 (x.credit % 8 + 8 * x.waiting.toNat)

/-- The body of the snapshot, from offset 0x100 on, as pieces at their offsets. -/
def Mach.stillBody (m : Mach) : List (Nat × List Byte) :=
  [(0x100, (List.range 256).flatMap m.stillQueue), (0x2100, (List.range 40).flatMap m.stillCc),
    (0x3F00, (List.range 32).flatMap m.stillCore),
    (0x4300, (List.range 512).flatMap fun i => leBytes 2 (m.sem (i / 64) (i % 64)).toNat),
    (0x4700, (List.range 256).flatMap fun n => leBytes 2 (m.csig n).toNat),
    (0x4900, (List.range 128).flatMap m.stillStage), (0x5900, (List.range 8).flatMap m.stillPoint),
    (0x6000, (List.range 4096).flatMap fun n => m.stillContext n (n / 128)),
    (0x16000, (List.range 128).flatMap fun e => m.stillContext (4096 + e) (e / 4)),
    (0x16800, m.stillChannels.flatMap m.stillSluice)]

/-- The header less its CRC. -/
def Mach.stillHeader (m : Mach) (trigger : Nat) : List Byte :=
  padTo 0xFC ([0x53, 0x56, 0x53, 0x54] ++ leBytes 2 1 ++ leBytes 1 trigger ++ leBytes 1 0 ++ wordBytes (m.reg Reg.DBG_STILL_SEQ) ++
    wordBytes (m.reg Reg.DBG_STILL_TIME) ++ wordBytes m.now ++ leBytes 4 m.stillChannels.length ++
    wordBytes (m.reg Reg.FPL_IMAGE_ID) ++ wordBytes (m.reg Reg.FPL_CORES_OUT) ++ wordBytes (m.reg Reg.SAFE_HOLD))

/-- The snapshot in the first 256 KiB of the Cellar. -/
def Mach.stillWrite (m : Mach) (trigger : Nat) : Mach :=
  let base := m.cellarBase
  let n := 0x16800 + 4 * m.stillChannels.length
  let body := m.stillBody
  let head := m.stillHeader trigger
  let m := m.wipe base n
  let m := body.foldl (fun m p => m.setBytes (base + p.1) p.2) m
  let m := m.setBytes base head
  m.setBytes (base + 0xFC) (wordBytes (crc32c (head ++ m.bytes (base + 0x100) (n - 0x100))))

/-- The islands restart; a recovery in progress began meanwhile, since hold 0 delays a snapshot, and runs from now
(R416). -/
def Mach.stillRestart (m : Mach) : Mach :=
  let m := (m.setRBit Reg.DBG_STATUS 5 false).setRBit Reg.DBG_STATUS 4 false
  let m := stillIslands.foldl Mach.restartIsland m
  m.onSafety fun x => { x with recoveries := x.recoveries.map fun r => { r with at_ := m.time.count } }

/-- A Still snapshot, whole: its number is the one that DBG_STILL_SEQ then shows. -/
def Mach.stillTakeNow (m : Mach) (trigger : Nat) : Mach :=
  let m := m.setRBit Reg.DBG_STATUS 4 true
  let m := stillIslands.foldl (fun m i => m.stopFor i .still) m
  let m := (m.setReg Reg.DBG_STILL_TIME m.now).incReg Reg.DBG_STILL_SEQ
  let m := (m.stillWrite trigger).raise Reg.DBG_EVENT 0x8
  if m.rbit Reg.DBG_STILL_CFG 31 then (m.setRBit Reg.DBG_STATUS 4 false).setRBit Reg.DBG_STATUS 5 true else m.stillRestart

/-- A trigger: 1 host, 2 watchdog, 3 stall, 4 detection. -/
def Mach.stillTrigger (m : Mach) (trigger : Nat) : Mach :=
  if m.still || 2 ≤ m.phase || m.obs.stillPending.isSome then m.incReg Reg.DBG_STILL_MISSED
  else if m.hold 0 then m.onObs fun o => { o with stillPending := some trigger }
  else m.stillTakeNow trigger

/-- A trigger that waited for hold 0 to end. -/
def Mach.stillDue (m : Mach) : Mach :=
  match m.obs.stillPending with
  | some t => if m.hold 0 then m else (m.onObs fun o => { o with stillPending := none }).stillTrigger t
  | none => m

/-- A write of DBG_STILL_CTRL: kick, then resume, then take. -/
def Mach.stillCtrl (m : Mach) (v : Word) : Mach :=
  let m := if v.bit 2 then m.onObs fun o => { o with kickAt := m.time.count } else m
  let m := if v.bit 1 && m.rbit Reg.DBG_STATUS 5 then m.stillRestart else m
  if v.bit 0 then m.stillTrigger 1 else m

/-- A write of DBG_STILL_CFG: the watchdog and the stall monitor count from when they are enabled (log entry 42). -/
def Mach.stillCfg (m : Mach) (v : Word) : Mach :=
  let was := m.reg Reg.DBG_STILL_CFG
  let now := m.time.count
  (m.storeReg Reg.DBG_STILL_CFG v).onObs fun o => { o with
    kickAt := if v.bit 30 && !was.bit 30 then now else o.kickAt
    progressAt := if v.bit 29 && !was.bit 29 then now else o.progressAt }

/-- Milliseconds in a register, in ns. -/
def Mach.msReg (m : Mach) (a : Nat) : Nat := m.fld a 0 16 * 1000000

/-- No kick for DBG_STILL_WDOG ms. -/
def Mach.watchdogExpiry (m : Mach) : Mach :=
  if m.rbit Reg.DBG_STILL_CFG 30 && decide (m.msReg Reg.DBG_STILL_WDOG ≤ (m.time.count - m.obs.kickAt).toNat) then
    ((m.onObs fun o => { o with kickAt := m.time.count }).raise Reg.DBG_EVENT 0x10).stillTrigger 2
  else m

/-- An enabled queue holds unstarted or uncompleted commands. -/
def Mach.anyQueued (m : Mach) : Bool := (List.range 256).any fun q => m.qEnabled q && m.reg (Reg.CQ_DONE q) != m.reg (Reg.CQ_TAIL q)

/-- No such queue has advanced DONE for DBG_STILL_STALL ms. -/
def Mach.stallExpiry (m : Mach) : Mach :=
  if m.rbit Reg.DBG_STILL_CFG 29 && m.anyQueued && decide (m.msReg Reg.DBG_STILL_STALL ≤ (m.time.count - m.obs.progressAt).toNat) then
    (m.onObs fun o => { o with progressAt := m.time.count }).stillTrigger 3
  else m

def execStillWatchdogExpiry (s : State) : Host.Outcome State Fault Refusal := act s fun m => m.watchdogExpiry
def execStillStallExpiry (s : State) : Host.Outcome State Fault Refusal := act s fun m => m.stallExpiry

/-! ## Writes of the DBG block (R418) -/

/-- What the DBG block makes of a write. -/
def Mach.dbgWrite (m : Mach) (a : Nat) (v : Word) : Effect :=
  if a = Reg.DBG_CELLAR_WR then m.cellarRestart v
  else if a = Reg.DBG_TRACE_CTRL then (false, m.traceCtrl v)
  else if a = Reg.DBG_CELLAR_SIZE then m.cellarResize v
  else if a = Reg.DBG_STILL_CTRL then (false, m.stillCtrl v)
  else if a = Reg.DBG_STILL_CFG then (false, m.stillCfg v)
  else if a = Reg.DBG_OBS_CAP then (false, m.refill.storeReg a v)
  else if a = Reg.DBG_CC_STEP then
    (if !m.debugAccess || (m.cc (v.field 0 6)).debugHalt.isNone then m.bad else (false, m.ccStep v))
  else if 0x70400 ≤ a ∧ a < 0x70800 then (false, m.watchWrite ((a - 0x70400) / 16) a v)
  else (false, m.storeReg a v)

/-- A write that has reached the DBG block. -/
def Mach.dbgArrive (m : Mach) (a : Nat) (v : Word) : Mach := m.arriveWith a v (m.dbgWrite a v)

def execCellarRestart (v : Word) (s : State) : Host.Outcome State Fault Refusal := act s fun m => m.dbgArrive Reg.DBG_CELLAR_WR v
def execStillTake (s : State) : Host.Outcome State Fault Refusal := act s fun m => m.dbgArrive Reg.DBG_STILL_CTRL 1
def execStillResume (s : State) : Host.Outcome State Fault Refusal := act s fun m => m.dbgArrive Reg.DBG_STILL_CTRL 2
def execWatchdogKick (s : State) : Host.Outcome State Fault Refusal := act s fun m => m.dbgArrive Reg.DBG_STILL_CTRL 4

/-! ## The management core held in debug (R24, R39) -/

/-- The debug port holds the management core's instruction issue, or lets it go: a JTAG debug instruction, which needs
debug access (R429). -/
def Mach.mgmtHold (m : Mach) (on : Bool) : Mach :=
  if m.debugAccess then (m.onObs fun o => { o with mgmtDebug := on }).servoCheck.telemetry else m

def execMgmtDebugHalt (s : State) : Host.Outcome State Fault Refusal := act s fun m => m.mgmtHold true
def execMgmtDebugResume (s : State) : Host.Outcome State Fault Refusal := act s fun m => m.mgmtHold false

end Sys2Proof.Machine
end

