-- ==== Sys2Proof/Machine/Power.lean ====
section
/-! DEFINITION. The supply, reset, ejection, the power states and the power cap, and the temperature and supply monitors
(R444, R445, R449 to R455, R457). -/

namespace Sys2Proof.Machine

/-! ## Reset (R395, R430, R445) -/

/-- Registers that a reset keeps: fuse and NAND contents that boot firmware shows. -/
def keptReg (a : Nat) : Bool :=
  (decide (Reg.SEC_MINVER ≤ a) && decide (a ≤ Reg.SEC_KEYS)) || (decide (Reg.SEC_WIPES ≤ a) && decide (a ≤ Reg.SEC_LOG_COUNT)) ||
    decide (Reg.SEC_CERT 0 ≤ a ∧ a ≤ Reg.SEC_CERT 1023) || a == Reg.FPL_BOOTSLOT

/-- What the security island keeps. -/
def Security.kept (x : Security) : Security :=
  { x with nonceNo := x.nonceNo + 1, debugUntil := none, debugSeen := false, openAfter := false, attesting := false, attNonce := [] }

/-- The pins and the supply through a reset. -/
def Pins.kept (p : Pins) (inReset : Bool) : Pins :=
  { vin := p.vin, junction := p.junction, powered := p.powered, disconnected := p.disconnected, resetLow := p.resetLow, ejectLow := p.ejectLow,
    inReset := inReset, thermalOff := p.thermalOff }

/-- SEC registers that follow from what is kept: the life-cycle state, a new nonce, and the signature index, which
resumes at the reservation (R424, R431). -/
def Mach.secAfterReset (m : Mach) (life : Nat) : Mach :=
  let m := m.setFld Reg.SEC_STATUS 2 3 life
  let n := (Config.nonce m.sec.nonceNo).toNat
  let m := (m.setReg Reg.SEC_NONCE_LO (BitVec.ofNat 32 n)).setReg Reg.SEC_NONCE_HI (BitVec.ofNat 32 (n / 2 ^ 32))
  m.setReg Reg.SEC_ATT_INDEX (BitVec.ofNat 32 (max (m.reg Reg.SEC_ATT_INDEX).toNat m.sec.reserved))

/-- VIN outside 18 V to 60 V. -/
def Mach.vinOut (m : Mach) : Bool := decide (m.pins.vin < 18000) || decide (60000 < m.pins.vin)

/-- The hottest junction is above 110 °C. -/
def Mach.tooHot (m : Mach) : Bool := decide (1760 < m.pins.junction.toInt)

/-- The holds of what is wrong at the pins when a reset begins, and when it ends: VIN, the junction, and the 25 MHz reference. -/
def Mach.holdsAfterReset (m : Mach) : Mach :=
  let m := if m.vinOut then (m.onPins fun p => { p with supplyOut := true }).beginHold 10 else m
  let m := if m.tooHot then (m.onPins fun p => { p with junctionOut := true }).beginHold 10 else m
  if m.time.refOk then m else (m.setRBit Reg.TIME_STATUS 6 true).beginHold 5

/-- The life-cycle state that the fuses give: that of the furthest transition burnt (R419, R427). -/
def burntLife (fuses : BitVec 4) : Nat :=
  if fuses.getLsbD 3 then 4 else if fuses.getLsbD 2 then 3 else if fuses.getLsbD 1 then 2 else if fuses.getLsbD 0 then 1 else 0

/-- The module after a reset has wiped it; `inReset` says whether the reset goes on. A debug grant ends and is logged. FAULT_n is
released, but for the one that a thermal shutdown holds (R445, R455). -/
def Mach.afterReset (m : Mach) (inReset : Bool) : Mach :=
  let m := if m.debugAccess then m.lcLog 4 m.lifeState [] else m
  let r : Mach := {
    variant := m.variant
    freeCtr := m.freeCtr
    regs := m.regs.filter fun p => keptReg p.1
    time := { refOk := m.time.refOk }
    sec := m.sec.kept
    pins := m.pins.kept inReset
    fpl := { nand := m.fpl.nand }
    ports := m.ports.cleared
    safety := { faultN := m.pins.thermalOff } }
  (r.secAfterReset (burntLife m.sec.lifeFuses)).holdsAfterReset

/-- The die is supplied. -/
def Mach.supplied (m : Mach) : Bool := m.pins.powered && !m.pins.thermalOff

/-- RESET_n asserted for `width` ns: a pulse below 1 µs is ignored. -/
def Mach.resetAssert (m : Mach) (width : Nat) : Mach :=
  if width < 1000 then m
  else
    let m := m.onPins fun p => { p with resetLow := true }
    if m.supplied then m.afterReset true else m

def execResetAssert (width : Nat) (s : State) : Host.Outcome State Fault Refusal := atPins s fun m => m.resetAssert width

/-- RESET_n negates, or stands negated with EJECT_n negated for 10 ms: reset ends where nothing else holds it. -/
def Mach.resetRelease (m : Mach) : Mach :=
  let ends := m.pins.powered && m.pins.inReset && !m.pins.ejectLow
  let m := m.onPins fun p => { p with resetLow := false, inReset := p.inReset && !ends }
  if ends then m.holdsAfterReset else m

def execResetRelease (s : State) : Host.Outcome State Fault Refusal := atPins s Mach.resetRelease

/-! ## The supply and its monitors (R442, R444, R455, R457, Table 14-2) -/

/-- The thresholds of this module's input stage, in mV (Table 18-5, log entry 39). -/
def vuvr : Nat := 17000 + Config.threshold 0 % 1001
def vuvf : Nat := 16000 + Config.threshold 1 % 1001
def vov : Nat := 61000 + Config.threshold 2 % 2001

/-- The input voltage changes; telemetry shows it of a module that runs (R390). -/
def Mach.setVin (m : Mach) (mv : Nat) : Mach :=
  let m := m.onPins fun p => { p with vin := mv }
  if m.live then m.telemetry else m

/-- Power comes up: the module is in reset until EJECT_n has been negated for 10 ms. -/
def Mach.powerUp (m : Mach) : Mach := (m.onPins fun p => { p with powered := true, disconnected := false }).afterReset true

/-- The module turns off: everything that is not kept is lost. -/
def Mach.powerDown (m : Mach) : Mach := (m.onPins fun p => { p with powered := false }).afterReset true

/-- The event of a supply or temperature monitor: hold 10, and an entry of the supervisor (log entry 43). -/
def Mach.monitorFault (m : Mach) : Mach :=
  let (w, m) := m.free
  let d : Detection :=
    { cause := 0x0F, unit := .supervisor, number := 145, detail := w, jetFails := false, again := false, addr := 0, reloadFails := false }
  m.oneClock Reg.SAFE_EVENT fun m => (m.beginHold 10).detect d

/-- The supply monitor: VIN found outside its window while the module runs. -/
def Mach.supplyFault (m : Mach) : Mach := (m.onPins fun p => { p with supplyOut := true }).monitorFault

/-- VIN at `mv` (R444): below VUVF the module is off, and a thermal shutdown is over; above VOV the controller disconnects; from VUVR on
a module that is off comes up, unless it is disconnected; one that runs is watched by its monitor, whose event is the departure from
the window. -/
def Mach.vinTo (m : Mach) (mv : Nat) : Mach :=
  let m := m.setVin mv
  if mv < vuvf then
    let m := m.onPins fun p => { p with thermalOff := false, disconnected := false }
    if m.pins.powered then m.powerDown else m
  else if vov < mv then
    let m := m.onPins fun p => { p with disconnected := true }
    if m.pins.powered then m.powerDown else m
  else if m.pins.powered then (if m.live && m.vinOut && !m.pins.supplyOut then m.supplyFault else m)
  else if m.pins.disconnected || decide (mv ≤ vuvr) then m
  else m.powerUp

def execPowerOn (mv : Nat) (s : State) : Host.Outcome State Fault Refusal := atPins s fun m => m.vinTo mv
def execPowerLoss (mv : Nat) (s : State) : Host.Outcome State Fault Refusal := atPins s fun m => m.vinTo mv
def execOvervoltageDisconnect (mv : Nat) (s : State) : Host.Outcome State Fault Refusal := atPins s fun m => m.vinTo mv

/-- VIN has stayed below 60 V for 100 ms: the controller reconnects. -/
def Mach.reconnect (m : Mach) (mv : Nat) : Mach :=
  (if mv < 60000 then m.onPins fun p => { p with disconnected := false } else m).vinTo mv

def execOvervoltageReconnect (mv : Nat) (s : State) : Host.Outcome State Fault Refusal := atPins s fun m => m.reconnect mv

/-- What the thermal monitor asks of island i: nothing below 100 °C, from there on a period that rises in proportion and is the
island's stretch limit at 105 °C (R455); the temperature in 1/16 °C. -/
def Mach.thermalPeriod (m : Mach) (i : Nat) (t : Int) : Option Nat :=
  if t < 1600 then none else some (256 + ((m.islandPlan i).2 - 256) * min 80 (t - 1600).toNat / 80)

/-- The thermal requests on every island that can be stretched (R35). -/
def Mach.thermalRequests (m : Mach) (t : Int) : Mach :=
  (List.range 166).foldl (fun m i =>
    if fixedIsland i then m else m.setIsland i ((m.island i).request .thermal (m.thermalPeriod i t))) m

/-- A monitor reads: VIN, which outside the lockout limits turns the module off (R444) and outside 18 V to 60 V begins hold 10, or the
hottest junction, whose requests follow it and which above 110 °C begins hold 10. -/
def Mach.excursion (m : Mach) : MonitorEvent → Mach
  | .supply mv =>
    if mv < vuvf || vov < mv then m.vinTo mv
    else
      let m := m.setVin mv
      if m.vinOut then m.supplyFault else m
  | .junction t =>
    let m := (m.onPins fun p => { p with junction := t }).telemetry.thermalRequests t.toInt
    if m.tooHot then (m.onPins fun p => { p with junctionOut := true }).monitorFault else m

def execMonitorExcursion (e : MonitorEvent) (s : State) : Host.Outcome State Fault Refusal := act s fun m => m.excursion e

/-- Power state reached: 0 RUN, 1 IDLE, 2 STANDBY. -/
def Mach.powerState (m : Mach) : Nat := m.fld Reg.GCTL_STATUS 8 3

/-- Every monitor has stayed within its window for 1 ms; in STANDBY the hold stays recorded until the return to RUN. -/
def Mach.monitorsBack (m : Mach) : Mach :=
  if m.powerState = 2 then m else (m.onPins fun p => { p with supplyOut := false, junctionOut := false }).endHold 10

def execMonitorRecovered (s : State) : Host.Outcome State Fault Refusal := act s Mach.monitorsBack

/-- 125 °C: the comparator removes die power and holds OUT_VALID low and FAULT_n asserted until VIN is removed. -/
def Mach.thermalOff (m : Mach) : Mach :=
  if m.pins.powered then
    ((m.onPins fun p => { p with thermalOff := true }).afterReset true).onSafety fun x => { x with faultN := true }
  else m

def execThermalShutdown (s : State) : Host.Outcome State Fault Refusal := atPins s Mach.thermalOff

/-! ## Ejection (R450, R451) -/

/-- A move-in stops: in phase A it ends, in phase B it goes no further; a store stops and has failed, with its slot as it was. -/
def Mach.stopMoveIn (m : Mach) : Mach :=
  let m := if m.phase = 1 then m.setPhase 0 else m
  let m := if m.fpl.storing.isSome then (m.setRBit Reg.SEC_STATUS 10 false).storeFailed else m
  (m.onFpl fun f => { f with staged := none, stagedAt := none, storing := none }).handleLate

/-- EJECT_n asserted: hold 6, and egress sends nothing more. -/
def Mach.eject (m : Mach) : Mach :=
  let m := m.onPins fun p => { p with ejectLow := true }
  if m.live then ((m.beginHold 6).setRBit Reg.EGR_STATUS 3 true).stopMoveIn else m

def execEject (s : State) : Host.Outcome State Fault Refusal := atPins s Mach.eject

/-- EJECT_n negates: hold 6 stays. -/
def execEjectRelease (s : State) : Host.Outcome State Fault Refusal :=
  atPins s fun m => m.onPins fun p => { p with ejectLow := false }

/-! ## Power states (R453, Table 18-11) -/

/-- A transition begins; entry to IDLE or STANDBY begins hold 9. -/
def Mach.enterState (m : Mach) (target : Nat) : Mach :=
  if target = m.powerState then m
  else
    let m := m.onPins fun p => { p with entering := some target }
    if target = 0 then m else m.beginHold 9

/-- A write of GCTL_PWR_STATE; during hold 0 it takes effect when that hold ends. -/
def Mach.powerRequest (m : Mach) (v : Word) : Effect :=
  if m.pins.entering.isSome || 2 ≤ m.phase || m.lifeState = 4 || m.still then m.bad
  else
    let m := m.storeReg Reg.GCTL_PWR_STATE v
    (false, if m.hold 0 then m.onPins fun p => { p with wanted := some (v.field 0 2) }
      else (m.onPins fun p => { p with wanted := none }).enterState (v.field 0 2))

/-- A request that waited for hold 0 to end. -/
def Mach.wantedDue (m : Mach) : Mach :=
  match m.pins.wanted with
  | some t => if m.hold 0 then m else (m.onPins fun p => { p with wanted := none }).enterState t
  | none => m

/-- Island i stops or restarts as the power state reached says. -/
def Mach.powerIsland (m : Mach) (i : Nat) : Mach := ((m.stopOrder i .idle).stopOrder i .standby).restartIsland i

/-- The links of the MACs go down. -/
def Mach.linksDown (m : Mach) : Mach := (List.range 4).foldl (fun m p => m.macLink p false 0) m

/-- In STANDBY the links of the MACs go down; a MAC whose island runs again is judged by what its PHY signals meanwhile. -/
def Mach.linksAgain (m : Mach) (t : Nat) : Mach := if t = 2 then m.linksDown else (List.range 4).foldl Mach.macJudge m

/-- The clock of RUN stands still from the departure from RUN to the return (R453). -/
def Mach.countRun (m : Mach) (t : Nat) : Mach :=
  m.onPins fun p =>
    if t = 0 then { p with awayAt := none, away := p.away + (m.time.count - p.awayAt.getD m.time.count) }
    else { p with awayAt := some (p.awayAt.getD m.time.count) }

/-- The state asked for is reached. -/
def Mach.powerReached (m : Mach) : Mach :=
  match m.pins.entering with
  | some t =>
    let m := ((m.setFld Reg.GCTL_STATUS 8 3 t).onPins fun p => { p with entering := none }).countRun t
    (((List.range 166).foldl Mach.powerIsland m).linksAgain t).raise Reg.GCTL_EVENT 0x8
  | none => m

def execPowerStateReached (s : State) : Host.Outcome State Fault Refusal := act s Mach.powerReached

/-! ## The power cap (R454) -/

/-- The islands that the controller stretches. -/
def capIslands : List Nat := List.range 144 ++ [148, 149, 150, 151]

/-- The controller's request on every island it stretches. -/
def Mach.capRequest (m : Mach) (period : Nat) : Mach :=
  capIslands.foldl (fun m i => if period ≤ 256 then m.unstretch i .powerCap else m.stretch i .powerCap period) m

/-- The stretch limits bind: no island can be stretched further. -/
def Mach.capBinds (m : Mach) : Bool := capIslands.all fun i => decide ((m.islandPlan i).2 ≤ ((m.island i).cap.getD 256))

/-- Telemetry of a power sample stops with the management core, and yields to all else: a sample dropped is counted (R24, R365). -/
def Mach.recordsPower (m : Mach) (dropped : Bool) : Bool × Mach :=
  if !m.mgmtRuns then (false, m) else if dropped then (false, m.bump 434 1) else (true, m)

/-- The longest period that the controller asks of an island, 256 where it asks nothing. -/
def Mach.capPeriod (m : Mach) : Nat := (capIslands.map fun i => (m.island i).cap.getD 256).foldl max 256

/-- A sample kept with those of the last 1 ms. -/
def Pins.sample (p : Pins) (mw : Nat) : Pins := { p with samples := (mw :: p.samples).take 100 }

/-- The average over the last 1 ms is above a power. -/
def Pins.above (p : Pins) (mw : Nat) : Bool := decide (mw * p.samples.length < p.samples.sum)

/-- A sample: the power measured, the period that the controller would ask for, and whether telemetry drops the sample. While the
average is above the cap the requests rise, to that period or by one step; once it has stayed 2 W below for 1 ms they fall in the same way
(log entry 176). A cap of 180 W never stretches. -/
def Mach.capSample (m : Mach) (milliwatts period : Nat) (dropped : Bool) : Mach :=
  let (recorded, m) := m.recordsPower dropped
  let m := m.onPins fun p => p.sample milliwatts
  let cap := m.fld Reg.GCTL_PWR_CAP 0 8 * 1000
  if cap = 180000 then (m.onPins fun p => { p with belowCap := 0 }).capRequest 256
  else if m.pins.above cap then
    let bound := m.capBinds && recorded
    let m := m.onPins fun p => { p with belowCap := 0, overCap := p.overCap + bound.toNat }
    m.capRequest (max period (m.capPeriod + 1))
  else if 2000 ≤ cap && !m.pins.above (cap - 2000) then
    let m := m.onPins fun p => { p with belowCap := p.belowCap + 10000 }
    if 1000000 ≤ m.pins.belowCap then m.capRequest (min period (m.capPeriod - 1)) else m
  else m.onPins fun p => { p with belowCap := 0 }

def execPowerCapSample (p : PowerSample) (period : Nat) (s : State) : Host.Outcome State Fault Refusal :=
  act s fun m => m.capSample p.milliwatts period p.dropped

/-! ## GCTL (R390) -/

/-- A soft reset within 1 ms of being armed. -/
def Mach.softReset (m : Mach) : Mach :=
  match m.pins.softArm with
  | some t => if (m.time.count - t).toNat ≤ 1000000 then m.afterReset false else m
  | none => m

/-- A write of GCTL_CTRL; soft_reset is judged against an arm of an earlier write. -/
def Mach.gctlCtrl (m : Mach) (v : Word) : Mach :=
  let m := if v.bit 0 then m.setRBit Reg.GCTL_STATUS 0 false else m
  let armed := if v.bit 1 then m.onPins fun p => { p with softArm := some m.time.count } else m
  if v.bit 2 && m.pins.softArm.any fun t => decide ((m.time.count - t).toNat ≤ 1000000) then m.softReset else armed

/-- What GCTL makes of a write. -/
def Mach.gctlWrite (m : Mach) (a : Nat) (v : Word) : Effect :=
  if a = Reg.GCTL_CTRL then (false, m.gctlCtrl v)
  else if a = Reg.GCTL_PWR_STATE then m.powerRequest v
  else (false, m.storeReg a v)

/-- A write that has reached GCTL. -/
def Mach.gctlArrive (m : Mach) (a : Nat) (v : Word) : Mach := m.arriveWith a v (m.gctlWrite a v)

def execPowerStateRequest (v : Word) (s : State) : Host.Outcome State Fault Refusal :=
  act s fun m => m.gctlArrive Reg.GCTL_PWR_STATE v
def execAckReset (s : State) : Host.Outcome State Fault Refusal := act s fun m => m.gctlArrive Reg.GCTL_CTRL 1
def execSoftResetArm (s : State) : Host.Outcome State Fault Refusal := act s fun m => m.gctlArrive Reg.GCTL_CTRL 2
def execSoftReset (s : State) : Host.Outcome State Fault Refusal := act s fun m => m.gctlArrive Reg.GCTL_CTRL 4

end Sys2Proof.Machine
end

