-- ==== Sys2Proof/Machine/Security.lean ====
section
/-! DEFINITION. The security island: signed requests (R422 to R424), the port's privilege (R425), the life cycle (R426 to
R428), debug access (R429), attestation (R431, R432) and the NAND's spare blocks (R434). -/

namespace Sys2Proof.Machine

def Mach.onSec (m : Mach) (f : Security → Security) : Mach := { m with sec := f m.sec }

/-- Random nonce of the next request (R424). -/
def Mach.newNonce (m : Mach) : Mach :=
  let m := m.onSec fun x => { x with nonceNo := x.nonceNo + 1 }
  let n := (Config.nonce m.sec.nonceNo).toNat
  (m.setReg Reg.SEC_NONCE_LO (BitVec.ofNat 32 n)).setReg Reg.SEC_NONCE_HI (BitVec.ofNat 32 (n / 2 ^ 32))

/-! ## Debug access (R429) -/

/-- Debug access as SEC_STATUS and DBG_STATUS show it. -/
def Mach.setDebug (m : Mach) (on : Bool) : Mach := (m.setRBit Reg.SEC_STATUS 5 on).setRBit Reg.DBG_STATUS 1 on

/-- Debug access is granted, to its end at a count or for as long as nothing ends it; a head that must now wait for a step begins to
wait (R412). -/
def Mach.grantDebug (m : Mach) (until_ : Option (BitVec 64)) : Mach :=
  let m := (m.setDebug true).onSec fun x => { x with debugUntil := until_, debugSeen := true }
  let m := (m.raise Reg.SEC_EVENT 0x10).lcLog 3 m.lifeState []
  (List.range 256).foldl Mach.checkHead m

/-- Debug access ends. -/
def Mach.endDebug (m : Mach) : Mach :=
  if m.debugAccess then
    let m := (m.setDebug false).onSec fun x => { x with debugUntil := none }
    (m.raise Reg.SEC_EVENT 0x10).lcLog 4 m.lifeState []
  else m

/-- The duration of an unlock is over. -/
def Mach.debugExpiry (m : Mach) : Mach :=
  match m.sec.debugUntil with
  | some t => if t ≤ m.time.count then m.endDebug else m
  | none => m

def execDebugExpiry (s : State) : Host.Outcome State Fault Refusal := act s Mach.debugExpiry

/-- SEC_DEBUG_LEFT: seconds of unlock left, or 0x1FFFF for a grant that lasts until reset. -/
def Mach.debugLeft (m : Mach) : Word :=
  if m.debugAccess then
    match m.sec.debugUntil with
    | some t => BitVec.ofNat 32 (((t - m.time.count).toNat + 999999999) / 1000000000)
    | none => 0x1FFFF
  else 0

/-- What the test access port is asked to do: the mandatory instructions of IEEE 1149.1, and the debug instructions of this module. -/
inductive JtagInstr where
  | bypass | samplePreload | extest | debug
deriving DecidableEq, Repr

/-- What it does: EXTEST acts only while RESET_n is asserted, a debug instruction only with debug access; otherwise they act as BYPASS
(R429, log entry 180). -/
def Mach.jtag (m : Mach) : JtagInstr → JtagInstr
  | .extest => if m.pins.resetLow then .extest else .bypass
  | .debug => if m.live && m.debugAccess then .debug else .bypass
  | i => i

/-! ## Signed requests (R423, R424) -/

/-- Who signed a request: an owner slot, Cerawick, or nobody. -/
inductive Signer where
  | owner (slot : Nat)
  | cerawick
  | unsigned
deriving DecidableEq, Repr

/-- A request as it lies in HBM (Table 17-3). -/
structure Request where
  code : Nat
  signer : Signer
  arg0 : Nat
  arg1 : Nat
  block : List Byte
  signed : List Byte
  signature : List Byte

/-- Signer that a key_id names; none for a value that Table 17-3 does not list. -/
def signerOf (id : Nat) : Option Signer :=
  if id < 4 then some (.owner id)
  else if id = 0xFFFFFFFF then some .cerawick
  else if id = 0xFFFFFFFE then some .unsigned
  else none

def Mach.requestAddr (m : Mach) : Nat := m.addr36 Reg.SEC_REQ_ADDR_LO Reg.SEC_REQ_ADDR_HI

/-- Code of the request that the address registers name. -/
def Mach.requestCode (m : Mach) : Nat := u16 (m.bytes m.requestAddr 128) 6

/-- The fields that a request of a code leaves 0 in its block. -/
def blockZero (code : Nat) (block : List Byte) : Bool :=
  let free := if code = 4 then 32 else if code = 8 then 8 else 0
  (block.drop free).all fun b => b == 0

/-- The size of a signature, for a signer. -/
def sigLengthOk (s : Signer) (n : Nat) : Bool :=
  match s with
  | .unsigned => n == 0
  | _ => decide (2512 ≤ n ∧ n ≤ 8600)

/-- The request, unless it is malformed. -/
def Mach.readRequest (m : Mach) : Option Request :=
  let h := m.bytes m.requestAddr 128
  let block := h.drop 64
  let n := u32 h 0x24
  match signerOf (u32 h 0x18) with
  | some s =>
    if h.take 4 == [0x53, 0x56, 0x52, 0x51] && u16 h 4 == 1 && decide (1 ≤ u16 h 6 ∧ u16 h 6 ≤ 8) && sigLengthOk s n &&
        ((h.drop 0x28).take 24).all (fun b => b == 0) && blockZero (u16 h 6) block &&
        decide (m.requestAddr + 128 + n ≤ m.hbmSize) then
      some { code := u16 h 6, signer := s, arg0 := u32 h 0x1C, arg1 := u32 h 0x20, block := block, signed := h,
             signature := m.bytes (m.requestAddr + 128) n }
    else none
  | none => none

def Mach.serial (m : Mach) : Nat := (m.reg Reg.SEC_SERIAL_LO).toNat + (m.reg Reg.SEC_SERIAL_HI).toNat * 2 ^ 32
def Mach.nonceNow (m : Mach) : Nat := (m.reg Reg.SEC_NONCE_LO).toNat + (m.reg Reg.SEC_NONCE_HI).toNat * 2 ^ 32

/-- The request is for this module and this moment (causes 0x03 and 0x04). -/
def Mach.requestFits (m : Mach) (r : Request) : Except Nat Unit :=
  if u64 r.signed 8 ≠ m.serial then .error 0x03
  else if u64 r.signed 0x10 ≠ m.nonceNow then .error 0x04
  else .ok ()

/-- No owner slot is enrolled and the state is DEVELOP: ENROLL_KEY comes unsigned. -/
def Mach.unsignedEnroll (m : Mach) : Bool := m.fld Reg.SEC_KEYS 0 4 == 0 && m.lifeState == 1

/-- The signature is by a usable key (causes 0x05 and 0x02); a request marked unsigned is the first ENROLL_KEY (Table 17-4). -/
def Mach.requestSigned (m : Mach) (r : Request) : Except Nat Unit :=
  match r.signer with
  | .owner k =>
    if !m.keyUsable k then .error 0x05
    else if verifies (m.ownerKey k) r.signed r.signature then .ok () else .error 0x02
  | .cerawick => if verifies m.sec.cerawickKey r.signed r.signature then .ok () else .error 0x02
  | .unsigned => if r.code = 4 ∧ m.unsignedEnroll then .ok () else .error 0x02

def Signer.isOwner : Signer → Bool
  | .owner _ => true
  | _ => false

/-- Life-cycle transitions of Table 17-5. -/
def lifeStep (from_ target : Nat) : Bool :=
  (from_ == 0 && target == 1) || (from_ == 1 && target == 2) || ((from_ == 1 || from_ == 2) && target == 3) ||
    (from_ != 4 && target == 4)

/-- The signer is the one that Table 17-4 or Table 17-5 names for the request. -/
def Mach.signerMeets (m : Mach) (r : Request) : Bool :=
  match r.code with
  | 0x01 => if m.lifeState = 3 then r.signer == .cerawick else r.signer.isOwner
  | 0x04 => r.signer.isOwner || r.signer == .unsigned
  | 0x06 => if r.arg0 = 1 then r.signer == .cerawick else r.arg0 == 4 || r.signer.isOwner
  | 0x08 => r.signer == .cerawick
  | _ => r.signer.isOwner

/-- The life-cycle state lets the request in. -/
def Mach.stateAllows (m : Mach) (r : Request) : Bool :=
  match r.code with
  | 0x01 => decide (1 ≤ m.lifeState ∧ m.lifeState ≤ 3) && m.rbit Reg.GCTL_STATUS 2
  | 0x06 => r.arg0 == 0 || decide (4 < r.arg0) || lifeStep m.lifeState r.arg0
  | _ => true

/-- The image of a FW_UPDATE: none where it does not lie in installed HBM. -/
def Mach.fwOf (m : Mach) (r : Request) : Option (List Byte) :=
  let a := u64 r.block 0
  if a + r.arg0 ≤ m.hbmSize then some (m.bytes a r.arg0) else none

/-- The arguments are within their range. -/
def Mach.argsFit (m : Mach) (r : Request) : Bool :=
  match r.code with
  | 0x01 => decide (r.arg0 ≤ 86400)
  | 0x03 => decide ((m.reg Reg.SEC_MINVER).toNat < r.arg0)
  | 0x04 => decide (r.arg0 < 4) && !m.rbit Reg.SEC_KEYS r.arg0
  | 0x05 => decide (r.arg0 < 4) && m.keyUsable r.arg0 && r.signer != .owner r.arg0
  | 0x06 => decide (1 ≤ r.arg0 ∧ r.arg0 ≤ 4)
  | 0x08 => decide (r.arg1 < 2) && (m.fwOf r).isSome
  | _ => true

/-- The fuses still hold the record that the request would burn. -/
def Mach.fusesLeft (m : Mach) (r : Request) : Bool :=
  match r.code with
  | 0x03 => decide (m.sec.versionRecs.length < 64)
  | 0x08 => r.arg1 == 0 || decide (m.sec.fwRecs.length < 32)
  | _ => true

/-- A firmware image in the request verifies. -/
def Mach.fwSigned (m : Mach) (r : Request) : Bool :=
  if r.code = 8 then (m.fwOf r).any fun img => Config.fwVerifies img else true

/-- Every check of a request that is not malformed, in the order of their causes here (log entry 44). -/
def Mach.checkRequest (m : Mach) (r : Request) : Except Nat Unit := do
  m.requestFits r
  m.requestSigned r
  if !m.signerMeets r then throw 0x02
  if !m.stateAllows r then throw 0x06
  if !m.argsFit r then throw 0x07
  if !m.fwSigned r then throw 0x02
  if !m.fusesLeft r then throw 0x08

/-! ## What a request does (Table 17-4) -/

/-- DEBUG_UNLOCK. -/
def Mach.debugUnlock (m : Mach) (seconds : Nat) : Mach :=
  m.grantDebug (if seconds = 0 then none else some (m.time.count + BitVec.ofNat 64 (seconds * 1000000000)))

/-- CCHK_OPEN: during phase B it takes effect after the commit (R435). -/
def Mach.cchkOpen (m : Mach) : Mach :=
  if 2 ≤ m.phase then m.onSec fun x => { x with openAfter := true } else (m.setOpen true).beginHold 8

/-- SET_MIN_VERSION. -/
def Mach.setMinVersion (m : Mach) (v : Nat) : Mach :=
  (m.setReg Reg.SEC_MINVER (BitVec.ofNat 32 v)).onSec fun x => { x with versionRecs := x.versionRecs ++ [BitVec.ofNat 32 v] }

/-- ENROLL_KEY. -/
def Mach.enrollKey (m : Mach) (slot : Nat) (hash : List Byte) : Mach :=
  (m.setRBit Reg.SEC_KEYS slot true).onSec fun x =>
    { x with ownerKeys := sput (fun _ => 0) slot (BitVec.ofNat 256 (hash256 hash)) x.ownerKeys }

/-- REVOKE_KEY. -/
def Mach.revokeKey (m : Mach) (slot : Nat) : Mach := m.setRBit Reg.SEC_KEYS (4 + slot) true

/-- LIFECYCLE: the fuse burns, the record is written, the module resets (R427). -/
def Mach.lifecycle (m : Mach) (target : Nat) : Mach :=
  let m := (m.setFld Reg.SEC_STATUS 2 3 target).lcLog 2 target []
  let m := if target = 3 then m.setFld Reg.SEC_KEYS 4 4 0xF else m
  let m := m.onSec fun x => { x with
    lifeFuses := x.lifeFuses ||| BitVec.ofNat 4 (2 ^ (target - 1)), eraseOwed := x.eraseOwed || decide (3 ≤ target) }
  (m.afterReset false).raise Reg.SEC_EVENT 0x8

/-- OWNER_PORT. -/
def Mach.ownerPort (m : Mach) : Mach := (m.setRBit Reg.SEC_PRIV 4 false).setRBit Reg.SEC_STATUS 6 false

/-- Image of firmware copy A (false) or B (true). -/
def Mach.fwImage (m : Mach) (copy : Bool) : List Byte :=
  match m.sec.fwImages.find? fun e => e.1 == copy.toNat with
  | some e => e.2
  | none => Config.factoryFw copy

/-- FW_UPDATE: the copy not running takes the image. -/
def Mach.fwUpdate (m : Mach) (img : List Byte) (raiseMin : Bool) : Mach :=
  let copy := !m.rbit Reg.SEC_STATUS 9
  m.onSec fun x => { x with
    fwImages := (x.fwImages.filter fun e => e.1 < copy.toNat) ++ [(copy.toNat, img)] ++ (x.fwImages.filter fun e => copy.toNat < e.1)
    fwNew := some (copy.toNat, raiseMin) }

/-- The effect of a request that passed its checks. -/
def Mach.carryOut (m : Mach) (r : Request) : Mach :=
  match r.code with
  | 0x01 => m.debugUnlock r.arg0
  | 0x02 => m.cchkOpen
  | 0x03 => m.setMinVersion r.arg0
  | 0x04 => m.enrollKey r.arg0 (r.block.take 32)
  | 0x05 => m.revokeKey r.arg0
  | 0x06 => m.lifecycle r.arg0
  | 0x07 => m.ownerPort
  | _ => m.fwUpdate ((m.fwOf r).getD []) (r.arg1 == 1)

/-- The outcome of a request: its result, its event, its log record, and a new nonce. -/
def Mach.requestEnds (m : Mach) (code cause : Nat) : Mach :=
  let m := m.setReg Reg.SEC_REQ_RESULT (BitVec.ofNat 32 (code % 256 * 256 + cause))
  ((m.raise Reg.SEC_EVENT (if cause = 0 then 0x1 else 0x2)).lcLog 5 m.lifeState (leBytes 1 code ++ leBytes 1 cause)).newNonce

/-- SEC_CTRL.request: the request is checked and carried out whole, or refused. A LIFECYCLE that is carried out ends in
the reset, of which the outcome's registers show nothing. -/
def Mach.request (m : Mach) : Mach :=
  let code := m.requestCode
  match m.readRequest with
  | none => m.requestEnds code 0x01
  | some r =>
    match m.checkRequest r with
    | .error cause => m.requestEnds code cause
    | .ok _ => if code = 6 then m.carryOut r else (m.carryOut r).requestEnds code 0

/-! ## Attestation (R431, R432) -/

/-- SEC_CTRL.attest: the nonce is taken and the report begun, or no signature is left. -/
def Mach.attest (m : Mach) : Mach :=
  if 2 ^ 20 ≤ (m.reg Reg.SEC_ATT_INDEX).toNat then (m.setFld Reg.SEC_REQ_RESULT 0 8 0x08).raise Reg.SEC_EVENT 0x2
  else
    let nonce := (List.range 8).flatMap fun i => wordBytes (m.reg (Reg.SEC_NONCE_IN i))
    (m.setRBit Reg.SEC_STATUS 8 true).onSec fun x => { x with attesting := true, attNonce := nonce }

/-- The body of the report (Table 17-7). -/
def Mach.attestBody (m : Mach) : List Byte :=
  let w := fun a => wordBytes (m.reg a)
  let flags := m.sec.debugSeen.toNat + 2 * (m.rbit Reg.CCHK_OPEN 0).toNat + 4 * (m.rbit Reg.TIME_STATUS 0).toNat +
    8 * m.showHome.toNat + 16 * (m.rbit Reg.FPL_STATUS 5).toNat
  let plan := if m.showHome then Config.showHomeHash else m.fpl.plan.hash
  padTo 256 ([0x53, 0x56, 0x41, 0x54] ++ leBytes 2 1 ++ leBytes 1 m.lifeState ++ leBytes 1 flags ++ w Reg.SEC_SERIAL_LO ++
    w Reg.SEC_SERIAL_HI ++ w Reg.GCTL_VARIANT ++ w Reg.GCTL_FW_VER ++ w Reg.SEC_ATT_INDEX ++ w Reg.FPL_IMAGE_ID ++
    w Reg.FPL_IMAGE_VER ++ w Reg.SEC_MINVER ++ leBytes 4 (if m.showHome then 0xFFFFFFFF else m.fpl.plan.keyId.toNat) ++
    w Reg.CCHK_COMMITTED ++ m.wide.toBytes ++ leBytes 2 (m.fld Reg.TIME_STATUS 16 16) ++ w Reg.SEC_WIPES ++
    leBytes 32 (Config.sha256 (m.fwImage (m.rbit Reg.SEC_STATUS 9))).toNat ++ leBytes 32 plan.toNat ++ m.sec.attNonce ++
    w Reg.FPL_CORES_OUT ++ w Reg.SAFE_PERMANENT)

/-- The index of this signature is bound: its top leaf burnt and the journal ahead of it. -/
def Mach.bindIndex (m : Mach) (index : Nat) : Mach :=
  let burns := decide (m.sec.topBurnt ≤ index / 1024)
  let m := m.onSec fun x => { x with
    topBurnt := max x.topBurnt (index / 1024 + 1), reserved := if x.reserved ≤ index then index + 16 else x.reserved }
  if burns && decide (1024 - m.sec.topBurnt < 64) then m.raise Reg.SEC_EVENT 0x100 else m

/-- The report is signed and shown. -/
def Mach.attestDone (m : Mach) : Mach :=
  if m.sec.attesting && m.mgmtRuns then
    let index := (m.reg Reg.SEC_ATT_INDEX).toNat
    let body := m.attestBody
    let m := m.bindIndex index
    let report := body ++ (List.range 5076).map fun i => Config.attestByte m.sec.seed index body i
    let m := (List.range 1333).foldl (fun m i => m.setReg (Reg.SEC_ATT_REPORT i) (w32 report (4 * i))) m
    let m := (m.incReg Reg.SEC_ATT_INDEX).setRBit Reg.SEC_STATUS 8 false
    (m.raise Reg.SEC_EVENT 0x4).onSec fun x => { x with attesting := false, attNonce := [] }
  else m

def execAttestDone (s : State) : Host.Outcome State Fault Refusal := act s Mach.attestDone

/-- The device's public key: L = 2, LMS_SHA256_M32_H10 and LMOTS_SHA256_N32_W4, big-endian, then I and T (R419, R431). -/
def devicePublicKey (seed : BitVec 256) : List Byte :=
  [0, 0, 0, 2, 0, 0, 0, 6, 0, 0, 0, 3] ++ (List.range 48).map (Config.deviceKeyByte seed)

/-- Length of the signature in the device certificate. -/
def certSigLength : Nat := 2512 + 160 * (Config.certHeight % 3)

/-- The device certificate (Table 17-9). -/
def Mach.certificate (m : Mach) : List Byte :=
  [0x53, 0x56, 0x43, 0x54] ++ leBytes 4 (0x50 + certSigLength) ++ wordBytes (m.reg Reg.SEC_SERIAL_LO) ++ wordBytes (m.reg Reg.SEC_SERIAL_HI) ++
    devicePublicKey m.sec.seed ++ leBytes 4 0 ++ (List.range certSigLength).map (Config.certByte m.sec.seed)

/-! ## The SEC block (R436) -/

/-- A write of SEC_CTRL. debug_on acts in DEVELOP alone; debug_off comes last. -/
def Mach.secCtrl (m : Mach) (v : Word) : Effect :=
  if v.bit 1 && m.sec.attesting then m.bad
  else
    let m := if v.bit 0 then m.request else m
    let m := if v.bit 1 then m.attest else m
    let m := if v.bit 3 && m.lifeState = 1 && m.rbit Reg.GCTL_STATUS 2 then m.grantDebug none else m
    (false, if v.bit 2 then m.endDebug else m)

/-- What SEC makes of a write. From tenant privilege a write of SEC_PRIV that is on its way when the privilege falls brings nothing
back (R425): it is refused as at decode. -/
def Mach.secWrite (m : Mach) (a : Nat) (v : Word) : Effect :=
  if a = Reg.SEC_CTRL then m.secCtrl v
  else if a = Reg.SEC_PRIV then
    (false, if m.rbit Reg.SEC_PRIV 4 then m.busError true a 0x0B 0x60 0 else (m.storeReg a v).setRBit Reg.SEC_STATUS 6 (v.bit 4))
  else (false, m.storeReg a v)

/-- A write that has reached SEC. -/
def Mach.secArrive (m : Mach) (a : Nat) (v : Word) : Mach := m.arriveWith a v (m.secWrite a v)

/-- SEC_CTRL.request while a request of a given code lies at SEC_REQ_ADDR. -/
def Mach.requestOf (m : Mach) (code : Nat) : Mach :=
  if m.requestCode = code then m.secArrive Reg.SEC_CTRL 1 else m

def execDebugUnlock (s : State) : Host.Outcome State Fault Refusal := act s fun m => m.requestOf 0x01
def execCchkOpen (s : State) : Host.Outcome State Fault Refusal := act s fun m => m.requestOf 0x02
def execSetMinVersion (s : State) : Host.Outcome State Fault Refusal := act s fun m => m.requestOf 0x03
def execEnrollKey (s : State) : Host.Outcome State Fault Refusal := act s fun m => m.requestOf 0x04
def execRevokeKey (s : State) : Host.Outcome State Fault Refusal := act s fun m => m.requestOf 0x05
def execLifecycle (s : State) : Host.Outcome State Fault Refusal := act s fun m => m.requestOf 0x06
def execOwnerPort (s : State) : Host.Outcome State Fault Refusal := act s fun m => m.requestOf 0x07
def execFwUpdate (s : State) : Host.Outcome State Fault Refusal := act s fun m => m.requestOf 0x08
def execAttest (s : State) : Host.Outcome State Fault Refusal := act s fun m => m.secArrive Reg.SEC_CTRL 2

/-- A write of SEC that a tenant may not make: at tenant privilege it is refused at decode (R425). -/
def Mach.ownerWrite (m : Mach) (a : Nat) (v : Word) : Mach :=
  if m.rbit Reg.SEC_PRIV 4 then m.busError false a 0x0B 0x60 0 else m.secArrive a v

def execDebugOff (s : State) : Host.Outcome State Fault Refusal := act s fun m => m.ownerWrite Reg.SEC_CTRL 4
def execDebugOn (s : State) : Host.Outcome State Fault Refusal := act s fun m => m.ownerWrite Reg.SEC_CTRL 8
def execTenantMode (v : Word) (s : State) : Host.Outcome State Fault Refusal := act s fun m => m.ownerWrite Reg.SEC_PRIV v

/-! ## Spare blocks (R434) -/

/-- A NAND block fails, which of the 8,192 the spec leaves open: the next of the 768 spare blocks takes its place, if one is left (log
entry 179). -/
def Mach.nandReplace (m : Mach) : Mach :=
  let (w, m) := m.free
  let m := m.onSec fun x => { x with badBlocks := (x.badBlocks ++ [w.toNat % 8192]).take 768 }
  (m.setFld Reg.SEC_NAND_STATUS 24 8 (m.sec.badBlocks.length * 100 / 768)).raise Reg.SEC_EVENT 0x20

/-- The replacement, while the management core runs (R24). -/
def Mach.nandBlockFail (m : Mach) : Mach := if m.mgmtRuns then m.nandReplace else m

def execNandBlockFail (s : State) : Host.Outcome State Fault Refusal := act s Mach.nandBlockFail

end Sys2Proof.Machine
end

