-- ==== Sys2Proof/Machine/Boot.lean ====
section
/-! DEFINITION. The boot, from the end of a reset to the floorplan in force (R421, R428, R430, R446, R447). The one
command BOOT runs it whole; the nanosecond count stands still meanwhile (log entry 47). -/

namespace Sys2Proof.Machine

/-- FAULT_n asserted. -/
def Mach.assertFault (m : Mach) : Mach :=
  (m.onSafety fun x => { x with faultN := true }).setRBit Reg.SAFE_STATUS 2 true

/-- Step 1: the on-die SRAM is wiped, and an owner-area erase that a life-cycle change owes is carried out, unless the module is
being ejected (R450). -/
def Mach.bootWipe (m : Mach) : Mach :=
  let m := { m with mem := m.mem.filter fun p => decide (p.1 < 2 ^ 36) }
  let m := ((m.setRBit Reg.GCTL_STATUS 2 true).incReg Reg.SEC_WIPES).raise Reg.GCTL_EVENT 0x1
  if m.sec.eraseOwed && !m.hold 6 then
    let m := ((m.onFpl fun f => { f with nand := [] }).onSec fun x => { x with eraseOwed := false, ownerLog := [] }).nandWorn
    (m.setFld Reg.SEC_NAND_STATUS 0 11 1664).incReg Reg.SEC_WIPES
  else m

/-- The firmware copies that verify and are not below the firmware minimum. -/
def Mach.fwCandidates (m : Mach) : List Bool :=
  [false, true].filter fun c => Config.fwVerifies (m.fwImage c) &&
    decide (m.fld Reg.SEC_FW_MINVER 0 16 ≤ (Config.fwVersion (m.fwImage c)).toNat)

/-- The copy that the ROM starts: the one of higher version, copy A where they are equal. -/
def Mach.fwChoice (m : Mach) : Option Bool :=
  match m.fwCandidates with
  | [a, b] => some (if (Config.fwVersion (m.fwImage a)).toNat < (Config.fwVersion (m.fwImage b)).toNat then b else a)
  | l => l.head?

/-- GCTL_VARIANT (Table 15-6). -/
def Mach.variantWord (m : Mach) : Word :=
  match m.variant with
  | .m24c => 0x000118A1
  | .m16c => 0x000210A1
  | .m24x => 0x000318A1

/-- The version of a copy that FW_UPDATE wrote becomes the minimum once it has booted, where the request said so (R422). -/
def Mach.burnFwMin (m : Mach) (copy : Bool) : Mach :=
  let m' := m.onSec fun x => { x with fwNew := none }
  if m.sec.fwNew = some (copy.toNat, true) then
    (m'.setReg Reg.SEC_FW_MINVER ((Config.fwVersion (m.fwImage copy)).setWidth 32)).onSec fun x => { x with fwRecs := x.fwRecs ++ [Config.fwVersion (m.fwImage copy)] }
  else m'

/-- Step 3: boot firmware runs, and every block answers. -/
def Mach.bootFirmware (m : Mach) (copy : Bool) : Mach :=
  let m := ((m.setRBit Reg.GCTL_STATUS 1 true).raise Reg.GCTL_EVENT 0x4).setRBit Reg.SEC_STATUS 9 copy
  let m := (m.setReg Reg.GCTL_VARIANT m.variantWord).setReg Reg.GCTL_FW_VER (Config.fwVer (m.fwImage copy))
  let m := m.setReg Reg.MEM_SIZE (BitVec.ofNat 32 (m.hbmSize / 2 ^ 30))
  let m := (((m.onPins fun p => { p with booted := true }).telemetry).lcLog 1 m.lifeState []).burnFwMin copy
  if m.lifeState = 0 then m.grantDebug none else m

/-- Steps 4 and 5: HBM trained and wiped. -/
def Mach.bootHbm (m : Mach) : Mach :=
  let m := { m with mem := m.mem.filter fun p => decide (2 ^ 36 ≤ p.1) }
  let m := ((m.setRBit Reg.MEM_STATUS 2 true).setRBit Reg.MEM_STATUS 3 true).raise Reg.MEM_EVENT 0x1
  ((m.setRBit Reg.GCTL_STATUS 3 true).raise Reg.GCTL_EVENT 0x2).incReg Reg.SEC_WIPES

/-- Phase B of a move-in that has begun, with Show Home after a failure of it (R333, R334). -/
def Mach.finishMoveIn (m : Mach) : Mach := m.changeover.changeover.committed.changeover.changeover.committed

/-- Steps 6 and 7: Show Home, once it verifies. -/
def Mach.bootShowHome (m : Mach) : Mach :=
  if Config.showHomeVerifies then ((m.onFpl fun f => { f with staged := some [] }).beginPhaseB []).finishMoveIn else m.assertFault

/-- The floorplan of FPL_BOOTSLOT in place of Show Home, or Show Home when it is refused (R447). -/
def Mach.bootPlan (m : Mach) : Mach :=
  if m.rbit Reg.FPL_BOOTSLOT 3 then
    let slot := m.fld Reg.FPL_BOOTSLOT 0 3
    let m := ((m.setPhase 1).onFpl fun f => { f with staged := some (sget (fun _ => []) f.nand slot) }).changeover
    if m.fpl.staged.isSome then m.finishMoveIn else m.bootShowHome
  else m.bootShowHome

/-- Steps 2 to 8, of a module whose SRAM is wiped. -/
def Mach.bootOn (m : Mach) : Mach :=
  match m.fwChoice with
  | none => m.assertFault
  | some copy =>
    let m := (m.bootFirmware copy).bootHbm
    if m.lifeState = 4 then m.assertFault else m.bootPlan

/-- The boot (Table 18-7), once for each reset. An EJECT_n before it meets it in its first stage, which it carries to its end (R457). -/
def Mach.boot (m : Mach) : Mach :=
  if m.pins.booted || m.rbit Reg.GCTL_STATUS 2 then m
  else if m.hold 6 then m.bootWipe
  else m.bootWipe.bootOn

def execBoot (s : State) : Host.Outcome State Fault Refusal := act s Mach.boot

end Sys2Proof.Machine
end

