-- ==== Sys2Proof/Machine/Flags.lean ====
section
/-! DEFINITION. The flags that the state shows: sluice_busy (R383, R384), the event summary and INT_n (R387, R391), and
the state bits of a host queue (Table 4-3). -/

namespace Sys2Proof.Machine

/-! ## sluice_busy (R383, R384) -/

/-- Bytes of window writes that have not reached HBM. -/
def Mach.windowBytes (m : Mach) : Nat :=
  ((m.port.posted.filter fun p => p.block == .window).map fun p => 4 * p.words.length).sum

/-- A block's sluice_busy; for the window, its 16 KiB buffer lacks room for 4,096 bytes. -/
def Mach.sluiceBusy (m : Mach) (b : Block) : Bool :=
  if b = .window then decide (12288 < m.windowBytes) else m.port.posted.any fun p => p.block == b

/-- The bits of a block's registers that show sluice_busy, at an offset of the block. -/
def busyMask (b : Block) (o : Nat) : Word :=
  match b with
  | .time => if o = 4 then 0x80 else 0
  | .fpl => if o = 4 ∨ o = 0x8004 then 1 else 0
  | .cq => if o = 0x10000 then 1 else 0
  | .str => if o = 0x18000 then 1 else 0
  | .fus => if o = 0x8000 then 1 else 0
  | .cal => if o = 0x20004 then 1 else 0
  | .egr => if o = 0 then 1 else if o = 0x2000 ∨ o = 0x2200 then 0x100 else 0
  | .net => if o = 0x1004 then 1 else 0
  | .clu _ => if o = 0x40000 then 1 else 0
  | .safe | .cnt | .sec | .dbg | .sns | .pnt | .mem => if o = 0 then 1 else 0
  | .gctl | .hif | .trk | .window => 0

/-! ## HIF_EVSUM (R387, R391) -/

/-- An event register holds events. -/
def Mach.holdsEvents (m : Mach) (a : Nat) : Bool := m.fld a 0 16 != 0

/-- Word w of a row of event bits, one for each instance. -/
def Mach.eventBits (m : Mach) (n : Nat) (at_ : Nat → Nat) : Word :=
  BitVec.ofNat 32 (((List.range n).map fun i => if m.holdsEvents (at_ i) then 2 ^ i else 0).sum)

def Mach.evStr (m : Mach) (w : Nat) : Word := m.eventBits 32 fun b => Reg.STR_EVENT (32 * w + b)
def Mach.evQ (m : Mach) (w : Nat) : Word := m.eventBits 32 fun b => Reg.CQ_EVENT (32 * w + b)
def Mach.evFus (m : Mach) : Word := m.eventBits 16 Reg.FUS_EVENT
def Mach.evClu (m : Mach) : Word := m.eventBits 8 Reg.CLU_EVENT

/-- HIF_EVGRP. -/
def Mach.evGrp (m : Mach) : Word := m.evFus ||| (m.evClu <<< 16)

/-- The sources of HIF_EVSUM, bit by bit. -/
def Mach.eventSources (m : Mach) : List Bool :=
  let one := m.holdsEvents
  [one Reg.GCTL_EVENT, one Reg.HIF_EVENT, one Reg.TIME_EVENT, one Reg.SAFE_EVENT, one Reg.CNT_EVENT, one Reg.SEC_EVENT,
    one Reg.FPL_EVENT, one Reg.DBG_EVENT, (List.range 8).any (fun w => m.evQ w != 0), one Reg.SNS_EVENT,
    (List.range 8).any (fun w => m.evStr w != 0), m.evFus != 0, one Reg.CAL_EVENT, one Reg.PNT_EVENT, one Reg.EGR_EVENT,
    one (Reg.Q_EVENT Reg.HRQ), one (Reg.Q_EVENT Reg.HIQ), one Reg.MEM_EVENT, m.evClu != 0]

def Mach.evSum (m : Mach) : Word :=
  BitVec.ofNat 32 ((m.eventSources.zipIdx.map fun p => p.1.toNat * 2 ^ p.2).sum)

/-- INT_n is asserted. -/
def Mach.intN (m : Mach) : Bool := m.evSum &&& m.reg Reg.HIF_INT_EN != 0

/-! ## The outputs (R438, R440, R441) -/

/-- What an output drives: nothing, a level, or the signal of its port. -/
inductive PinDrive where
  | highZ | low | high | signal
deriving DecidableEq, Repr

/-- The outputs of Tables 18-2 and 18-3. -/
inductive OutPin where
  | outValid | faultN | intN | ppsOut | xspi
  | fsync (n : Fin 8)
  | gpio (n : Fin 16)
  | spi (i : Fin 4)
  | canTxd (j : Fin 2)
  | i3c (n : Fin 8)
deriving DecidableEq, Repr

def levelDrive (b : Bool) : PinDrive := if b then .high else .low
def openDrain (asserted : Bool) : PinDrive := if asserted then .low else .highZ

/-- The signal of a low-rate port that is enabled. -/
def portDrive (on : Bool) (d : PinDrive) : PinDrive := if on then d else .highZ

/-- The outputs of a module that runs: low-rate outputs drive nothing until their port is enabled, a GPIO until it is an output. -/
def Mach.liveDrive (m : Mach) : OutPin → PinDrive
  | .outValid => levelDrive m.safety.outValid
  | .faultN => openDrain m.safety.faultN
  | .intN => openDrain m.intN
  | .ppsOut => levelDrive m.time.ppsOut
  | .xspi => .signal
  | .fsync n => portDrive (m.rbit (Reg.SNS_FSYNC_CFG n) 31) (levelDrive (sget (fun _ => {}) m.ports.fsync n).pulseEnd.isSome)
  | .gpio n => portDrive (m.rbit Reg.SNS_GPIO_DIR n) (levelDrive (m.rbit Reg.SNS_GPIO_OUT n))
  | .spi i => portDrive (m.rbit (Reg.SNS_SPI_CFG i) 31) .signal
  | .canTxd j => portDrive (m.rbit (Reg.SNS_CAN_CFG j) 31) .signal
  | .i3c n => portDrive (m.rbit (Reg.SNS_I3C_CFG n) 31) .signal

/-- What each output drives. A thermal shutdown holds OUT_VALID low and FAULT_n asserted until VIN is removed (R455); without power
nothing is driven, and in reset OUT_VALID alone, low (R445). -/
def Mach.drive (m : Mach) (o : OutPin) : PinDrive :=
  if m.live then m.liveDrive o
  else match o with
    | .outValid => if m.pins.powered || m.pins.thermalOff then .low else .highZ
    | .faultN => openDrain m.pins.thermalOff
    | _ => .highZ

/-! ## Queue windows (Tables 4-2, 4-3) -/

def Mach.hqStatus (m : Mach) (h : HostQ) : Word :=
  let q := m.hostq h
  BitVec.ofNat 32 (q.empty.toNat + 2 * (decide (q.room (m.hqGeom h) < 4)).toNat + 4 * (decide (q.rl = q.l)).toNat + 8 * q.filling.toNat +
    16 * q.underrun.toNat + 32 * q.waiting.toNat + 64 * q.markValid.toNat + 128 * q.flushPending.toNat)

end Sys2Proof.Machine
end

