-- ==== Sys2Proof/Machine/ShowHome.lean ====
section
/-! DEFINITION. Show Home as it runs (R339 to R343): what takes effect at a report boundary, the report, and STOP_NEAR. -/

namespace Sys2Proof.Machine

/-! ## The report boundary (R339, R342, R343) -/

/-- FPL_SH registers as written take effect. -/
def Mach.shTakeConfig (m : Mach) : Mach :=
  if m.sh.pendingCfg.isEmpty then m
  else
    let m := m.sh.pendingCfg.foldl (fun m p => m.setReg p.1 p.2) m
    ({ m with sh := { m.sh with pendingCfg := [], changed := true } }).shPorts

/-- What Show Home has changed of its configuration, at this boundary or since the last one, is committed anew with its reference, which
closes a CCHK_OPEN that stands meanwhile (R343, R368). -/
def Mach.shCommit (m : Mach) : Mach :=
  if m.sh.changed then
    let m := { m with sh := { m.sh with changed := false } }
    (m.setReg Reg.CCHK_REF m.configCrc).commit
  else m

/-- A word of Show Home's own configuration set anew. -/
def Mach.shSet (m : Mach) (a : Nat) (v : Word) : Mach :=
  if m.reg a = v then m else { m.setReg a v with sh := { m.sh with changed := true } }

/-- The pose integrator runs with every IMU and wheel stream whose active entry is valid and of model 4 or 5 (R339). -/
def Mach.shPoseInputs (m : Mach) : Mach :=
  let ok := fun s model => m.strEnabled s && m.calValid s && calModel (m.calEntry false s) == model
  let imu := ok 192 4
  let wheels := (List.range 8).filter fun e => ok (200 + e) 5
  let m := (List.range 8).foldl (fun m e => m.shSet (Reg.CAL_POSE_WHEEL e) ((m.reg (Reg.CAL_POSE_WHEEL e)).setBit 31 (wheels.contains e))) m
  let m := m.shSet Reg.CAL_POSE_CFG ((m.reg Reg.CAL_POSE_CFG).setBit 30 imu)
  let on := imu || !wheels.isEmpty
  if on == m.rbit Reg.CAL_POSE_CFG 31 then m else (m.shSet Reg.CAL_POSE_CFG ((m.reg Reg.CAL_POSE_CFG).setBit 31 on)).poseEnable on

/-- Camera and scanner streams with a valid active entry (R342). -/
def Mach.shMembers (m : Mach) : List Nat := (List.range 192).filter fun s => m.strEnabled s && m.calValid s

/-- Group 0 runs while there is such a stream: its first 32 are its members, with interval 0. Its first instant is at the
next boundary (log entry 12). -/
def Mach.shGrid (m : Mach) : Mach :=
  let members := m.shMembers
  let m := (List.range 32).foldl (fun m i =>
    m.shSet (Reg.FUS_MEM 0 i) (match members[i]? with
      | some s => BitVec.ofNat 32 (2 ^ 31 + s)
      | none => 0)) m
  let on := !members.isEmpty
  let m := m.shSet (Reg.EGR_GRID_CFG 0) ((m.reg (Reg.EGR_GRID_CFG 0)).setBit 31 (on || m.fusBusy 0))
  if on && !m.fusBusy 0 then
    (m.setReg (Reg.FUS_T0 0) (BitVec.ofNat 32 ((m.time.count.toNat / 50000000 + 1) * 50000000))).groupStart 0
  else if !on && m.fusEnabled 0 then m.groupStop 0
  else m

/-! ## The report (R340, Tables 11-9 and 11-10) -/

/-- What arrived within the last 100 ms. -/
def Mach.lately (m : Mach) (t : BitVec 64) : Bool := decide ((m.time.count - t).toNat ≤ 100000000)

/-- The nearest of some points per sector, as 16 ranges. -/
def sectorRanges (pts : List (Nat × Nat)) : List Byte :=
  (List.range 16).flatMap fun j => leBytes 2 ((pts.filter fun p => p.1 == j).foldl (fun r p => min r p.2) 0xFFFF)

/-- The sensor record of a stream. The stamp of a stream with no record in the last 100 ms is not given, and is free. -/
def Mach.sensorRecord (m : Mach) (f : Found) : List Byte × Mach :=
  let s := f.stream
  let pts := m.sh.near.filter fun x => x.1 == s && m.lately x.2.1
  let frame := (m.sh.frames.find? fun x => x.1 == s && m.lately x.2.1).map fun x => x.2.2
  let haz := (frame.map Config.hazards).getD 0
  let close := pts.any fun x => x.2.2.2.2
  let quiet := decide (500000000 ≤ (m.time.count - f.lastAt).toNat)
  let sectors := if m.calValid s then haz.field 16 16 else 0
  let used := m.lately f.lastAt
  let (w, m) := if used then (f.stamp, m) else m.free
  (leBytes 1 s ++ leBytes 1 (m.strKind s) ++ leBytes 1 (close.toNat + 2 * quiet.toNat) ++ leBytes 1 (haz.field 0 5) ++
    sectorRanges (pts.map fun x => (x.2.2.1, x.2.2.2.1)) ++ leBytes 2 sectors ++ leBytes 2 0 ++ wordBytes w ++ leBytes 4 0, m)

/-- The newest pose. -/
def Mach.newestPose (m : Mach) : List Word × List Word :=
  match m.cal.pose.ticks.head? with
  | some t => (t.p, t.q)
  | none => ([0, 0, 0], [0x3F800000, 0, 0, 0])

/-- The sensor records of the discovered cameras and scanners in stream order. -/
def Mach.sensorRecords (m : Mach) : List Byte × Mach :=
  ((m.sh.found.filter fun f => decide (f.stream < 192)).mergeSort fun a b => decide (a.stream ≤ b.stream)).foldl
    (fun r f => let x := r.2.sensorRecord f; (r.1 ++ x.1, x.2)) ([], m)

/-- One report: its number, its packet to the host result queue and to FPL_SH_DEST. Its valid bit follows the module
holds, those that end at its framing not counted (R349). It is the last packet of no instant (log entry 126). -/
def Mach.report1 (m : Mach) : Mach :=
  if m.ejected then m
  else
    let m := m.incReg Reg.FPL_SH_REPORT
    let (body, m) := m.sensorRecords
    let m := m.framingHolds (some m.time.count)
    let p : Packet := { kind := 4, payload := poseBlock m.newestPose ++ body, dests := m.shDest.toList, host := true }
    m.deliver p (m.packetBytes p (!m.moduleHold) false 0 (m.reg Reg.FPL_SH_REPORT) (0, 0))

/-- SHOW_HOME_REPORT: the count reaches a multiple of 50,000,000 while Show Home runs: it has been committed, which the
boot does (Table 18-7). -/
def Mach.shReport (m : Mach) : Mach :=
  let b := m.time.count.toNat / 50000000
  if m.showHome && m.safety.commitAt.isSome && m.phase < 2 && m.sh.boundary < b && m.runs 151 then
    let m := { m with sh := { m.sh with boundary := b } }
    m.shTakeConfig.shPoseInputs.shGrid.shCommit.report1
  else m

def execShowHomeReport (s : State) : Host.Outcome State Fault Refusal := act s fun m => m.shReport

/-! ## STOP_NEAR and the FPL_SH registers -/

/-- 100 ms without a point within 0.3 m: STOP_NEAR falls (R341). -/
def Mach.stopNearEnd (m : Mach) : Mach :=
  match m.sh.stopAt with
  | some t =>
    if m.showHome && decide (100000000 ≤ (m.time.count - t).toNat) then
      ({ m with sh := { m.sh with stopAt := none } }).driveGpio ((m.reg Reg.SNS_GPIO_OUT).setBit 0 false)
    else m
  | none => m

def execStopNearRelease (s : State) : Host.Outcome State Fault Refusal := act s fun m => m.stopNearEnd

/-- A write of the FPL_SH register at this offset of the FPL block. -/
def Mach.shConfig (m : Mach) (off : Nat) (v : Word) : Mach :=
  if 0x100 ≤ off ∧ off < 0x200 then m.fplArrive (0x60000 + off) v else m

def execShowHomeConfigWrite (off : BitVec 16) (v : Word) (s : State) : Host.Outcome State Fault Refusal :=
  act s fun m => m.shConfig off.toNat v

/-- FPL_SH_STATUS (Table 13-8). -/
def Mach.shStatus (m : Mach) : Word :=
  if m.showHome then
    let count := fun k => (m.sh.found.filter fun f => m.strKind f.stream == k).length
    BitVec.ofNat 32 ((m.rbit Reg.SNS_GPIO_OUT 0).toNat * 2 ^ 18 + (m.fusBusy 0).toNat * 2 ^ 17 + (m.strEnabled 192).toNat * 2 ^ 16 +
      count 2 % 256 * 2 ^ 8 + count 1 % 256)
  else 0

end Sys2Proof.Machine
end

