-- ==== Sys2Proof/Machine/RegRead.lean ====
section
/-! DEFINITION. What a register reads as: its stored word, or the value it shows of the state (R381, R387, R389). -/

namespace Sys2Proof.Machine

/-! ## Queue windows (Table 4-2) -/

/-- A register of a host queue's window, by its offset there; Q_RDATA is read by `Mach.hqRead`. -/
def Mach.hqReg (m : Mach) (h : HostQ) (o a : Nat) : Word :=
  let q := m.hostq h
  match o with
  | 0x00 => m.hqStatus h
  | 0x0C => BitVec.ofNat 32 (q.l - q.rd)
  | 0x10 => BitVec.ofNat 32 q.rd
  | 0x14 => BitVec.ofNat 32 q.mark
  | 0x18 => BitVec.ofNat 32 q.rl
  | 0x1C => BitVec.ofNat 32 q.f
  | 0x28 => q.swaps
  | 0x2C => q.drops
  | _ => m.reg a

/-! ## Counters (R395, R397, Table 16-1) -/

/-- Half of a held counter. -/
def heldHalf (v : BitVec 64) (o : Nat) : Word := if o % 8 = 0 then v.setWidth 32 else (v >>> 32).setWidth 32

/-- A holding register: of a counter of clocks, the free value that the snapshot took. -/
def Mach.heldCounter (m : Mach) (i : Nat) : BitVec 64 :=
  let e := i % 256
  if 1024 ≤ i && (clockOfNone e || clockOfCommand e) then
    if if clockOfNone e then m.obs.heldClockedAll else m.obs.heldClocked then Config.clocks m.obs.clockNo i else 0
  else sget (fun _ => 0) m.obs.held i

/-- A register of CNT: holding registers, or a stored word. The debug counters read 0 without debug access. -/
def Mach.cntReg (m : Mach) (o a : Nat) : Word :=
  if 0x1000 ≤ o ∧ o < 0x2000 then heldHalf (m.heldCounter ((o - 0x1000) / 8)) o
  else if 0x4000 ≤ o ∧ o < 0x4800 then heldHalf (m.heldCounter (512 + (o - 0x4000) / 8)) o
  else if 0x8000 ≤ o ∧ o < 0xA000 then
    if m.debugAccess then heldHalf (m.heldCounter (1024 + 1024 * m.fld Reg.CNT_DBG_PAGE 0 3 + (o - 0x8000) / 8)) o else 0
  else m.reg a

/-! ## CLU (Table 12-9) -/

/-- The control core that CLU_CC_SEL of cluster k selects. -/
def Mach.ccSelected (m : Mach) (k : Nat) : Nat := ccOf k (m.fld (Reg.CLU_CC_SEL k) 0 3)

/-- Flat address of a word of the sequencer memory window. -/
def Mach.seqWindow (m : Mach) (k o : Nat) : Nat := seqBase (m.ccSelected k) + o

def Mach.cluReg (m : Mach) (k o a : Nat) : Word :=
  if o < 0x40000 then m.word (m.seqWindow k o)
  else if 0x40100 ≤ o ∧ o < 0x401A0 then
    let c := ccOf k ((o - 0x40100) / 0x20)
    match o % 0x20 with
    | 0x04 => m.ccStatus c
    | 0x08 => (m.cc c).pc.setWidth 32
    | 0x0C => (m.cc c).waitObj.setWidth 32
    | _ => m.reg a
  else m.reg a

/-! ## The other blocks -/

/-- FUSE commands of some operations are in flight. -/
def Mach.fuseBusy (m : Mach) (ops : List Nat) : Bool :=
  m.cq.any fun p => p.2.started.any fun c => cmdClass c.bytes == 5 && ops.contains (cmdOp c.bytes)

def Mach.egrReg (m : Mach) (o a : Nat) : Word :=
  match windowAt o with
  | some h => m.hqReg h ((o - 0x2000) % 0x200) a
  | none =>
    if o = 0 then m.reg a ||| BitVec.ofNat 32 (2 * (m.fuseBusy [1, 2, 3]).toNat + 4 * (m.fuseBusy [4, 5]).toNat) else m.reg a

def Mach.safeReg (m : Mach) (o a : Nat) : Word :=
  if 0x200 ≤ o ∧ o < 0x280 then
    let t := sget (fun _ => {}) m.safety.selfTest ((o - 0x200) / 4)
    BitVec.ofNat 32 (t.done * 2 ^ 16 + min 65535 ((m.runClock - t.roundAt).toNat / 1000000000))
  else m.reg a

/-- An FPL_SH register reads as it was last written. -/
def Mach.fplReg (m : Mach) (o a : Nat) : Word :=
  if o = 0x104 then m.shStatus
  else match m.sh.pendingCfg.find? fun p => p.1 == a with
    | some p => p.2
    | none => m.reg a

def Mach.strReg (m : Mach) (o a : Nat) : Word :=
  if o < 0x10000 ∧ o % 0x100 = 0x1C then
    let s := o / 0x100
    if m.fld (Reg.STR_CTRL s) 29 2 = 0 then m.reg a else (m.reg a).setField 1 2 2
  else m.reg a

def Mach.fusReg (m : Mach) (o a : Nat) : Word :=
  if a = Reg.FUS_STATUS (o / 0x400) then m.fusStatus (o / 0x400)
  else if a = Reg.FUS_ABSENT (o / 0x400) then m.fusAbsent (o / 0x400)
  else m.reg a

def Mach.cqReg (m : Mach) (o a : Nat) : Word :=
  if o < 0x10000 ∧ o % 0x100 = 0x1C then m.cqStatus (o / 0x100)
  else if 0x10800 ≤ o ∧ o < 0x10A00 then m.sqStat ((o - 0x10800) / 4)
  else m.reg a

def Mach.hifReg (m : Mach) (o a : Nat) : Word :=
  if o = 0x2C then m.evSum
  else if o = 0x30 then m.evGrp
  else if 0x40 ≤ o ∧ o < 0x60 then m.evStr ((o - 0x40) / 4)
  else if 0x60 ≤ o ∧ o < 0x80 then m.evQ ((o - 0x60) / 4)
  else m.reg a

/-- The levels at the GPIO pins: of an output pin, the level it is driven to (Table 3-12). -/
def Mach.gpioLevels (m : Mach) : Word :=
  let dir := m.reg Reg.SNS_GPIO_DIR
  (m.reg Reg.SNS_GPIO_IN &&& ~~~dir) ||| (m.reg Reg.SNS_GPIO_OUT &&& dir)

/-- What the register at an address shows, sluice_busy apart. -/
def Mach.shows (m : Mach) (b : Block) (o a : Nat) : Word :=
  match b with
  | .hif => m.hifReg o a
  | .time => if a = Reg.TIME_SHORT then m.now else m.reg a
  | .safe => m.safeReg o a
  | .cnt => m.cntReg o a
  | .sec => if a = Reg.SEC_DEBUG_LEFT then m.debugLeft else if 0x3000 ≤ o then w32 m.certificate (o - 0x3000) else m.reg a
  | .fpl => m.fplReg o a
  | .dbg => if o = 0 then (m.reg a).setBit 2 m.traceOn else m.reg a
  | .cq => m.cqReg o a
  | .str => m.strReg o a
  | .fus => m.fusReg o a
  | .pnt => if 0x4000 ≤ o ∧ o < 0x4100 ∧ o % 0x20 = 0 then m.unitStat ((o - 0x4000) / 0x20) else m.reg a
  | .trk => w32 (m.trkWindow (o / 0x40)) (o % 0x40)
  | .egr => m.egrReg o a
  | .clu k => m.cluReg k o a
  | .sns => if a = Reg.SNS_GPIO_IN then m.gpioLevels else m.reg a
  | .gctl | .cal | .net | .mem | .window => m.reg a

/-- A register that only a write reaches reads 0 (R16). -/
def writeOnly (a : Nat) : Bool :=
  match rowAt a with
  | some (r, _) => r.acc == .wo || r.acc == .w1p
  | none => false

/-- The port of SNS_I3C_DATA at an address. -/
def i3cDataAt (a : Nat) : Option Nat := (List.range 8).find? fun n => a == Reg.SNS_I3C_DATA n

/-- The host queue whose Q_RDATA an address reads. -/
def rdataAt (b : Block) (o : Nat) : Option HostQ :=
  if b = .egr ∧ 0x100 ≤ o % 0x200 then windowAt o else none

/-- One word read: the value sampled, and the module after it. Reads of a window see every window write before them. -/
def Mach.regRead (m : Mach) (a : Nat) : Word × Mach :=
  match blockOf a with
  | none => (0, m)
  | some (.window, o) =>
    let m := m.drainWindow
    (m.word (m.fld Reg.HIF_WIN_BASE 0 10 * 2 ^ 26 + o), m)
  | some (b, o) =>
    match rdataAt b o with
    | some h => m.hqRead h
    | none =>
      match i3cDataAt a with
      | some n => m.i3cPop n
      | none =>
        if writeOnly a then (0, m)
        else (m.shows b o a ||| (if m.sluiceBusy b then busyMask b o else 0), m)

end Sys2Proof.Machine
end

