-- ==== Sys2Proof/Machine/HostPort.lean ====
section
/-! DEFINITION. The host port (R375 to R386, R389): transactions, their words and their errors, the blocks' answer to a
write, and posted writes. -/

namespace Sys2Proof.Machine

/-! ## Writes at a block -/

/-- A write of a CLU block: halt and resume with debug access only, the sequencer memory only of a halted core (R315). -/
def Mach.cluWrite (m : Mach) (k a : Nat) (v : Word) : Effect :=
  let o := (a - 0x400000) % 0x80000
  if o < 0x40000 then
    if (m.cc (m.ccSelected k)).state = .halted then (false, m.setWord (m.seqWindow k o) v) else m.bad
  else if 0x40100 ≤ o ∧ o < 0x401A0 ∧ o % 0x20 = 0 then
    let c := ccOf k ((o - 0x40100) / 0x20)
    if !m.debugAccess then m.bad
    else
      let m := if v.bit 0 then m.ccHalt c else m
      (false, if v.bit 1 then m.ccResume c else m)
  else (false, m.storeReg a v)

/-- HIF_ERR_CTRL.clear: the captured error is cleared and capture armed (R382). -/
def Mach.clearError (m : Mach) : Mach := (m.setReg Reg.HIF_ERR_ADDR 0).setReg Reg.HIF_ERR_CAUSE 0

def Mach.hifWrite (m : Mach) (a : Nat) (v : Word) : Effect :=
  (false, if a = Reg.HIF_ERR_CTRL then (if v.bit 0 then m.clearError else m) else m.storeReg a v)

/-- What a block makes of a write. -/
def Mach.blockWrite (m : Mach) (b : Block) (a : Nat) (v : Word) : Effect :=
  match b with
  | .gctl => m.gctlWrite a v
  | .hif => m.hifWrite a v
  | .safe => m.safeWrite a v
  | .cnt => m.cntWrite a v
  | .sec => m.secWrite a v
  | .fpl => m.fplWrite a v
  | .dbg => m.dbgWrite a v
  | .clu k => m.cluWrite k a v
  | b => m.planWrite b a v

/-- The cause for which a word is refused at its block by its access code: the sequencer memory is RWL. -/
def Mach.wordCause (m : Mach) (b : Block) (a : Nat) (v : Word) : Option Nat :=
  match b with
  | .clu k =>
    let o := (a - 0x400000) % 0x80000
    if o < 0x40000 then (if m.word (m.seqWindow k o) ≠ v ∧ m.locked = true then some 0x03 else none) else m.writeCause a v
  | _ => m.writeCause a v

/-- A word reaches its block, or HBM through the window at the base of its decode: the cause for which it is refused,
if it is, and the module after it. -/
def Mach.landWord (m : Mach) (b : Block) (base a : Nat) (v : Word) : Option Nat × Mach :=
  match b with
  | .window => (none, m.setWord (base * 2 ^ 26 + (a - 0x40000000)) v)
  | b =>
    match m.wordCause b a v with
    | some c => (some c, m)
    | none => let e := m.blockWrite b a v; (if e.1 then some 0x04 else none, e.2)

/-- The write resets the module: what follows it in its burst is lost (R393). -/
def Mach.resetBy (m after : Mach) (a : Nat) (v : Word) : Bool :=
  (a == Reg.GCTL_CTRL && v.bit 2 && m.pins.softArm.any fun t => decide ((m.time.count - t).toNat ≤ 1000000)) ||
    (m.pins.booted && !after.pins.booted)

/-- The words of a burst written without CRC, in their order, up to the first that is refused (R382). -/
def Mach.landEach (m : Mach) (p : Posted) : List (Nat × Nat × Word) → Mach
  | [] => m
  | (i, a, v) :: rest =>
    let r := m.landWord p.block p.winBase a v
    match r.1 with
    | some c => r.2.busError true a c p.opcode.toNat i
    | none => if m.resetBy r.2 a v then r.2 else r.2.landEach p rest

/-- The first word of a burst that its block would refuse, tried in order, or the module after all of them. -/
def Mach.tryAll (m : Mach) (p : Posted) : List (Nat × Nat × Word) → Except (Nat × Nat × Nat) Mach
  | [] => .ok m
  | (i, a, v) :: rest =>
    let r := m.landWord p.block p.winBase a v
    match r.1 with
    | some c => .error (i, a, c)
    | none => if m.resetBy r.2 a v then .ok r.2 else r.2.tryAll p rest

/-- The host queue whose Q_WDATA lies at an address. -/
def wdataAt (a : Nat) : Option HostQ := [HostQ.result, HostQ.inject].find? fun h => a == Reg.Q_WDATA (hqWindow h)

/-- A posted write takes effect. With CRC it is checked whole first, and discarded whole when a word is refused; a word
that Q_WDATA refuses still discards the open record (R280). -/
def Mach.land (m : Mach) (p : Posted) : Mach :=
  if p.whole then
    match m.tryAll p p.words with
    | .ok m' => m'
    | .error (i, a, c) =>
      let m := match wdataAt a with
        | some h => if m.hqProducer h then m.hqDiscard h else m
        | none => m
      m.busError true a c p.opcode.toNat i
  else m.landEach p p.words

/-- The island that holds a block (Table 15-5). -/
def blockIsland : Block → Nat
  | .gctl | .hif | .cq | .pnt => 149
  | .time => 144
  | .safe => 145
  | .cnt | .dbg => 165
  | .sec => 147
  | .fpl => 146
  | .sns => 164
  | .str | .fus | .cal => 150
  | .trk | .egr | .net => 151
  | .mem | .window => 148
  | .clu k => 128 + 2 * k

/-- A block's island stands still, so that what is posted to it waits (R37). The low-rate hub whose ports are all disabled takes the
writes that enable them (log entry 171). -/
def Mach.blockStands (m : Mach) (b : Block) : Bool := (m.island (blockIsland b)).stopped.any fun c => c != .port

/-- A posted write takes effect, or stays posted with those to its block before it. -/
def Mach.landOne (m : Mach) (p : Posted) : Mach :=
  if m.blockStands p.block || m.port.posted.any fun x => x.block == p.block then m.onPort fun x => { x with posted := x.posted ++ [p] }
  else m.land p

/-- Every posted write takes effect, in the order of their words, but those to a stopped island (R37, R383). -/
def Mach.landPosted (m : Mach) : Mach :=
  let l := m.port.posted
  l.foldl Mach.landOne (m.onPort fun x => { x with posted := [] })

/-! ## The decode of a word -/

/-- The block answers: boot firmware has started it (R421, R427), and the window when HBM is trained and wiped. -/
def Mach.answers (m : Mach) (b : Block) : Bool :=
  match b with
  | .gctl | .hif | .sec => true
  | .window => m.pins.booted && m.lifeState != 4 && m.rbit Reg.GCTL_STATUS 3
  | _ => m.pins.booted && m.lifeState != 4

/-- The address is a register, or lies in a window. -/
def knownAddr (a : Nat) : Bool :=
  match blockOf a with
  | some (.trk, _) | some (.window, _) => true
  | some (.clu _, o) => decide (o < 0x40000) || (rowAt a).isSome
  | some _ => (rowAt a).isSome
  | none => false

/-- HBM address of a window address. -/
def Mach.windowAddr (m : Mach) (a : Nat) : Nat := m.fld Reg.HIF_WIN_BASE 0 10 * 2 ^ 26 + (a - 0x40000000)

/-- An HBM address lies in the ring of a queue of a tenant. -/
def Mach.inTenantRing (m : Mach) (t h : Nat) : Bool :=
  (List.range 256).any fun q => m.fld (Reg.CQ_CFG q) 20 4 == t && m.fld (Reg.CQ_CFG q) 8 2 == 0 &&
    decide (m.addr36 (Reg.CQ_BASE_LO q) (Reg.CQ_BASE_HI q) ≤ h ∧ h < m.addr36 (Reg.CQ_BASE_LO q) (Reg.CQ_BASE_HI q) + 64 * 2 ^ m.ringLog q)

/-- Tenant t may write the register at an address (R425). -/
def Mach.tenantWrites (m : Mach) (t : Nat) (b : Block) (o : Nat) : Bool :=
  match b with
  | .cq => decide (o < 0x10000) && m.fld (Reg.CQ_CFG (o / 0x100)) 20 4 == t
  | .egr => (windowAt o).isSome
  | .sec => o == 0x08 || o == 0x18 || o == 0x1C || decide (0x80 ≤ o ∧ o < 0xA0)
  | .cnt => o == 0x08
  | _ => false

/-- Tenant t may read the register at an address: holding registers are restricted (Table 16-1). -/
def Mach.tenantReads (m : Mach) (t : Nat) (b : Block) (o : Nat) : Bool :=
  match b with
  | .cnt =>
    if 0x1000 ≤ o ∧ o < 0x2000 then false
    else if (0x4000 ≤ o ∧ o < 0x4800) ∨ 0x8000 ≤ o then (m.reg Reg.CNT_TENANT_MASK).toNat == 2 ^ t
    else true
  | _ => true

/-- The port's privilege allows the access at an address. -/
def Mach.permitted (m : Mach) (write : Bool) (b : Block) (o a : Nat) : Bool :=
  if m.rbit Reg.SEC_PRIV 4 then
    let t := m.fld Reg.SEC_PRIV 0 4
    if b = .window then m.inTenantRing t (m.windowAddr a) else if write then m.tenantWrites t b o else m.tenantReads t b o
  else true

/-- The cause for which a word is refused at its decode, by its address alone: reserved, not ready, not permitted, beyond
HBM, read-only window, Q_RDATA of a queue that the host does not consume. -/
def Mach.decodeCause (m : Mach) (write : Bool) (a : Nat) : Option Nat :=
  match blockOf a with
  | none => some 0x01
  | some (b, o) =>
    if !knownAddr a then some 0x01
    else if !m.answers b then some 0x0C
    else if !m.permitted write b o a then some 0x0B
    else if b = .window ∧ m.hbmSize ≤ m.windowAddr a then some 0x0A
    else if write && b == .trk then some 0x05
    else if !write && (rdataAt b o).any (fun h => !m.hqConsumer h) then some 0x04
    else none

/-- A tenant may set only some bits of SEC_CTRL and CNT_CTRL (R425), and steps no command (Table 16-1). -/
def Mach.dataCause (m : Mach) (a : Nat) (v : Word) : Option Nat :=
  let steps := match blockOf a with
    | some (.cq, o) => decide (o < 0x10000) && ((o % 0x100 == 0 && v.bit 30) || (o % 0x100 == 0x2C && v.bit 0))
    | _ => false
  if m.rbit Reg.SEC_PRIV 4 && ((a == Reg.SEC_CTRL && v.field 2 2 != 0) || (a == Reg.CNT_CTRL && v.field 1 4 != 0) || steps) then some 0x0B
  else none

/-! ## Transactions (R375 to R382) -/

/-- A transaction as the pins carry it; `words` is how many words of its data phase were reached, and `hbm` what SEC-DED finds in
words of a window read (log entry 117). -/
structure Txn where
  op : Nat
  addr : Nat
  n : Nat
  crc : Bool
  compOk : Bool
  words : Nat
  hbm : List (Nat × EccResult) := []

namespace Txn

def opcode (t : Txn) : Nat := t.op * 32 + t.crc.toNat * 16 + t.n
def isWrite (t : Txn) : Bool := t.op == 3 || t.op == 4
def isRead (t : Txn) : Bool := t.op == 1 || t.op == 2
def fixed (t : Txn) : Bool := t.op == 2 || t.op == 4
/-- Address of word i. -/
def wordAddr (t : Txn) (i : Nat) : Nat := if t.fixed then t.addr else (t.addr + 4 * i) % 2 ^ 32
def addrBytes (t : Txn) : List Byte := (leBytes 4 t.addr).reverse

end Txn

/-- The op field of a transaction without a data phase. -/
def noDataBits : NoDataOp → Nat
  | .status => 5
  | .op0 => 0
  | .op6 => 6
  | .op7 => 7

/-- The opcode byte is invalid, its op, its length or the bits of a STATUS (R376), or comes without the CRC that HIF_CFG requires. -/
def Mach.opcodeBad (m : Mach) (t : Txn) : Bool :=
  !(t.isRead || t.isWrite || t.op == 5) || (t.op == 5 && (t.n != 0 || t.crc)) || decide (10 < t.n) || (t.isWrite && !t.crc && m.rbit Reg.HIF_CFG 0)

/-- The immediate error of a transaction, if it has one, in the order of the model's choice (log entry 45). -/
def Mach.immediate (m : Mach) (t : Txn) : Option Nat :=
  if m.opcodeBad t then some 0x09
  else if t.addr % 4 ≠ 0 then some 0x06
  else if t.op == 5 then none
  else match m.decodeCause t.isWrite t.addr with
    | some c => some c
    | none =>
      if t.isWrite && (blockOf t.addr).any (fun p => m.sluiceBusy p.1) then some 0x02 else none

/-- Read data may come late when HIF_LAT is below what the access times need at 200 MHz; a free word then says whether
the first word is late, and which later one (R378, log entry 46). -/
def Mach.lateness (m : Mach) (t : Txn) : Option Nat × Mach :=
  let window := (blockOf t.addr).any fun p => p.1 == .window
  let slow := if window then decide (m.fld Reg.HIF_LAT 16 10 < 300) else decide (m.fld Reg.HIF_LAT 0 8 < 22)
  if slow then
    let (w, m) := m.free
    (if w.bit 0 then some 0 else if w.bit 1 then some (1 + w.field 2 10) else none, m)
  else (none, m)

/-- The transaction is accepted: it is counted (R379). -/
def Mach.accept (m : Mach) : Mach := (m.incReg Reg.HIF_TXNS).onPort fun p => { p with tseq := p.tseq + 1 }

/-- The status byte (Table 15-3); forming it clears what PERR shows. -/
def Mach.statusByte (m : Mach) (t : Txn) (err : Bool) : Byte × Mach :=
  let busy := (blockOf t.addr).any fun p => m.sluiceBusy p.1
  let b := 128 * err.toNat + 64 * m.port.perr.toNat + 32 * busy.toNat + 16 * (m.evSum != 0).toNat + 8 * m.intN.toNat +
    4 * (m.rbit Reg.GCTL_STATUS 0).toNat + m.port.tseq.toNat
  (BitVec.ofNat 8 b, m.onPort fun p => { p with perr := false })

def Mach.answer (m : Mach) (a : Answer) : Mach := m.onPort fun p => { p with answer := a }

/-- The opcode's complement does not match: the module drives nothing (R375). -/
def Mach.frameError (m : Mach) : Mach := ((m.incReg Reg.HIF_FRAME_ERRS).raise Reg.HIF_EVENT 0x8).answer {}

/-- What a read has delivered so far: its bytes, whether a later word was refused or late, and whether the CRC is sent
inverted. -/
structure Delivered where
  bytes : List Byte := []
  stopped : Bool := false
  spoilt : Bool := false

/-- Word i of a transaction as its block gives it, and whether it stands. A window read meets what SEC-DED finds in HBM: a word that
is corrected, or one that cannot be, whose read is a deferred bus error (Table 15-4). The reactions of R353 do not apply to it. -/
def Mach.windowWord (m : Mach) (t : Txn) (i : Nat) : Option Word × Mach :=
  let a := t.wordAddr i
  let r := m.regRead a
  match (if (blockOf a).any fun p => p.1 == .window then (t.hbm.find? fun e => e.1 == i).map Prod.snd else none) with
  | some .corrected => (some r.1, r.2.corrected .hbm)
  | some .uncorrectable => (none, ((r.2.bump 419 1).memError (m.windowAddr a)).busError true a 0x0D t.opcode i)
  | _ => (some r.1, r.2)

/-- Word i of a read (R381): sampled at its own address, or refused or late, when it and the rest are sent as 0. -/
def readStep (t : Txn) (late : Option Nat) (d : Delivered × Mach) (i : Nat) : Delivered × Mach :=
  let (d, m) := d
  let a := t.wordAddr i
  let cause := if late = some i then some 0x07 else if i = 0 then none else m.decodeCause false a
  if d.stopped then ({ d with bytes := d.bytes ++ wordBytes 0 }, m)
  else match cause with
    | some c => ({ bytes := d.bytes ++ wordBytes 0, stopped := true, spoilt := c == 0x07 }, m.busError true a c t.opcode i)
    | none =>
      let r := m.windowWord t i
      ({ d with bytes := d.bytes ++ wordBytes (r.1.getD 0), stopped := r.1.isNone }, r.2)

/-- The data of a read, and its CRC over the address and the bytes sent. -/
def Mach.readData (m : Mach) (t : Txn) (late : Option Nat) : Delivered × Mach :=
  (List.range t.words).foldl (readStep t late) ({}, m)

def readCrc (t : Txn) (d : Delivered) : Option (BitVec 16) :=
  let c := crc16 (t.addrBytes ++ d.bytes)
  if t.crc && t.words == 2 ^ t.n then some (if d.spoilt then ~~~c else c) else none

/-- A read transaction with no error at decode. -/
def Mach.goodRead (m : Mach) (t : Txn) (late : Option Nat) : Mach :=
  let (st, m) := m.statusByte t false
  let (d, m) := m.readData t late
  m.answer { driven := true, status := st, data := d.bytes, crc := readCrc t d }

/-- A transaction that an immediate error discards: a read returns 0 in every data byte, when its length is defined. -/
def Mach.refusedTxn (m : Mach) (t : Txn) (cause : Nat) : Mach :=
  let m := m.busError false t.addr cause t.opcode 0
  let (st, m) := m.statusByte t true
  let zeros := List.replicate (4 * t.words) 0
  if t.isRead && decide (t.n ≤ 10) then
    m.answer { driven := true, status := st, data := zeros, crc := readCrc t { bytes := zeros } }
  else m.answer { driven := true, status := st }

/-- A READ or READ_FIXED transaction. -/
def Mach.readTxn (m : Mach) (t : Txn) : Mach :=
  if !t.compOk then m.frameError
  else
    let m := m.accept
    match m.immediate t with
    | some c => m.refusedTxn t c
    | none =>
      let (late, m) := m.lateness t
      if late = some 0 then m.refusedTxn t 0x07 else m.goodRead t late

/-- A STATUS transaction. -/
def Mach.statusTxn (m : Mach) (t : Txn) : Mach :=
  if !t.compOk then m.frameError
  else
    let m := m.accept
    match m.immediate t with
    | some c => m.refusedTxn t c
    | none => let (st, m) := m.statusByte t false; m.answer { driven := true, status := st }

/-- The words of a burst with their indices and addresses, up to the first refused by its address or by what a tenant may
write; and that one. No block that takes writes ends in a register, so a burst reaches one block. -/
def Mach.takeWords (m : Mach) (t : Txn) : Nat → List Word → List (Nat × Nat × Word) × Option (Nat × Nat × Nat)
  | _, [] => ([], none)
  | i, v :: rest =>
    let a := t.wordAddr i
    match (m.decodeCause true a).or (m.dataCause a v) with
    | some c => ([], some (i, a, c))
    | none => let r := m.takeWords t (i + 1) rest; ((i, a, v) :: r.1, r.2)

/-- The words of a write go to their block: at once to GCTL and HIF, into the sluice of another (R383). -/
def Mach.postWords (m : Mach) (t : Txn) (l : List (Nat × Nat × Word)) : Mach :=
  match blockOf t.addr with
  | none => m
  | some (b, _) =>
    let p : Posted := { block := b, opcode := BitVec.ofNat 8 t.opcode, whole := t.crc, words := l, winBase := m.fld Reg.HIF_WIN_BASE 0 10 }
    if l.isEmpty then m
    else if b = .gctl ∨ b = .hif then m.land p
    else m.onPort fun x => { x with posted := x.posted ++ [p] }

/-- The data phase of a write with no error at decode. A burst with CRC is taken whole or not at all. -/
def Mach.writeData (m : Mach) (t : Txn) (data : List Word) : Mach :=
  let r := m.takeWords t 0 data
  match r.2 with
  | some (i, a, c) => (if t.crc then m else m.postWords t r.1).busError true a c t.opcode i
  | none => m.postWords t r.1

/-- A write CRC that does not match: nothing is written (R380). -/
def Mach.crcError (m : Mach) (t : Txn) : Mach :=
  (m.busError true t.addr 0x08 t.opcode 0).incReg Reg.HIF_CRC_ERRS

/-- A WRITE or WRITE_FIXED transaction, with the CRC that the host sent. -/
def Mach.writeTxn (m : Mach) (t : Txn) (data : List Word) (crc : Option (BitVec 16)) : Mach :=
  if !t.compOk then m.frameError
  else
    let m := m.accept
    match m.immediate t with
    | some c => m.refusedTxn t c
    | none =>
      let (st, m) := m.statusByte t false
      let m := m.answer { driven := true, status := st }
      if crc.any fun c => c != crc16 (t.addrBytes ++ data.flatMap wordBytes) then m.crcError t else m.writeData t data

/-! ## The commands -/

/-- Words of a data phase. -/
def phaseWords (n : Nat) : Nat := if n ≤ 10 then 2 ^ n else 0

/-- A data phase of the length that the opcode gives. -/
def phaseData (n : Nat) (data : List Word) : List Word := (data ++ List.replicate (phaseWords n) 0).take (phaseWords n)

def execXspiRead (a : Word) (n : Fin 16) (crc : Bool) (r : ReadPhase) (s : State) :
    Host.Outcome State Fault Refusal :=
  act s fun m => m.readTxn { op := 1, addr := a.toNat, n := n, crc := crc, compOk := r.compOk, words := phaseWords n, hbm := r.hbm }

def execXspiReadFixed (a : Word) (n : Fin 16) (crc : Bool) (r : ReadPhase) (s : State) :
    Host.Outcome State Fault Refusal :=
  act s fun m => m.readTxn { op := 2, addr := a.toNat, n := n, crc := crc, compOk := r.compOk, words := phaseWords n, hbm := r.hbm }

def execXspiWrite (a : Word) (n : Fin 16) (data : List Word) (crc : Option (BitVec 16)) (compOk : Bool) (s : State) :
    Host.Outcome State Fault Refusal :=
  act s fun m =>
    m.writeTxn { op := 3, addr := a.toNat, n := n, crc := crc.isSome, compOk := compOk, words := phaseWords n } (phaseData n data) crc

def execXspiWriteFixed (a : Word) (n : Fin 16) (data : List Word) (crc : Option (BitVec 16)) (compOk : Bool) (s : State) :
    Host.Outcome State Fault Refusal :=
  act s fun m =>
    m.writeTxn { op := 4, addr := a.toNat, n := n, crc := crc.isSome, compOk := compOk, words := phaseWords n } (phaseData n data) crc

def execXspiStatus (op : NoDataOp) (a : Word) (n : Fin 16) (crc compOk : Bool) (s : State) : Host.Outcome State Fault Refusal :=
  act s fun m => m.statusTxn { op := noDataBits op, addr := a.toNat, n := n, crc := crc, compOk := compOk, words := 0 }

/-- The least length code whose data phase holds some words. -/
def codeFor (words : Nat) : Nat := ((List.range 11).find? fun n => decide (words ≤ 2 ^ n)).getD 10

/-- CS# rises early (R375): what had been delivered stays taken, and a write without CRC keeps its whole words. -/
def Mach.abandon (m : Mach) : Abandoned → Mach
  | .early compOk => if compOk then m.accept.answer {} else m.frameError
  | .read a fixed crc words hbm =>
    m.readTxn { op := if fixed then 2 else 1, addr := a.toNat, n := codeFor (words + 1), crc := crc, compOk := true, words := words, hbm := hbm }
  | .write a fixed crc words =>
    let n := codeFor (words.length + 1)
    let t : Txn := { op := if fixed then 4 else 3, addr := a.toNat, n := n, crc := crc, compOk := true, words := words.length }
    m.writeTxn t (if crc then [] else words) none

def execTransactionAbandon (t : Abandoned) (s : State) : Host.Outcome State Fault Refusal := act s fun m => m.abandon t

/-- A write of a register as it reaches its block; a reserved address, TRK and the end of HBM are refused at once. -/
def Mach.registerWrite (m : Mach) (a : Nat) (v : Word) : Mach :=
  match blockOf a with
  | none => m.busError false a 0x01 0x60 0
  | some (b, _) =>
    if !knownAddr a then m.busError false a 0x01 0x60 0
    else if b = .trk then m.busError false a 0x05 0x60 0
    else if b = .window ∧ m.hbmSize ≤ m.windowAddr a then m.busError false a 0x0A 0x60 0
    else if m.sluiceBusy b then m.busError false a 0x02 0x60 0
    else m.land { block := b, opcode := 0x60, whole := false, words := [(0, a, v)], winBase := m.fld Reg.HIF_WIN_BASE 0 10 }

def execRegisterWrite (a v : Word) (s : State) : Host.Outcome State Fault Refusal := act s fun m => m.registerWrite a.toNat v

/-- The register at an address is an event register. -/
def isEventReg (a : Nat) : Bool :=
  match rowAt a with
  | some (r, _) => r.acc == .sqc
  | none => false

def execEventWriteBack (a v : Word) (s : State) : Host.Outcome State Fault Refusal :=
  act s fun m => if isEventReg a.toNat then m.arriveWith a.toNat v (false, m.writeBack a.toNat v) else m

def execErrCaptureClear (s : State) : Host.Outcome State Fault Refusal := act s Mach.clearError

end Sys2Proof.Machine
end

