-- ==== Sys2Proof/Machine/Move.lean ====
section
/-! DEFINITION. MOVE, SYNC and META commands (R301 to R304). -/

namespace Sys2Proof.Machine

/-! ## MOVE -/

/-- Row i of a row-pitched operand in a space of a core. -/
def rowAddr (core space addr pitch i : Nat) : Nat := spaceBase core space + addr + i * pitch

/-- The bytes of the rows at the source. -/
def Mach.gatherRows (m : Mach) (core : Nat) (b : List Byte) : List (List Byte) :=
  (List.range (u16 b 0x14)).map fun i =>
    m.bytes (rowAddr core (u8 b 0x11 % 16) (u64 b 0x20) (u32 b 0x30) i) (u32 b 0x18)

/-- Rows written at the destination. -/
def Mach.scatterRows (m : Mach) (core : Nat) (b : List Byte) (rows : List (List Byte)) : Mach :=
  rows.zipIdx.foldl (fun m r => m.setBytes (rowAddr core (u8 b 0x11 / 16) (u64 b 0x28) (u32 b 0x34) r.2) r.1) m

/-- Bytes moved, for the counters of Table 16-3. -/
def Mach.countMove (m : Mach) (core : Nat) (b : List Byte) (n : Nat) : Mach :=
  m.count core 38 (u8 b 2 % 16) (u16 b 4) (u16 b 6) n

/-- COPY: rows from src to dst (R301). -/
def moveCopyBody (m : Mach) (q : Nat) (b : List Byte) : Except CmdErr Mach := do
  firstErr (m.moveErrs q b)
  let core := m.queueCore q
  .ok ((m.scatterRows core b (m.gatherRows core b)).countMove core b (moveLen b))

/-- n copies of a fill word. -/
def fillRow (w : List Byte) (n : Nat) : List Byte := (List.replicate n w).flatten

/-- FILL: the fill word in every word of the destination rows (R301). -/
def moveFillBody (m : Mach) (q : Nat) (b : List Byte) : Except CmdErr Mach := do
  firstErr (m.moveErrs q b)
  let core := m.queueCore q
  let row := fillRow (leBytes 4 (u32 b 0x1C)) (u32 b 0x18 / 4)
  .ok ((m.scatterRows core b (List.replicate (u16 b 0x14) row)).countMove core b (moveLen b))

/-- STAGE_GET: the next whole record copied to dst; MARK at its start (R109, R301). -/
def stageGetBody (m : Mach) (q : Nat) (b : List Byte) : Except CmdErr Mach :=
  let core := m.queueCore q
  let n := u8 b 0x12
  match m.stageCfgOf n, (m.stage n).nextRecord with
  | some c, some len =>
    if moveLen b < len then .error (0x18, 0x09)
    else
      let x := (m.stage n).doMark
      let data := m.bytes (x.readAt c.geom) len
      let m := m.setStage n { x with rd := x.rd + len }
      .ok ((m.setBytes (spaceBase core (u8 b 0x11 / 16) + u64 b 0x28) data).countMove core b len)
  | _, _ => .error (0x12, 0x07)

/-- COPY. -/
def execMoveCopy (q : Fin 256) (s : State) : Host.Outcome State Fault Refusal :=
  act s fun m => m.startWith q 3 1 moveCopyBody

/-- FILL. -/
def execMoveFill (q : Fin 256) (s : State) : Host.Outcome State Fault Refusal :=
  act s fun m => m.startWith q 3 2 moveFillBody

/-- STAGE_PUT: its record is read at its start and enters the stage queue when it completes; the room it needs
is taken from its start on (R301, log entry 15). -/
def Mach.stagePutStart (m : Mach) (q : Nat) : Mach :=
  let b := m.headBytes q
  if m.mayStart q && isStagePut b then
    match m.headErr q b with
    | .error e => m.cmdError q e
    | .ok _ =>
      if m.goes q then
        let core := m.queueCore q
        let data := (m.gatherRows core b).flatten
        ((m.countMove core b data.length).take q b data).checkHead q
      else if m.waitReason q = 5 then
        m.setStage (u8 b 0x12) { m.stage (u8 b 0x12) with waiting := true }
      else m
  else m

def execStagePut (q : Fin 256) (s : State) : Host.Outcome State Fault Refusal :=
  act s fun m => m.stagePutStart q

/-! ## SYNC: each completes in the clock in which it starts (R303) -/

/-- The head of queue q, a SYNC of this operation, starts, takes effect and completes. -/
def Mach.syncWith (m : Mach) (q op : Nat) (f : Mach → Nat → List Byte → Mach) : Mach :=
  let b := m.headBytes q
  if m.mayStart q && cmdClass b == 6 && cmdOp b == op then
    match m.headErr q b with
    | .error e => m.cmdError q e
    | .ok _ =>
      if m.goes q then
        let m := (f m (m.queueCore q / 4) b).take q b []
        match (m.cmdq q).started.getLast? with
        | some c => m.complete q c
        | none => m
      else m
  else m

/-- WAIT: nothing of its own. -/
def execSyncWait (q : Fin 256) (s : State) : Host.Outcome State Fault Refusal :=
  act s fun m => m.syncWith q 1 fun m _ _ => m

/-- SEM_ADD: value added to a semaphore of the cluster. -/
def execSemAdd (q : Fin 256) (s : State) : Host.Outcome State Fault Refusal :=
  act s fun m => m.syncWith q 2 fun m k b =>
    m.setSem k (u8 b 0x11) (m.sem k (u8 b 0x11) + BitVec.ofNat 16 (u16 b 0x12))

/-- SEM_SET: the semaphore set to value. -/
def execSemSet (q : Fin 256) (s : State) : Host.Outcome State Fault Refusal :=
  act s fun m => m.syncWith q 3 fun m k b => m.setSem k (u8 b 0x11) (BitVec.ofNat 16 (u16 b 0x12))

/-- SIGNAL_WAIT: startable once the completion signal has come to value (R292). -/
def execSignalWait (q : Fin 256) (s : State) : Host.Outcome State Fault Refusal :=
  act s fun m => m.syncWith q 4 fun m _ _ => m

/-- SIGNAL_ADD: value added to a completion signal. -/
def execSignalAdd (q : Fin 256) (s : State) : Host.Outcome State Fault Refusal :=
  act s fun m => m.syncWith q 5 fun m _ b => m.addCsig (u8 b 0x11) (BitVec.ofNat 16 (u16 b 0x12))

/-! ## META (R304) -/

/-- NOP. -/
def execMetaNop (q : Fin 256) (s : State) : Host.Outcome State Fault Refusal :=
  act s fun m => m.startWith q 7 1 fun m _ _ => .ok m

/-- UNIT: the start of a re-execution unit; the statistics of the unit before it are written (R410). A weight patch may
hold it at the head of its queue (R336). -/
def metaUnitBody (m : Mach) (q : Nat) (b : List Byte) : Except CmdErr Mach :=
  let u : UnitMark := { num := m.headNum q, group := u8 b 0x11, k := w32 b 0x14 }
  let m := { m with fpl := { m.fpl with unitQueues := (u.group, q) :: m.fpl.unitQueues.filter fun x => x != (u.group, q) } }
  .ok ((m.watchUnit q).onCmdq q fun x => { x with units := u :: x.units.filter fun v => v.num != u.num })

def execMetaUnit (q : Fin 256) (s : State) : Host.Outcome State Fault Refusal :=
  act s fun m => if m.patchHolds (m.headBytes q) then m else m.startWith q 7 2 metaUnitBody

/-- MARKER: a marker record while trace is enabled (R407, Table 16-5). -/
def metaMarkerBody (m : Mach) (q : Nat) (b : List Byte) : Except CmdErr Mach :=
  if m.traceOn then
    .ok (m.trace (0x80 + m.queueCore q) 0x12 0
      (leBytes 1 q ++ leBytes 3 0 ++ leBytes 4 (m.headNum q).toNat ++ leBytes 4 (u32 b 0x14)))
  else .ok m

def execMetaMarker (q : Fin 256) (s : State) : Host.Outcome State Fault Refusal :=
  act s fun m => m.startWith q 7 3 metaMarkerBody

/-- STAMP: the short time of its start, at addr. -/
def metaStampBody (m : Mach) (q : Nat) (b : List Byte) : Except CmdErr Mach :=
  .ok (m.setWord (spaceBase (m.queueCore q) (u8 b 0x11) + u64 b 0x18) m.now)

def execMetaStamp (q : Fin 256) (s : State) : Host.Outcome State Fault Refusal :=
  act s fun m => m.startWith q 7 4 metaStampBody

/-- STAGE_GET. Its release, and what that may end, come with its completion. -/
def execStageGet (q : Fin 256) (s : State) : Host.Outcome State Fault Refusal :=
  act s fun m => m.startWith q 3 4 stageGetBody

end Sys2Proof.Machine
end

