-- ==== Sys2Proof/Machine/RecoveryEnd.lean ====
section
/-! DEFINITION. The end of a recovery (R355 to R358): reloads, the test jet of a core under recovery, the restart of its queues, and
the end of hold 0. -/

namespace Sys2Proof.Machine

/-- The word of register a in the configuration copy as it lies in HBM: where the image names the register, its last word there;
Show Home's copy is a register image of its own. The words of other registers have no place in an image (log entry 108). -/
def Mach.copyReg (m : Mach) (a : Nat) : Word :=
  let kept := sget regReset m.fpl.copy a
  match m.fpl.copyAt, parseImage m.fpl.image with
  | some base, .ok im => ((im.writes.reverse.find? fun w => w.addr == a).map fun w => m.word (base + w.field)).getD kept
  | some base, .error _ => ((m.fpl.copy.findIdx? fun p => p.1 == a).map fun i => m.word (base + 12 * i + 8)).getD kept
  | none, _ => kept

/-- Calibration entry s in the configuration copy as it lies in HBM. -/
def Mach.copyEntry (m : Mach) (s : Nat) : List Byte :=
  let kept := (List.range 64).flatMap fun j => wordBytes (m.copyReg (Reg.CAL_ACTIVE s j))
  match m.fpl.copyAt, parseImage m.fpl.image with
  | some base, .ok im => (((records 260 (im.dataOf 7)).findIdx? fun r => u32 r 0 % 256 == s).map fun i =>
      m.bytes (base + im.offOf 7 + 260 * i + 4) 256).getD kept
  | _, _ => kept

/-- R358 step 3: the failing segment's words, or the failing active calibration entry, are rewritten from the configuration copy. -/
def Mach.reloadConfig (m : Mach) (d : Detection) : Mach :=
  if d.cause = 0x0D then
    let e := m.copyEntry (d.number % 256)
    (List.range 64).foldl (fun m j => m.setReg (Reg.CAL_ACTIVE (d.number % 256) j) (w32 e (4 * j))) m
  else (segRegs d.number).foldl (fun m p => m.setReg p.1 ((m.reg p.1 &&& ~~~p.2) ||| (m.copyReg p.1 &&& p.2))) m

/-- R358 step 4: the segment read back has the CRC taken at the commit, the entry its own. -/
def Mach.reloadVerifies (m : Mach) (d : Detection) : Bool :=
  !d.reloadFails &&
    (if d.cause = 0x0D then
      let e := m.calEntry false (d.number % 256)
      crc32c (e.take 252) == w32 e 252
    else !m.rbit Reg.CCHK_STATUS 1 || decide (18 < d.number) ||
      crcOut (crcRun 0xFFFFFFFF#32 (m.segBytes d.number)) == sget (fun _ => 0) m.safety.segCrc d.number)

/-- What the recovery of a unit does before its queues restart (Table 14-4 step 4, R358). -/
def Mach.restoreUnit (m : Mach) (r : Recovery) : Mach :=
  let d := r.det
  match d.unit with
  | .core =>
    let c := d.number % 32
    if r.permanent then m
    else
      let m := if d.cause = 0x07 ∨ d.cause = 0x09 then m.reloadLayers fun w => w.space == 2 && w.unit == c else m
      if d.cause = 0x07 ∨ d.cause = 0x09 then m.reloadProg c
      else if d.cause = 0x0A then m.ccRestart c
      else m
  | .cluster =>
    let k := d.number % 8
    let m := if d.cause = 0x07 ∨ d.cause = 0x09 then m.reloadLayers fun w => (w.space == 1 && w.unit == k) || (w.space == 2 && w.unit / 4 == k) else m
    m.reloadProg (32 + k)
  | .config => m.reloadConfig d
  | _ => m

/-- The cores whose queues a recovery holds. -/
def Recovery.holds (r : Recovery) (m : Mach) (q : Nat) : Bool :=
  match r.det.unit with
  | .core =>
    let c := r.det.number % 32
    r.permanent || m.queueCore q == c || (m.selfTestOf c).rings.any fun x => x.1 == q
  | .cluster => m.queueCore q / 4 == r.det.number % 8
  | _ => false

/-- The contexts of core c that a fault stopped are freed (R253, R256). -/
def Mach.freeHeld (m : Mach) (c : Nat) : Mach :=
  m.onContexts (fun n x => x.state == .faultHold && (if n < 4096 then n / 128 else (n - 4096) / 4) == c) VContext.freed

/-- The contexts that a fault of a core or a cluster stopped are free. -/
def Mach.freeStopped (m : Mach) (r : Recovery) : Mach :=
  match r.det.unit with
  | .core => m.freeHeld (r.det.number % 32)
  | .cluster => (List.range 4).foldl (fun m j => m.freeHeld (4 * (r.det.number % 8) + j)) m
  | _ => m

/-- The test jet of a core's recovery has failed: the detection is permanent, counted as such beside its count as transient (log entry
169), and R356 takes over at its step 2. -/
def Mach.jetFailed (m : Mach) (c i : Nat) : Mach :=
  m.oneClock Reg.SAFE_EVENT fun m =>
    ((((m.bump 430 1).incReg Reg.SAFE_PERMANENT).bump 426 1).raise Reg.SAFE_EVENT 0x88).corePermanent c i

/-- Table 14-4 step 5: a core whose fault is transient so far runs its test jet: its golden commands, whose digests are compared, with
the failures that only the hardware shows given by the detection. The answer tells whether the fault is now permanent. -/
def Mach.jetInRecovery (m : Mach) (r : Recovery) : Bool × Mach :=
  let c := r.det.number % 32
  if r.det.unit != .core || r.permanent then (r.permanent, m)
  else
    let ran := match m.golden c with
      | some g => m.runJet c g
      | none => (.passed, m)
    if ran.1 = .passed ∧ r.det.jetFails = false then (false, ran.2) else (true, ran.2.jetFailed c r.logIndex)

/-- R358 step 5: a configuration reloaded verifies, or the fault is fatal. -/
def Mach.verifyReload (m : Mach) (r : Recovery) : Mach :=
  if r.det.unit = .config ∧ !m.reloadVerifies r.det then m.oneClock Reg.SAFE_EVENT fun m => (m.logReaction r.logIndex 6).fatal
  else m.raise Reg.SAFE_EVENT 0x4

/-- A recovery comes to its end: reloads, the test jet, restarts, the log entry's duration; hold 0 ends with the last one. -/
def Mach.recoverEnd (m : Mach) (r : Recovery) : Mach :=
  let m := m.onSafety fun x => { x with recoveries := x.recoveries.erase r }
  let jet := (m.restoreUnit r).jetInRecovery r
  let r := { r with permanent := jet.1 }
  let m := jet.2.freeStopped r
  let m := if m.coreRecovery || m.safety.configWaiting.isEmpty then m
    else (m.onSafety fun x => { x with configWaiting := [] }).discardAll
  let free := (List.range 256).filter fun q => (m.cmdq q).rehoming && r.holds m q && !m.safety.recoveries.any fun o => o.holds m q
  let m := free.foldl Mach.goOn m
  let m := m.setReg (Reg.SAFE_LOG3 r.logIndex) (BitVec.ofNat 32 (min (m.time.count - r.at_).toNat (2 ^ 32 - 1)))
  let m := m.verifyReload r
  if m.safety.recoveries.isEmpty then m.endHold 0 else m

/-- A recovery has come to its end: its length has passed, and that of a configuration fault that waited for a core recovery comes
after it (R370). -/
def Mach.recovered (m : Mach) (r : Recovery) : Bool :=
  decide (Config.recoveryNs r.key ≤ (m.time.count - r.at_).toNat) && (r.det.unit != .config || !m.coreRecovery)

/-- Recoveries that have come to their end by now; none proceeds while a Still snapshot holds the islands (R416). -/
def Mach.recoverDue (m : Mach) : Mach :=
  if m.still then m
  else (m.safety.recoveries.filter m.recovered).foldl (fun m r => m.recoverEnd r) m

end Sys2Proof.Machine
end

