-- ==== Sys2Proof/Machine/Tick.lean ====
section
/-! DEFINITION. The tick of the 1 GHz clock (R45), with what the model lets happen in it by itself: posted writes take
effect, recoveries come to their end, what waited for a hold to end goes on, and SYNC records fall due (log entry 48). -/

namespace Sys2Proof.Machine

/-- A tick: the count advances, the nanoseconds without OUT_VALID are counted, and what is due happens. -/
def Mach.tick (m : Mach) : Mach :=
  let m := (m.onTime TimeLine.tick).countClocks
  let m := if m.safety.outValid then m else m.bump 428 1
  m.recoverDue.landPosted.stillDue.wantedDue.syncDue

def execNsCountTick (s : State) : Host.Outcome State Fault Refusal := act s Mach.tick

end Sys2Proof.Machine
end

