-- ==== Sys2Proof/Machine/Dispatch.lean ====
section
/-! DEFINITION. exec: what each command does to everything but the queue of waiting commands, one
arm for each constructor of Instr. -/

namespace Sys2Proof.Machine

/-- The effect of a command (the host reads this match arm by arm). -/
def exec (i : Instr) (s : State) : Host.Outcome State Fault Refusal :=
  match i with
  | .nsCountTick => Sys2Proof.Machine.execNsCountTick s
  | .stretchRequest isl src period => Sys2Proof.Machine.execStretchRequest isl src period s
  | .stretchWithdraw isl src => Sys2Proof.Machine.execStretchWithdraw isl src s
  | .islandStop isl why => Sys2Proof.Machine.execIslandStop isl why s
  | .islandRestart isl => Sys2Proof.Machine.execIslandRestart isl s
  | .sluiceTransfer a b ch bundle parity seqBit => Sys2Proof.Machine.execSluiceTransfer a b ch bundle parity seqBit s
  | .timeCapture => Sys2Proof.Machine.execTimeCapture s
  | .stepArm => Sys2Proof.Machine.execStepArm s
  | .stepApplied => Sys2Proof.Machine.execStepApplied s
  | .timeEpochReset => Sys2Proof.Machine.execTimeEpochReset s
  | .timeSourceSelect src => Sys2Proof.Machine.execTimeSourceSelect src s
  | .rateCorrectionWrite hi => Sys2Proof.Machine.execRateCorrectionWrite hi s
  | .timeOffsetReport off => Sys2Proof.Machine.execTimeOffsetReport off s
  | .servoUpdate rate off => Sys2Proof.Machine.execServoUpdate rate off s
  | .ptpMessageRx m msg => Sys2Proof.Machine.execPtpMessageRx m msg s
  | .ptpMessageTx m msg => Sys2Proof.Machine.execPtpMessageTx m msg s
  | .ppsOutRise => Sys2Proof.Machine.execPpsOutRise s
  | .ppsOutFall => Sys2Proof.Machine.execPpsOutFall s
  | .ppsInEdge rising => Sys2Proof.Machine.execPpsInEdge rising s
  | .ppsInReferenceLoss => Sys2Proof.Machine.execPpsInReferenceLoss s
  | .referenceLost => Sys2Proof.Machine.execReferenceLost s
  | .referenceReturn => Sys2Proof.Machine.execReferenceReturn s
  | .frameStart n vc p => Sys2Proof.Machine.execFrameStart n vc p s
  | .csiLongPacket n vc dt line ecc crcOk => Sys2Proof.Machine.execCsiLongPacket n vc dt line ecc crcOk s
  | .frameEnd n vc p => Sys2Proof.Machine.execFrameEnd n vc p s
  | .frameTimeout n vc dt => Sys2Proof.Machine.execFrameTimeout n vc dt s
  | .i3cDataWrite n v => Sys2Proof.Machine.execI3cDataWrite n v s
  | .i3cDataRead n => Sys2Proof.Machine.execI3cDataRead n s
  | .i3cCmdQueue n v => Sys2Proof.Machine.execI3cCmdQueue n v s
  | .i3cTransferStart n => Sys2Proof.Machine.execI3cTransferStart n s
  | .i3cTransferDone n data nack => Sys2Proof.Machine.execI3cTransferDone n data nack s
  | .i3cIbi n => Sys2Proof.Machine.execI3cIbi n s
  | .fsyncFire n => Sys2Proof.Machine.execFsyncFire n s
  | .fsyncPulseEnd n => Sys2Proof.Machine.execFsyncPulseEnd n s
  | .fsyncNextWrite n v => Sys2Proof.Machine.execFsyncNextWrite n v s
  | .fsyncCfgWrite n period v => Sys2Proof.Machine.execFsyncCfgWrite n period v s
  | .datagramRx m d => Sys2Proof.Machine.execDatagramRx m d s
  | .mapBlockEnd st => Sys2Proof.Machine.execMapBlockEnd st s
  | .pauseRx m quanta => Sys2Proof.Machine.execPauseRx m quanta s
  | .macLinkChange m up rate => Sys2Proof.Machine.execMacLinkChange m up rate s
  | .netRequestRx m r => Sys2Proof.Machine.execNetRequestRx m r s
  | .neighbourRefresh m ip answer => Sys2Proof.Machine.execNeighbourRefresh m ip answer s
  | .drdyEdge isl rising => Sys2Proof.Machine.execDrdyEdge isl rising s
  | .spiReadDone isl data => Sys2Proof.Machine.execSpiReadDone isl data s
  | .canFrameRx j f => Sys2Proof.Machine.execCanFrameRx j f s
  | .canErrorFrame j tec rec => Sys2Proof.Machine.execCanErrorFrame j tec rec s
  | .canBusoffRecovery j => Sys2Proof.Machine.execCanBusoffRecovery j s
  | .encoderEdge e a b z => Sys2Proof.Machine.execEncoderEdge e a b z s
  | .encoderSample e => Sys2Proof.Machine.execEncoderSample e s
  | .gpioEdge pin level => Sys2Proof.Machine.execGpioEdge pin level s
  | .gpioTarm v => Sys2Proof.Machine.execGpioTarm v s
  | .gpioTimedOutput => Sys2Proof.Machine.execGpioTimedOutput s
  | .spillwayWrite st => Sys2Proof.Machine.execSpillwayWrite st s
  | .streamEnable st => Sys2Proof.Machine.execStreamEnable st s
  | .streamDisable st => Sys2Proof.Machine.execStreamDisable st s
  | .portEnableChange p on => Sys2Proof.Machine.execPortEnableChange p on s
  | .basinSwap q => Sys2Proof.Machine.execBasinSwap q s
  | .qRead q => Sys2Proof.Machine.execQRead q s
  | .qWdataWrite q v => Sys2Proof.Machine.execQWdataWrite q v s
  | .mark q => Sys2Proof.Machine.execMark q s
  | .release q => Sys2Proof.Machine.execRelease q s
  | .rewind q => Sys2Proof.Machine.execRewind q s
  | .flush q => Sys2Proof.Machine.execFlush q s
  | .clearUnderrun q => Sys2Proof.Machine.execClearUnderrun q s
  | .injectionForward => Sys2Proof.Machine.execInjectionForward s
  | .groupEnable g => Sys2Proof.Machine.execGroupEnable g s
  | .groupDisable g => Sys2Proof.Machine.execGroupDisable g s
  | .hostTrigger g t => Sys2Proof.Machine.execHostTrigger g t s
  | .instantDue g => Sys2Proof.Machine.execInstantDue g s
  | .waitLimitExpiry g => Sys2Proof.Machine.execWaitLimitExpiry g s
  | .instantRelease g => Sys2Proof.Machine.execInstantRelease g s
  | .calSwapRequest => Sys2Proof.Machine.execCalSwapRequest s
  | .poseCapture => Sys2Proof.Machine.execPoseCapture s
  | .poseTick => Sys2Proof.Machine.execPoseTick s
  | .pointBegin q => Sys2Proof.Machine.execPointBegin q s
  | .pointAppend q => Sys2Proof.Machine.execPointAppend q s
  | .voxelise q => Sys2Proof.Machine.execVoxelise q s
  | .coarsen q => Sys2Proof.Machine.execCoarsen q s
  | .pointAge q => Sys2Proof.Machine.execPointAge q s
  | .pointPurge q => Sys2Proof.Machine.execPointPurge q s
  | .pointList q => Sys2Proof.Machine.execPointList q s
  | .pointNeigh q => Sys2Proof.Machine.execPointNeigh q s
  | .pointProbe q => Sys2Proof.Machine.execPointProbe q s
  | .pointRules q => Sys2Proof.Machine.execPointRules q s
  | .pointGather q => Sys2Proof.Machine.execPointGather q s
  | .pointScatter q => Sys2Proof.Machine.execPointScatter q s
  | .matmul q => Sys2Proof.Machine.execMatmul q s
  | .thin q => Sys2Proof.Machine.execThin q s
  | .outflow q => Sys2Proof.Machine.execOutflow q s
  | .vectorChain q => Sys2Proof.Machine.execVectorChain q s
  | .vectorGather q => Sys2Proof.Machine.execVectorGather q s
  | .scatterAdd q => Sys2Proof.Machine.execScatterAdd q s
  | .vectorProbe q => Sys2Proof.Machine.execVectorProbe q s
  | .xform q => Sys2Proof.Machine.execXform q s
  | .vectorSort q => Sys2Proof.Machine.execVectorSort q s
  | .vectorScan q => Sys2Proof.Machine.execVectorScan q s
  | .vectorReduce q => Sys2Proof.Machine.execVectorReduce q s
  | .moveCopy q => Sys2Proof.Machine.execMoveCopy q s
  | .moveFill q => Sys2Proof.Machine.execMoveFill q s
  | .stagePut q => Sys2Proof.Machine.execStagePut q s
  | .stageGet q => Sys2Proof.Machine.execStageGet q s
  | .syncWait q => Sys2Proof.Machine.execSyncWait q s
  | .semAdd q => Sys2Proof.Machine.execSemAdd q s
  | .semSet q => Sys2Proof.Machine.execSemSet q s
  | .signalWait q => Sys2Proof.Machine.execSignalWait q s
  | .signalAdd q => Sys2Proof.Machine.execSignalAdd q s
  | .metaNop q => Sys2Proof.Machine.execMetaNop q s
  | .metaUnit q => Sys2Proof.Machine.execMetaUnit q s
  | .metaMarker q => Sys2Proof.Machine.execMetaMarker q s
  | .metaStamp q => Sys2Proof.Machine.execMetaStamp q s
  | .gridBegin q => Sys2Proof.Machine.execGridBegin q s
  | .gridEvidence q => Sys2Proof.Machine.execGridEvidence q s
  | .gridClose q => Sys2Proof.Machine.execGridClose q s
  | .trackAssoc q => Sys2Proof.Machine.execTrackAssoc q s
  | .trackLife q => Sys2Proof.Machine.execTrackLife q s
  | .emit q => Sys2Proof.Machine.execEmit q s
  | .emitResume g => Sys2Proof.Machine.execEmitResume g s
  | .deadlineSkip g => Sys2Proof.Machine.execDeadlineSkip g s
  | .messageDatagramRx m d => Sys2Proof.Machine.execMessageDatagramRx m d s
  | .reassemblyTimeout m => Sys2Proof.Machine.execReassemblyTimeout m s
  | .hostDoorbell q tail => Sys2Proof.Machine.execHostDoorbell q tail s
  | .commandComplete q n => Sys2Proof.Machine.execCommandComplete q n s
  | .queueEnable q => Sys2Proof.Machine.execQueueEnable q s
  | .queueDisable q => Sys2Proof.Machine.execQueueDisable q s
  | .queueReset q => Sys2Proof.Machine.execQueueReset q s
  | .queueSkip q => Sys2Proof.Machine.execQueueSkip q s
  | .queueResume q => Sys2Proof.Machine.execQueueResume q s
  | .queueStep q => Sys2Proof.Machine.execQueueStep q s
  | .csigRaise v => Sys2Proof.Machine.execCsigRaise v s
  | .ccAdd c rd ra rb => Sys2Proof.Machine.execCcAdd c rd ra rb s
  | .ccSub c rd ra rb => Sys2Proof.Machine.execCcSub c rd ra rb s
  | .ccAnd c rd ra rb => Sys2Proof.Machine.execCcAnd c rd ra rb s
  | .ccOr c rd ra rb => Sys2Proof.Machine.execCcOr c rd ra rb s
  | .ccXor c rd ra rb => Sys2Proof.Machine.execCcXor c rd ra rb s
  | .ccSll c rd ra rb => Sys2Proof.Machine.execCcSll c rd ra rb s
  | .ccSrl c rd ra rb => Sys2Proof.Machine.execCcSrl c rd ra rb s
  | .ccSra c rd ra rb => Sys2Proof.Machine.execCcSra c rd ra rb s
  | .ccSlt c rd ra rb => Sys2Proof.Machine.execCcSlt c rd ra rb s
  | .ccSltu c rd ra rb => Sys2Proof.Machine.execCcSltu c rd ra rb s
  | .ccMul c rd ra rb => Sys2Proof.Machine.execCcMul c rd ra rb s
  | .ccMulhu c rd ra rb => Sys2Proof.Machine.execCcMulhu c rd ra rb s
  | .ccMin c rd ra rb => Sys2Proof.Machine.execCcMin c rd ra rb s
  | .ccMax c rd ra rb => Sys2Proof.Machine.execCcMax c rd ra rb s
  | .ccMinu c rd ra rb => Sys2Proof.Machine.execCcMinu c rd ra rb s
  | .ccMaxu c rd ra rb => Sys2Proof.Machine.execCcMaxu c rd ra rb s
  | .ccAddi c rd ra imm => Sys2Proof.Machine.execCcAddi c rd ra imm s
  | .ccAndi c rd ra imm => Sys2Proof.Machine.execCcAndi c rd ra imm s
  | .ccOri c rd ra imm => Sys2Proof.Machine.execCcOri c rd ra imm s
  | .ccXori c rd ra imm => Sys2Proof.Machine.execCcXori c rd ra imm s
  | .ccSlli c rd ra imm => Sys2Proof.Machine.execCcSlli c rd ra imm s
  | .ccSrli c rd ra imm => Sys2Proof.Machine.execCcSrli c rd ra imm s
  | .ccSrai c rd ra imm => Sys2Proof.Machine.execCcSrai c rd ra imm s
  | .ccSlti c rd ra imm => Sys2Proof.Machine.execCcSlti c rd ra imm s
  | .ccSltiu c rd ra imm => Sys2Proof.Machine.execCcSltiu c rd ra imm s
  | .ccLui c rd ra imm => Sys2Proof.Machine.execCcLui c rd ra imm s
  | .ccLw c rd ra imm => Sys2Proof.Machine.execCcLw c rd ra imm s
  | .ccLh c rd ra imm => Sys2Proof.Machine.execCcLh c rd ra imm s
  | .ccLhu c rd ra imm => Sys2Proof.Machine.execCcLhu c rd ra imm s
  | .ccLb c rd ra imm => Sys2Proof.Machine.execCcLb c rd ra imm s
  | .ccLbu c rd ra imm => Sys2Proof.Machine.execCcLbu c rd ra imm s
  | .ccSw c rs ra imm => Sys2Proof.Machine.execCcSw c rs ra imm s
  | .ccSh c rs ra imm => Sys2Proof.Machine.execCcSh c rs ra imm s
  | .ccSb c rs ra imm => Sys2Proof.Machine.execCcSb c rs ra imm s
  | .ccBeq c ra rb off => Sys2Proof.Machine.execCcBeq c ra rb off s
  | .ccBne c ra rb off => Sys2Proof.Machine.execCcBne c ra rb off s
  | .ccBlt c ra rb off => Sys2Proof.Machine.execCcBlt c ra rb off s
  | .ccBge c ra rb off => Sys2Proof.Machine.execCcBge c ra rb off s
  | .ccBltu c ra rb off => Sys2Proof.Machine.execCcBltu c ra rb off s
  | .ccBgeu c ra rb off => Sys2Proof.Machine.execCcBgeu c ra rb off s
  | .ccJal c off => Sys2Proof.Machine.execCcJal c off s
  | .ccJalr c rd ra imm => Sys2Proof.Machine.execCcJalr c rd ra imm s
  | .ccIssue c rd ra imm => Sys2Proof.Machine.execCcIssue c rd ra imm s
  | .issueResume c => Sys2Proof.Machine.execIssueResume c s
  | .ccWait c rd rv kind rt obj => Sys2Proof.Machine.execCcWait c rd rv kind rt obj s
  | .waitResume c => Sys2Proof.Machine.execWaitResume c s
  | .ccSignal c rv kind obj => Sys2Proof.Machine.execCcSignal c rv kind obj s
  | .ccBarrier c imm => Sys2Proof.Machine.execCcBarrier c imm s
  | .barrierRelease k n => Sys2Proof.Machine.execBarrierRelease k n s
  | .ccTimeread c rd => Sys2Proof.Machine.execCcTimeread c rd s
  | .ccTrap c imm => Sys2Proof.Machine.execCcTrap c imm s
  | .ccHalt c => Sys2Proof.Machine.execCcHalt c s
  | .ccResume c => Sys2Proof.Machine.execCcResume c s
  | .ccStep v => Sys2Proof.Machine.execCcStep v s
  | .moveInStart => Sys2Proof.Machine.execMoveInStart s
  | .moveInAbort => Sys2Proof.Machine.execMoveInAbort s
  | .phaseBChangeover => Sys2Proof.Machine.execPhaseBChangeover s
  | .moveInCommitted => Sys2Proof.Machine.execMoveInCommitted s
  | .weightPatchStart => Sys2Proof.Machine.execWeightPatchStart s
  | .weightPatchSwitch g => Sys2Proof.Machine.execWeightPatchSwitch g s
  | .fplStore => Sys2Proof.Machine.execFplStore s
  | .fplStoreDone ok => Sys2Proof.Machine.execFplStoreDone ok s
  | .showHomeReport => Sys2Proof.Machine.execShowHomeReport s
  | .stopNearRelease => Sys2Proof.Machine.execStopNearRelease s
  | .showHomeConfigWrite off v => Sys2Proof.Machine.execShowHomeConfigWrite off v s
  | .faultDetected d => Sys2Proof.Machine.execFaultDetected d s
  | .recoveryTimeout => Sys2Proof.Machine.execRecoveryTimeout s
  | .mgmtFwRestart => Sys2Proof.Machine.execMgmtFwRestart s
  | .ageExpiry g => Sys2Proof.Machine.execAgeExpiry g s
  | .outValidRise => Sys2Proof.Machine.execOutValidRise s
  | .forceInvalid on => Sys2Proof.Machine.execForceInvalid on s
  | .testJetPeriodic c => Sys2Proof.Machine.execTestJetPeriodic c s
  | .testJetTimeout c => Sys2Proof.Machine.execTestJetTimeout c s
  | .selfTestSegment c => Sys2Proof.Machine.execSelfTestSegment c s
  | .selfTestSegmentDone c pass => Sys2Proof.Machine.execSelfTestSegmentDone c pass s
  | .selfTestRehome c => Sys2Proof.Machine.execSelfTestRehome c s
  | .configCheckSegment => Sys2Proof.Machine.execConfigCheckSegment s
  | .cchkCommit => Sys2Proof.Machine.execCchkCommit s
  | .cchkCommitDone => Sys2Proof.Machine.execCchkCommitDone s
  | .sramScrub r => Sys2Proof.Machine.execSramScrub r s
  | .hbmRecalibration => Sys2Proof.Machine.execHbmRecalibration s
  | .monitorExcursion m => Sys2Proof.Machine.execMonitorExcursion m s
  | .monitorRecovered => Sys2Proof.Machine.execMonitorRecovered s
  | .xspiRead a n crc r => Sys2Proof.Machine.execXspiRead a n crc r s
  | .xspiReadFixed a n crc r => Sys2Proof.Machine.execXspiReadFixed a n crc r s
  | .xspiWrite a n data crc compOk => Sys2Proof.Machine.execXspiWrite a n data crc compOk s
  | .xspiWriteFixed a n data crc compOk => Sys2Proof.Machine.execXspiWriteFixed a n data crc compOk s
  | .xspiStatus op a n crc compOk => Sys2Proof.Machine.execXspiStatus op a n crc compOk s
  | .transactionAbandon t => Sys2Proof.Machine.execTransactionAbandon t s
  | .registerWrite a v => Sys2Proof.Machine.execRegisterWrite a v s
  | .eventWriteBack a v => Sys2Proof.Machine.execEventWriteBack a v s
  | .errCaptureClear => Sys2Proof.Machine.execErrCaptureClear s
  | .ackReset => Sys2Proof.Machine.execAckReset s
  | .softResetArm => Sys2Proof.Machine.execSoftResetArm s
  | .softReset => Sys2Proof.Machine.execSoftReset s
  | .powerStateRequest v => Sys2Proof.Machine.execPowerStateRequest v s
  | .powerStateReached => Sys2Proof.Machine.execPowerStateReached s
  | .powerCapSample p period => Sys2Proof.Machine.execPowerCapSample p period s
  | .cntSnap => Sys2Proof.Machine.execCntSnap s
  | .cntSnapAt => Sys2Proof.Machine.execCntSnapAt s
  | .cntFreeze => Sys2Proof.Machine.execCntFreeze s
  | .cntFreezeAt => Sys2Proof.Machine.execCntFreezeAt s
  | .cntUnfreeze => Sys2Proof.Machine.execCntUnfreeze s
  | .timedSnapshot => Sys2Proof.Machine.execTimedSnapshot s
  | .traceSyncRecord c => Sys2Proof.Machine.execTraceSyncRecord c s
  | .cellarRestart v => Sys2Proof.Machine.execCellarRestart v s
  | .stillTake => Sys2Proof.Machine.execStillTake s
  | .stillResume => Sys2Proof.Machine.execStillResume s
  | .watchdogKick => Sys2Proof.Machine.execWatchdogKick s
  | .stillWatchdogExpiry => Sys2Proof.Machine.execStillWatchdogExpiry s
  | .stillStallExpiry => Sys2Proof.Machine.execStillStallExpiry s
  | .debugUnlock => Sys2Proof.Machine.execDebugUnlock s
  | .cchkOpen => Sys2Proof.Machine.execCchkOpen s
  | .setMinVersion => Sys2Proof.Machine.execSetMinVersion s
  | .enrollKey => Sys2Proof.Machine.execEnrollKey s
  | .revokeKey => Sys2Proof.Machine.execRevokeKey s
  | .lifecycle => Sys2Proof.Machine.execLifecycle s
  | .ownerPort => Sys2Proof.Machine.execOwnerPort s
  | .fwUpdate => Sys2Proof.Machine.execFwUpdate s
  | .attest => Sys2Proof.Machine.execAttest s
  | .attestDone => Sys2Proof.Machine.execAttestDone s
  | .debugOn => Sys2Proof.Machine.execDebugOn s
  | .debugOff => Sys2Proof.Machine.execDebugOff s
  | .debugExpiry => Sys2Proof.Machine.execDebugExpiry s
  | .tenantMode v => Sys2Proof.Machine.execTenantMode v s
  | .nandBlockFail => Sys2Proof.Machine.execNandBlockFail s
  | .powerOn mv => Sys2Proof.Machine.execPowerOn mv s
  | .powerLoss mv => Sys2Proof.Machine.execPowerLoss mv s
  | .overvoltageDisconnect mv => Sys2Proof.Machine.execOvervoltageDisconnect mv s
  | .overvoltageReconnect mv => Sys2Proof.Machine.execOvervoltageReconnect mv s
  | .resetAssert width => Sys2Proof.Machine.execResetAssert width s
  | .resetRelease => Sys2Proof.Machine.execResetRelease s
  | .boot => Sys2Proof.Machine.execBoot s
  | .eject => Sys2Proof.Machine.execEject s
  | .ejectRelease => Sys2Proof.Machine.execEjectRelease s
  | .thermalShutdown => Sys2Proof.Machine.execThermalShutdown s
  | .matchWindowExpiry n => Sys2Proof.Machine.execMatchWindowExpiry n s
  | .csiLaneSyncChange n on => Sys2Proof.Machine.execCsiLaneSyncChange n on s
  | .mgmtDebugHalt => Sys2Proof.Machine.execMgmtDebugHalt s
  | .mgmtDebugResume => Sys2Proof.Machine.execMgmtDebugResume s
  | .ptpAnnounceTimeout m st => Sys2Proof.Machine.execPtpAnnounceTimeout m st s

end Sys2Proof.Machine
end

