-- ==== Sys2Proof/Safety.lean ====
section
/-! DEFINITION. What counts as a safe run of the module, in the terms that claims use: outputs are signalled valid only
while nothing holds them (R348), a run of the queue, and a module that takes no command (R441, R445). -/

namespace Sys2Proof.Machine

/-- OUT_VALID is high only while no hold of Table 14-1 is in effect (R348). -/
def Mach.outSafe (m : Mach) : Prop := m.safety.outValid = true → m.reg Reg.SAFE_HOLD = 0

/-- OUT_VALID is safe, and no write that waits for a Show Home boundary (R343) names SAFE_HOLD. -/
def Mach.outGuarded (m : Mach) : Prop := m.outSafe ∧ ∀ p ∈ m.sh.pendingCfg, p.1 ≠ Reg.SAFE_HOLD

/-- The memory of a state is in its canonical form. -/
def State.memWf (s : State) : Prop := Memory.wf s.m.mem

/-- n steps of the block. -/
def runSteps (n : Nat) (s : State) : Host.Outcome State Fault Refusal := Sys2Proof.core.run n s

/-- The happenings at the pins and the supply, which reach a module that is off or in reset; every other command finds
nothing that answers there. -/
def atThePins : Instr → Bool
  | .powerOn _ | .powerLoss _ | .overvoltageDisconnect _ | .overvoltageReconnect _ | .resetAssert _ | .resetRelease
  | .thermalShutdown | .eject | .ejectRelease => true
  | _ => false

/-- A module that is off or in reset and whose queue brings no happening at the pins. -/
def State.Asleep (s : State) : Prop := s.m.live = false ∧ s.pending.all (fun c => !atThePins c) = true

/-! ## Control cores -/

/-- Control core c issues the word w: it runs, nothing holds it, its checker accepts the word (R352), and the debug
port does not step it. -/
def Mach.issues (m : Mach) (c : Nat) (w : Word) : Prop :=
  m.ccReady c = true ∧ (sigIssue (m.cc c) w).isSome = true ∧ (m.cc c).stepping = false

/-- From m to t control core c has gone on to pc: register rd holds v unless it is g0, every other register of it is as
before, and no other control core has changed. -/
def Mach.ccWent (m t : Mach) (c rd : Nat) (v : Word) (pc : BitVec 18) : Prop :=
  (∀ r, t.greg c r = if r = rd ∧ r ≠ 0 then v else m.greg c r) ∧ (t.cc c).pc = pc ∧ (t.cc c).state = .running ∧
    ∀ d, d ≠ c → t.cc d = m.cc d

/-- From m to t control core c has halted with a code, its registers and pc as before, no other control core has
changed, and CLU_EVENT.trap of its cluster stands (R313). -/
def Mach.ccHalts (m t : Mach) (c : Nat) (code : BitVec 16) : Prop :=
  (∀ r, t.greg c r = m.greg c r) ∧ (t.cc c).pc = (m.cc c).pc ∧ (t.cc c).state = .halted ∧ (t.cc c).code = code ∧
    (∀ d, d ≠ c → t.cc d = m.cc d) ∧ t.rbit (Reg.CLU_EVENT (ccCluster c)) 0 = true

/-- The next trace record lies in the Cellar, whole, or the ring stands stopped (R403, R404). -/
def Mach.cellarSound (m : Mach) : Prop :=
  (m.reg Reg.DBG_CELLAR_WR).toNat % 32 = 0 ∧
    (m.cellarFull = true ∨ (m.reg Reg.DBG_CELLAR_WR).toNat + 32 ≤ m.cellarSize)

/-- From m to t memory has changed in the Cellar alone, and only where a trace record may have been written. -/
def Mach.tracesOnly (m t : Mach) (traced : Bool) : Prop :=
  (traced = false → t.mem = m.mem) ∧
    (m.cellarSound → ∀ x, x < m.cellarBase ∨ m.cellarBase + m.cellarSize ≤ x → t.byte x = m.byte x)

/-! ## The host port -/

/-- From m to t a posted write has met a bus error of a cause and has had no other effect (R382, Table 15-4): the count
moves, capture takes the address where it was armed, HIF_EVENT rises, PERR is set, and nothing else changes. -/
def Mach.busErr (m t : Mach) (a cause : Nat) : Prop :=
  t.port = { m.port with perr := true } ∧ t.reg Reg.HIF_ERR_COUNT = m.reg Reg.HIF_ERR_COUNT + 1 ∧
    (m.rbit Reg.HIF_ERR_CAUSE 31 = false →
      t.reg Reg.HIF_ERR_ADDR = BitVec.ofNat 32 a ∧ t.fld Reg.HIF_ERR_CAUSE 0 8 = cause ∧ t.rbit Reg.HIF_ERR_CAUSE 30 = true) ∧
    t.rbit Reg.HIF_EVENT 0 = true ∧ t.rbit Reg.HIF_EVENT 1 = true ∧
    (∀ r, r ∉ [Reg.HIF_ERR_COUNT, Reg.HIF_ERR_ADDR, Reg.HIF_ERR_CAUSE, Reg.HIF_EVENT] → t.reg r = m.reg r) ∧
    { t with regs := m.regs, port := m.port } = m

/-- The block of this register makes more of a write than to store its implemented bits, or refuses one on grounds of its own. -/
def ownRule (a : Nat) : Bool :=
  match blockOf a with
  | some (.gctl, _) => a == Reg.GCTL_CTRL || a == Reg.GCTL_PWR_STATE
  | some (.hif, _) => a == Reg.HIF_ERR_CTRL
  | some (.time, o) => [0, 0x38, 0x3C, 0x44].contains o || (decide (0x80 ≤ o) && o % 16 == 0)
  | some (.safe, _) => a == Reg.SAFE_CTRL || a == Reg.SAFE_CFG
  | some (.cnt, _) => a == Reg.CNT_CTRL
  | some (.sec, _) => a == Reg.SEC_CTRL || a == Reg.SEC_PRIV
  | some (.fpl, o) => a == Reg.FPL_CTRL || a == Reg.CCHK_CTRL || (decide (0x100 ≤ o) && decide (o < 0x200))
  | some (.dbg, o) => [Reg.DBG_CELLAR_WR, Reg.DBG_TRACE_CTRL, Reg.DBG_CELLAR_SIZE, Reg.DBG_STILL_CTRL, Reg.DBG_STILL_CFG,
      Reg.DBG_OBS_CAP, Reg.DBG_CC_STEP].contains a || (decide (0x400 ≤ o) && decide (o < 0x800))
  | some (.cq, o) => a == Reg.CQ_CSIG_RAISE || (decide (o < 0x10000) && [0, 4, 8, 0xC, 0x10, 0x2C].contains (o % 0x100))
  | some (.sns, o) =>
    if 0x1000 ≤ o ∧ o < 0x2000 then [0, 0x40, 0x44, 0x48, 0x84, 0x88].contains (o % 0x100)
    else if 0x2000 ≤ o ∧ o < 0x3000 then o % 0x100 == 0
    else if 0x3000 ≤ o ∧ o < 0x3280 then o % 0x40 == 0
    else if 0x3400 ≤ o ∧ o < 0x3500 then o % 0x20 == 0
    else o == 0x3608 || o == 0x3618
  | some (.str, o) => decide (o < 0x10000) && [0, 4, 0x10, 0x14, 0x18, 0x50].contains (o % 0x100)
  | some (.fus, o) => [0, 0xC, 0x10, 0x14, 0x18, 0x1C, 0x20].contains (o % 0x400) ||
      (decide (0x80 ≤ o % 0x400) && decide (o % 0x400 < 0x100))
  | some (.cal, o) => (decide (0x10000 ≤ o) && decide (o < 0x20030)) || o == 0x20100
  | some (.pnt, _) => pntDescriptor a
  | some (.egr, o) => (decide (0x400 ≤ o) && decide (o < 0x800)) || (decide (0x1000 ≤ o) && decide (o < 0x1140)) ||
      (decide (0x2000 ≤ o) && decide (o < 0x2400))
  | some (.net, o) => decide (o < 0x1000) && decide (0x30 ≤ o % 0x400)
  | some (.clu _, o) => decide (o < 0x40000) || (decide (0x40100 ≤ o) && decide (o < 0x401A0))
  | some (.mem, _) => false
  | some (.trk, _) => true
  | some (.window, _) => true
  | none => true

/-- Every register but those listed is in t as it is in m. -/
def Mach.regsBut (m t : Mach) (l : List Nat) : Prop := ∀ r, r ∉ l → t.reg r = m.reg r

/-! ## Command queues -/

/-- The head of queue q is a command of this class and operation that the start stage takes now: nothing is wrong with
its common fields, it waits for nothing, its unit's island runs, and no head of its core goes before it (R292, R293, R295). -/
def Mach.startable (m : Mach) (q cls op : Nat) : Prop :=
  m.mayStart q = true ∧ cmdClass (m.headBytes q) = cls ∧ cmdOp (m.headBytes q) = op ∧
    m.headErr q (m.headBytes q) = .ok () ∧ m.goes q = true

/-- On s the command c has its unit's effect u, and the head of queue q is taken: it is in flight, the queue moves on, and
its new head is looked at (R293). -/
def State.starts (s : State) (c : Instr) (q : Nat) (u : Mach) : Prop :=
  exec c s = .next { s with m := (u.take q (s.m.headBytes q) []).checkHead q }

/-- No queue has a head that a start stage which looks again could turn away or make wait (R295, R412). -/
def Mach.headsSettled (m : Mach) : Prop := ∀ q, q < 256 → m.hasHead q = false ∨ (m.cmdq q).error = true

/-- No byte of memory outside the n at a differs between m and t. -/
def Mach.onlyBytes (m t : Mach) (a n : Nat) : Prop := ∀ x, x < a ∨ a + n ≤ x → t.byte x = m.byte x

/-! ## Items -/

/-- From m to t stream st has taken an item into its ingress queue, with the stream's next sequence number (R92), and
nothing but the streams and what the ports hold has changed. -/
def Mach.tookItem (m t : Mach) (st : Nat) (it : Item) : Prop :=
  (t.stream st).items = (m.stream st).items ++
      [{ it with seq := (m.stream st).seq, first := (m.stream st).first, left := recordBytes it.payload.length }] ∧
    (t.stream st).seq = (m.stream st).seq + 1 ∧ (t.stream st).first = false ∧
    (∀ o, o ≠ st → t.stream o = m.stream o) ∧ { t with streams := m.streams, ports := m.ports } = m

end Sys2Proof.Machine
end

