-- ==== Sys2Proof/Certificates/Slice0/Obligations.lean ====
section
/-! DEFINITION. The statements for the provers, family by family. Each says over which states it holds, what the command
does there, and what it leaves as it was. -/

open Sys2Proof Sys2Proof.Machine

/-! ## The block and its queue -/

/-- A step takes the command at the front of the queue and carries it out on the queue's rest. The model's choice, log entry 6: with
no command waiting the block idles. -/
def Obligations.StepTakesFront : Prop :=
  (∀ (s : State) (c : Instr) (cs : List Instr), s.pending = c :: cs → step s = exec c { s with pending := cs }) ∧
  ∀ s : State, s.pending = [] → step s = .next s

/-- No command stops the machine and none touches the queue of waiting commands: a bus error, a command error, a fault
of the module and a happening that finds nothing to do are all states. -/
def Obligations.ExecKeepsQueue : Prop := ∀ (c : Instr) (s : State), ∃ t : Mach, exec c s = .next { s with m := t }

/-- Every queue drains, in its order: after n steps, from any state, the first n commands have been taken and the rest
wait as they stood; after as many steps as there are commands none waits. -/
def Obligations.QueueDrainsInOrder : Prop :=
  ∀ (s : State) (n : Nat), n ≤ s.pending.length →
    ∃ t, runSteps n s = .next t ∧ t.pending = s.pending.drop n

/-- R348, R338, R343: in every state OUT_VALID is high only while no hold of Table 14-1 is in effect, and every command keeps it so. The
premise beside it, which every command keeps too, is that no configuration write waiting for a Show Home boundary names SAFE_HOLD; no
command queues one that does. -/
def Obligations.OutValidInvariant : Prop :=
  ∀ s t : State, s.m.outGuarded → step s = .next t → t.m.outGuarded

/-- R389, R430: every command keeps the memory in its canonical form: addresses strictly rising, no entry that holds the 0 which an
unlisted address reads as. -/
def Obligations.MemoryInvariant : Prop :=
  ∀ s t : State, s.memWf → step s = .next t → t.memWf

/-- R441, R445 and log entry 2: a module that is off, shut down or held in reset is changed by no command but those that
name a happening at its pins or its supply, and stays as it is until one of those comes. -/
def Obligations.AsleepInvariant : Prop :=
  ∀ s t : State, s.Asleep → step s = .next t → t.Asleep ∧ t.m = s.m

/-- The values that the register tables give for reset (R18, R70, R369, R386, Tables 2-6, 14-6, 15-5, 18-9), and an empty memory, queue
and OUT_VALID low, so that the invariants of OUT_VALID and of the memory hold. That the module takes commands there (m.live), with its
supply good and RESET_n and EJECT_n negated, is the model's choice, log entries 4 and 91. -/
def Obligations.ResetValues : Prop :=
  let m := State.reset.m
  State.reset.pending = [] ∧ m.mem = [] ∧ State.reset.memWf ∧ m.outGuarded ∧ m.live = true ∧ m.safety.outValid = false ∧ m.time.count = 0 ∧
    m.time.anchorWide = {} ∧ m.time.anchorCount = 0 ∧
    (∀ p ∈ [(Reg.SAFE_HOLD, 0x800#32), (Reg.SAFE_STATUS, 0), (Reg.TIME_STATUS, 0), (Reg.TIME_UTC_OFFSET, 0x25),
        (Reg.TIME_PTP_STAT 2, 3), (Reg.HIF_ERR_CAUSE, 0), (Reg.CQ_HEAD 255, 0), (Reg.CLU_SEM 7 63, 0)],
      m.reg p.1 = p.2) ∧ m.greg 39 31 = 0 ∧ (m.cc 0).pc = 0

/-! ## Clock islands and sluices (R33 to R42) -/

/-- R34, R35, R39: what a stretch request, its withdrawal, a stop order and a restart order do to an island, and that they
change no other island and nothing else. A request against an island of R35 leaves its requests as they were; telemetry
records it while the management core runs. A core whose sequencer island restarts looks at the heads of its queues (R295). R35, R39: the islands of R35 always run at their nominal period, and no case of
R39 stops the timebase or the safety supervisor, or any island for a request outside its own case. It says under which
conditions on the state and the operands alone each of these commands answers a next state with its own effect:
stretchRequest, stretchWithdraw, islandStop, islandRestart. -/
def Obligations.IslandRules : Prop :=
  (∀ (s : State) (i : Fin 166), s.m.live = true →
     let onlyIsland : Mach → Prop := fun t =>
       (∀ j, j ≠ i.val → t.island j = s.m.island j) ∧ { t with islands := s.m.islands } = s.m
     (∀ src p, ∃ t, exec (.stretchRequest i src p) s = .next { s with m := t } ∧ onlyIsland t ∧
       t.island i = if fixedIsland i then
           (if s.m.mgmtRuns then { s.m.island i with refused := (s.m.island i).refused + 1 } else s.m.island i)
         else match src with
           | .droop => { s.m.island i with droop := some p }
           | .thermal => { s.m.island i with thermal := some p }
           | .powerCap => { s.m.island i with cap := some p }) ∧
     (∀ src, ∃ t, exec (.stretchWithdraw i src) s = .next { s with m := t } ∧ onlyIsland t ∧
       t.island i = match src with
         | .droop => { s.m.island i with droop := none }
         | .thermal => { s.m.island i with thermal := none }
         | .powerCap => { s.m.island i with cap := none }) ∧
     (∀ why, ∃ t, exec (.islandStop i why) s = .next { s with m := t } ∧ onlyIsland t ∧
       (s.m.stopCase i why = true → t.runs i = false ∧ why ∈ (t.island i).stopped) ∧
       (s.m.stopCase i why = false → t = s.m)) ∧
     ((∀ why, s.m.stopCase i why = false) →
       ∃ t : Mach, exec (.islandRestart i) s =
           .next { s with m := if (s.m.island i).stopped.isEmpty then t else t.lookAgain i } ∧ t.runs i = true ∧
         (¬(i.val < 128 ∧ i.val % 4 = 3) → t.lookAgain i = t) ∧
         (∀ j, j ≠ i.val → t.island j = s.m.island j) ∧
         { t with islands := s.m.islands, sluices := s.m.sluices } = s.m)) ∧
  (∀ (m : Mach) (i : Nat), i < 166 →
     ((i = 144 ∨ i = 145 ∨ 152 ≤ i ∧ i ≤ 163) → m.islandPeriod i = 256) ∧
     (¬(i = 144 ∨ i = 145 ∨ 152 ≤ i ∧ i ≤ 163) → (m.islandPlan i).1 ≤ 512 → (m.islandPlan i).2 ≤ 512 →
       m.islandPeriod i ≤ 512 ∧ (m.islandPlan i).1 ≤ m.islandPeriod i ∧
       ((m.island i).droop = none → (m.island i).thermal = none → (m.island i).cap = none → 256 ≤ (m.islandPlan i).1 →
         256 ≤ (m.islandPlan i).2 → m.islandPeriod i = (m.islandPlan i).1)) ∧
     (i = 144 ∨ i = 145 → ∀ why, m.stopCase i why = false))

/-- R41, R42: a transfer between two different islands whose sender runs. Without a credit the sender waits. A bundle whose
parity and sequence bit are right moves the sequence bit; a running receiver consumes it and the credit is back, a stopped
receiver holds it and a credit is gone. One that is wrong is discarded as a sluice fault of the receiving island; that its discard
leaves the credits as they were is the model's choice, log entry 150. It says
under which conditions on the state and the operands alone each of these commands answers a next state with its own effect:
sluiceTransfer. -/
def Obligations.SluiceTransfers : Prop :=
  ∀ (s : State) (a b : Fin 166) (ch : Fin 256) (bundle : List Word) (seqBit : Bool), s.m.live = true → a ≠ b →
    s.m.runs a = true →
    let k := sluiceKey a b ch
    let x := s.m.sluice k
    let go : List Bool → Instr := fun par => .sluiceTransfer a b ch bundle par seqBit
    let only : Mach → Prop := fun t => (∀ j, j ≠ k → t.sluice j = s.m.sluice j) ∧ { t with sluices := s.m.sluices } = s.m
    (∀ par, x.credit = 0 → ∃ t, exec (go par) s = .next { s with m := t } ∧ only t ∧ t.sluice k = { x with waiting := true }) ∧
    (x.credit ≠ 0 → seqBit = !x.seqBit →
      ∃ t, exec (go (bundle.map evenParity)) s = .next { s with m := t } ∧ only t ∧
        t.sluice k = if s.m.runs b then { x with seqBit := seqBit, waiting := false }
          else { x with seqBit := seqBit, waiting := false, credit := x.credit - 1, buffer := x.buffer ++ [bundle] }) ∧
    (∀ par, x.credit ≠ 0 → seqBit = x.seqBit ∨ par ≠ bundle.map evenParity →
      exec (go par) s =
        .next { s with m := (s.m.setSluice k { x with seqBit := seqBit, waiting := false }).sluiceFault b })

/-! ## The time line (R45 to R68) -/

/-- R45, R348: a tick with nothing due adds 1 ns and the rate correction to the count and its fraction, counts the nanosecond
without OUT_VALID, and changes nothing else. R51, R47: a capture latches the count and the wide time of one nanosecond into
the five registers. It says under which conditions on the state and the operands alone each of these commands answers a next
state with its own effect: nsCountTick, timeCapture. -/
def Obligations.CountAndCapture : Prop :=
  (∀ s : State, s.m.live = true → s.m.port.posted = [] → s.m.safety.recoveries = [] → s.m.obs.stillPending = none →
     s.m.pins.wanted = none → s.m.traceOn = false →
     ∃ t, exec .nsCountTick s = .next { s with m := t } ∧ { t with time := s.m.time, obs := s.m.obs } = s.m ∧
       { t.time with count := s.m.time.count, frac := s.m.time.frac } = s.m.time ∧
       (s.m.time.refOk = true → s.m.time.rate = 0 → t.time.count = s.m.time.count + 1 ∧ t.time.frac = s.m.time.frac) ∧
       (s.m.time.refOk = true → ∀ k : Int, s.m.time.rate = 1000000000 * k → -65 ≤ k → k ≤ 65 →
         (t.time.count.toNat * 2 ^ 48 + t.time.frac.toNat : Int) % 2 ^ 112 =
           (s.m.time.count.toNat * 2 ^ 48 + s.m.time.frac.toNat + 2 ^ 48 + k * 2 ^ 32) % 2 ^ 112) ∧
       (s.m.frozen = false → t.counter 428 = if s.m.safety.outValid then s.m.counter 428 else s.m.counter 428 + 1)) ∧
  (∀ s : State, s.m.live = true → s.m.blockPosted Reg.TIME_CTRL = false → s.m.reg Reg.TIME_CTRL = BitVec.ofNat 32 (s.m.timeSource * 256) → s.m.timeSource ≠ 3 →
     ∃ t, exec .timeCapture s = .next { s with m := t } ∧ { t with regs := s.m.regs } = s.m ∧
       t.reg Reg.TIME_CAP_COUNT_LO = s.m.time.count.setWidth 32 ∧
       t.reg Reg.TIME_CAP_COUNT_HI = BitVec.ofNat 32 (s.m.time.count.toNat / 2 ^ 32) ∧
       t.reg Reg.TIME_CAP_WSEC_LO = BitVec.ofNat 32 s.m.wide.sec ∧
       t.reg Reg.TIME_CAP_WSEC_HI = BitVec.ofNat 32 (s.m.wide.sec / 2 ^ 32) ∧
       t.reg Reg.TIME_CAP_WNS = BitVec.ofNat 32 s.m.wide.ns ∧
       s.m.wide = s.m.time.anchorWide.plus (s.m.time.count - s.m.time.anchorCount).toNat ∧
       s.m.regsBut t [Reg.TIME_STATUS, Reg.TIME_CAP_COUNT_LO, Reg.TIME_CAP_COUNT_HI, Reg.TIME_CAP_WSEC_LO,
         Reg.TIME_CAP_WSEC_HI, Reg.TIME_CAP_WNS])

/-- R53: a write of step_arm latches the target and the time where the epoch is unanchored, no step is pending, the source is
not PTP and the time lies 1 ms to 2 s ahead; otherwise it is a bus error of cause 0x04 and nothing is armed. R53, R54, R56,
R57: when short time reaches the time of the armed step, the anchor becomes the count of that nanosecond and the latched
target; the epoch is anchored, no longer resetting, no step pends, and step_applied rises. The count and its rate stay as
they were, and of the registers only TIME_STATUS, TIME_EVENT, SAFE_HOLD and SAFE_EVENT can change. It says under which
conditions on the state and the operands alone each of these commands answers a next state with its own effect: stepArm,
stepApplied. -/
def Obligations.TimeSteps : Prop :=
  (∀ s : State, s.m.live = true → s.m.blockPosted Reg.TIME_CTRL = false → s.m.reg Reg.TIME_CTRL = BitVec.ofNat 32 (s.m.timeSource * 256) → s.m.timeSource ≠ 3 →
     let ahead := (s.m.reg Reg.TIME_STEP_AT - s.m.time.count.setWidth 32).toInt
     let may := s.m.rbit Reg.TIME_STATUS 0 = false ∧ s.m.rbit Reg.TIME_STATUS 4 = false ∧ s.m.timeSource ≠ 1 ∧
       1000000 ≤ ahead ∧ ahead ≤ 2000000000
     (may → ∃ t, exec .stepArm s = .next { s with m := t } ∧
       t.time = { s.m.time with step := some (s.m.stepTarget, s.m.reg Reg.TIME_STEP_AT) } ∧
       t.rbit Reg.TIME_STATUS 4 = true ∧ s.m.regsBut t [Reg.TIME_STATUS] ∧
       { t with regs := s.m.regs, time := s.m.time } = s.m) ∧
     (¬ may → ∃ t, exec .stepArm s = .next { s with m := t } ∧ s.m.busErr t Reg.TIME_CTRL 4)) ∧
  (∀ (s : State) (w : Wide) (at_ : Word), s.m.live = true → s.m.time.step = some (w, at_) →
     reached (s.m.time.count.setWidth 32) at_ = true →
     ∃ t, exec .stepApplied s = .next { s with m := t } ∧ t.time.anchorWide = w ∧ t.time.step = none ∧
       t.time.anchorCount = s.m.time.count - ((s.m.time.count.setWidth 32 : Word) - at_).setWidth 64 ∧
       t.time.count = s.m.time.count ∧ t.time.rate = s.m.time.rate ∧
       t.rbit Reg.TIME_STATUS 0 = true ∧ t.rbit Reg.TIME_STATUS 3 = false ∧ t.rbit Reg.TIME_STATUS 4 = false ∧
       (s.m.rbit Reg.TIME_STATUS 0 = false → t.rbit Reg.TIME_STATUS 5 = false) ∧
       t.rbit Reg.TIME_EVENT 2 = true ∧ t.rbit Reg.SAFE_HOLD 4 = false ∧
       s.m.regsBut t [Reg.TIME_STATUS, Reg.TIME_EVENT, Reg.SAFE_HOLD, Reg.SAFE_EVENT] ∧
       { t with regs := s.m.regs, time := s.m.time } = s.m)

/-- R57, R47, Table 2-2: an epoch reset begins a new epoch: wide time 0 at the present count, the epoch number one on,
anchored, time_far and step_pending clear, resetting set, hold 3 in effect, OUT_VALID low, the count and the rate as they
were; then every fusion group drains. That the Sync messages that lead to the new epoch's step are counted anew is the model's
reading, log entry 129. A write while
resetting is set changes no time. It says under which conditions on the state and the operands alone each of these commands
answers a next state with its own effect: timeEpochReset. -/
def Obligations.EpochReset : Prop :=
  ∀ s : State, s.m.live = true → s.m.blockPosted Reg.TIME_CTRL = false → s.m.reg Reg.TIME_CTRL = BitVec.ofNat 32 (s.m.timeSource * 256) → s.m.timeSource ≠ 3 →
    (s.m.rbit Reg.TIME_STATUS 3 = false →
      ∃ t : Mach, exec .timeEpochReset s = .next { s with m := t.epochDrainAll } ∧ t.time.anchorWide = {} ∧
        t.time.anchorCount = s.m.time.count ∧ t.time.step = none ∧ t.time.count = s.m.time.count ∧
        t.time.stepAt = none ∧ t.time.syncs = [] ∧
        t.time.rate = s.m.time.rate ∧ t.fld Reg.TIME_STATUS 16 16 = (s.m.fld Reg.TIME_STATUS 16 16 + 1) % 2 ^ 16 ∧
        t.rbit Reg.TIME_STATUS 0 = false ∧ t.rbit Reg.TIME_STATUS 4 = false ∧ t.rbit Reg.TIME_STATUS 5 = false ∧
        t.rbit Reg.TIME_STATUS 3 = true ∧ t.hold 3 = true ∧ t.safety.outValid = false ∧
        t.rbit Reg.TIME_EVENT 3 = true ∧ t.mem = s.m.mem ∧ t.groups = s.m.groups) ∧
    (s.m.rbit Reg.TIME_STATUS 3 = true →
      ∃ t, exec .timeEpochReset s = .next { s with m := t } ∧ t.time = s.m.time ∧ s.m.regsBut t [Reg.TIME_STATUS] ∧
        { t with regs := s.m.regs } = s.m)

/-- R53, R55, R56, R58: a change of source while a step pends, a rate outside ±65,536,000,000 or under another source than
host, and an offset report under another source than host are bus errors of cause 0x04 with no other effect; otherwise the
source, the rate correction and TIME_FAR follow the write; a new source begins the count of Sync messages below 100 ns anew (R61). It says under which conditions on the state and the operands alone
each of these commands answers a next state with its own effect: timeSourceSelect, rateCorrectionWrite, timeOffsetReport. -/
def Obligations.TimeDiscipline : Prop :=
  ∀ s : State, s.m.live = true → s.m.blockPosted Reg.TIME_CTRL = false →
    (∀ src : BitVec 2, src ≠ 3 → s.m.writeCause Reg.TIME_CTRL (BitVec.ofNat 32 (src.toNat * 256)) = none →
      (s.m.rbit Reg.TIME_STATUS 4 = false ∨ src.toNat = s.m.timeSource →
        ∃ t, exec (.timeSourceSelect src) s = .next { s with m := t } ∧
          t.reg Reg.TIME_CTRL = BitVec.ofNat 32 (src.toNat * 256) ∧
          t.time = { s.m.time with inLock := if src.toNat = s.m.timeSource then s.m.time.inLock else 0 } ∧
          s.m.regsBut t [Reg.TIME_CTRL, Reg.TIME_STATUS] ∧ { t with regs := s.m.regs, time := s.m.time } = s.m) ∧
      (s.m.rbit Reg.TIME_STATUS 4 = true → src.toNat ≠ s.m.timeSource →
        ∃ t, exec (.timeSourceSelect src) s = .next { s with m := t } ∧ s.m.busErr t Reg.TIME_CTRL 4)) ∧
    (∀ hi : Word,
      let r := (BitVec.ofNat 40 ((s.m.reg Reg.TIME_RATE_LO).toNat + hi.toNat % 256 * 2 ^ 32)).toInt
      let may := -65536000000 ≤ r ∧ r ≤ 65536000000 ∧ s.m.timeSource = 0
      (may → ∃ t, exec (.rateCorrectionWrite hi) s = .next { s with m := t } ∧ t.time = { s.m.time with rate := r } ∧
        t.reg Reg.TIME_RATE_HI = hi &&& 0xFF ∧ s.m.regsBut t [Reg.TIME_RATE_HI] ∧
        { t with regs := s.m.regs, time := s.m.time } = s.m) ∧
      (¬ may → ∃ t, exec (.rateCorrectionWrite hi) s = .next { s with m := t } ∧ s.m.busErr t Reg.TIME_RATE_HI 4)) ∧
    (∀ off : Word,
      let bound := s.m.fld Reg.TIME_FAR_CFG 0 10 * s.m.fld Reg.TIME_FAR_CFG 16 12 * 1000
      let far := off = 0x80000000 ∨ bound < off.toInt.natAbs
      (s.m.timeSource = 0 → far → ∃ t, exec (.timeOffsetReport off) s = .next { s with m := t } ∧
        t.rbit Reg.TIME_STATUS 5 = true ∧ t.rbit Reg.TIME_EVENT 4 = true ∧
        s.m.regsBut t [Reg.TIME_STATUS, Reg.TIME_EVENT] ∧ { t with regs := s.m.regs, time := s.m.time } = s.m) ∧
      (s.m.timeSource = 0 → ¬ far → ∃ t, exec (.timeOffsetReport off) s = .next { s with m := t } ∧
        t = { s.m with time := { s.m.time with offset := off } }) ∧
      (s.m.timeSource ≠ 0 →
        ∃ t, exec (.timeOffsetReport off) s = .next { s with m := t } ∧ s.m.busErr t Reg.TIME_OFFSET_REPORT 4))

/-- R56, R58, R59, R60, R61, R62: what the servo and a PTP port do. A servo update under a reference sets the rate within
slew_ppm. A message of a working port's transport, domain and profile gives the port's state, where its role allows it, and
the path delay, where it is valid; an event message is stamped with the ingress latency subtracted; any other message changes
nothing. The fourth consecutive Sync with a valid delay on a SLAVE port gives the servo its reference. A transmitted message
is stamped with the egress latency added; which messages are a port's, which states and messages its role bars, and what each frame
carries are log entry 130, the clamp of the servo's rate log entry 109. A one-step Sync carries that stamp, and Announce carries the priorities, the UTC
offset and, unanchored, clockClass 248. A port that stops hearing its master takes the state that its role allows. It says
under which conditions on the state and the operands alone each of these commands answers a next state with its own effect:
servoUpdate, ptpMessageRx, ptpMessageTx, ptpAnnounceTimeout. -/
def Obligations.ServoAndPtp : Prop :=
  ∀ s : State, s.m.live = true →
    (∀ (rate : BitVec 40) (off : Word), s.m.mgmtRuns = true → s.m.servoRef = true →
      ∃ t, exec (.servoUpdate rate off) s = .next { s with m := t } ∧
        t.time = { s.m.time with rate := max (-s.m.slewMax) (min s.m.slewMax rate.toInt), offset := off } ∧
        s.m.slewMax = s.m.fld Reg.TIME_FAR_CFG 0 10 * 65536000 ∧
        s.m.regsBut t [Reg.TIME_RATE_LO, Reg.TIME_RATE_HI, Reg.TIME_STATUS, Reg.TIME_EVENT] ∧
        { t with regs := s.m.regs, time := s.m.time } = s.m) ∧
    (∀ (p : Fin 4) (msg : PtpRx), s.m.ptpOn p = true →
      let ours := msg.transport = s.m.ptpTransport p ∧ msg.domain.toNat = s.m.fld Reg.TIME_PTP_CLOCK 0 8 ∧
        s.m.profileKnows p msg.kind = true
      let may := s.m.roleAllows p msg.state.toNat = true
      (¬ ours → exec (.ptpMessageRx p msg) s = .next s) ∧
      (ours → msg.kind ≠ .sync ∨ s.m.timeSource ≠ 1 →
        ∃ t, exec (.ptpMessageRx p msg) s = .next { s with m := t } ∧
          (may → t.fld (Reg.TIME_PTP_STAT p) 0 4 = msg.state.toNat) ∧
          (¬ may → t.reg (Reg.TIME_PTP_STAT p) = s.m.reg (Reg.TIME_PTP_STAT p)) ∧
          (msg.delayValid = true → t.reg (Reg.TIME_PTP_DELAY p) = msg.delay) ∧
          (ptpEvent msg.kind = true → sget (fun _ => {}) t.time.ptpRxStamp p =
            s.m.ptpStamp (s.m.time.count - BitVec.ofNat 64 (s.m.fld (Reg.TIME_PTP_LAT p) 0 16))) ∧
          s.m.regsBut t [Reg.TIME_PTP_STAT p, Reg.TIME_PTP_DELAY p, Reg.TIME_STATUS, Reg.TIME_EVENT] ∧
          t.time.count = s.m.time.count ∧ { t with regs := s.m.regs, time := s.m.time } = s.m) ∧
      (ours → s.m.roleAllows p 9 = true → msg.kind = .sync → msg.delayValid = true → msg.state = 9 → s.m.timeSource = 1 →
        sget (fun _ => 0) s.m.time.syncs p = 3 → s.m.time.ptpRef = none →
        ∃ t, exec (.ptpMessageRx p msg) s = .next { s with m := t } ∧ t.time.ptpRef = some p.val ∧
          t.time.count = s.m.time.count ∧
          (s.m.rbit Reg.TIME_STATUS 0 = false →
            t.time.anchorWide = { sec := msg.gmSec.toNat, ns := msg.gmNs.toNat } ∧ t.time.anchorCount = s.m.time.count) ∧
          (s.m.rbit Reg.TIME_STATUS 0 = true →
            t.time.anchorWide = s.m.time.anchorWide ∧ t.time.anchorCount = s.m.time.anchorCount))) ∧
    (∀ (p : Fin 4) (k : PtpKind), s.m.ptpOn p = true → s.m.profileKnows p k = true → s.m.roleSends p k = true →
      ∃ t f, exec (.ptpMessageTx p k) s = .next { s with m := t } ∧ { t with time := s.m.time } = s.m ∧
        t.time.ptpSent = s.m.time.ptpSent ++ [f] ∧
        { t.time with ptpSent := s.m.time.ptpSent, ptpSyncStamp := s.m.time.ptpSyncStamp,
                      ptpRespStamp := s.m.time.ptpRespStamp } = s.m.time ∧
        f.mac = p.val ∧ f.kind = k ∧ f.transport = s.m.ptpTransport p ∧ f.vlan = s.m.macVlan p ∧
        f.domain.toNat = s.m.fld Reg.TIME_PTP_CLOCK 0 8 ∧
        f.stamp = s.m.ptpStamp (s.m.time.count + BitVec.ofNat 64 (s.m.fld (Reg.TIME_PTP_LAT p) 16 16)) ∧
        (k = .sync → f.time = if s.m.rbit (Reg.TIME_PTP_CFG p) 9 then some f.stamp else none) ∧
        (k = .announce → f.announced = some (BitVec.ofNat 8 (s.m.fld Reg.TIME_PTP_CLOCK 24 8),
          BitVec.ofNat 8 (s.m.fld Reg.TIME_PTP_CLOCK 16 8),
          (if s.m.rbit Reg.TIME_STATUS 0 then BitVec.ofNat 8 (s.m.fld Reg.TIME_PTP_CLOCK 8 8) else 248),
          BitVec.ofNat 16 (s.m.fld Reg.TIME_UTC_OFFSET 0 16)))) ∧
    (∀ (p : Fin 4) (st : BitVec 4), s.m.ptpServed p = true → s.m.roleAllows p st.toNat = true →
      ∃ t, exec (.ptpAnnounceTimeout p st) s = .next { s with m := t } ∧ t.fld (Reg.TIME_PTP_STAT p) 0 4 = st.toNat ∧
        s.m.regsBut t [Reg.TIME_PTP_STAT p, Reg.TIME_STATUS, Reg.TIME_EVENT] ∧
        { t with regs := s.m.regs, time := s.m.time } = s.m)

/-- R64, R65: PPS_OUT rises in a running mode at the start of a wide second, which is its nanosecond 0 or 1 (log entry 109), at least
1 ms after a step (log entry 131), and falls after
width_ms; an accepted PPS_IN edge is stamped and offered to the fusion groups, one within 100 ms of the last is only counted;
2 s without one end the reference. R68, Table 14-1: the loss of the 25 MHz reference sets ref_lost, begins hold 5 and takes
OUT_VALID low, in one step of SAFE_EVENT.seq (R386); the count goes on; its return clears ref_lost and ends hold 5 and leaves the anchor as it was. It says under
which conditions on the state and the operands alone each of these commands answers a next state with its own effect:
ppsOutRise, ppsOutFall, ppsInEdge, ppsInReferenceLoss, referenceLost, referenceReturn. -/
def Obligations.TimeReferences : Prop :=
  (∀ s : State, s.m.live = true →
     (s.m.ppsRuns = true → s.m.time.ppsOut = false → s.m.wide.ns ≤ 1 →
       (∀ c, s.m.time.ppsAfter = some c → 1000000 + s.m.wide.ns ≤ (s.m.time.count - c).toNat) →
       exec .ppsOutRise s =
         .next { s with m := { s.m with time := { s.m.time with ppsOut := true, ppsRise := s.m.time.count } } }) ∧
     (s.m.time.ppsOut = true → s.m.fld Reg.TIME_PPS_CFG 16 9 * 1000000 ≤ (s.m.time.count - s.m.time.ppsRise).toNat →
       exec .ppsOutFall s = .next { s with m := { s.m with time := { s.m.time with ppsOut := false } } }) ∧
     (∀ rising, s.m.rbit Reg.TIME_PPS_CFG 5 = true → rising = (!s.m.rbit Reg.TIME_PPS_CFG 4) →
       (∀ c, s.m.time.ppsIn = some c → 100000000 < (s.m.time.count - c).toNat) →
       ∃ t : Mach, exec (.ppsInEdge rising) s = .next { s with m := t.ppsTrigger (s.m.time.count.setWidth 32) } ∧
         t.reg Reg.TIME_PPSIN_STAMP = s.m.time.count.setWidth 32 ∧ t.rbit Reg.TIME_EVENT 6 = true ∧
         t.time.ppsIn = some s.m.time.count ∧
         s.m.regsBut t [Reg.TIME_PPSIN_STAMP, Reg.TIME_EVENT, Reg.TIME_STATUS] ∧
         { t with regs := s.m.regs, time := s.m.time } = s.m) ∧
     (∀ rising c, s.m.rbit Reg.TIME_PPS_CFG 5 = true → rising = (!s.m.rbit Reg.TIME_PPS_CFG 4) →
       s.m.time.ppsIn = some c → (s.m.time.count - c).toNat ≤ 100000000 → s.m.frozen = false →
       ∃ t, exec (.ppsInEdge rising) s = .next { s with m := t } ∧ t.counter 433 = s.m.counter 433 + 1 ∧
         { t with obs := s.m.obs } = s.m) ∧
     (∀ c, s.m.time.ppsIn = some c → 2000000000 ≤ (s.m.time.count - c).toNat →
       ∃ t, exec .ppsInReferenceLoss s = .next { s with m := t } ∧ t.time = { s.m.time with ppsRef := false } ∧
         s.m.regsBut t [Reg.TIME_STATUS] ∧ { t with regs := s.m.regs, time := s.m.time } = s.m)) ∧
  (∀ s : State, s.m.live = true →
     (s.m.time.refOk = true →
       ∃ t : Mach, exec .referenceLost s = .next { s with m := (t.logFault referenceFault 0).2.stillOnFault } ∧
         t.time = { s.m.time with refOk := false, refLostAt := s.m.time.count } ∧ t.rbit Reg.TIME_STATUS 6 = true ∧
         t.fld Reg.SAFE_EVENT 16 16 = (s.m.fld Reg.SAFE_EVENT 16 16 + 1) % 2 ^ 16 ∧
         t.rbit Reg.TIME_EVENT 5 = true ∧ t.hold 5 = true ∧ t.safety.outValid = false ∧ t.mem = s.m.mem ∧
         t.reg Reg.SAFE_TRANSIENT = s.m.reg Reg.SAFE_TRANSIENT + 1) ∧
     (s.m.time.refOk = false →
       ∃ t, exec .referenceReturn s = .next { s with m := t } ∧ t.time.refOk = true ∧ t.time.count = s.m.time.count ∧
         t.time.anchorWide = s.m.time.anchorWide ∧ t.time.anchorCount = s.m.time.anchorCount ∧
         t.rbit Reg.TIME_STATUS 6 = false ∧ t.rbit Reg.TIME_EVENT 5 = true ∧ t.rbit Reg.SAFE_HOLD 5 = false ∧
         s.m.regsBut t [Reg.TIME_STATUS, Reg.TIME_EVENT, Reg.SAFE_HOLD, Reg.SAFE_EVENT] ∧
         { t with regs := s.m.regs, time := s.m.time } = s.m))

/-! ## Camera ports: CSI-2, I3C and FSYNC (R71 to R74, R83, R92) -/

/-- R71, R72, R92, Table 3-2: a Frame Start with a good or corrected header on an enabled port that a free-running stream
selects opens a frame, stamped now, in a stream with room for its header, takes the stream's next sequence number and records
the frame number; a corrected header is counted. R83: a Frame Start of a triggered stream takes the stamp of the latest fire of its
output within the match window; without such a fire, or where that fire has its frame, its lines are dropped and counted. R72: a Frame
Start that finds its channel and type open closes that frame first, as a damaged item. R71, R72: a long packet with a clean header and a right CRC adds its line to
the open frame of its channel and type where the queue has room; with a wrong CRC it is discarded and counted and the frame
is damaged. A packet whose header is uncorrectable damages every open frame of the port, the model's choice of log entry 17.
R71, R72, Tables 3-8, 3-12: Frame End closes its frame as one item of the stream, damaged where its height is wrong, lost in
part or damaged before; a timeout closes it as damaged; one that no open frame and no stream takes is discarded and counted;
and lane synchronisation shows in the port's status. It says under which conditions on the state and the operands alone each
of these commands answers a next state with its own effect: frameStart, csiLongPacket, frameEnd, frameTimeout,
csiLaneSyncChange. -/
def Obligations.CameraFrames : Prop :=
  (∀ (s : State) (n : Fin 8) (vc : BitVec 4) (dt : BitVec 6) (num : BitVec 16) (ecc : EccResult) (st : Nat), s.m.live = true →
     s.m.csiEnabled n = true → ecc ≠ .uncorrectable →
     csiBits dt.toNat ≠ 0 → s.m.cameraStream n vc.toNat dt.toNat = some st → s.m.rbit (Reg.STR_SOURCE st) 13 = false →
     (∀ f ∈ s.m.openFrames n, f.is vc.toNat dt.toNat = false) → 32 ≤ (s.m.stream st).q.capacity (s.m.inqGeom st) →
     ∃ t f, exec (.frameStart n vc ⟨dt, num, ecc⟩) s = .next { s with m := t } ∧ t.openFrames n = s.m.openFrames n ++ [f] ∧
       sget (fun _ => 0) t.ports.frameNo (16 * n.val + vc.toNat) = num ∧
       t.fld (Reg.SNS_CSI_ERR n) 16 16 = (if ecc = .corrected then min 65535 (s.m.fld (Reg.SNS_CSI_ERR n) 16 16 + 1)
         else s.m.fld (Reg.SNS_CSI_ERR n) 16 16) ∧
       f.vc = vc.toNat ∧ f.dt = dt.toNat ∧ f.stream = st ∧ f.lines = 0 ∧ f.skip = false ∧ f.cut = false ∧
       f.item.stamp = s.m.time.count.setWidth 32 ∧ f.item.seq = (s.m.stream st).seq ∧
       f.item.first = (s.m.stream st).first ∧ f.item.triggered = false ∧ f.item.payload = [] ∧
       (t.stream st).seq = (s.m.stream st).seq + 1 ∧ (t.stream st).first = false ∧
       (t.stream st).items = (s.m.stream st).items ∧ (∀ o, o ≠ st → t.stream o = s.m.stream o) ∧
       t.rbit (Reg.SNS_CSI_STAT n) 1 = true ∧ s.m.regsBut t [Reg.SNS_CSI_STAT n, Reg.SNS_CSI_ERR n] ∧
       { t with regs := s.m.regs, ports := s.m.ports, streams := s.m.streams } = s.m) ∧
  (∀ (s : State) (n : Fin 8) (vc : BitVec 4) (dt : BitVec 6) (num : BitVec 16) (st : Nat), s.m.live = true →
     s.m.csiEnabled n = true → csiBits dt.toNat ≠ 0 → s.m.cameraStream n vc.toNat dt.toNat = some st →
     let start := Instr.frameStart n vc ⟨dt, num, .clean⟩
     let o := s.m.fld (Reg.STR_SOURCE st) 10 3
     (s.m.rbit (Reg.STR_SOURCE st) 13 = true → (∀ f ∈ s.m.openFrames n, f.is vc.toNat dt.toNat = false) →
       let opens : Mach → OpenFrame → Prop := fun t g => t.openFrames n = s.m.openFrames n ++ [g] ∧ g.vc = vc.toNat ∧
         g.dt = dt.toNat ∧ g.stream = st ∧ { t with regs := s.m.regs, ports := s.m.ports, streams := s.m.streams, obs := s.m.obs } = s.m
       (∀ f, s.m.matchFire st o = some f → st ∉ f.2 → 32 ≤ (s.m.stream st).q.capacity (s.m.inqGeom st) →
         ∃ t g, exec start s = .next { s with m := t } ∧ opens t g ∧ g.skip = false ∧ g.item.triggered = true ∧
           g.item.stamp = f.1 ∧ ((s.m.time.count.setWidth 32 : Word) - f.1).toNat ≤ s.m.fld (Reg.STR_CTRL st) 0 16 * 10000 ∧
           g.item.seq = (s.m.stream st).seq ∧ (t.stream st).seq = (s.m.stream st).seq + 1 ∧ t.obs = s.m.obs ∧
           ∀ h ∈ (t.fsyncOf o).fires, h.1 = f.1 → st ∈ h.2) ∧
       ((∀ f, s.m.matchFire st o = some f → st ∈ f.2) →
         ∃ t g, exec start s = .next { s with m := t } ∧ opens t g ∧ g.skip = true ∧ t.streams = s.m.streams ∧
           t.reg (Reg.STR_DROPS st) = s.m.reg (Reg.STR_DROPS st) + 1)) ∧
     (∀ f, s.m.showHome = false → (s.m.openFrames n).filter (fun g => g.is vc.toNat dt.toNat) = [f] → f.skip = false →
       ∃ (u : Mach) (it : Item), exec start s = exec start { s with m := u } ∧
         u.openFrames n = (s.m.openFrames n).filter (fun g => !g.is vc.toNat dt.toNat) ∧
         (u.stream f.stream).items = (s.m.stream f.stream).items ++ [it] ∧ it.damaged = true ∧
         it.payload = f.item.payload ∧ it.seq = f.item.seq ∧ it.stamp = f.item.stamp ∧
         (∀ p, p ≠ f.stream → u.stream p = s.m.stream p) ∧ s.m.regsBut u [Reg.SNS_CSI_STAT n] ∧
         { u with regs := s.m.regs, ports := s.m.ports, streams := s.m.streams } = s.m)) ∧
  (∀ (s : State) (n : Fin 8) (vc : BitVec 4) (dt : BitVec 6) (line : List Byte) (f : OpenFrame), s.m.live = true →
     s.m.csiEnabled n = true → (s.m.openFrames n).find? (fun g => g.is vc.toNat dt.toNat) = some f →
     (f.skip = false → f.cut = false → line.length ≤ (s.m.stream f.stream).q.capacity (s.m.inqGeom f.stream) →
       ∃ t g, exec (.csiLongPacket n vc dt line .clean true) s = .next { s with m := t } ∧
         (t.openFrames n).find? (fun g => g.is vc.toNat dt.toNat) = some g ∧ g.lines = f.lines + 1 ∧
         g.item.payload = f.item.payload ++ line ∧ g.item.damaged = f.item.damaged ∧ g.item.seq = f.item.seq ∧
         g.item.stamp = f.item.stamp ∧ (∀ o, o ≠ f.stream → t.stream o = s.m.stream o) ∧
         s.m.regsBut t [Reg.SNS_CSI_STAT n] ∧
         { t with regs := s.m.regs, ports := s.m.ports, streams := s.m.streams } = s.m) ∧
     (∃ t g, exec (.csiLongPacket n vc dt line .clean false) s = .next { s with m := t } ∧
       (t.openFrames n).find? (fun g => g.is vc.toNat dt.toNat) = some g ∧ g.item.damaged = true ∧ g.lines = f.lines ∧
       g.item.payload = f.item.payload ∧ t.rbit Reg.SNS_EVENT 0 = true ∧
       t.fld (Reg.SNS_CSI_ERR n) 0 16 = min 65535 (s.m.fld (Reg.SNS_CSI_ERR n) 0 16 + 1) ∧
       s.m.regsBut t [Reg.SNS_CSI_STAT n, Reg.SNS_CSI_ERR n, Reg.SNS_EVENT] ∧
       { t with regs := s.m.regs, ports := s.m.ports } = s.m) ∧
     (∀ (num : BitVec 16) (crcOk : Bool), ∀ i ∈ [Instr.frameStart n vc ⟨dt, num, .uncorrectable⟩,
         .csiLongPacket n vc dt line .uncorrectable crcOk, .frameEnd n vc ⟨dt, num, .uncorrectable⟩],
       ∃ t, exec i s = .next { s with m := t } ∧ t.openFrames n = (s.m.openFrames n).map OpenFrame.damage ∧
         t.rbit Reg.SNS_EVENT 0 = true ∧
         t.fld (Reg.SNS_CSI_ERR n) 0 16 = min 65535 (s.m.fld (Reg.SNS_CSI_ERR n) 0 16 + 1) ∧
         s.m.regsBut t [Reg.SNS_CSI_STAT n, Reg.SNS_CSI_ERR n, Reg.SNS_EVENT] ∧
         { t with regs := s.m.regs, ports := s.m.ports } = s.m)) ∧
  (∀ (s : State) (n : Fin 8) (vc : BitVec 4) (dt : BitVec 6) (num : BitVec 16), s.m.live = true → s.m.csiEnabled n = true →
     (∀ f, (s.m.openFrames n).find? (fun g => g.is vc.toNat dt.toNat) = some f → f.skip = false →
       let closes : Instr → Bool → Prop := fun i hurt =>
         ∃ t it, exec i s = .next { s with m := t } ∧
           t.openFrames n = (s.m.openFrames n).filter (fun g => !g.is vc.toNat dt.toNat) ∧
           (t.stream f.stream).items = (s.m.stream f.stream).items ++ [it] ∧
           (∀ o, o ≠ f.stream → t.stream o = s.m.stream o) ∧ it.payload = f.item.payload ∧ it.seq = f.item.seq ∧
           it.stamp = f.item.stamp ∧ it.info0 = BitVec.ofNat 32 (f.lines % 65536 * 65536 + f.width % 65536) ∧
           it.info1 = BitVec.ofNat 32 (dt.toNat * 256 + vc.toNat) ∧
           it.damaged = (f.item.damaged || hurt || f.height.any (fun h => f.lines != h) || f.cut) ∧
           s.m.regsBut t [Reg.SNS_CSI_STAT n] ∧
           { t with regs := s.m.regs, ports := s.m.ports, streams := s.m.streams } = s.m
       closes (.frameEnd n vc ⟨dt, num, .clean⟩) false ∧
       (reached (s.m.time.count.setWidth 32) (f.startAt + BitVec.ofNat 32 (s.m.fld (Reg.SNS_CSI_CFG n) 8 8 * 1000000)) = true →
         closes (.frameTimeout n vc dt) true)) ∧
     (s.m.openFrames n = [] → s.m.unselected n vc.toNat dt.toNat = true →
       ∃ t, exec (.frameEnd n vc ⟨dt, num, .clean⟩) s = .next { s with m := t } ∧ t.rbit Reg.SNS_EVENT 0 = true ∧
         t.fld (Reg.SNS_CSI_ERR n) 0 16 = min 65535 (s.m.fld (Reg.SNS_CSI_ERR n) 0 16 + 1) ∧
         s.m.regsBut t [Reg.SNS_CSI_ERR n, Reg.SNS_EVENT] ∧ { t with regs := s.m.regs, ports := s.m.ports } = s.m) ∧
     (∀ on,
       exec (.csiLaneSyncChange n on) s = .next { s with m := s.m.setRBit (Reg.SNS_CSI_STAT n) 0 on }))

/-- R73, Table 3-20: the I3C controller. A data write queues four bytes. A command write queues a transfer, at once or timed,
up to 16 of them and at most 2 s ahead, and is a bus error of cause 0x04 otherwise. A transfer starts when its controller is
enabled and free and its time has come, late where it came to the head of the queue after its time or starts more than the 1 ns late
that a step of the count by 2 can bring (R45); bytes of SNS_I3C_DATA beyond its length stay for the next (log entry 133); its end shows the acknowledgement and gives the bytes it
read, which a data read takes four at a time; a read of fewer takes what is there. An in-band interrupt is recorded. R74,
R83: FSYNC. In period mode a pulse rises at SNS_FSYNC_NEXT, which moves on by the period; in group mode a planned pulse rises
at its time, or 1 ns after it where the count stepped over it (R45), and one already past, or before the end of the pulse in progress,
is a miss; a pulse ends width_us after it rose; a new group leaves the plans of the old one (log entry 134). The registers take the values that R74 allows, and every other write of them is a bus error of cause 0x04. R83: when a
match window has passed, every triggered stream of the output counts one miss for each fire that brought it no frame and is not counted
yet, and no other stream counts any. It says under which conditions on the state and the operands alone each of these commands answers a
next state with its own effect: matchWindowExpiry, i3cDataWrite, i3cDataRead, i3cCmdQueue, i3cTransferStart, i3cTransferDone, i3cIbi, fsyncFire, fsyncPulseEnd, fsyncNextWrite,
fsyncCfgWrite. -/
def Obligations.I3cAndFsync : Prop :=
  (∀ (s : State) (n : Fin 8), s.m.live = true → s.m.runs 164 = true →
     let x := s.m.i3cOf n
     let only : Mach → I3c → Prop := fun t y =>
       t.i3cOf n = y ∧ (∀ o, o ≠ n.val → t.i3cOf o = s.m.i3cOf o) ∧ s.m.regsBut t [Reg.SNS_I3C_STAT n] ∧
         t.fld (Reg.SNS_I3C_STAT n) 0 5 = y.cmds.length % 32 ∧
         { t with regs := s.m.regs, ports := s.m.ports, port := s.m.port } = s.m
     (∀ v, s.m.writeCause (Reg.SNS_I3C_DATA n) v = none →
       ∃ t, exec (.i3cDataWrite n v) s = .next { s with m := t } ∧ only t { x with wdata := x.wdata ++ wordBytes v } ∧
         t.port = s.m.port) ∧
     (∀ v : Word, s.m.writeCause (Reg.SNS_I3C_CMD n) v = none →
       let at_ := s.m.reg (Reg.SNS_I3C_AT n)
       let may := x.cmds.length < 16 ∧ (v.getLsbD 22 = true → (at_ - s.m.time.count.setWidth 32).toInt ≤ 2000000000)
       (may → ∃ t, exec (.i3cCmdQueue n v) s = .next { s with m := t } ∧ t.port = s.m.port ∧
         only t { x with cmds := x.cmds ++ [(v, if v.getLsbD 22 then some at_ else none)],
                         headAt := if x.cmds.isEmpty && !x.busy then s.m.time.count.setWidth 32 else x.headAt }) ∧
       (¬ may → ∃ t, exec (.i3cCmdQueue n v) s = .next { s with m := t } ∧ s.m.busErr t (Reg.SNS_I3C_CMD n) 4)) ∧
     (∀ v due rest, x.cmds = (v, due) :: rest → s.m.rbit (Reg.SNS_I3C_CFG n) 31 = true → x.busy = false →
       (∀ a, due = some a → reached (s.m.time.count.setWidth 32) a = true) →
       ∃ t, exec (.i3cTransferStart n) s = .next { s with m := t } ∧ t.port = s.m.port ∧
         (∀ a, due = some a → t.rbit (Reg.SNS_I3C_STAT n) 9 =
           (before a x.headAt || decide (1 < ((s.m.time.count.setWidth 32 : Word) - a).toInt))) ∧
         only t { x with cmds := rest, busy := true,
                         wdata := x.wdata.drop (if v.field 30 2 = 1 then 0 else v.field 16 6) }) ∧
     (∀ data nack, x.busy = true →
       ∃ t, exec (.i3cTransferDone n data nack) s = .next { s with m := t } ∧ t.port = s.m.port ∧
         only t { x with busy := false, headAt := s.m.time.count.setWidth 32, rdata := x.rdata ++ data } ∧ t.rbit (Reg.SNS_I3C_STAT n) 8 = nack ∧
         t.fld (Reg.SNS_I3C_STAT n) 16 16 = (s.m.fld (Reg.SNS_I3C_STAT n) 16 16 + 1) % 65536) ∧
     (4 ≤ x.rdata.length →
       ∃ t, exec (.i3cDataRead n) s = .next { s with m := t } ∧ only t { x with rdata := x.rdata.drop 4 } ∧
         t.port = { s.m.port with answer := { s.m.port.answer with data := x.rdata.take 4 } }) ∧
     (x.rdata.length < 4 →
       ∃ t, exec (.i3cDataRead n) s = .next { s with m := t } ∧ t.i3cOf n = { x with rdata := [] } ∧
         (∀ o, o ≠ n.val → t.i3cOf o = s.m.i3cOf o) ∧ t.port.answer.data.take x.rdata.length = x.rdata ∧
         s.m.regsBut t [Reg.SNS_I3C_STAT n] ∧
         { t with regs := s.m.regs, ports := s.m.ports, port := s.m.port, freeCtr := s.m.freeCtr } = s.m) ∧
     (s.m.rbit (Reg.SNS_I3C_CFG n) 31 = true →
       exec (.i3cIbi n) s = .next { s with m := s.m.raise Reg.SNS_EVENT 0x8 })) ∧
  (∀ (s : State) (n : Fin 8), s.m.live = true → s.m.runs 164 = true →
     let x := s.m.fsyncOf n
     let now : Word := s.m.time.count.setWidth 32
     let cfg := s.m.reg (Reg.SNS_FSYNC_CFG n)
     let rises : Mach → Word → Prop := fun t at_ =>
       t.reg (Reg.SNS_FSYNC_LAST n) = at_ ∧ (t.fsyncOf n).pulseEnd = some (at_ + BitVec.ofNat 32 (cfg.field 0 16 * 1000)) ∧
         (at_, []) ∈ (t.fsyncOf n).fires ∧ (∀ o, o ≠ n.val → t.fsyncOf o = s.m.fsyncOf o) ∧
         { t with regs := s.m.regs, ports := s.m.ports } = s.m
     (cfg.getLsbD 31 = true → cfg.getLsbD 30 = false → reached now (s.m.reg (Reg.SNS_FSYNC_NEXT n)) = true →
       ∃ t, exec (.fsyncFire n) s = .next { s with m := t } ∧ rises t (s.m.reg (Reg.SNS_FSYNC_NEXT n)) ∧
         t.reg (Reg.SNS_FSYNC_NEXT n) = s.m.reg (Reg.SNS_FSYNC_NEXT n) + s.m.reg (Reg.SNS_FSYNC_PERIOD n) ∧
         s.m.regsBut t [Reg.SNS_FSYNC_NEXT n, Reg.SNS_FSYNC_LAST n]) ∧
     (∀ at_ rest, cfg.getLsbD 31 = true → cfg.getLsbD 30 = true → x.plans = at_ :: rest → now = at_ ∨ now = at_ + 1 →
       (∀ e, x.pulseEnd = some e → before at_ e = false) →
       ∃ t, exec (.fsyncFire n) s = .next { s with m := t } ∧ rises t at_ ∧ (t.fsyncOf n).plans = rest ∧
         s.m.regsBut t [Reg.SNS_FSYNC_LAST n]) ∧
     (∀ at_ rest, cfg.getLsbD 31 = true → cfg.getLsbD 30 = true → x.plans = at_ :: rest → reached now at_ = true →
       (1 < (now - at_).toInt ∨ ∃ e, x.pulseEnd = some e ∧ before at_ e = true) →
       ∃ t, exec (.fsyncFire n) s = .next { s with m := t } ∧ t.fsyncOf n = { x with plans := rest } ∧
         t.reg (Reg.SNS_FSYNC_STAT n) = s.m.reg (Reg.SNS_FSYNC_STAT n) + 1 ∧ s.m.regsBut t [Reg.SNS_FSYNC_STAT n] ∧
         { t with regs := s.m.regs, ports := s.m.ports } = s.m) ∧
     (∀ e, x.pulseEnd = some e → reached now e = true →
       ∃ t, exec (.fsyncPulseEnd n) s = .next { s with m := t } ∧ t.fsyncOf n = { x with pulseEnd := none } ∧
         (∀ o, o ≠ n.val → t.fsyncOf o = s.m.fsyncOf o) ∧ { t with ports := s.m.ports } = s.m) ∧
     (∀ v : Word, s.m.writeCause (Reg.SNS_FSYNC_NEXT n) v = none →
       let may := (10000 : Int) ≤ (v - now).toInt ∧ (v - now).toInt ≤ 2000000000 ∧
         ¬(∃ e, x.pulseEnd = some e ∧ cfg.getLsbD 31 = true ∧ cfg.getLsbD 30 = false ∧ before v e = true)
       (may → ∃ t, exec (.fsyncNextWrite n v) s = .next { s with m := t } ∧ t.reg (Reg.SNS_FSYNC_NEXT n) = v ∧
         s.m.regsBut t [Reg.SNS_FSYNC_NEXT n] ∧ { t with regs := s.m.regs } = s.m) ∧
       (¬ may → ∃ t, exec (.fsyncNextWrite n v) s = .next { s with m := t } ∧ s.m.busErr t (Reg.SNS_FSYNC_NEXT n) 4)) ∧
     (∀ v : Word, s.m.writeCause (Reg.SNS_FSYNC_PERIOD n) v = none →
       (cfg.getLsbD 30 = true ∨ cfg.field 0 16 * 1000 < v.toNat →
         ∃ t, exec (.fsyncCfgWrite n true v) s = .next { s with m := t } ∧ t.reg (Reg.SNS_FSYNC_PERIOD n) = v ∧
           s.m.regsBut t [Reg.SNS_FSYNC_PERIOD n] ∧
           { t with regs := s.m.regs } = s.m) ∧
       (cfg.getLsbD 30 = false → v.toNat ≤ cfg.field 0 16 * 1000 →
         ∃ t, exec (.fsyncCfgWrite n true v) s = .next { s with m := t } ∧ s.m.busErr t (Reg.SNS_FSYNC_PERIOD n) 4)) ∧
     (∀ v : Word, s.m.writeCause (Reg.SNS_FSYNC_CFG n) v = none →
       let ahead := (s.m.reg (Reg.SNS_FSYNC_NEXT n) - now).toInt
       let may := v.getLsbD 30 = true ∨ (v.field 0 16 * 1000 < (s.m.reg (Reg.SNS_FSYNC_PERIOD n)).toNat ∧
         (v.getLsbD 31 = false ∨ (cfg.getLsbD 31 = true ∧ cfg.getLsbD 30 = false) ∨ (10000 ≤ ahead ∧ ahead ≤ 2000000000)))
       (may → ∃ t, exec (.fsyncCfgWrite n false v) s = .next { s with m := t } ∧
         t.reg (Reg.SNS_FSYNC_CFG n) = v &&& 0xEF00FFFF ∧ s.m.regsBut t [Reg.SNS_FSYNC_CFG n] ∧
         t.fsyncOf n = { x with plans := if v.getLsbD 31 && v.getLsbD 30 then x.plans else [] } ∧
         (∀ o, o ≠ n.val → t.fsyncOf o = s.m.fsyncOf o) ∧ { t with regs := s.m.regs, ports := s.m.ports } = s.m) ∧
       (¬ may → ∃ t, exec (.fsyncCfgWrite n false v) s = .next { s with m := t } ∧ s.m.busErr t (Reg.SNS_FSYNC_CFG n) 4))) ∧
  (∀ (s : State) (n : Fin 8), s.m.live = true →
     ∃ t, exec (.matchWindowExpiry n) s = .next { s with m := t } ∧
       (∀ st, st < 256 → t.reg (Reg.STR_MISS st) = s.m.reg (Reg.STR_MISS st) + BitVec.ofNat 32
         (if s.m.triggeredBy n st then
           ((s.m.fsyncOf n).fires.filter fun f => !fireSettled st f &&
             decide ((s.m.matchWindow st : Int) < ((s.m.time.count.setWidth 32 : Word) - f.1).toInt)).length
         else 0)) ∧
       (∀ r, (∀ st, st < 256 → r ≠ Reg.STR_MISS st) → t.reg r = s.m.reg r) ∧
       { t with regs := s.m.regs, ports := s.m.ports } = s.m)

/-! ## Scanners, links, the low-rate hub and the streams (R75 to R97) -/

/-- R75, R76, R80, R85, R87, R89: a datagram of a MAC whose link is up. One with an FCS or length error is counted in
SNS_MAC_RXERR; one that Table 3-3 does not support or that no stream selects is dropped and counted; a PTP message goes to no
stream; one its stream cannot decode is counted as malformed; any other goes to its stream, a Generic Point Format or a
described one, stamped with the ingress latency taken off; under a calibrated or an identity map the item that it makes has that stamp, the
stream's next sequence number, and the points kept with their short times as its payload (R84, R87, R93). A block of the sensor-time map that ends gives the map its
minimum. R75, R282, R453, Table 3-3: PAUSE frames, link changes, answered requests and resolved neighbours of a MAC. It says under
which conditions on the state and the operands alone each of these commands answers a next state with its own effect:
datagramRx, mapBlockEnd, pauseRx, macLinkChange, netRequestRx, neighbourRefresh. -/
def Obligations.EthernetPorts : Prop :=
  (∀ (s : State) (p : Fin 4) (d : Datagram), s.m.live = true →
     let counted := s.m.bump (500 + p.val) (frameBytes d)
     let stamp := s.m.time.count - BitVec.ofNat 64 (s.m.fld (Reg.TIME_PTP_LAT p) 0 16)
     let counts : Nat → Prop := fun a => ∃ t, exec (.datagramRx p d) s = .next { s with m := t } ∧
       t.reg a = s.m.reg a + 1 ∧ s.m.regsBut t [a] ∧ { t with regs := s.m.regs, obs := s.m.obs } = s.m
     (s.m.macUp p = true → s.m.isMessage d = false →
       (d.intact = false → counts (Reg.SNS_MAC_RXERR p)) ∧
       (d.intact = true → s.m.unsupported p d = true → counts (Reg.SNS_MAC_RXDROP p)) ∧
       (d.intact = true → s.m.unsupported p d = false → isPtp d = true →
         exec (.datagramRx p d) s = .next { s with m := counted }) ∧
       (d.intact = true → s.m.unsupported p d = false → isPtp d = false →
         (s.m.showHome = false → s.m.scannerStream p d = none → counts (Reg.SNS_MAC_RXDROP p)) ∧
         (∀ st, s.m.scannerStream p d = some st →
           let x := s.m.stream st
           let scan := if s.m.strKind st = 2 then (if cgpfOk d.payload then some (cgpfScan d.payload x.lastSweep) else none)
             else descScan (s.m.descriptor (s.m.fld (Reg.STR_SOURCE st) 5 5)) d.payload x.lastSweep x.lastAz
           (∀ sc, scan = some sc →
             exec (.datagramRx p d) s = .next { s with m := (counted.stopNear sc).scanIn st stamp sc }) ∧
           (∀ sc, scan = some sc → s.m.showHome = false →
             let mode := s.m.fld (Reg.STR_CTRL st) 29 2
             mode = 1 ∨ (mode = 2 ∧ s.m.rbit Reg.TIME_STATUS 0 = true) →
             let aw := s.m.time.anchorWide.total
             let conv := if mode = 1 then (entryCoef (s.m.calForMap st stamp)).conv
               else fun t => BitVec.ofInt 32 (s.m.time.anchorCount.toNat + (t - aw))
             let kept := (keepPoints conv x.sweepOwed (if mode = 1 then sc.pts else (sc.since aw).pts)).1
             let payload := kept.flatMap fun k => pointBytes k.1 k.2.1 k.2.2
             kept ≠ [] → recordBytes payload.length ≤ x.q.capacity (s.m.inqGeom st) →
             ∃ t it, exec (.datagramRx p d) s = .next { s with m := t } ∧ (t.stream st).items = x.items ++ [it] ∧
               it.kind = s.m.strKind st ∧ it.stamp = stamp.setWidth 32 ∧ it.seq = x.seq ∧ (t.stream st).seq = x.seq + 1 ∧
               it.first = x.first ∧ it.payload = payload ∧ it.info0 = BitVec.ofNat 32 (sc.sweep % 65536 * 65536 + kept.length) ∧
               it.offsetOnly = false ∧ t.reg (Reg.STR_MALF st) = s.m.reg (Reg.STR_MALF st) + BitVec.ofNat 32 sc.malf ∧
               ∀ o, o ≠ st → t.stream o = s.m.stream o) ∧
           (scan = none → counts (Reg.STR_MALF st))))) ∧
     (∀ (st : Fin 256) b dly tt, (s.m.stream st).blockMin = some (b, dly, tt) → b < s.m.time.count.toNat / 250000000 →
       ∃ t, exec (.mapBlockEnd st) s = .next { s with m := t } ∧
         t.reg (Reg.STR_MAP_S0_LO st) = BitVec.ofNat 32 tt ∧ t.reg (Reg.STR_MAP_S0_HI st) = BitVec.ofNat 32 (tt / 2 ^ 32) ∧
         t.reg (Reg.STR_MAP_M0 st) = BitVec.ofInt 32 (tt + dly) ∧
         t.fld (Reg.STR_STATUS st) 1 2 = (if 7 ≤ (s.m.stream st).minima.length then 2 else 1) ∧
         ((s.m.stream st).minima.length < 7 → t.reg (Reg.STR_MAP_SKEW st) = 0) ∧
         (t.stream st).blockMin = none ∧ (t.stream st).minima = ((dly, tt) :: (s.m.stream st).minima).take 8 ∧
         (∀ o, o ≠ st.val → t.stream o = s.m.stream o) ∧
         s.m.regsBut t [Reg.STR_MAP_S0_LO st, Reg.STR_MAP_S0_HI st, Reg.STR_MAP_M0 st, Reg.STR_MAP_SKEW st, Reg.STR_STATUS st] ∧
         { t with regs := s.m.regs, streams := s.m.streams } = s.m)) ∧
  (∀ (s : State) (p : Fin 4), s.m.live = true →
     (∀ quanta : BitVec 16, s.m.macUp p = true → s.m.rbit (Reg.SNS_MAC_CFG p) 28 = true →
       ∃ t, exec (.pauseRx p quanta) s = .next { s with m := t } ∧ sget (fun _ => 0) t.egr.pause p = quanta.toNat ∧
         (∀ o, o ≠ p.val → sget (fun _ => 0) t.egr.pause o = sget (fun _ => 0) s.m.egr.pause o) ∧
         { t with egr := s.m.egr } = s.m ∧ { t.egr with pause := s.m.egr.pause } = s.m.egr) ∧
     (∀ up (rate : BitVec 2),
       let on := s.m.rbit (Reg.SNS_MAC_CFG p) 31 && !(s.m.island (152 + p.val)).stopped.contains .standby && up && decide (s.m.fld (Reg.SNS_MAC_CFG p) 29 2 ≤ rate.toNat)
       ∃ t, exec (.macLinkChange p up rate) s = .next { s with m := t } ∧ t.rbit (Reg.SNS_MAC_STAT p) 0 = on ∧
         (up = true → t.fld (Reg.SNS_MAC_STAT p) 1 2 = rate.toNat) ∧
         (on ≠ s.m.rbit (Reg.SNS_MAC_STAT p) 0 → t.rbit Reg.SNS_EVENT 1 = true) ∧
         (on = s.m.rbit (Reg.SNS_MAC_STAT p) 0 → t.reg Reg.SNS_EVENT = s.m.reg Reg.SNS_EVENT ∧ t.egr = s.m.egr) ∧
         s.m.regsBut t [Reg.SNS_MAC_STAT p, Reg.SNS_EVENT] ∧
         { t with regs := s.m.regs, ports := s.m.ports, egr := s.m.egr } = s.m) ∧
     (∀ r, s.m.macUp p = true → s.m.rbit (Reg.NET_CFG p) 29 = true →
       s.m.rbit (Reg.NET_CFG p) (if reqSix r then 30 else 31) = true → reqTarget r = s.m.ownIp p (reqSix r) →
       ∃ t, exec (.netRequestRx p r) s = .next { s with m := t } ∧ { t with egr := s.m.egr } = s.m ∧
         t.egr = { s.m.egr with sent :=
           s.m.egr.sent ++ [{ mac := p, src := s.m.ownMac p, vlan := s.m.macVlan p, body := .reply r }] }) ∧
     (∀ ip answer, s.m.macUp p = true → s.m.resolves p ip = true → s.m.resolveDue p ip = true →
       ∃ t, exec (.neighbourRefresh p ip answer) s = .next { s with m := t } ∧
         t.nbrs p = refreshed (s.m.nbrs p) ip answer s.m.time.count ∧ (∀ o, o ≠ p.val → t.nbrs o = s.m.nbrs o) ∧
         t.egr.sent = s.m.egr.sent ++ [{ mac := p, src := s.m.ownMac p, vlan := s.m.macVlan p, body := .resolve ip }] ∧
         t.reg (Reg.NET_NBR p) = BitVec.ofNat 32 (t.nbrs p).length ∧ s.m.regsBut t [Reg.NET_NBR p] ∧
         { t with regs := s.m.regs, egr := s.m.egr } = s.m))

/-- R77, R94: SPI. A DRDY edge of the configured direction starts a read, stamped now, for the stream that selects it; one
during a read holds its stamp and is counted; the bytes of a read make one sample of its stream with the stamp of its edge,
and the held read begins. A sample that no stream takes is counted in SNS_HUB_DROP. R78, Tables 3-4, 3-12: CAN. A frame of an
enabled controller that is not bus off makes one item of its stream and lowers the receive error count by 1, or to 119 to 127 from above 127 (log entries 77 and 135); an error frame gives
the counters and the state they stand for; recovery from bus off clears them. R78: encoders. One transition of A or B counts
one step, both at once are an error that is counted and do not count; at a sample boundary the count and the edge stamps make
one item, and the next boundary is one period on. The direction of a step is the model's choice, log entry 20. R78, R79,
R115: GPIO. A level change at an input pin shows in SNS_GPIO_IN, is an item of its stream where its edge is enabled, with an empty payload
(log entry 79), and is offered to the groups it triggers; one output can be armed 1 µs to 2 s ahead with its pin and level (log entry 137), every other arming is a bus error, and at its time the pin takes its level. It says under which
conditions on the state and the operands alone each of these commands answers a next state with its own effect: drdyEdge,
spiReadDone, canFrameRx, canErrorFrame, canBusoffRecovery, encoderEdge, encoderSample, gpioEdge, gpioTarm, gpioTimedOutput.
-/
def Obligations.LowRatePorts : Prop :=
  (∀ (s : State) (i : Fin 4), s.m.live = true → s.m.runs 164 = true →
     let x := s.m.spiOf i
     let cfg := s.m.reg (Reg.SNS_SPI_CFG i)
     let now : Word := s.m.time.count.setWidth 32
     (∀ rising, cfg.getLsbD 31 = true → rising = (!cfg.getLsbD 28) →
       (x.reading = none →
         ∃ t, exec (.drdyEdge i rising) s = .next { s with m := t } ∧
           t.spiOf i = { reading := some (now, s.m.selectStream fun o => s.m.strFrom o 4 i) } ∧
           (∀ o, o ≠ i.val → t.spiOf o = s.m.spiOf o) ∧ { t with ports := s.m.ports } = s.m) ∧
       (x.reading ≠ none →
         ∃ t, exec (.drdyEdge i rising) s = .next { s with m := t } ∧
           t.spiOf i = { x with held := some now } ∧
           t.reg (Reg.SNS_SPI_STAT i) = s.m.reg (Reg.SNS_SPI_STAT i) + 1 ∧ s.m.regsBut t [Reg.SNS_SPI_STAT i] ∧
           { t with regs := s.m.regs, ports := s.m.ports } = s.m)) ∧
     (∀ at_ dest data, x.reading = some (at_, dest) →
       let its := dest.filter fun o => s.m.strEnabled o || s.m.rbit (Reg.STR_STATUS o) 3
       let sel := s.m.selectStream fun o => s.m.strFrom o 4 i
       let it := { plainItem 4 at_ (BitVec.ofNat 32 data.length) 0 data with damaged := x.broken }
       let done : Mach → Prop := fun t => t.spiOf i = { reading := x.held.map fun h => (h, sel) }
       (∀ st, its = some st → recordBytes data.length ≤ (s.m.stream st).q.capacity (s.m.inqGeom st) →
         ∃ t, exec (.spiReadDone i data) s = .next { s with m := t.strDrained st } ∧ done t ∧ s.m.tookItem t st it) ∧
       (∀ st, its = none → sel = some st → recordBytes data.length ≤ (s.m.stream st).q.capacity (s.m.inqGeom st) →
         ∃ t, exec (.spiReadDone i data) s = .next { s with m := t } ∧ done t ∧ s.m.tookItem t st it) ∧
       (∀ st, its = none → sel = some st → (s.m.stream st).q.capacity (s.m.inqGeom st) < recordBytes data.length →
         ∃ t, exec (.spiReadDone i data) s = .next { s with m := t } ∧ (t.stream st).items = (s.m.stream st).items ∧
           (t.stream st).seq = (s.m.stream st).seq ∧ (t.stream st).first = true ∧ t.rbit (Reg.STR_EVENT st) 1 = true ∧
           t.reg (Reg.STR_DROPS st) = s.m.reg (Reg.STR_DROPS st) + 1 ∧
           s.m.regsBut t [Reg.STR_DROPS st, Reg.STR_EVENT st]) ∧
       (its = none → sel = none →
         ∃ t, exec (.spiReadDone i data) s = .next { s with m := t } ∧ done t ∧ t.streams = s.m.streams ∧
           t.fld Reg.SNS_HUB_DROP 24 8 = (s.m.fld Reg.SNS_HUB_DROP 24 8 + 1) % 256 ∧ s.m.regsBut t [Reg.SNS_HUB_DROP] ∧
           { t with regs := s.m.regs, ports := s.m.ports } = s.m))) ∧
  (∀ (s : State) (j : Fin 2), s.m.live = true → s.m.runs 164 = true →
     (∀ f st, s.m.rbit (Reg.SNS_CAN_CFG j) 31 = true → s.m.canState j ≠ 2 →
       (f.fd = true → s.m.rbit (Reg.SNS_CAN_CFG j) 29 = true) → s.m.selectStream (s.m.canMatch j f) = some st →
       recordBytes f.data.length ≤ (s.m.stream st).q.capacity (s.m.inqGeom st) →
       ∃ t, exec (.canFrameRx j f) s = .next { s with m := t } ∧
         (let rec' := s.m.fld (Reg.SNS_CAN_STAT j) 16 8
          let after := t.fld (Reg.SNS_CAN_STAT j) 16 8
          (rec' ≤ 127 → after = rec' - 1) ∧ (127 < rec' → 119 ≤ after ∧ after ≤ 127)) ∧
         (s.m.canGood j).tookItem t st (plainItem 6 f.sof (f.ident.setWidth 32) (BitVec.ofNat 32 f.data.length) f.data)) ∧
     (∀ (tec : BitVec 9) (rec : BitVec 8), s.m.rbit (Reg.SNS_CAN_CFG j) 31 = true → s.m.canState j ≠ 2 →
       let st := if 256 ≤ tec.toNat then 2 else if 128 ≤ tec.toNat ∨ 128 ≤ rec.toNat then 1 else 0
       ∃ t, exec (.canErrorFrame j tec rec) s = .next { s with m := t } ∧ t.canState j = st ∧
         t.fld (Reg.SNS_CAN_STAT j) 24 8 = min 255 tec.toNat ∧ t.fld (Reg.SNS_CAN_STAT j) 16 8 = rec.toNat ∧
         (st = 2 → t.rbit Reg.SNS_EVENT 2 = true) ∧ s.m.regsBut t [Reg.SNS_CAN_STAT j, Reg.SNS_EVENT] ∧
         { t with regs := s.m.regs } = s.m) ∧
     (s.m.canState j = 2 →
       exec (.canBusoffRecovery j) s = .next { s with m := s.m.setReg (Reg.SNS_CAN_STAT j) 0 })) ∧
  (∀ (s : State) (e : Fin 8), s.m.live = true → s.m.runs 164 = true → s.m.rbit (Reg.SNS_ENC_CFG e) 31 = true →
     let x := s.m.encOf e
     (∀ a b z, (a = (!x.a) ∧ b = x.b) ∨ (a = x.a ∧ b = (!x.b)) →
       ∃ t, exec (.encoderEdge e a b z) s = .next { s with m := t } ∧
         (t.reg (Reg.SNS_ENC_COUNT e) = s.m.reg (Reg.SNS_ENC_COUNT e) + 1 ∨
           t.reg (Reg.SNS_ENC_COUNT e) = s.m.reg (Reg.SNS_ENC_COUNT e) - 1) ∧
         (t.encOf e).a = a ∧ (t.encOf e).b = b ∧ (t.encOf e).z = z ∧ (t.encOf e).edge = s.m.time.count.setWidth 32 ∧
         s.m.regsBut t [Reg.SNS_ENC_COUNT e] ∧ { t with regs := s.m.regs, ports := s.m.ports } = s.m) ∧
     (∀ a b z, a = (!x.a) → b = (!x.b) →
       ∃ t, exec (.encoderEdge e a b z) s = .next { s with m := t } ∧
         t.reg (Reg.SNS_ENC_STAT e) = s.m.reg (Reg.SNS_ENC_STAT e) + 1 ∧ s.m.regsBut t [Reg.SNS_ENC_STAT e]) ∧
     (∀ at_ st, x.next = some at_ → reached (s.m.time.count.setWidth 32) at_ = true →
       s.m.selectStream (fun o => s.m.strFrom o 5 e) = some st →
       64 ≤ (s.m.stream st).q.capacity (s.m.inqGeom st) →
       ∃ t, exec (.encoderSample e) s = .next { s with m := t } ∧
         t.encOf e = { x with next := some (at_ + BitVec.ofNat 32 (s.m.fld (Reg.SNS_ENC_CFG e) 0 16 * 1000)) } ∧
         s.m.tookItem t st (plainItem 5 at_ (s.m.reg (Reg.SNS_ENC_COUNT e)) 0 (wordBytes x.edge ++ wordBytes x.zEdge)))) ∧
  (∀ s : State, s.m.live = true →
     (∀ (pin : Fin 16) level, s.m.runs 164 = true → s.m.rbit Reg.SNS_GPIO_DIR pin = false →
       s.m.rbit Reg.SNS_GPIO_IN pin ≠ level → s.m.rbit Reg.SNS_GPIO_EDGE (if level then 16 + pin.val else pin.val) = false →
       let seen := (s.m.setRBit Reg.SNS_GPIO_IN pin level).gpioTrigger pin level (s.m.time.count.setWidth 32)
       exec (.gpioEdge pin level) s = .next { s with m := seen }) ∧
     (∀ (pin : Fin 16) level, s.m.runs 164 = true → s.m.rbit Reg.SNS_GPIO_DIR pin = false →
       s.m.rbit Reg.SNS_GPIO_IN pin ≠ level → s.m.rbit Reg.SNS_GPIO_EDGE (if level then 16 + pin.val else pin.val) = true →
       let now : Word := s.m.time.count.setWidth 32
       let seen := s.m.setRBit Reg.SNS_GPIO_IN pin level
       let sel := s.m.selectStream fun o => s.m.strKind o == 7 && s.m.rbit (Reg.STR_MATCH o) pin
       let it := plainItem 7 now 0 (BitVec.ofNat 32 (pin.val * 16 + level.toNat)) []
       ∃ t : Mach, exec (.gpioEdge pin level) s = .next { s with m := t.gpioTrigger pin level now } ∧
         t.rbit Reg.SNS_GPIO_IN pin = level ∧
         (∀ st, sel = some st → 32 ≤ (s.m.stream st).q.capacity (s.m.inqGeom st) → seen.tookItem t st it) ∧
         (∀ st, sel = some st → (s.m.stream st).q.capacity (s.m.inqGeom st) < 32 →
           (t.stream st).items = (s.m.stream st).items ∧ t.reg (Reg.STR_DROPS st) = s.m.reg (Reg.STR_DROPS st) + 1) ∧
         (sel = none → t.streams = s.m.streams ∧ t.fld Reg.SNS_HUB_DROP 0 8 = (s.m.fld Reg.SNS_HUB_DROP 0 8 + 1) % 256)) ∧
     (∀ v : Word, v.getLsbD 0 = true → s.m.writeCause Reg.SNS_GPIO_TARM v = none →
       let at_ := s.m.reg Reg.SNS_GPIO_TAT
       let pin := s.m.fld Reg.SNS_GPIO_TCFG 4 4
       let ahead := (at_ - s.m.time.count.setWidth 32).toInt
       let may := s.m.ports.timed = none ∧ 1000 ≤ ahead ∧ ahead ≤ 2000000000 ∧ ¬(s.m.showHome = true ∧ pin = 0)
       (may → ∃ t, exec (.gpioTarm v) s = .next { s with m := t } ∧
         t.ports = { s.m.ports with timed := some (at_, pin, s.m.rbit Reg.SNS_GPIO_TCFG 0) } ∧
         { t with ports := s.m.ports } = s.m) ∧
       (¬ may → ∃ t, exec (.gpioTarm v) s = .next { s with m := t } ∧ s.m.busErr t Reg.SNS_GPIO_TARM 4)) ∧
     (∀ at_ pin level, s.m.runs 164 = true → s.m.ports.timed = some (at_, pin, level) →
       reached (s.m.time.count.setWidth 32) at_ = true →
       let done : Mach := { s.m with ports := { s.m.ports with timed := none } }
       exec .gpioTimedOutput s = .next { s with m := done.driveGpio ((s.m.reg Reg.SNS_GPIO_OUT).setBit pin level) }))

/-- R91, R93, Table 3-11: the spillway, whose turn comes to a stream, writes the oldest whole item of a stream, header and
payload, into the ring at its write position, counts it and shows its stamp; no other byte of memory changes; then the record
sets off what it sets off. It says under which conditions on the state and the operands alone each of these commands answers
a next state with its own effect: spillwayWrite. -/
def Obligations.SpillwayWrites : Prop :=
  ∀ (s : State) (st : Fin 256) (it : Item) (rest : List Item), s.m.live = true → s.m.runs 150 = true →
    s.m.spillNext = some st.val → (s.m.stream st).items = it :: rest → (spillBytes (s.m.inqGeom st) (s.m.stream st).q it.left).2 = 0 →
    let n := recordBytes it.payload.length
    let off := (s.m.reg (Reg.STR_RING_WR st)).toNat
    let at_ := s.m.ringBase st + off
    off + n ≤ s.m.ringSize st →
    ∃ (t : Mach) (r : RingRec), exec (.spillwayWrite st) s = .next { s with m := ((t.post st r).ringPrune st).strDrained st } ∧
      r.off = off ∧ r.len = n ∧ r.item = { it with left := 0 } ∧ r.live = true ∧ (t.stream st).items = rest ∧
      (∀ i, i < n → t.byte (at_ + i) =
        (padTo n (recordHeader st n { it with left := 0 } ++ it.payload)).getD i 0) ∧
      (∀ x, x < at_ ∨ at_ + n ≤ x → t.byte x = s.m.byte x) ∧
      t.reg (Reg.STR_RING_WR st) = BitVec.ofNat 32 (off + n) ∧
      t.reg (Reg.STR_ITEMS st) = s.m.reg (Reg.STR_ITEMS st) + 1 ∧ t.reg (Reg.STR_LAST_STAMP st) = it.stamp ∧
      s.m.regsBut t [Reg.STR_RING_WR st, Reg.STR_ITEMS st, Reg.STR_LAST_STAMP st, Reg.STR_STATUS st, Reg.STR_EVENT st] ∧
      (∀ o, o ≠ st.val → t.stream o = s.m.stream o) ∧
      t.ports = { s.m.ports with spillTurn := st.val } ∧
      { t with regs := s.m.regs, mem := s.m.mem, streams := s.m.streams, obs := s.m.obs, ports := s.m.ports } = s.m

/-- R94: enabling a stream with a queue of its own starts it afresh, one without a queue or still draining is a bus error of
cause 0x04; so is one whose queue overlaps another's or lies outside its allocation (log entry 141); disabling lets it drain. A port's enable shows in its register: a CSI-2 port that is disabled has no open frame
and an SPI port no read, a disabled MAC has no link and its PTP port is DISABLED, an encoder that is enabled plans its
first sample and one that is disabled plans none, and nothing else follows from enabling a CSI-2, an SPI, a CAN or an I3C port. It says under which conditions on the state and the operands alone each of these commands answers a next state
with its own effect: streamEnable, streamDisable, portEnableChange. -/
def Obligations.StreamAndPortEnables : Prop :=
  ∀ s : State, s.m.live = true →
    (∀ (st : Fin 256) (v : Word), v = (s.m.reg (Reg.STR_CTRL st)).setBit 31 true →
      s.m.writeCause (Reg.STR_CTRL st) v = none → s.m.strEnabled st = false →
      ((s.m.strKind st == 2 || s.m.strKind st == 3) && v.field 0 16 == 0) = false →
      let may := s.m.rbit (Reg.STR_STATUS st) 3 = false ∧
        s.m.inqOk st (s.m.reg (Reg.STR_SOURCE st)) (s.m.reg (Reg.STR_INQ st)) = true
      (may → ∃ t, exec (.streamEnable st) s = .next { s with m := t } ∧ t.rbit (Reg.STR_CTRL st) 31 = true ∧
        (t.stream st).first = true ∧ (t.stream st).items = [] ∧ (t.stream st).q = {} ∧ t.fld (Reg.STR_STATUS st) 1 2 = 0 ∧
        (∀ o, o ≠ st.val → t.stream o = s.m.stream o) ∧ s.m.regsBut t [Reg.STR_CTRL st, Reg.STR_STATUS st] ∧
        { t with regs := s.m.regs, ports := s.m.ports, streams := s.m.streams } = s.m) ∧
      (¬ may → ∃ t, exec (.streamEnable st) s = .next { s with m := t } ∧ s.m.busErr t (Reg.STR_CTRL st) 4)) ∧
    (∀ (st : Fin 256) (v : Word), v = (s.m.reg (Reg.STR_CTRL st)).setBit 31 false →
      s.m.writeCause (Reg.STR_CTRL st) v = none → s.m.strEnabled st = true →
      ((s.m.strKind st == 2 || s.m.strKind st == 3) && v.field 0 16 == 0) = false →
      ∃ t, exec (.streamDisable st) s = .next { s with m := t } ∧ t.rbit (Reg.STR_CTRL st) 31 = false ∧
        t.rbit (Reg.STR_STATUS st) 3 = s.m.strBusy st ∧ s.m.regsBut t [Reg.STR_CTRL st, Reg.STR_STATUS st] ∧
        { t with regs := s.m.regs } = s.m) ∧
    (∀ (p : Fin 4) on, s.m.writeCause (Reg.SNS_MAC_CFG p) ((s.m.reg (Reg.SNS_MAC_CFG p)).setBit 31 on) = none →
      ∃ t, exec (.portEnableChange (.mac p) on) s = .next { s with m := t } ∧ t.rbit (Reg.SNS_MAC_CFG p) 31 = on ∧
        (on = false → t.rbit (Reg.SNS_MAC_STAT p) 0 = false) ∧
        (on = false → s.m.rbit (Reg.SNS_MAC_CFG p) 31 = true → t.fld (Reg.TIME_PTP_STAT p) 0 4 = 3) ∧
        s.m.regsBut t [Reg.SNS_MAC_CFG p, Reg.SNS_MAC_STAT p, Reg.SNS_EVENT, Reg.TIME_PTP_STAT p, Reg.TIME_STATUS,
          Reg.TIME_EVENT] ∧ { t with regs := s.m.regs, time := s.m.time, egr := s.m.egr } = s.m) ∧
    (∀ (p : PortRef) on, ((∃ j, p = .can j) ∨ ∃ n, p = .i3c n) →
      s.m.writeCause (portReg p) ((s.m.reg (portReg p)).setBit 31 on) = none →
      ∃ t, exec (.portEnableChange p on) s = .next { s with m := t } ∧ t.rbit (portReg p) 31 = on ∧
        s.m.regsBut t [portReg p] ∧ { t with regs := s.m.regs } = s.m) ∧
    (∀ n : Fin 8, s.m.writeCause (Reg.SNS_CSI_CFG n) ((s.m.reg (Reg.SNS_CSI_CFG n)).setBit 31 false) = none →
      s.m.rbit (Reg.SNS_CSI_CFG n) 31 = true →
      ∃ t, exec (.portEnableChange (.csi n) false) s = .next { s with m := t } ∧ t.rbit (Reg.SNS_CSI_CFG n) 31 = false ∧
        t.openFrames n = [] ∧ (∀ o, o ≠ n.val → t.openFrames o = s.m.openFrames o) ∧ t.mem = s.m.mem) ∧
    (∀ i : Fin 4, s.m.writeCause (Reg.SNS_SPI_CFG i) ((s.m.reg (Reg.SNS_SPI_CFG i)).setBit 31 false) = none →
      s.m.rbit (Reg.SNS_SPI_CFG i) 31 = true →
      ∃ t, exec (.portEnableChange (.spi i) false) s = .next { s with m := t } ∧ t.rbit (Reg.SNS_SPI_CFG i) 31 = false ∧
        (t.spiOf i).reading = none ∧ (∀ o, o ≠ i.val → t.spiOf o = s.m.spiOf o) ∧ t.mem = s.m.mem) ∧
    (∀ p : PortRef, ((∃ n, p = .csi n) ∨ ∃ i, p = .spi i) → s.m.writeCause (portReg p) ((s.m.reg (portReg p)).setBit 31 true) = none →
      s.m.rbit (portReg p) 31 = false →
      ∃ t, exec (.portEnableChange p true) s = .next { s with m := t } ∧ t.rbit (portReg p) 31 = true ∧
        s.m.regsBut t [portReg p] ∧ { t with regs := s.m.regs } = s.m) ∧
    (∀ e : Fin 8, s.m.writeCause (Reg.SNS_ENC_CFG e) ((s.m.reg (Reg.SNS_ENC_CFG e)).setBit 31 false) = none →
      s.m.rbit (Reg.SNS_ENC_CFG e) 31 = true →
      ∃ t, exec (.portEnableChange (.enc e) false) s = .next { s with m := t } ∧ t.rbit (Reg.SNS_ENC_CFG e) 31 = false ∧
        t.encOf e = { s.m.encOf e with next := none } ∧ (∀ o, o ≠ e.val → t.encOf o = s.m.encOf o) ∧
        s.m.regsBut t [Reg.SNS_ENC_CFG e] ∧ { t with regs := s.m.regs, ports := s.m.ports } = s.m) ∧
    (∀ (e : Fin 8), s.m.writeCause (Reg.SNS_ENC_CFG e) ((s.m.reg (Reg.SNS_ENC_CFG e)).setBit 31 true) = none →
      s.m.rbit (Reg.SNS_ENC_CFG e) 31 = false →
      ∃ t, exec (.portEnableChange (.enc e) true) s = .next { s with m := t } ∧ t.rbit (Reg.SNS_ENC_CFG e) 31 = true ∧
        (t.encOf e).next = some (s.m.time.count.setWidth 32 + t.encPeriod e) ∧ s.m.regsBut t [Reg.SNS_ENC_CFG e] ∧
        { t with regs := s.m.regs, ports := s.m.ports } = s.m)

/-! ## Twin-basin queues (R98 to R111, R280) -/

/-- R102, R104 to R108, R111: the bits of Q_CMD. Where the host consumes, MARK takes the read position, RELEASE moves the
release position to the mark or the read position and never back, REWIND moves the read position back; where it produces, a
flush ends the open record and is pending; clear_underrun clears underrun at either. The swap of R101 is evaluated once
after, an empty queue that comes to hold data raises ready, and nothing else changes. Out of place, each is a bus error of
cause 0x04. R104, R280: a read of Q_RDATA by the consuming host takes the word at RD and moves RD by 4; an empty queue gives
its last value again, sets underrun and raises it. A write of Q_WDATA by the producing host puts the word at F of the filling
basin where the open record still has room; without room the record is discarded whole, the drop is counted, and the write is
a bus error. Where the host does not consume, or produce, the access is refused and the queue is as before. It says under
which conditions on the state and the operands alone each of these commands answers a next state with its own effect: qRead,
qWdataWrite, mark, release, rewind, flush, clearUnderrun. -/
def Obligations.HostQueueAccess : Prop :=
  (∀ (s : State) (h : HostQ), s.m.live = true → s.m.blockPosted (Reg.Q_CMD (hqWindow h)) = false →
     let a := Reg.Q_CMD (hqWindow h)
     let ev := Reg.Q_EVENT (hqWindow h)
     let was := s.m.hostq h
     let ends : Mach → Tbq → Prop := fun t q =>
       t.hostq h = q.settle (s.m.hqGeom h) q.recordOpen ∧ { t.setHostq h was with regs := s.m.regs } = s.m ∧
         s.m.regsBut t [ev] ∧ (was.rd = was.l → (t.hostq h).rd ≠ (t.hostq h).l → t.rbit ev 0 = true) ∧
         (was.rd ≠ was.l ∨ (t.hostq h).rd = (t.hostq h).l → t.reg ev = s.m.reg ev)
     let refused : Instr → Prop := fun c => ∃ t, exec c s = .next { s with m := t } ∧ s.m.busErr t a 4
     let takes : Instr → Tbq → Prop := fun c q => ∃ t, exec c s = .next { s with m := t } ∧ ends t q
     (s.m.hqConsumer h = true →
       takes (.mark h) { was with mark := was.rd, markValid := true } ∧
       takes (.release h) { was with rl := max was.rl (if was.markValid then was.mark else was.rd) } ∧
       takes (.rewind h) { was with rd := if was.markValid then was.mark else was.rl }) ∧
     (s.m.hqConsumer h = false → refused (.mark h) ∧ refused (.release h) ∧ refused (.rewind h)) ∧
     (s.m.hqProducer h = true → (was.recordOpen = true → was.fillEnds.length < 64) →
       takes (.flush h)
         (if was.recordOpen then { was with fillEnds := was.fillEnds ++ [was.f], flushPending := true } else was)) ∧
     (s.m.hqProducer h = false → refused (.flush h)) ∧
     takes (.clearUnderrun h) { was with underrun := false }) ∧
  (∀ (s : State) (h : HostQ), s.m.live = true → s.m.blockPosted (Reg.Q_WDATA (hqWindow h)) = false →
     let was := s.m.hostq h
     let g := s.m.hqGeom h
     let q := was.settle g was.recordOpen
     let limit := match s.m.injectTarget with
       | some (_, c) => min g.size (q.openAt + c.basin)
       | none => g.size
     (s.m.hqConsumer h = true → was.rd ≠ was.l →
       ∃ t, exec (.qRead h) s = .next { s with m := t } ∧ t.port.answer.data = s.m.bytes (was.readAt g) 4 ∧
         t.hostq h = { was with rd := was.rd + 4, lastRead := s.m.word (was.readAt g) } ∧
         { t.setHostq h was with port := s.m.port, obs := s.m.obs } = s.m) ∧
     (s.m.hqConsumer h = true → was.rd = was.l →
       ∃ t, exec (.qRead h) s = .next { s with m := t } ∧ t.port.answer.data = leBytes 4 was.lastRead.toNat ∧
         t.hostq h = { was with underrun := true } ∧ t.rbit (Reg.Q_EVENT (hqWindow h)) 1 = true ∧
         s.m.regsBut t [Reg.Q_EVENT (hqWindow h)] ∧
         { t.setHostq h was with port := s.m.port, regs := s.m.regs } = s.m) ∧
     (s.m.hqConsumer h = false →
       ∃ t, exec (.qRead h) s = .next { s with m := t } ∧ { t with regs := s.m.regs } = s.m ∧
         t.reg Reg.HIF_ERR_COUNT = s.m.reg Reg.HIF_ERR_COUNT + 1 ∧ t.rbit Reg.HIF_EVENT 0 = true ∧
         s.m.regsBut t [Reg.HIF_ERR_COUNT, Reg.HIF_ERR_ADDR, Reg.HIF_ERR_CAUSE, Reg.HIF_EVENT]) ∧
     (∀ v, s.m.hqProducer h = true → q.f + 4 ≤ limit →
       ∃ t, exec (.qWdataWrite h v) s = .next { s with m := t } ∧ t.bytes (q.fillAt g) 4 = leBytes 4 v.toNat ∧
         (∀ x, x < q.fillAt g ∨ q.fillAt g + 4 ≤ x → t.byte x = s.m.byte x) ∧
         (let q' := { q with f := q.f + 4, waiting := false }
          t.hostq h = q'.settle g q'.recordOpen) ∧
         s.m.regsBut t [Reg.Q_EVENT (hqWindow h)] ∧ { t.setHostq h was with mem := s.m.mem, regs := s.m.regs } = s.m) ∧
     (∀ v, s.m.hqProducer h = true → limit < q.f + 4 →
       ∃ u : Mach, exec (.qWdataWrite h v) s = .next { s with m := u.refuse (Reg.Q_WDATA (hqWindow h)) } ∧
         (let q' := { q with f := q.openAt, drops := q.drops + 1, waiting := true }
          u.hostq h = q'.settle g q'.recordOpen) ∧
         u.rbit (Reg.Q_EVENT (hqWindow h)) 2 = true ∧ s.m.regsBut u [Reg.Q_EVENT (hqWindow h)] ∧
         { u.setHostq h was with regs := s.m.regs } = s.m) ∧
     (∀ v, s.m.hqProducer h = false →
       ∃ t, exec (.qWdataWrite h v) s = .next { s with m := t } ∧ s.m.busErr t (Reg.Q_WDATA (hqWindow h)) 4))

/-- R101, R280: where the conditions of a swap hold it takes place and begins reading at the old filling basin's start; where
they do not, every queue is as it was. The injection queue's next record is written whole into the stage queue it names once
that has room, and the basin is released after its last record. It says under which conditions on the state and the operands
alone each of these commands answers a next state with its own effect: basinSwap, injectionForward. -/
def Obligations.QueueSwapForward : Prop :=
  ∀ s : State, s.m.live = true →
    (∀ st : Fin 256, ∃ t, exec (.basinSwap (.ingress st)) s = .next { s with m := t } ∧
      t.stream st = { s.m.stream st with
        q := if (s.m.stream st).q.canSwap (s.m.inqGeom st) true then (s.m.stream st).q.swap else (s.m.stream st).q } ∧
      (∀ o, o ≠ st.val → t.stream o = s.m.stream o) ∧ { t with streams := s.m.streams } = s.m) ∧
    (∀ (n : Fin 128) c, s.m.stageCfgOf n = some c → ∃ t, exec (.basinSwap (.stage n)) s = .next { s with m := t } ∧
      t.stage n = (if (s.m.stage n).canSwap c.geom false then (s.m.stage n).swap else s.m.stage n) ∧
      (∀ o, o ≠ n.val → t.stage o = s.m.stage o) ∧ { t with stageQ := s.m.stageQ } = s.m) ∧
    (∀ h : HostQ, (s.m.hostq h).canSwap (s.m.hqGeom h) (s.m.hostq h).recordOpen = true →
      ∃ t, exec (.basinSwap (match h with | .result => .hostResult | .inject => .hostInject)) s = .next { s with m := t } ∧
        t.hostq h = (s.m.hostq h).swap ∧ s.m.regsBut t [Reg.Q_EVENT (hqWindow h)] ∧
        { t.setHostq h (s.m.hostq h) with regs := s.m.regs } = s.m) ∧
    (∀ n c len, s.m.injectTarget = some (n, c) → s.m.injectQ.nextRecord = some len →
      let g := s.m.hqGeom .inject
      let data := s.m.bytes (s.m.injectQ.readAt g) len
      let dest := (s.m.stage n).settle c.geom false
      (dest.fits c.geom len = true →
        ∃ t, exec .injectionForward s = .next { s with m := t } ∧ t.stage n = dest.put c.geom len ∧
          t.bytes (dest.fillAt c.geom) len = data ∧
          (∀ x, x < dest.fillAt c.geom ∨ dest.fillAt c.geom + len ≤ x → t.byte x = s.m.byte x) ∧
          (let q := { s.m.injectQ with rd := s.m.injectQ.rd + len }
           let q' := if q.nextRecord.isNone then { q with rl := q.l, rd := q.l } else q
           t.injectQ = q'.settle g q'.recordOpen) ∧
          s.m.regsBut t [Reg.Q_EVENT Reg.HIQ] ∧ (∀ o, o ≠ n → t.stage o = s.m.stage o) ∧
          { t with mem := s.m.mem, regs := s.m.regs, stageQ := s.m.stageQ, injectQ := s.m.injectQ } = s.m) ∧
      (dest.fits c.geom len = false →
        ∃ t, exec .injectionForward s = .next { s with m := t } ∧ t.stage n = { dest with waiting := true } ∧
          (∀ o, o ≠ n → t.stage o = s.m.stage o) ∧ { t with stageQ := s.m.stageQ } = s.m))

/-! ## Fusion groups (R112 to R130) -/

/-- R114, R115, R130: enabling a group starts its schedule at k = 0, with FUS_T0 for a periodic group, where it has drained,
has a release queue and, if periodic, FUS_T0 lies 1 ms to 2 s ahead; clearing enable drops the instants whose Tk has not
come; a host trigger creates the next instant of a running group that the host triggers, within its minimum gap and range.
Anything else is a bus error of cause 0x04. It says under which conditions on the state and the operands alone each of these
commands answers a next state with its own effect: groupEnable, groupDisable, hostTrigger. -/
def Obligations.GroupSchedules : Prop :=
  ∀ (s : State) (g : Fin 16), s.m.live = true → s.m.blockPosted (Reg.FUS_TRIG g) = false →
    let x := s.m.group g
    let now : Word := s.m.time.count.setWidth 32
    let t0 := s.m.reg (Reg.FUS_T0 g)
    let fires := (List.range 8).map Reg.SNS_FSYNC_STAT
    let frame : Mach → Prop := fun t => (∀ o, o ≠ g.val → t.group o = s.m.group o) ∧
      { t with regs := s.m.regs, groups := s.m.groups, ports := s.m.ports } = s.m
    (s.m.writeCause (Reg.FUS_CTRL g) ((s.m.reg (Reg.FUS_CTRL g)).setBit 31 true) = none → s.m.rbit (Reg.FUS_CTRL g) 31 = false →
      let may := x.draining = false ∧ (s.m.releaseQueue g).isSome = true ∧
        (s.m.triggered g = true ∨ 1000000 ≤ (t0 - now).toInt ∧ (t0 - now).toInt ≤ 2000000000)
      (may → ∃ t, exec (.groupEnable g) s = .next { s with m := t } ∧ frame t ∧ t.rbit (Reg.FUS_CTRL g) 31 = true ∧
        t.reg (Reg.FUS_NEXT_K g) = 0 ∧ (t.group g).running = true ∧ (t.group g).draining = false ∧
        (t.group g).sched = (if s.m.triggered g then [] else [{ k := 0, tk := s.m.ext64 t0, before := none }]) ∧
        s.m.regsBut t (Reg.FUS_CTRL g :: Reg.FUS_NEXT_K g :: fires)) ∧
      (¬ may → ∃ t, exec (.groupEnable g) s = .next { s with m := t } ∧ s.m.busErr t (Reg.FUS_CTRL g) 4)) ∧
    (s.m.writeCause (Reg.FUS_CTRL g) ((s.m.reg (Reg.FUS_CTRL g)).setBit 31 false) = none → s.m.rbit (Reg.FUS_CTRL g) 31 = true →
      ∃ u : Mach, exec (.groupDisable g) s = .next { s with m := u.drainGroup g } ∧ frame u ∧
        u.rbit (Reg.FUS_CTRL g) 31 = false ∧
        u.group g = { x with sched := x.sched.filter Inst.due, running := false, draining := true } ∧
        s.m.regsBut u [Reg.FUS_CTRL g]) ∧
    (∀ v : Word,
      let may := s.m.triggered g = true ∧ x.running = true ∧ s.m.fld (Reg.FUS_CTRL g) 28 2 = 0 ∧
        s.m.gapOk g (s.m.ext64 v) = true ∧ -1000000000 ≤ (v - now).toInt ∧ (v - now).toInt ≤ 2000000000
      (may → ∃ t, exec (.hostTrigger g v) s = .next { s with m := t } ∧ frame t ∧
        t.group g = { x with
          sched := x.sched ++ [{ k := x.nextK, tk := s.m.ext64 v, before := x.latest }],
          nextK := x.nextK + 1, latest := some (s.m.ext64 v) } ∧
        s.m.regsBut t fires) ∧
      (¬ may → ∃ t, exec (.hostTrigger g v) s = .next { s with m := t } ∧ s.m.busErr t (Reg.FUS_TRIG g) 4))

/-- R116, R117, R119, R120: when short time reaches the Tk of a scheduled instant it falls due, a periodic group schedules
the next one a period later, and the instant is pending where fewer than 64 are; at the wait limit the oldest pending instant
may be released without full coverage; the release of an instant writes its descriptor into the group's release queue, raises
completion signal g and sets the group's registers. It says under which conditions on the state and the operands alone each
of these commands answers a next state with its own effect: instantDue, waitLimitExpiry, instantRelease. -/
def Obligations.InstantsRelease : Prop :=
  ∀ (s : State) (g : Fin 16), s.m.live = true →
    let y := s.m.group g
    let frame : Mach → Prop := fun t => ∀ o, o ≠ g.val → t.group o = s.m.group o
    (∀ x, s.m.runs 150 = true → s.m.nextDue g = some x → x.tk.toInt ≤ (s.m.time.count.toNat : Int) →
      ∃ u : Mach,
        exec (.instantDue g) s = .next { s with m := ((u.admitDue g (u.group g).sched.length).drainGroup g).runJets } ∧
        (u.group g).sched = mapFirst (fun i => !i.due) (fun i => { i with due := true }) y.sched ++
          (if y.running && !s.m.triggered g then
            [{ k := y.nextK, tk := x.tk + (s.m.reg (Reg.FUS_PERIOD g)).setWidth 64, before := y.latest }] else []) ∧
        { u.group g with sched := y.sched, nextK := y.nextK, latest := y.latest } = y ∧ frame u ∧
        s.m.regsBut u ((List.range 8).map Reg.SNS_FSYNC_STAT) ∧
        { u with regs := s.m.regs, groups := s.m.groups, ports := s.m.ports } = s.m ∧
        (u.pendingCount g < 64 → (∀ i ∈ y.sched, i.due = true → i.pending = true) →
          (u.admitDue g (u.group g).sched.length).group g = { u.group g with
            sched := mapFirst (fun i => i.due && !i.pending) (fun i => { i with pending := true }) (u.group g).sched })) ∧
    (∀ x rest, y.sched = x :: rest → x.pending = true → s.m.waitOver g x = true →
      ∃ t, exec (.waitLimitExpiry g) s = .next { s with m := t } ∧ frame t ∧
        t.group g = { y with sched := { x with expired := true } :: rest } ∧ { t with groups := s.m.groups } = s.m) ∧
    (∀ x cov, s.m.runs 150 = true → s.m.judge g = some (x, cov, true, true) →
      let listed := cov.filter Cover.whole
      let all := listed.length == (s.m.awaited g).length
      let now : Word := s.m.time.count.setWidth 32
      let flags := (if all then 0 else 1) + (if x.forced then 2 else 0) + (if x.epoch then 4 else 0) + (if y.calNext then 8 else 0)
      let len := 32 + 16 * listed.length
      ∃ u : Mach,
        exec (.instantRelease g) s = .next { s with m := ((u.admitDue g (u.group g).sched.length).drainGroup g).runJets } ∧
        (u.group g).sched = y.sched.drop 1 ∧ (u.group g).last = some x ∧
        (u.group g).open_ = y.open_ ++
          [{ k := x.k, tk := x.tk, ageRule := s.m.ageOn g, aged := x.aged, discarded := x.discarded }] ∧ frame u ∧
        u.reg (Reg.FUS_LAST_K g) = x.k ∧ u.reg (Reg.FUS_LAST_TK g) = x.tk.setWidth 32 ∧
        u.reg (Reg.FUS_LAST_REL g) = now ∧ u.reg (Reg.FUS_NEXT_K g) = x.k + 1 ∧
        u.reg (Reg.FUS_ILOG g (x.k.toNat % 64)) = x.tk.setWidth 32 ∧
        u.reg (Reg.FUS_RELEASES g) = s.m.reg (Reg.FUS_RELEASES g) + 1 ∧
        u.reg (Reg.FUS_FORCED g) = s.m.reg (Reg.FUS_FORCED g) + (if x.forced then 1 else 0) ∧
        u.reg (Reg.FUS_EXPIRED g) = s.m.reg (Reg.FUS_EXPIRED g) + (if all then 0 else 1) ∧
        u.csig g = s.m.csig g + 1 ∧ u.time = s.m.time ∧ u.cq = s.m.cq ∧
        (∀ q c, s.m.cal.swap = none → s.m.releaseQueue g = some q → s.m.stageCfgOf q = some c →
          let dest := (s.m.stage q).settle c.geom false
          u.stage q = dest.put c.geom len ∧ (∀ o, o ≠ q → u.stage o = s.m.stage o) ∧
            u.bytes (dest.fillAt c.geom) len = descriptor x now g flags s.m listed ∧
            ∀ a, a < dest.fillAt c.geom ∨ dest.fillAt c.geom + len ≤ a → u.byte a = s.m.byte a))

/-! ## Calibration and pose (R139 to R153) -/

/-- R139, R140, R141: a swap request while one is pending is a bus error; where an entry of the set fails its checks, the
first one is named and nothing is swapped; otherwise both copies of every entry of the set are exchanged, the others stay,
and the swap pends for the groups that use them, or completes at once where nobody does. R144, R148, R153: once a tick's
hold-off has passed, its entry is written whole in the ring slot of its number, both gen words one on from the slot's last
and its time n milliseconds, the first entry since enabling being the identity; CAL_POSE_NEWEST follows and the next tick is
due. A capture holds the newest entry's words. It says under which conditions on the state and the operands alone each of
these commands answers a next state with its own effect: calSwapRequest, poseTick, poseCapture. -/
def Obligations.CalibrationAndPose : Prop :=
  (∀ s : State, s.m.live = true → s.m.blockPosted Reg.CAL_CTRL = false →
     let inSet : Nat → Bool := fun st => s.m.swapSet.testBit st
     let cause : Nat → Nat := fun st => calCause (s.m.calEntry true st) (s.m.strKind st)
     (s.m.cal.swap ≠ none → ∃ t, exec .calSwapRequest s = .next { s with m := t } ∧ s.m.busErr t Reg.CAL_CTRL 4) ∧
     (∀ st, st < 256 → s.m.cal.swap = none → inSet st = true → cause st ≠ 0 →
       (∀ o, o < st → inSet o = true → cause o = 0) →
       ∃ t, exec .calSwapRequest s = .next { s with m := t } ∧
         t.reg Reg.CAL_SWAP_ERR = BitVec.ofNat 32 (cause st * 256 + st) ∧ t.rbit Reg.CAL_EVENT 2 = true ∧
         s.m.regsBut t [Reg.CAL_SWAP_ERR, Reg.CAL_EVENT] ∧ { t with regs := s.m.regs } = s.m) ∧
     (s.m.cal.swap = none → (∀ st, st < 256 → inSet st = true → cause st = 0) →
       ∃ (u : Mach) (w : Swap), exec .calSwapRequest s = .next { s with m := u.swapCheck } ∧
         u.cal = { s.m.cal with swap := some w } ∧ w.set = s.m.swapSet ∧ w.at_ = s.m.time.count ∧
         (∀ g, g ∈ w.groups ↔ g < 16 ∧ s.m.fusBusy g = true ∧ ∃ st, st < 256 ∧ inSet st = true ∧ s.m.fusNames g st = true) ∧
         (∀ st j, st < 256 → j < 64 →
           u.reg (Reg.CAL_ACTIVE st j) = (if inSet st then s.m.reg (Reg.CAL_SHADOW st j) else s.m.reg (Reg.CAL_ACTIVE st j)) ∧
           u.reg (Reg.CAL_SHADOW st j) = (if inSet st then s.m.reg (Reg.CAL_ACTIVE st j) else s.m.reg (Reg.CAL_SHADOW st j))) ∧
         u.rbit Reg.CAL_STATUS 1 = true ∧ { u with regs := s.m.regs, cal := s.m.cal } = s.m ∧
         (w.groups = [] → w.pose = false → u.swapCheck.cal.swap = none ∧ u.swapCheck.rbit Reg.CAL_STATUS 1 = false ∧
           u.swapCheck.reg Reg.CAL_SWAP_COUNT = s.m.reg Reg.CAL_SWAP_COUNT + 1 ∧ u.swapCheck.rbit Reg.CAL_EVENT 1 = true))) ∧
  (∀ s : State, s.m.live = true → s.m.blockPosted Reg.CAL_CTRL = false →
     (∀ n, s.m.runs 150 = true → s.m.cal.pose.next = some n →
       n * 1000000 + s.m.fld Reg.CAL_POSE_CFG 0 13 * 1000 ≤ s.m.time.count.toNat →
       let a := s.m.poseAddr n
       ∃ u : Mach, exec .poseTick s = .next { s with m := u.swapCheck } ∧ u.cal.pose.next = some (n + 1) ∧
         (u.cal.pose.ticks.head?.map PoseTick.n) = some n ∧ u.reg Reg.CAL_POSE_NEWEST = BitVec.ofNat 32 (n * 1000000) ∧
         u.le a 4 = (s.m.le a 4 + 1) % 2 ^ 32 ∧ u.le (a + 0x3C) 4 = (s.m.le a 4 + 1) % 2 ^ 32 ∧
         u.le (a + 4) 4 = n * 1000000 % 2 ^ 32 ∧
         (n = s.m.cal.pose.first → u.poseEntry n = ([0, 0, 0], [0x3F800000, 0, 0, 0])) ∧
         (∀ x, x < s.m.poseBase ∨ s.m.poseBase + 262144 ≤ x → u.byte x = s.m.byte x) ∧
         s.m.regsBut u [Reg.CAL_POSE_NEWEST, Reg.CAL_STATUS, Reg.CAL_EVENT] ∧
         { u with regs := s.m.regs, mem := s.m.mem, cal := s.m.cal } = s.m) ∧
     (∀ k, s.m.cal.pose.ticks.head? = some k →
       ∃ t, exec .poseCapture s = .next { s with m := t } ∧
         (∀ i, i < 12 → t.reg (Reg.CAL_POSE_CAP i) = s.m.word (s.m.poseAddr k.n + 4 + 4 * i)) ∧
         s.m.regsBut t ((List.range 12).map Reg.CAL_POSE_CAP) ∧ { t with regs := s.m.regs } = s.m) ∧
     (s.m.cal.pose.ticks.head? = none → exec .poseCapture s = .next s))

/-! ## Point units (R154 to R184) -/

/-- R157, R161, R163 to R168, R174, R180: what the table commands of a point unit do when they start. BEGIN empties the point
table and opens its drop accumulator entry, or takes back the table's share of one that holds k; APPEND appends under the
Weir and counts what it drops; VOXELISE of an entry that falls into a new cell fills the bucket of the first free place of
its probe; COARSEN gives a cell's parent a bucket that copies its fields; AGE ages every live cell once a sweep and buries those past max_age; PURGE
buries the cells of the epochs named or clears the whole table. Memory outside the table is as before. That the writes come as the command
starts is log entry 143, that a buried cell stays occupied and what COARSEN copies log entry 93: the model's choices. It says under which
conditions on the state and the operands alone each of these commands answers a next state with its own effect: pointBegin,
pointAppend, voxelise, coarsen, pointAge, pointPurge. -/
def Obligations.PointTableCommands : Prop :=
  ∀ (s : State) (q : Fin 256), s.m.live = true →
    let m := s.m
    let b := m.headBytes q
    let core := m.queueCore q
    let go : Nat → Prop := fun op => m.startable q 4 op ∧ firstErr (m.pointErrs core b) = .ok ()
    let t := u8 b 0x11
    let v := u8 b 0x12
    let n := u32 b 0x1C
    let g := m.ptGroup t
    let k := w32 b 0x14
    let e := k.toNat % 8
    let n0 := m.fld (Reg.PNT_PT_COUNT t) 0 23
    let drops := [Reg.PNT_EVENT, Reg.PNT_DPTS g ((m.reg (Reg.PNT_PT_K t)).toNat % 8),
      Reg.PNT_DCELL g ((m.reg (Reg.PNT_PT_K t)).toNat % 8)]
    let cells : Nat → List Nat := fun v => [Reg.PNT_VT_OCC v, Reg.PNT_VT_TOMB v, Reg.PNT_VT_PROBEMAX v,
      Reg.PNT_VT_CELLDROPS v, Reg.PNT_VT_PROBEFULL v] ++ drops
    (go 1 → m.beginHeld q = false → ∃ u : Mach, s.starts (.pointBegin q) q u ∧
      u.reg (Reg.PNT_PT_COUNT t) = 0 ∧ u.reg (Reg.PNT_PT_K t) = k ∧
      (m.dropOpen g k = false → u.reg (Reg.PNT_DK g e) = k ∧ u.reg (Reg.PNT_DPTS g e) = 0 ∧ u.reg (Reg.PNT_DCELL g e) = 0 ∧
        u.reg (Reg.PNT_DSTAT g e) = 1 ∧ ∀ i, i < 32 → u.share g e i = (0, 0)) ∧
      (m.dropOpen g k = true → u.reg (Reg.PNT_DPTS g e) = m.reg (Reg.PNT_DPTS g e) - BitVec.ofNat 32 (m.share g e t).1 ∧
        u.reg (Reg.PNT_DCELL g e) = m.reg (Reg.PNT_DCELL g e) - BitVec.ofNat 32 (m.share g e t).2 ∧ u.share g e t = (0, 0)) ∧
      m.regsBut u [Reg.PNT_PT_COUNT t, Reg.PNT_PT_K t, Reg.PNT_DK g e, Reg.PNT_DPTS g e, Reg.PNT_DCELL g e,
        Reg.PNT_DSTAT g e] ∧ { u with regs := m.regs, dropShare := m.dropShare } = m) ∧
    (go 2 →
      let src := m.bytes (pAddrA core b) 32
      let near := m.isNear g (w32 src 0) (w32 src 4)
      ∃ u : Mach, s.starts (.pointAppend q) q u ∧
        (n0 < 3670016 → u.bytes (m.ptEntry t n0) 32 =
          src.take 0x17 ++ leBytes 1 near.toNat ++ leBytes 4 noRow ++ leBytes 4 0) ∧
        (n0 + n ≤ 3670016 → u.fld (Reg.PNT_PT_COUNT t) 0 23 = n0 + n ∧ m.regsBut u [Reg.PNT_PT_COUNT t]) ∧
        (n = 1 → u.fld (Reg.PNT_PT_COUNT t) 0 23 =
          if n0 < 3670016 ∨ near = true ∧ n0 < 4194304 then n0 + 1 else n0) ∧
        (4194304 ≤ n0 → u.reg (Reg.PNT_PT_COUNT t) = m.reg (Reg.PNT_PT_COUNT t) ∧
          u.reg (Reg.PNT_PT_DROPS t) = m.reg (Reg.PNT_PT_DROPS t) + BitVec.ofNat 32 n ∧ u.mem = m.mem) ∧
        m.onlyBytes u (m.ptBase t) (2 ^ 27) ∧ m.regsBut u ([Reg.PNT_PT_COUNT t, Reg.PNT_PT_DROPS t] ++ drops) ∧
        { u with regs := m.regs, mem := m.mem, dropShare := m.dropShare, obs := m.obs } = m) ∧
    (go 3 →
      let i := u32 b 0x18
      let p0 := [m.word (m.ptEntry t i), m.word (m.ptEntry t i + 4), m.word (m.ptEntry t i + 8)]
      let p := match voxelRows m core b with
        | some r => transform r p0
        | none => p0
      let epoch := u8 b 0x31 % 16
      ∃ u : Mach, s.starts (.voxelise q) q u ∧ m.regsBut u (Reg.PNT_VT_OOR v :: cells v) ∧
        (∀ x, x < m.ptBase t ∨ m.ptBase t + 2 ^ 27 ≤ x → x < m.vtBase v ∨ m.vtBase v + 2 ^ 26 ≤ x → u.byte x = m.byte x) ∧
        { u with regs := m.regs, mem := m.mem, dropShare := m.dropShare, obs := m.obs } = m ∧
        (∀ x y z qx qy qz bkt, n = 1 → i < n0 → m.ptBase t + 2 ^ 27 ≤ m.vtBase v ∨ m.vtBase v + 2 ^ 26 ≤ m.ptBase t →
          binOf (m.vtEdge v) (p.getD 0 0) = some (x, qx) → binOf (m.vtEdge v) (p.getD 1 0) = some (y, qy) →
          binOf (m.vtEdge v) (p.getD 2 0) = some (z, qz) → inKeyRange x y z = true →
          let key := packKey (if m.vtAccumulated v then 0 else epoch) x y z
          (m.probe v key).hit = none → (m.probe v key).free = some bkt → m.fld (Reg.PNT_VT_OCC v) 0 21 < 917504 →
          u.cell v bkt = { key := key, row := noRow, point := i, stamp := m.word (m.ptEntry t i + 0x0C), age := 0,
                           dist := distOf qx qy qz, flags := 1 + 16 * epoch } ∧
            u.le (m.ptEntry t i + 0x18) 4 = bkt ∧ (u.byte (m.ptEntry t i + 0x17)).toNat.testBit 1 = true ∧
            u.reg (Reg.PNT_VT_OCC v) = m.reg (Reg.PNT_VT_OCC v) + 1)) ∧
    (go 4 →
      let w := u8 b 0x13
      let picked := (m.liveCells v).filter fun i => (u16 b 0x32).testBit (keyEpoch (m.cell v i).key)
      ∃ u : Mach, s.starts (.coarsen q) q u ∧ m.onlyBytes u (m.vtBase w) (2 ^ 26) ∧ m.regsBut u (cells w) ∧
        { u with regs := m.regs, mem := m.mem, dropShare := m.dropShare, obs := m.obs } = m ∧ (picked = [] → u = m) ∧
        (∀ i j, picked = [i] →
          let c := m.cell v i
          let key := packKey (keyEpoch c.key) (keyX c.key / 2) (keyY c.key / 2) (keyZ c.key / 2)
          (m.probe w key).hit = none → (m.probe w key).free = some j → m.fld (Reg.PNT_VT_OCC w) 0 21 < 917504 →
          u.cell w j = { c with key := key, row := noRow, age := 0 } ∧
            u.reg (Reg.PNT_VT_OCC w) = m.reg (Reg.PNT_VT_OCC w) + 1)) ∧
    (go 5 →
      let sweep := u16 b 0x32
      let old := fun i => decide (m.fld (Reg.PNT_VT_CFG v) 0 8 < min 255 ((m.cell v i).age + 1))
      ∃ u : Mach, s.starts (.pointAge q) q u ∧ (m.fld (Reg.PNT_VT_SWEEP v) 0 16 = sweep → u = m) ∧
        (m.fld (Reg.PNT_VT_SWEEP v) 0 16 ≠ sweep → (m.liveCells v).Nodup →
          u.reg (Reg.PNT_VT_SWEEP v) = BitVec.ofNat 32 sweep ∧
          u.reg (Reg.PNT_VT_OCC v) = m.reg (Reg.PNT_VT_OCC v) - BitVec.ofNat 32 ((m.liveCells v).filter old).length ∧
          u.reg (Reg.PNT_VT_TOMB v) = m.reg (Reg.PNT_VT_TOMB v) + BitVec.ofNat 32 ((m.liveCells v).filter old).length ∧
          ∀ i ∈ m.liveCells v, u.cell v i = { m.cell v i with
            age := min 255 ((m.cell v i).age + 1), flags := if old i then (m.cell v i).flags ||| 2 else (m.cell v i).flags }) ∧
        m.onlyBytes u (m.vtBase v) (2 ^ 26) ∧ m.regsBut u [Reg.PNT_VT_SWEEP v, Reg.PNT_VT_OCC v, Reg.PNT_VT_TOMB v] ∧
        { u with regs := m.regs, mem := m.mem } = m) ∧
    (go 6 →
      let mask := u16 b 0x32
      ∃ u : Mach, s.starts (.pointPurge q) q u ∧
        (mask = 0xFFFF → (∀ x, m.vtBase v ≤ x → x < m.vtBase v + 2 ^ 26 → u.byte x = 0) ∧ u.reg (Reg.PNT_VT_OCC v) = 0 ∧
          u.reg (Reg.PNT_VT_TOMB v) = 0 ∧ u.reg (Reg.PNT_VT_SWEEP v) = 0) ∧
        (mask ≠ 0xFFFF → (m.listed v mask).Nodup →
          (∀ i ∈ m.listed v mask, u.cell v i = { m.cell v i with flags := (m.cell v i).flags ||| 2 }) ∧
          u.reg (Reg.PNT_VT_OCC v) = m.reg (Reg.PNT_VT_OCC v) - BitVec.ofNat 32 (m.listed v mask).length ∧
          u.reg (Reg.PNT_VT_TOMB v) = m.reg (Reg.PNT_VT_TOMB v) + BitVec.ofNat 32 (m.listed v mask).length) ∧
        m.onlyBytes u (m.vtBase v) (2 ^ 26) ∧ m.regsBut u [Reg.PNT_VT_SWEEP v, Reg.PNT_VT_OCC v, Reg.PNT_VT_TOMB v] ∧
        { u with regs := m.regs, mem := m.mem } = m)

/-- R171 to R175, R177, R178: what the list commands of a point unit write, and that they write nothing else; that they write
as they start is the model's choice of log entry 143. They are the cell list and row numbers of LIST, the neighbour rows of NEIGH, the rows of PROBE, the rule book of RULES with its
head, its counts and its pairs, the feature rows that GATHER copies into tiles padded with zeros, and the sums that SCATTER forms in the order of the pairs, into words
that no started command of another cluster adds into. It says under which conditions on the state and the operands alone each
of these commands answers a next state with its own effect: pointList, pointNeigh, pointProbe, pointRules, pointGather,
pointScatter. -/
def Obligations.PointListCommands : Prop :=
  ∀ (s : State) (q : Fin 256), s.m.live = true →
    let m := s.m
    let b := m.headBytes q
    let core := m.queueCore q
    let go : Nat → Prop := fun op => m.startable q 4 op ∧ firstErr (m.pointErrs core b) = .ok ()
    let v := u8 b 0x12
    let n := u32 b 0x1C
    let set := u16 b 0x32 % 4
    let aa := pAddrA core b
    let bb := pAddrB core b
    let l := pLocal core b
    let rb := u16 b 0x34
    let pairs := pPairs m core b
    let memOnly : Mach → Prop := fun u => { u with mem := m.mem } = m
    let dx : Nat → Int := fun o => (o % 3 : Nat) - 1
    let dy : Nat → Int := fun o => (o / 3 % 3 : Nat) - 1
    let dz : Nat → Int := fun o => (o / 9 : Nat) - 1
    let near : Nat → Prop := fun o =>
      let d := (dx o).natAbs + (dy o).natAbs + (dz o).natAbs
      1 ≤ d ∧ d ≤ set + 1
    let rowNear : Nat → Nat → Int → Int → Int → Nat → Nat := fun v e x y z o =>
      if inKeyRange (x + dx o) (y + dy o) (z + dz o) then m.rowOf v (packKey e (x + dx o) (y + dy o) (z + dz o))
      else 0xFFFFFFFF
    (go 7 →
      let rows := m.listed v (u16 b 0x32)
      ∃ u : Mach, s.starts (.pointList q) q u ∧ memOnly u ∧
        (∀ x, x < aa ∨ aa + 32 + 16 * rows.length ≤ x → x < m.vtBase v ∨ m.vtBase v + 2 ^ 26 ≤ x → u.byte x = m.byte x) ∧
        u.bytes aa 32 = leBytes 4 rows.length ++ List.replicate 28 0 ∧
        (∀ i r, rows[i]? = some r → u.bytes (aa + 32 + 16 * i) 16 = cellRecord (m.cell v r)) ∧
        (rows.Nodup → (aa + 32 + 16 * rows.length ≤ m.vtBase v ∨ m.vtBase v + 2 ^ 26 ≤ aa) →
          ∀ i r, rows[i]? = some r → u.cell v r = { m.cell v r with row := i })) ∧
    (go 8 → ∃ u : Mach, s.starts (.pointNeigh q) q u ∧ memOnly u ∧ m.onlyBytes u bb (128 * n) ∧
      ∀ i o, i < n → o < 32 →
        let r := u32 b 0x18 + i
        let at_ := aa + 32 + 16 * r
        u.word (bb + 128 * i + 4 * o) = BitVec.ofNat 32
          (if o = 13 then r
           else if o < 27 ∧ near o then
             rowNear v (u8 (m.bytes at_ 16) 10) (m.word at_).toInt (m.word (at_ + 4)).toInt (s16 (m.bytes at_ 16) 8) o
           else 0xFFFFFFFF)) ∧
    (go 9 → ∃ u : Mach, s.starts (.pointProbe q) q u ∧ memOnly u ∧ m.onlyBytes u bb (4 * n) ∧
      ∀ i, i < n → u.le (bb + 4 * i) 4 = m.rowOf v (m.le (aa + 8 * i) 8)) ∧
    (go 10 →
      let down := (u16 b 0x32).testBit 8
      let w := u8 b 0x13
      let rows := m.rowed v
      ∃ (u : Mach) (P : Nat → List (Nat × Nat)), s.starts (.pointRules q) q u ∧ memOnly u ∧
        ((rows.map Prod.fst).Nodup → ∀ o, (P o).Pairwise fun x y => x.2 < y.2 ∨ x.2 = y.2 ∧ x.1 < y.1) ∧
        (∀ o i r, (i, r) ∈ P o ↔ i ≠ 0xFFFFFFFF ∧ r ≠ 0xFFFFFFFF ∧
          if down then ∃ k, (i, k) ∈ rows ∧ o = ((keyZ k % 2) * 4 + (keyY k % 2) * 2 + keyX k % 2).toNat ∧
            r = m.rowOf w (packKey (keyEpoch k) (keyX k / 2) (keyY k / 2) (keyZ k / 2))
          else o < 27 ∧ (o = 13 ∨ near o) ∧ ∃ k, (r, k) ∈ rows ∧
            i = rowNear v (keyEpoch k) (keyX k) (keyY k) (keyZ k) o) ∧
        let before : Nat → Nat := fun o => ((List.range o).map fun p => (P p).length).sum
        m.onlyBytes u bb (0x100 + 8 * before 27) ∧ u.word bb = BitVec.ofNat 32 rows.length ∧
        u.word (bb + 4) = BitVec.ofNat 32 (if down then (m.rowed w).length else rows.length) ∧
        u.byte (bb + 8) = BitVec.ofNat 8 down.toNat ∧ u.byte (bb + 9) = (if down then 8 else 27) ∧
        u.byte (bb + 10) = BitVec.ofNat 8 (if down then 0 else [6, 18, 26].getD set 0) ∧ u.byte (bb + 11) = 0 ∧
        u.word (bb + 12) = BitVec.ofNat 32 (before 27) ∧
        (∀ o, o < 27 → u.word (bb + 0x10 + 4 * o) = BitVec.ofNat 32 (P o).length ∧
          u.word (bb + 0x80 + 4 * o) = BitVec.ofNat 32 (before o)) ∧
        u.word (bb + 0x7C) = 0 ∧ (∀ x, x < 20 → u.byte (bb + 0xEC + x) = 0) ∧
        ∀ o i p, o < 27 → (P o)[i]? = some p → u.word (bb + 0x100 + 8 * (before o + i)) = BitVec.ofNat 32 p.1 ∧
          u.word (bb + 0x104 + 8 * (before o + i)) = BitVec.ofNat 32 p.2) ∧
    (go 11 → ∃ u : Mach, s.starts (.pointGather q) q u ∧ memOnly u ∧ m.onlyBytes u l ((n + 31) / 32 * 32 * rb) ∧
      (∀ i p, pairs[i]? = some p → u.bytes (l + i * rb) rb = m.bytes (bb + p.1 * rb) rb) ∧
      (∀ x, l + n * rb ≤ x → x < l + (n + 31) / 32 * 32 * rb → u.byte x = 0)) ∧
    (go 12 →
      let tk := m.take q b []
      let pairs := pPairs tk core b
      let size := tk.pointLenB core b
      let fp := decide (128 ≤ u8 b 0x31)
      ∃ u : Mach, exec (.pointScatter q) s = .next { s with m := u.checkHead q } ∧
        { u with mem := tk.mem, cq := tk.cq, freeCtr := tk.freeCtr } = tk ∧ tk.onlyBytes u bb size ∧
        ((pSpaceB b ≠ 0 ∨ ∀ p ∈ tk.cq, ∀ c ∈ p.2.started, c.adds = []) → l + n * rb ≤ bb ∨ bb + size ≤ l →
          ∀ r w, (r + 1) * rb ≤ size → 4 * w + 4 ≤ rb →
          u.word (bb + r * rb + 4 * w) = (pairs.zipIdx.filter fun p => p.1.2 == r).foldl
            (fun acc p => if fp then fadd acc (tk.word (l + p.2 * rb + 4 * w)) else acc + tk.word (l + p.2 * rb + 4 * w))
            (tk.word (bb + r * rb + 4 * w))))

/-! ## Tensor and vector engines (R185 to R256) -/

/-- R186, R196, R205, R206, R209, R213, R214, R230, R293: a TENSOR command without error starts and runs. While every check
passes it has its effect, is counted and watched; at the first failed check it stops for good and its core reports a fault
of cause 0x01. The writes come as it starts, which log entry 143 (DESIGN CHOICE) has chosen, and log entry 95 the engine's
corners. One integer step whose checksum record holds the sums of its weights passes its checks and leaves the exact dot products in a
cleared slot, and a command that does not drain writes no memory but its slots. What it writes of output matrices that
overlap is left undefined. OUTFLOW writes each element of a tile at its place in the output's layout, and 0 in the padding. It says
under which conditions on the state and the operands alone each of these commands answers a next state with its own effect:
matmul, thin, outflow. -/
def Obligations.TensorCommands : Prop :=
  ∀ (s : State) (q : Fin 256), s.m.live = true →
    let b := s.m.headBytes q
    let m := s.m.take q b []
    let t := m.readTCmd (m.queueCore q) q b
    let r := m.runTensor t
    let go : Nat → Prop := fun op => s.m.startable q 1 op ∧ tensorCheck s.m q b = .ok ()
    let runs : Instr → Prop := fun c =>
      (r.bad = 0 → ∃ redo, exec c s =
        .next { s with m := ((((r.counts t).watchOutputs 0 q (s.m.headNum q) b (r.outputs t) redo).freeShared t).noteLast q
          fun c => { c with wrote := t.written.map Prod.snd }).checkHead q }) ∧
      (r.bad ≠ 0 → exec c s =
        .next { s with m := (((r.m.bump t.core r.clocks).noteLast q fun c => { c with stopped := true }).detect
          (tensorFault t.core r.bad)).checkHead q })
    let frame := { r.m with mem := m.mem, slots := m.slots, latches := m.latches, obs := m.obs } = m ∧
      (t.drain = false → ∀ a, a < 2 ^ 39 → r.m.byte a = m.byte a)
    let m2 := m.clearSlot t.core t.s0 t.q
    let chk := t.auxBase + u32 t.b 0x2C
    let step : Nat → (Nat → Nat × Nat) → Prop := fun cols unit => t.path = .int → t.cont = false → t.drain = false →
      (∀ d, d < t.depth → m2.word (chk + 4 * d) = BitVec.ofInt 32 ((List.range cols).map fun j => m2.wgtInt t d j).sum) →
      r.bad = 0 ∧ ∀ a, a < 1024 → r.m.slotWord t.core t.s0 a = BitVec.ofInt 32
        ((List.range t.depth).map fun d => m2.actInt t (unit a).1 d * m2.wgtInt t d (unit a).2).sum
    (go 1 → runs (.matmul q) ∧ frame ∧
      (t.mT = 1 → t.nT = 1 → t.kS = 1 → step 32 fun a => (a / 32, a % 32))) ∧
    (go 2 → runs (.thin q) ∧ frame ∧ (t.nT = 1 → t.kS = 1 → step 1024 fun a => (0, a))) ∧
    (go 3 → r.bad = 0 ∧ runs (.outflow q) ∧ { r.m with mem := m.mem } = m ∧
      (t.mT = 1 → t.nT = 1 → t.useCol = false → t.useTable = false → t.out.rowMajor = false →
        let x := t.out.tile 0 0
        let e := elemBytes t.out.fmt 0
        let a := spaceBase t.core (auxSpace t.out.space) + x.base +
          tileIndex t.out.storedRows t.out.storedCols x.tr x.tc * t.out.tileBytes
        ∀ i j, i < 32 → j < 32 → r.m.le (a + (32 * i + j) * e) e =
          if 32 * x.tr + i < t.out.rows ∧ 32 * x.tc + j < t.out.cols then
            m.outElem t (BitVec.ofNat 32 (m.operand t.core t.act 0 0 i j)) j % 256 ^ e
          else 0))

/-- R234, R246 to R251, R293: a VECTOR command without error starts, runs, is counted and watched, and changes memory alone;
the contexts of a CHAIN keep its registers. Log entries 143 (its writes come as it starts), 151 (contexts) and 96
(registers that are 0 for each item) are the model's choices that it rests on. Stated for each operation: what CHAIN leaves of its first vector, the lanes of
GATHER, the sums of SCATTER_ADD in element order, the rows of PROBE, the transformed entries of XFORM, the ordered pairs of
SORT, and the sums of SCAN and REDUCE. It says under which conditions on the state and the operands alone each of these
commands answers a next state with its own effect: vectorChain, vectorGather, scatterAdd, vectorProbe, xform, vectorSort,
vectorScan, vectorReduce. -/
def Obligations.VectorCommands : Prop :=
  ∀ (s : State) (q : Fin 256), s.m.live = true →
    let b := s.m.headBytes q
    let m := s.m.take q b []
    let v := m.readVCmd (m.queueCore q) b
    let r := m.runVector v
    let n := v.count
    let go : Nat → Prop := fun op => s.m.startable q 2 op ∧ vectorCheck s.m q b = .ok ()
    let runs : Instr → Prop := fun c =>
      (∃ redo,
        let u := (((r.counts v).watchOutputs 1 q (s.m.headNum q) b (r.outputs v) redo).keepChain q (s.m.headNum q)
          r.regs).noteLast q fun c => { c with wrote := r.wrote v }
        let adds := (r.targets.map (· / 32)).dedup
        exec c s = .next { s with m := (if v.op = 3 ∧ v.spaceD = 2 then u.noteAdds q adds else u).checkHead q }) ∧
      { r.m with mem := m.mem, freeCtr := m.freeCtr } = m
    let apart : Nat → Nat → Nat → Nat → Prop := fun a la c lc => a + la ≤ c ∨ c + lc ≤ a
    let sum : Nat → Word := fun k => (List.range k).foldl (fun acc e => acc + m.word (v.atA + 4 * e)) 0
    (go 1 → runs (.vectorChain q) ∧ (v.chain.flags.testBit 2 = false → r.m.mem = m.mem) ∧
      m.onlyBytes r.m v.atD (if v.chain.out.testBit 4 then 256 * v.items else 4 * n) ∧
      (v.chain.flags.testBit 2 = true → v.chain.out.testBit 4 = false →
        let regs := List.replicate 16 vzero
        let regs := if v.chain.flags.testBit 0 then regs.set 0 (m.loadLanes v v.atA 0) else regs
        let regs := if v.chain.flags.testBit 1 then regs.set 1 (m.loadLanes v v.atB 0) else regs
        let regs := (v.chain.ops.take v.chain.nops).foldl (runOp ([0, 0, 0] ++ v.chain.consts)) regs
        ∀ l, l < 64 → l < n → r.m.word (v.atD + 4 * l) = (regs.getD (v.chain.out % 16) vzero).getD l 0)) ∧
    (go 2 → runs (.vectorGather q) ∧ m.onlyBytes r.m v.atD (4 * n) ∧
      (apart v.atD (4 * n) v.atA (4 * n) → ∀ e, e < n →
        let i := (m.word (v.atA + 4 * e)).toNat
        let off := if v.spaceB = 2 then (v.offB + 4 * i) % 2 ^ 40 else v.offB + 4 * i
        let a := v.base v.spaceB + off
        (i = 0xFFFFFFFF → r.m.word (v.atD + 4 * e) = 0) ∧
          (i ≠ 0xFFFFFFFF → m.laneIn v.spaceB off = true → apart a 4 v.atD (4 * n) →
            r.m.word (v.atD + 4 * e) = m.word a) ∧
          (i ≠ 0xFFFFFFFF → m.laneIn v.spaceB off = false → r.m.word (v.atD + 4 * e) = 0))) ∧
    (go 3 → runs (.scatterAdd q) ∧
      (isGolden b = true ∨ v.isFp = false → ∀ off, off % 4 = 0 → m.laneIn v.spaceD off = true →
        r.m.word (v.base v.spaceD + off) = (List.range n).foldl
          (fun acc e => if m.scatterTarget v e = some off then addWord v.isFp acc (m.word (v.atB + 4 * e)) else acc)
          (m.word (v.base v.spaceD + off)))) ∧
    (go 4 → runs (.vectorProbe q) ∧ m.onlyBytes r.m v.atD (4 * n) ∧
      (apart v.atD (4 * n) v.atA (8 * n) → apart v.atD (4 * n) (m.vtBase (v.param2 % 32)) (2 ^ 26) → ∀ e, e < n →
        r.m.word (v.atD + 4 * e) =
          match (m.probe (v.param2 % 32) (m.le (v.atA + 8 * e) 8)).hit with
          | none => 0xFFFFFFFF
          | some c => BitVec.ofNat 32 (match v.param with
            | 0 => (m.cell (v.param2 % 32) c).row
            | 1 => c
            | _ => (m.cell (v.param2 % 32) c).point))) ∧
    (go 5 → runs (.xform q) ∧ m.onlyBytes r.m v.atD (32 * n) ∧
      (v.atA = v.atD ∨ apart v.atD (32 * n) v.atA (32 * n) → apart v.atD (32 * n) v.atB 12288 → ∀ e, e < n →
        let src := m.bytes (v.atA + 32 * e) 32
        let rows := (List.range 12).map fun i => m.word (v.atB + 48 * u8 src 0x16 + 4 * i)
        r.m.bytes (v.atD + 32 * e) 12 = (transform rows [w32 src 0, w32 src 4, w32 src 8]).flatMap wordBytes ∧
          r.m.bytes (v.atD + 32 * e + 12) 20 = src.drop 12)) ∧
    (go 6 → runs (.vectorSort q) ∧ m.onlyBytes r.m v.atD (8 * n) ∧
      (v.atA = v.atD ∨ apart v.atD (8 * n) v.atA (8 * n) → ∀ e, e + 2 ^ (v.param % 16) < n →
        e.testBit (v.param % 16) = false →
        let f := e + 2 ^ (v.param % 16)
        let x := m.bytes (v.atA + 8 * e) 8
        let y := m.bytes (v.atA + 8 * f) 8
        let lo := r.m.bytes (v.atD + 8 * e) 8
        let hi := r.m.bytes (v.atD + 8 * f) 8
        let key := fun (l : List Byte) => sortKey v.etype (w32 l 0)
        (lo = x ∧ hi = y ∨ lo = y ∧ hi = x) ∧
          (if !e.testBit (v.param2 % 16) || v.param2 % 16 == 15 then key lo ≤ key hi else key hi ≤ key lo))) ∧
    (go 7 → runs (.vectorScan q) ∧ (v.param.testBit 3 = false → m.onlyBytes r.m v.atD (4 * n)) ∧
      (v.etype ≠ 0 → v.param % 4 = 0 → v.items = 1 →
        (v.param.testBit 3 = false ∨ apart v.atD (4 * n) v.atB 4 → ∀ e, e < n →
          r.m.word (v.atD + 4 * e) = if v.param.testBit 2 then sum e else sum (e + 1)) ∧
        (v.param.testBit 3 = true → r.m.word v.atB = sum n))) ∧
    (go 8 → runs (.vectorReduce q) ∧
      (v.etype ≠ 0 → v.param % 8 = 0 → v.items = 1 → r.m.word v.atD = sum n) ∧ m.onlyBytes r.m v.atD (4 * v.items))

/-! ## MOVE, SYNC and META (R301 to R304) -/

/-- R301, R293: the MOVE commands when they start; that all of a command's writes come then is log entry 143, that STAGE_PUT
reads its source then log entry 15, the model's choices. COPY moves every row, read before any is written, FILL writes the fill
word into every word of every row, and no other byte changes; STAGE_PUT takes its record as it starts, and waits for room
without starting; STAGE_GET copies the next whole record of a stage queue, marks it and moves RD past it. R298, R299, R303,
R304: SYNC and META. Each SYNC starts and completes in one command: WAIT and SIGNAL_WAIT do nothing of their own, SEM_ADD,
SEM_SET and SIGNAL_ADD change one semaphore or signal and no other register. NOP changes nothing, UNIT records the start of a
re-execution unit, MARKER writes a record into trace while that is enabled, STAMP writes short time. It says under which
conditions on the state and the operands alone each of these commands answers a next state with its own effect: moveCopy,
moveFill, stagePut, stageGet, syncWait, semAdd, semSet, signalWait, signalAdd, metaNop, metaUnit, metaMarker, metaStamp. -/
def Obligations.MoveSyncMetaCommands : Prop :=
  (∀ (s : State) (q : Fin 256), s.m.live = true →
     let m := s.m
     let b := m.headBytes q
     let core := m.queueCore q
     let go : Nat → Prop := fun op => m.startable q 3 op ∧ firstErr (m.moveErrs q b) = .ok ()
     let rows := u16 b 0x14
     let rb := u32 b 0x18
     let src : Nat → Nat := fun i => rowAddr core (u8 b 0x11 % 16) (u64 b 0x20) (u32 b 0x30) i
     let dst : Nat → Nat := fun i => rowAddr core (u8 b 0x11 / 16) (u64 b 0x28) (u32 b 0x34) i
     let frame : Mach → Prop := fun u => { u with mem := m.mem, obs := m.obs } = m ∧
       ∀ a, (∀ i, i < rows → a < dst i ∨ dst i + rb ≤ a) → u.byte a = m.byte a
     let n := u8 b 0x12
     (go 1 → ∃ u : Mach, s.starts (.moveCopy q) q u ∧ frame u ∧
       ∀ i, i < rows → u.bytes (dst i) rb = m.bytes (src i) rb) ∧
     (go 2 → ∃ u : Mach, s.starts (.moveFill q) q u ∧ frame u ∧
       ∀ i j, i < rows → 4 * j < rb → u.word (dst i + 4 * j) = w32 b 0x1C) ∧
     (m.mayStart q = true → isStagePut b = true → m.headErr q b = .ok () → m.goes q = true →
       exec (.stagePut q) s =
         .next { s with m := ((m.countMove core b (rows * rb)).take q b (m.gatherRows core b).flatten).checkHead q }) ∧
     (m.mayStart q = true → isStagePut b = true → m.headErr q b = .ok () → m.waitReason q = 5 →
       ∃ t, exec (.stagePut q) s = .next { s with m := t } ∧ t.stage n = { m.stage n with waiting := true } ∧
         (∀ o, o ≠ n → t.stage o = m.stage o) ∧ { t with stageQ := m.stageQ } = m) ∧
     (∀ c len, m.startable q 3 4 → m.stageCfgOf n = some c → (m.stage n).nextRecord = some len → len ≤ moveLen b →
       let x := { m.stage n with mark := (m.stage n).rd, markValid := true }
       let a := spaceBase core (u8 b 0x11 / 16) + u64 b 0x28
       ∃ u : Mach, s.starts (.stageGet q) q u ∧ u.bytes a len = m.bytes (x.readAt c.geom) len ∧ m.onlyBytes u a len ∧
         u.stage n = { x with rd := x.rd + len } ∧ (∀ o, o ≠ n → u.stage o = m.stage o) ∧
         { u with mem := m.mem, obs := m.obs, stageQ := m.stageQ } = m)) ∧
  (∀ (s : State) (q : Fin 256), s.m.live = true →
     let m := s.m
     let b := m.headBytes q
     let core := m.queueCore q
     let k := core / 4
     let value : BitVec 16 := BitVec.ofNat 16 (u16 b 0x12)
     let syncs : Instr → Mach → Prop := fun c u => ∃ x : Started, x.num = m.headNum q ∧ x.bytes = b ∧
       exec c s = .next { s with m := (u.take q b []).complete q x }
     let sets : Mach → Nat → Word → Prop := fun u r v => u.reg r = v ∧ m.regsBut u [r] ∧ { u with regs := m.regs } = m
     (m.startable q 6 1 → syncs (.syncWait q) m) ∧
     (m.startable q 6 2 → ∃ u, syncs (.semAdd q) u ∧
       sets u (Reg.CLU_SEM k (u8 b 0x11)) ((m.sem k (u8 b 0x11) + value).setWidth 32)) ∧
     (m.startable q 6 3 → ∃ u, syncs (.semSet q) u ∧ sets u (Reg.CLU_SEM k (u8 b 0x11)) (value.setWidth 32)) ∧
     (m.startable q 6 4 → syncs (.signalWait q) m) ∧
     (m.startable q 6 5 → ∃ u, syncs (.signalAdd q) u ∧
       sets u (Reg.CQ_CSIG (u8 b 0x11)) ((m.csig (u8 b 0x11) + value).setWidth 32)) ∧
     (m.startable q 7 1 → s.starts (.metaNop q) q m) ∧
     (m.startable q 7 2 → m.patchHolds b = false → ∃ u, s.starts (.metaUnit q) q u ∧
       u.cmdq q = { m.cmdq q with
         units := { num := m.headNum q, group := u8 b 0x11, k := w32 b 0x14 } ::
           (m.cmdq q).units.filter fun v => v.num != m.headNum q } ∧
       (u8 b 0x11, q.val) ∈ u.fpl.unitQueues ∧ (∀ o, o ≠ q.val → u.cmdq o = m.cmdq o)) ∧
     (m.startable q 7 2 → m.patchHolds b = true → exec (.metaUnit q) s = .next s) ∧
     (m.startable q 7 3 → s.starts (.metaMarker q) q
       (if m.traceOn then m.trace (0x80 + core) 0x12 0
         (leBytes 1 q ++ leBytes 3 0 ++ leBytes 4 (m.headNum q).toNat ++ leBytes 4 (u32 b 0x14)) else m)) ∧
     (m.startable q 7 4 →
       let a := spaceBase core (u8 b 0x11) + u64 b 0x18
       ∃ u, s.starts (.metaStamp q) q u ∧ u.word a = s.m.time.count.setWidth 32 ∧ m.onlyBytes u a 4 ∧
         { u with mem := m.mem } = m))

/-! ## FUSE: grids, tracks and egress (R257 to R281) -/

/-- R258 to R261: the grid commands. Their writes come as they start, which is log entry 143, and the Tk before is the one log
entry 103 names: the model's choices. GRID_BEGIN fills the copy of instant k, with unknown cells for the group's first instant
and else with the old copy moved from the pose at the Tk before to the pose at Tk and decayed; GRID_EVIDENCE applies one
evidence plane and GRID_CLOSE ends the copy, each cell from its own record. They write no other memory. R264 to R268:
TRACK_ASSOC pairs detections with slots, each at most once, and writes every detection's slot and every slot's detection,
0xFFFF where there is none, and nothing else outside the association table; TRACK_LIFE writes every slot of the group's range whole into the other copy, both gen bytes one
on, and makes that copy current; without detections it is each old slot's miss, and no track is born. It says under which
conditions on the state and the operands alone each of these commands answers a next state with its own effect: gridBegin,
gridEvidence, gridClose, trackAssoc, trackLife. -/
def Obligations.FusionCommands : Prop :=
  (∀ (s : State) (q : Fin 256), s.m.live = true →
     let b := s.m.headBytes q
     let m := s.m.take q b []
     let g := u8 b 0x11
     let k := w32 b 0x14
     let tk := w32 b 0x18
     let base := m.gridBase g k
     let cells := m.gridW g * m.gridH g
     let go : Nat → Prop := fun op => s.m.startable q 5 op ∧ fuseCheck s.m q b = .ok ()
     let runs : Instr → (Nat → GridCell) → Mach → Prop := fun c f r =>
       exec c s = .next { s with m := r.checkHead q } ∧ m.onlyBytes r base (8 * cells) ∧
         ∀ i, i < cells → r.bytes (base + 8 * i) 8 = (f i).write
     let old : Nat → GridCell := fun i => GridCell.read (m.bytes (base + 8 * i) 8)
     (go 1 → s.m.copyBusy g k 1 = false →
       let mo := planarMotion (m.poseAt ((m.tkBefore g k).getD tk)).1 (m.poseAt tk).1
       ∃ r : Mach, runs (.gridBegin q)
         (fun i => if k = 0 ∧ ∀ p ∈ (m.group g).gridTks, p.1 = 0 then .unknown
           else m.beginCell g (m.gridBase g (k - 1)) mo (i % m.gridW g) (i / m.gridW g)) r ∧
         (k, tk) ∈ (r.group g).gridTks ∧
         (∀ o, o ≠ g → r.group o = m.group o) ∧ m.regsBut r [Reg.CAL_POSE_CLAMP] ∧
         { r with mem := m.mem, regs := m.regs, groups := m.groups } = m) ∧
     (go 2 → ∃ r : Mach, runs (.gridEvidence q) (fun i => (old i).apply (m.gridWeight g (u8 b 0x12))
         (m.fld (Reg.EGR_GRID_LO g) 16 16) (m.fld (Reg.EGR_GRID_CONF g) 0 16)
         (Evidence.read (m.bytes (fuseA (m.queueCore q) b + 8 * i) 8))) r ∧ { r with mem := m.mem } = m) ∧
     (go 3 → ∃ r : Mach, runs (.gridClose q) (fun i => (old i).close (signed 16 (m.fld (Reg.EGR_GRID_CONF g) 16 16))) r ∧
       { r with mem := m.mem } = m)) ∧
  (∀ (s : State) (q : Fin 256), s.m.live = true →
     let b := s.m.headBytes q
     let m := s.m.take q b []
     let g := u8 b 0x11
     let k := w32 b 0x14
     let tk := w32 b 0x18
     let n := u32 b 0x1C
     let aa := fuseA (m.queueCore q) b
     let bb := fuseB (m.queueCore q) b
     let v := m.assocTable
     let go : Nat → Prop := fun op => s.m.startable q 5 op ∧ fuseCheck s.m q b = .ok ()
     (go 4 → ∃ r : Mach, exec (.trackAssoc q) s = .next { s with m := r.checkHead q } ∧
       (aa + 32 * n ≤ bb ∨ bb + 2 * m.trkCount g ≤ aa → ∃ pairs : List Pair,
         (∀ x ∈ pairs, ∀ y ∈ pairs, x.det = y.det ∨ x.slot = y.slot → x = y) ∧
         (∀ i, i < n → r.le (aa + 32 * i + 0x16) 2 =
           ((pairs.find? fun p => p.det == i).map Pair.slot).getD 0xFFFF % 65536) ∧
         (∀ j, j < m.trkCount g → r.le (bb + 2 * j) 2 =
           ((pairs.find? fun p => p.slot == m.trkFirst g + j).map Pair.det).getD 0xFFFF % 65536)) ∧
       (∀ x, (∀ i, i < n → x ≠ aa + 32 * i + 0x16 ∧ x ≠ aa + 32 * i + 0x17) →
         x < bb ∨ bb + 2 * m.trkCount g ≤ x → x < m.vtBase v ∨ m.vtBase v + 2 ^ 26 ≤ x → r.byte x = m.byte x) ∧
       m.regsBut r [Reg.CAL_POSE_CLAMP, Reg.EGR_TRK_UNGATED, Reg.PNT_VT_OCC v, Reg.PNT_VT_TOMB v, Reg.PNT_VT_PROBEMAX v,
         Reg.PNT_VT_CELLDROPS v, Reg.PNT_VT_PROBEFULL v, Reg.PNT_EVENT] ∧
       (∀ o, r.group o = m.group o) ∧ { r with mem := m.mem, regs := m.regs, freeCtr := m.freeCtr } = m) ∧
     (go 5 → s.m.copyBusy g k 4 = false → m.trkFirst g + m.trkCount g ≤ 4096 →
       let old := (k - 1).toNat % 2
       let new := k.toNat % 2
       let gen : Nat → Byte := fun i => BitVec.ofNat 8 (u8 (m.track old i) 4 + 1)
       ∃ r : Mach, exec (.trackLife q) s = .next { s with m := r.checkHead q } ∧
         sget (fun _ => 0) r.egr.trkCur g = new ∧
         (n = 0 → (∀ j, j < m.trkCount g →
             let i := m.trkFirst g + j
             let t := Track.read (m.track old i)
             r.track new i = (if t.state = 0 then Track.free
               else m.updateTrack tk t none (m.bytes (bb + 64 * j) 64)).write (gen i)) ∧
           m.onlyBytes r (m.trkBase new) 262144 ∧ m.regsBut r [Reg.CAL_POSE_CLAMP, Reg.EGR_TRK_LIVE]) ∧
         (m.trkBase new + 262144 ≤ aa ∨ aa + 32 * n ≤ m.trkBase new → m.trkBase old + 262144 ≤ aa ∨ aa + 32 * n ≤ m.trkBase old →
           ∀ j, j < m.trkCount g →
             let i := m.trkFirst g + j
             r.byte (m.trkBase new + 64 * i + 4) = gen i ∧ r.byte (m.trkBase new + 64 * i + 0x3F) = gen i) ∧
         (∀ o, o ≠ g → r.group o = m.group o) ∧
         { r with mem := m.mem, regs := m.regs, groups := m.groups, egr := m.egr } = m))

/-- R272, R273, R276, R281: EMIT is held while an earlier instant of its group has not left egress, does nothing for one that
has passed, and else frames its packets, after which the instant has left; a held EMIT proceeds when its turn has come; at
the deadline with a later EMIT held, the oldest instant is skipped as discarded and counted. Of inter-module messages a part
opens its packet or adds to it, a part sent twice or out of place drops its packet and is counted, a whole packet for this
module, in one part or completed by its last part, enters the message stage queue, and one that stays incomplete for 10 ms is
dropped. That a packet without a destination is not framed and an EMIT of an unknown k is framed is log entry 99, the bytes
that fill up a record log entry 149: the model's choices. The packet of tracks carries the pose at Tk and the live slots. It says under which
conditions on the state and the operands alone each of these commands answers a next state with its own effect: emit,
emitResume, deadlineSkip, messageDatagramRx, reassemblyTimeout. -/
def Obligations.EgressPackets : Prop :=
  ∀ s : State, s.m.live = true →
    (∀ q : Fin 256,
      let b := s.m.headBytes q
      let m := s.m.take q b []
      let g := u8 b 0x11
      let k := w32 b 0x14
      let x := ((m.group g).open_.find? fun l => l.k == k).getD { k := k, tk := BitVec.ofInt 64 (m.ext (w32 b 0x18)) }
      let sent := (m.emitPackets (m.queueCore q) b (w32 b 0x18)).filter fun p => p.host || !p.dests.isEmpty
      s.m.startable q 5 6 → fuseCheck s.m q b = .ok () →
        ∃ r : Mach, exec (.emit q) s = .next { s with m := r.checkHead q } ∧
          (m.mustHold g k = true → r.heldEmits g = m.heldEmits g ++ [{ q := q, num := s.m.headNum q, k := k }] ∧
            { r with egr := m.egr } = m) ∧
          (m.mustHold g k = false → m.passed g k = true → r = m) ∧
          (m.mustHold g k = false → m.passed g k = false → (r.group g).left = some k ∧ r.time.count = m.time.count ∧
            (∀ o, o ≠ g → r.group o = m.group o) ∧
            (m.ejected = false → x.discarded = false → m.inLoss x.tk = false →
              r.reg Reg.EGR_PACKETS = m.reg Reg.EGR_PACKETS + BitVec.ofNat 32 sent.length))) ∧
    (∀ (g : Fin 16) h c, s.m.runs 151 = true → s.m.emitReady g = some (h, c) →
      exec (.emitResume g) s = .next { s with m :=
        (s.m.setHeld g ((s.m.heldEmits g).erase h)).emitNow (s.m.queueCore h.q) c.bytes }) ∧
    (∀ (g : Fin 16) x rest, s.m.runs 151 = true → (s.m.group g).open_ = x :: rest →
      (∃ h ∈ s.m.heldEmits g, h.k ≠ x.k) → (∀ h ∈ s.m.heldEmits g, h.k ≠ x.k) →
      (s.m.reg (Reg.FUS_DEADLINE g)).toNat * 1000 ≤ (s.m.time.count - x.tk).toInt →
      ∃ t, exec (.deadlineSkip g) s = .next { s with m := t } ∧
        t.reg Reg.EGR_SKIPPED = s.m.reg Reg.EGR_SKIPPED + 1 ∧ (t.group g).left = some x.k ∧ t.safety.outValid = false ∧
        ((s.m.group g).draining = false → t.hold (16 + g) = true) ∧ (∀ o, o ≠ g.val → t.group o = s.m.group o)) ∧
    (∀ g k tk, let pose := (s.m.poseAt tk).1
      (s.m.trackPacket g k tk).payload = wordsBytes pose.1 ++ wordsBytes pose.2 ++ List.replicate 4 0 ++
        (((s.m.trkSlots g).map (s.m.track (k.toNat % 2))).filter fun r => trackState r != 0).flatten) ∧
    (∀ (p : Fin 4) (d : Datagram), s.m.macUp p = true → s.m.isMessage d = true → d.intact = false →
      ∃ t, exec (.messageDatagramRx p d) s = .next { s with m := t } ∧
        t.reg (Reg.SNS_MAC_RXERR p) = s.m.reg (Reg.SNS_MAC_RXERR p) + 1 ∧ s.m.regsBut t [Reg.SNS_MAC_RXERR p] ∧
        { t with regs := s.m.regs, obs := s.m.obs } = s.m) ∧
    (∀ (p : Fin 4) (d : Datagram), s.m.macUp p = true → s.m.isMessage d = true → d.intact = true → s.m.unsupported p d = false →
      let serial := w32 d.payload 0
      let i := u16 d.payload 4
      let n := u16 d.payload 6
      let pkt := d.payload.drop 8
      let mine := fun (r : Reasm) => r.src == d.srcIp && r.serial == serial
      let others := (s.m.reasm p).filter fun r => !mine r
      let enters : List Byte → Prop := fun pkt => ∀ sq c, 36 ≤ pkt.length → u8 pkt 0 = 5 → fieldAt pkt 5 3 + 32 = pkt.length →
        w32 pkt 0x1C = crc32c (pkt.take 0x1C ++ pkt.drop 0x20) →
        (u8 pkt 0x21 = s.m.fld Reg.NET_MODULE 0 4 ∨ u8 pkt 0x21 = 0xFF) →
        let len := (pkt.length + 3) / 4 * 4
        s.m.msgQueue = some sq → s.m.stageCfgOf sq = some c → (s.m.stage sq).fits c.geom len = true →
        let dest := (s.m.stage sq).settle c.geom false
        ∃ t, exec (.messageDatagramRx p d) s = .next { s with m := t } ∧
          t.bytes (dest.fillAt c.geom) pkt.length = pkt ∧ t.stage sq = dest.put c.geom len ∧
          t.reg Reg.EGR_MSGRX = s.m.reg Reg.EGR_MSGRX + 1 ∧ t.rbit Reg.EGR_EVENT 0 = true ∧
          s.m.regsBut t [Reg.EGR_MSGRX, Reg.EGR_EVENT] ∧ s.m.onlyBytes t (dest.fillAt c.geom) len ∧
          t.reasm p = others ∧ (∀ o, o ≠ p.val → t.reasm o = s.m.reasm o) ∧
          { t with regs := s.m.regs, obs := s.m.obs, mem := s.m.mem, stageQ := s.m.stageQ, egr := s.m.egr,
                   freeCtr := s.m.freeCtr } = s.m
      (∀ r, (s.m.reasm p).find? mine = some r →
        (r.total ≠ n ∨ n ≤ i ∨ (∃ x ∈ r.parts, x.1 = i) →
          ∃ t, exec (.messageDatagramRx p d) s = .next { s with m := t } ∧ t.reg Reg.EGR_MSGERR = s.m.reg Reg.EGR_MSGERR + 1 ∧
            t.rbit Reg.EGR_EVENT 4 = true ∧ s.m.regsBut t [Reg.EGR_MSGERR, Reg.EGR_EVENT] ∧ t.reasm p = others ∧
            { t with regs := s.m.regs, obs := s.m.obs, egr := s.m.egr } = s.m) ∧
        (r.total = n → i < n → (∀ x ∈ r.parts, x.1 ≠ i) → r.parts.length + 1 ≠ n →
          ∃ t, exec (.messageDatagramRx p d) s = .next { s with m := t } ∧
            t.reasm p = others ++ [{ r with parts := r.parts ++ [(i, pkt)] }] ∧
            (∀ o, o ≠ p.val → t.reasm o = s.m.reasm o) ∧ { t with egr := s.m.egr, obs := s.m.obs } = s.m) ∧
        (r.total = n → i < n → (∀ x ∈ r.parts, x.1 ≠ i) → r.parts.length + 1 = n →
          enters ((List.range n).flatMap fun j =>
            if j = i then pkt else ((r.parts.find? fun x => x.1 == j).map Prod.snd).getD []))) ∧
      ((s.m.reasm p).find? mine = none →
      (d.payload.length < 8 ∨ n ≤ i →
        ∃ t, exec (.messageDatagramRx p d) s = .next { s with m := t } ∧ t.reg Reg.EGR_MSGERR = s.m.reg Reg.EGR_MSGERR + 1 ∧
          t.rbit Reg.EGR_EVENT 4 = true ∧ s.m.regsBut t [Reg.EGR_MSGERR, Reg.EGR_EVENT] ∧
          { t with regs := s.m.regs, obs := s.m.obs } = s.m) ∧
      (8 ≤ d.payload.length → i < n → n ≠ 1 → (s.m.reasm p).length < 8 →
        ∃ t, exec (.messageDatagramRx p d) s = .next { s with m := t } ∧
          t.reasm p = s.m.reasm p ++
            [{ src := d.srcIp, serial := serial, total := n, firstAt := s.m.time.count, parts := [(i, pkt)] }] ∧
          (∀ o, o ≠ p.val → t.reasm o = s.m.reasm o) ∧ { t with egr := s.m.egr, obs := s.m.obs } = s.m) ∧
      (8 ≤ d.payload.length → i = 0 → n = 1 → enters pkt))) ∧
    (∀ p : Fin 4,
      let old := fun (r : Reasm) => decide (10000000 ≤ (s.m.time.count - r.firstAt).toNat)
      ∃ t, exec (.reassemblyTimeout p) s = .next { s with m := t } ∧ t.reasm p = (s.m.reasm p).filter (fun r => !old r) ∧
        t.reg Reg.EGR_MSGERR = s.m.reg Reg.EGR_MSGERR + BitVec.ofNat 32 ((s.m.reasm p).filter old).length ∧
        (∀ o, o ≠ p.val → t.reasm o = s.m.reasm o) ∧ s.m.regsBut t [Reg.EGR_MSGERR, Reg.EGR_EVENT] ∧
        { t with regs := s.m.regs, egr := s.m.egr } = s.m)

/-! ## Command queues (R290 to R299, R412) -/

/-- R290, R291, R296, R297, R299, R412: what the host does to a queue. A doorbell moves TAIL forward within the ring, after
the writes through the HBM window have reached HBM; enabling a queue whose ring lies inside its space looks at its head;
disabling drains it; reset sets HEAD and DONE to TAIL; skip completes the erring command without effect, resume takes it
again; a step gives one credit under debug access; raising a signal adds 1 to it. Out of place, each is a bus error of cause
0x04 and nothing else. That an idle queue raises drained at once, a step without debug access does nothing and a reset clears
the UNIT marks is log entry 111, the model's choice. R293, R294: a started command that no failed check has stopped completes
once its unit runs, egress does not hold it and a VECTOR command has its contexts: it is no longer in flight, its semaphore and completion signal go up by 1 unless it repeats a completed one, and when it is the oldest
uncompleted DONE moves past it; planned re-homings and drained groups that waited for it then go on. It says under which
conditions on the state and the operands alone each of these commands answers a next state with its own effect: hostDoorbell,
queueEnable, queueDisable, queueReset, queueSkip, queueResume, queueStep, csigRaise, commandComplete. -/
def Obligations.QueuesOfCommands : Prop :=
  (∀ (s : State) (q : Fin 256), s.m.live = true →
     let m := s.m
     let x := m.cmdq q
     let refused : Instr → Nat → Prop := fun c a => ∃ t, exec c s = .next { s with m := t } ∧ m.busErr t a 4
     let queueOnly : Mach → Prop := fun u => (∀ o, o ≠ q.val → u.cmdq o = m.cmdq o) ∧ { u with regs := m.regs, cq := m.cq } = m
     (∀ tail : Word, m.writeCause (Reg.CQ_TAIL q) tail = none →
       let may := m.rbit (Reg.CQ_CFG q) 31 = false ∧ 0 ≤ (tail - m.reg (Reg.CQ_TAIL q)).toInt ∧
         (tail - m.reg (Reg.CQ_DONE q)).toNat ≤ 2 ^ m.ringLog q
       (may → ∃ u : Mach, exec (.hostDoorbell q tail) s = .next { s with m := u.checkHead q } ∧ u.reg (Reg.CQ_TAIL q) = tail ∧
         m.regsBut u [Reg.CQ_TAIL q] ∧ (∀ p ∈ u.port.posted, p.block ≠ .window) ∧
         (m.port.posted = [] → { u with regs := m.regs } = m) ∧
         { u with regs := m.regs, mem := m.mem, port := m.port } = m) ∧
       (¬ may → refused (.hostDoorbell q tail) (Reg.CQ_TAIL q))) ∧
     (m.writeCause (Reg.CQ_CTRL q) ((m.reg (Reg.CQ_CTRL q)).setBit 31 true) = none → m.qEnabled q = false →
       (x.draining = false → m.ringInside q = true → ∃ u : Mach, exec (.queueEnable q) s = .next { s with m := u.checkHead q } ∧
         u.qEnabled q = true ∧ m.regsBut u [Reg.CQ_CTRL q] ∧ { u with regs := m.regs } = m) ∧
       (x.draining = true ∨ m.ringInside q = false → refused (.queueEnable q) (Reg.CQ_CTRL q))) ∧
     (m.writeCause (Reg.CQ_CTRL q) ((m.reg (Reg.CQ_CTRL q)).setBit 31 false) = none → m.qEnabled q = true →
       ∃ t, exec (.queueDisable q) s = .next { s with m := t } ∧ t.qEnabled q = false ∧
         (t.cmdq q).started = x.started ∧ (∀ o, o ≠ q.val → t.cmdq o = m.cmdq o) ∧
         (x.started = [] ∧ x.redo = none → (t.cmdq q).draining = false ∧ t.rbit (Reg.CQ_EVENT q) 3 = true) ∧
         (x.started ≠ [] ∨ x.redo ≠ none → (t.cmdq q).draining = true ∧ queueOnly t ∧ m.regsBut t [Reg.CQ_CTRL q])) ∧
     (m.blockPosted (Reg.CQ_CMD q) = false → m.qEnabled q = false → x.draining = false →
       ∃ t, exec (.queueReset q) s = .next { s with m := t } ∧ t.reg (Reg.CQ_HEAD q) = m.reg (Reg.CQ_TAIL q) ∧
         t.reg (Reg.CQ_DONE q) = m.reg (Reg.CQ_TAIL q) ∧ m.regsBut t [Reg.CQ_HEAD q, Reg.CQ_DONE q] ∧ queueOnly t ∧
         t.cmdq q = { x with error := false, retake := false, redo := none, redoDone := [], ahead := [], units := [],
                             stepWaited := false }) ∧
     (m.blockPosted (Reg.CQ_CMD q) = false → m.qEnabled q = true ∨ x.draining = true → refused (.queueReset q) (Reg.CQ_CMD q)) ∧
     (m.blockPosted (Reg.CQ_CMD q) = false → x.error = true →
       (∃ u : Mach, exec (.queueSkip q) s = .next { s with m := (u.drainCheck q).checkHead q } ∧
         (u.cmdq q).error = false ∧ (u.cmdq q).started = x.started ∧ m.regsBut u [Reg.CQ_DONE q] ∧
         (x.ahead = [] → m.reg (Reg.CQ_ERRPOS q) = m.reg (Reg.CQ_DONE q) →
           u.reg (Reg.CQ_DONE q) = m.reg (Reg.CQ_DONE q) + 1) ∧
         (∀ o, o ≠ q.val → u.cmdq o = m.cmdq o) ∧ { u with regs := m.regs, cq := m.cq, obs := m.obs } = m) ∧
       (∃ u : Mach, exec (.queueResume q) s = .next { s with m := u.checkHead q } ∧ queueOnly u ∧ m.regsBut u [] ∧
         u.cmdq q = { x with error := false, retake := true })) ∧
     (m.blockPosted (Reg.CQ_CMD q) = false → x.error = false → refused (.queueSkip q) (Reg.CQ_CMD q) ∧ refused (.queueResume q) (Reg.CQ_CMD q)) ∧
     (m.blockPosted (Reg.CQ_CMD q) = false → ∃ t, exec (.queueStep q) s = .next { s with m := t } ∧ queueOnly t ∧ m.regsBut t [] ∧
       t.cmdq q = if m.debugAccess then { x with credit := true } else x) ∧
     (∀ v : Word, m.writeCause Reg.CQ_CSIG_RAISE v = none →
       ∃ t, exec (.csigRaise v) s = .next { s with m := t } ∧ t.csig (v.field 0 8) = m.csig (v.field 0 8) + 1 ∧
         m.regsBut t [Reg.CQ_CSIG (v.field 0 8)] ∧ { t with regs := m.regs } = m)) ∧
  (∀ (s : State) (q : Fin 256) (c : Started), s.m.live = true →
     (s.m.cmdq q).started.find? (fun d => d.num == c.num) = some c → s.m.heldEmit q c.num = false →
     s.m.runs (s.m.unitIsland q c.bytes) = true →
     (c.stopped = true → exec (.commandComplete q c.num) s = .next s) ∧
     (c.stopped = false → (cmdClass c.bytes = 2 → s.m.holdsContext q c.num = true) →
     let k := s.m.queueCore q / 4
     let ssem := u8 c.bytes 9
     let csig := u16 c.bytes 0xC
     ∃ u : Mach, exec (.commandComplete q c.num) s = .next { s with m := u.leaveAll.drainGroups } ∧
       (∀ d ∈ (u.cmdq q).started, d.num ≠ c.num) ∧ (∀ o, o ≠ q.val → u.cmdq o = s.m.cmdq o) ∧
       u.sem k (ssem % 64) = s.m.sem k (ssem % 64) + (if ssem.testBit 7 && !c.quiet then 1 else 0) ∧
       u.csig (csig % 256) = s.m.csig (csig % 256) + (if csig.testBit 15 && !c.quiet then 1 else 0) ∧
       ((s.m.cmdq q).ahead = [] → c.num = s.m.reg (Reg.CQ_DONE q) →
         u.reg (Reg.CQ_DONE q) = s.m.reg (Reg.CQ_DONE q) + 1) ∧
       u.reg (Reg.CQ_TAIL q) = s.m.reg (Reg.CQ_TAIL q) ∧ u.groups = s.m.groups ∧ u.slots = s.m.slots ∧ u.time = s.m.time))

/-! ## Floorplans and Show Home (R326 to R343, R434) -/

/-- R326, R328, R335, R336, R345, R434: what FPL_CTRL and the end of a store do. A start, of a move-in or of a patch, is a
bus error while one is in progress or a Still snapshot stands; else an image outside a staging region is refused and one
inside is staged for phase A, an image from NAND copied into a region first, and a patch that passes its checks waits for its
switch. Abort ends phase A and nothing else, and the faults met meanwhile are handled. A store of a verified image begins while
no other does and hold 6 does not stand, and its end replaces the slot's image, wearing the NAND, or leaves it. Log entries 16
(Show Home's staging region), 33 (a patch is verified at once), 34 (a second store fails) and 154 (a fault of phase A) are the
model's choices. It says under which conditions on the state and the operands alone each of these commands answers
a next state with its own effect: moveInStart, moveInAbort, weightPatchStart, fplStore, fplStoreDone. -/
def Obligations.FloorplanRequests : Prop :=
  ∀ s : State, s.m.live = true → s.m.blockPosted Reg.FPL_CTRL = false →
    let m := s.m
    let img := m.namedImage
    let refused : Instr → Prop := fun c => ∃ t, exec c s = .next { s with m := t } ∧ m.busErr t Reg.FPL_CTRL 4
    let goes : Instr → List Nat → (Mach → Prop) → Prop := fun c l p => ∃ t, exec c s = .next { s with m := t } ∧
      p t ∧ m.regsBut t l ∧ { t with regs := m.regs, fpl := m.fpl } = m
    let inPhase : Mach → Nat → Prop := fun t n => t.phase = n ∧
      ∀ b, b < 1 ∨ 4 ≤ b → t.rbit Reg.FPL_STATUS b = m.rbit Reg.FPL_STATUS b
    let tells : Mach → Refused → Nat → Prop := fun t r bit => t.reg Reg.FPL_REFUSE = BitVec.ofNat 32 r.1 ∧
      t.reg Reg.FPL_REFUSE_OFF = BitVec.ofNat 32 r.2 ∧ t.rbit Reg.FPL_EVENT bit = true
    let refusal : List Nat := [Reg.FPL_REFUSE, Reg.FPL_REFUSE_OFF, Reg.FPL_EVENT]
    let ends : Instr → List Nat → (Mach → Prop) → Prop := fun c l p => ∃ u : Mach, exec c s = .next { s with m := u.handleLate } ∧
      p u ∧ m.regsBut u l ∧ { u with regs := m.regs, fpl := m.fpl } = m
    let busy := m.phase ≠ 0 ∨ m.fpl.patch.isSome = true ∨ m.still = true
    (busy → refused .moveInStart ∧ refused .weightPatchStart) ∧
    (¬ busy →
      (m.stagingOk = true → m.fld Reg.FPL_SRC 0 2 ≠ 1 → goes .moveInStart [Reg.FPL_STATUS] fun t =>
        inPhase t 1 ∧ t.fpl = { m.fpl with staged := some img, stagedAt := some (m.addr36 Reg.FPL_ADDR_LO Reg.FPL_ADDR_HI) }) ∧
      (m.fld Reg.FPL_SRC 0 2 = 1 → ∃ t, exec .moveInStart s = .next { s with m := t } ∧ inPhase t 1 ∧
        t.fpl = { m.fpl with staged := some img, stagedAt := m.stagingFor img.length } ∧ m.regsBut t [Reg.FPL_STATUS] ∧
        (∀ a, m.stagingFor img.length = some a → t.bytes a img.length = img ∧ m.onlyBytes t a img.length) ∧
        (m.stagingFor img.length = none → t.mem = m.mem) ∧ { t with regs := m.regs, fpl := m.fpl, mem := m.mem } = m) ∧
      (m.stagingOk = false → ends .moveInStart (Reg.FPL_STATUS :: refusal) fun t =>
        inPhase t 0 ∧ tells t (1, 0) 1 ∧ t.fpl = { m.fpl with staged := none, stagedAt := none }) ∧
      (∀ p, m.stagingOk = true → m.checkPatch img = .ok p → goes .weightPatchStart [Reg.FPL_STATUS, Reg.FPL_WUPD_K] fun t =>
        t.rbit Reg.FPL_STATUS 6 = true ∧ t.phase = m.phase ∧ t.fpl = { m.fpl with patch := some p } ∧
          ∀ g k rest, p.groups = (g, k) :: rest → t.reg Reg.FPL_WUPD_K = k) ∧
      (∀ r, m.stagingOk = true → m.checkPatch img = .error r → goes .weightPatchStart refusal fun t =>
        tells t r 4 ∧ t.fpl = m.fpl)) ∧
    (m.phase = 1 → ends .moveInAbort [Reg.FPL_STATUS] fun t => inPhase t 0 ∧ t.fpl = { m.fpl with staged := none, stagedAt := none }) ∧
    (m.phase ≠ 1 → exec .moveInAbort s = .next s) ∧
    (∀ im, m.stagingOk = true → parseImage img = .ok im → m.checkSigned img im = .ok () → m.fpl.storing = none →
      m.hold 6 = false →
      mib img.length ≤ m.fld Reg.SEC_NAND_STATUS 0 11 → m.fld Reg.SEC_NAND_STATUS 24 8 < 100 →
      goes .fplStore [Reg.SEC_STATUS] fun t => t.rbit Reg.SEC_STATUS 10 = true ∧
        t.fpl = { m.fpl with storing := some (m.fld Reg.FPL_SRC 4 3, img) }) ∧
    (m.stagingOk = false ∨ m.fpl.storing.isSome = true ∨ m.fld Reg.SEC_NAND_STATUS 0 11 < mib img.length ∨
      100 ≤ m.fld Reg.SEC_NAND_STATUS 24 8 ∨ m.hold 6 = true →
      goes .fplStore [Reg.SEC_EVENT] fun t => t.rbit Reg.SEC_EVENT 7 = true ∧ t.fpl = m.fpl) ∧
    (∀ slot data, m.mgmtRuns = true → m.fpl.storing = some (slot, data) →
      (∃ t, exec (.fplStoreDone true) s = .next { s with m := t } ∧
        t.rbit Reg.SEC_STATUS 10 = false ∧ t.rbit Reg.SEC_EVENT 6 = true ∧ sget (fun _ => []) t.fpl.nand slot = data ∧
        (∀ o, o ≠ slot → sget (fun _ => []) t.fpl.nand o = sget (fun _ => []) m.fpl.nand o) ∧
        { t.fpl with nand := m.fpl.nand } = { m.fpl with storing := none } ∧
        (let free := m.fld Reg.SEC_NAND_STATUS 0 11 + mib (sget (fun _ => []) m.fpl.nand slot).length - mib data.length
         free < 2048 → t.fld Reg.SEC_NAND_STATUS 0 11 = free) ∧
        (m.reg Reg.SEC_NAND_ERASE_MAX).toNat ≤ (t.reg Reg.SEC_NAND_ERASE_MAX).toNat ∧
        m.regsBut t [Reg.SEC_STATUS, Reg.SEC_NAND_STATUS, Reg.SEC_EVENT, Reg.SEC_NAND_ERASE_MAX] ∧
        { t with regs := m.regs, fpl := m.fpl, freeCtr := m.freeCtr } = m) ∧
      (goes (.fplStoreDone false) [Reg.SEC_STATUS, Reg.SEC_EVENT] fun t =>
        t.rbit Reg.SEC_STATUS 10 = false ∧ t.rbit Reg.SEC_EVENT 7 = true ∧ t.fpl = { m.fpl with storing := none }))

/-- R333, R334, R336, Tables 13-6 and 13-10: phase B and the switch of a patch. An image that the checks refuse ends the
move-in; else, when no recovery is in progress, OUT_VALID falls under hold 2, trace stops, and groups, queues and streams are
stopped. Phase draining ends the pipeline and leaves nothing of the old floorplan in SRAM, queues, streams and groups. Then the
image is loaded, its copy kept in its staging region, and its reference committed: Show Home with its own
settings, an owner floorplan with what its sections hold, or Show Home next where a section fails. The commit ends the
move-in when the configuration matches the reference, else Show Home follows. A patch writes the layers of a group whose
queues stand at held UNITs. Log entries 12, 16, 154 and 175 are the model's choices. It says under which conditions on the
state and the operands alone each of these commands answers a next state with its own effect: phaseBChangeover, moveInCommitted, weightPatchSwitch. -/
def Obligations.FloorplanChanges : Prop :=
  ∀ s : State, s.m.live = true → s.m.mgmtRuns = true →
    let m := s.m
    let change := Instr.phaseBChangeover
    let fails : Instr → Prop := fun c => ∃ t, exec c s = .next { s with m := t } ∧ t.phase = 2 ∧
      t.rbit Reg.FPL_EVENT 2 = true ∧ t.fpl.staged = some []
    (∀ img r, m.still = false → m.fpl.staged = some img → m.phase = 1 →
      (img = [] ∧ r = (1, 0) ∨ img ≠ [] ∧ m.checkFloorplan img = .error r) →
      ∃ t : Mach, exec change s = .next { s with m := t.handleLate } ∧ t.phase = 0 ∧
        t.reg Reg.FPL_REFUSE = BitVec.ofNat 32 r.1 ∧ t.reg Reg.FPL_REFUSE_OFF = BitVec.ofNat 32 r.2 ∧
        t.rbit Reg.FPL_EVENT 1 = true ∧ t.fpl = { m.fpl with staged := none, stagedAt := none } ∧
        m.regsBut t [Reg.FPL_STATUS, Reg.FPL_REFUSE, Reg.FPL_REFUSE_OFF, Reg.FPL_EVENT] ∧
        { t with regs := m.regs, fpl := m.fpl } = m) ∧
    (∀ img, m.still = false → m.fpl.staged = some img → m.phase = 2 →
      let u := m.endPipeline
      ∃ t, exec change s = .next { s with m := t } ∧ t.phase = 3 ∧ t.fpl.staged = some img ∧ t.cq = [] ∧ t.streams = [] ∧
        t.groups = [] ∧ t.stageQ = [] ∧ t.stageCfg = [] ∧ t.slots = [] ∧ t.contexts = [] ∧ t.fpl.plan = {} ∧
        t.ports.frames = [] ∧
        ∀ a, t.byte a = if a < 2 ^ 36 then u.byte a else 0) ∧
    (∀ img, m.still = false → m.fpl.staged = some img → img ≠ [] →
      (∀ im, m.phase = 1 → m.checkFloorplan img = .ok im → m.hold 0 = true → exec change s = .next s) ∧
      (∀ im, m.phase = 1 → m.checkFloorplan img = .ok im → m.hold 0 = false →
        ∃ u : Mach, u.phase = 2 ∧ u.hold 2 = true ∧ u.safety.outValid = false ∧ u.rbit Reg.DBG_TRACE_CTRL 31 = false ∧
          u.fpl = { m.fpl with phaseBAt := m.time.count } ∧ u.reg Reg.SEC_LOG_COUNT = m.reg Reg.SEC_LOG_COUNT + 1 ∧
          { u with regs := m.regs, safety := m.safety, obs := m.obs, fpl := m.fpl, sec := m.sec } = m ∧
          let v := ((List.range 16).foldl Mach.groupChangeover u).discardAll
          let w := ((List.range 256).filter v.qEnabled).foldl
            (fun x q => (x.setRBit (Reg.CQ_CTRL q) 31 false).queueOff q) v
          exec change s = .next { s with m := (((List.range 256).filter w.strEnabled).foldl Mach.strStop w).dropPatch }) ∧
      (∀ im m', m.phase = 3 → parseImage img = .ok im → m.applyImage img im true = .ok m' →
        ∃ t, exec change s = .next { s with m := t } ∧ t.phase = 4 ∧ t.reg Reg.CCHK_REF = w32 (im.dataOf 0x10) 0 ∧
          t.rbit Reg.CCHK_STATUS 2 = true ∧ m'.regsBut t [Reg.CCHK_REF, Reg.FPL_STATUS, Reg.CCHK_STATUS] ∧
          (∀ g, m'.fpl.plan.regions.find? (fun r => r.purpose == 12 && decide (img.length ≤ r.size)) = some g →
            t.bytes g.base img.length = img ∧ m'.onlyBytes t g.base img.length ∧ t.fpl = { m'.fpl with copyAt := some g.base }) ∧
          (m'.fpl.plan.regions.find? (fun r => r.purpose == 12 && decide (img.length ≤ r.size)) = none →
            t.mem = m'.mem ∧ t.fpl = m'.fpl) ∧
          { t with regs := m'.regs, mem := m'.mem, fpl := m'.fpl } = m') ∧
      (∀ im r, m.phase = 3 → parseImage img = .ok im → m.applyImage img im true = .error r → fails change)) ∧
    (m.still = false → m.fpl.staged = some [] → m.phase = 3 →
      ∃ t, exec change s = .next { s with m := t } ∧ t.phase = 4 ∧ t.rbit Reg.CCHK_STATUS 2 = true ∧
        t.reg (Reg.FUS_PERIOD 0) = 50000000 ∧ t.reg (Reg.FUS_WAIT 0) = 30000 ∧ t.reg (Reg.FUS_DEADLINE 0) = 100000 ∧
        t.reg Reg.CAL_POSE_GAIN = 328 ∧ t.reg (Reg.EGR_GRID_HGT 0) = 50 ∧ t.reg (Reg.EGR_HOSTTILE 0) = 0x303) ∧
    (m.still = true ∨ m.fpl.staged = none → exec change s = .next s) ∧
    (∀ img, m.phase = 4 → m.fpl.staged = some img →
      (m.configCrc ≠ m.reg Reg.CCHK_REF → fails .moveInCommitted) ∧
      (∀ m', m.configCrc = m.reg Reg.CCHK_REF → m.commit.startPrograms.startAll (enablesOf img) = some m' →
        m'.fpl.deferred = [] →
        ∃ t, exec .moveInCommitted s = .next { s with m := t } ∧ t.phase = 0 ∧ t.rbit Reg.FPL_EVENT 0 = true ∧
          t.rbit Reg.FPL_STATUS 4 = img.isEmpty ∧ t.fpl.staged = none ∧ t.mem = m'.mem ∧
          t.reg Reg.FPL_IMAGE_ID = (if img.isEmpty then 0 else w32 img 8) ∧
          t.reg Reg.FPL_IMAGE_VER = (if img.isEmpty then 0 else w32 img 0xC))) ∧
    (∀ (g : Fin 16) p, m.fpl.patch = some p → (∃ x ∈ p.groups, x.1 = g.val ∧ m.patchReady g x.2 = true) →
      let own := p.layers.filter fun w => w.1.group == g.val
      ∃ t, exec (.weightPatchSwitch g) s = .next { s with m := t } ∧
        (∀ w, own = [w] → w.1.dests = [] →
          t.bytes w.1.master w.2.length = w.2 ∧ m.onlyBytes t w.1.master w.2.length) ∧
        (own = [] → t.mem = m.mem) ∧
        ((∃ x ∈ p.groups, x.1 ≠ g.val) → t.reg Reg.FPL_STATUS = m.reg Reg.FPL_STATUS ∧
          t.fpl = { m.fpl with patch := some { p with groups := p.groups.filter fun x => x.1 != g.val } }) ∧
        ((∀ x ∈ p.groups, x.1 = g.val) → t.rbit Reg.FPL_STATUS 6 = false ∧ t.rbit Reg.FPL_EVENT 3 = true ∧
          t.fpl = { m.fpl with patch := none, patchSeq := p.seq }) ∧
        m.regsBut t [Reg.FPL_STATUS, Reg.FPL_EVENT] ∧ { t with regs := m.regs, mem := m.mem, fpl := m.fpl } = m)

/-- R340, R341, R343: Show Home as it runs. At a multiple of 50 ms not yet reported it reports: what was written to its
registers takes effect and is committed, then it sends one packet more, under the next number, unless it has been ejected.
STOP_NEAR falls 100 ms after the last point within 0.3 m. A write of an FPL_SH register is kept for the next report, and is a
bus error under an owner floorplan. It says under which conditions on the state and the operands alone each of these commands
answers a next state with its own effect: showHomeReport, stopNearRelease, showHomeConfigWrite. -/
def Obligations.ShowHomeRuns : Prop :=
  ∀ s : State, s.m.live = true →
    let m := s.m
    let b := m.time.count.toNat / 50000000
    (m.showHome = true → m.safety.commitAt.isSome = true → m.phase < 2 → m.sh.boundary < b → m.runs 151 = true →
      let u := ({ m with sh := { m.sh with boundary := b } }).shTakeConfig.shPoseInputs.shGrid.shCommit
      u.sh.pendingCfg = [] ∧ u.sh.changed = false ∧
      (m.sh.pendingCfg ≠ [] → u.rbit Reg.CCHK_OPEN 0 = false ∧ u.reg Reg.CCHK_COMMITTED = u.reg Reg.CCHK_REF ∧
        u.rbit Reg.CCHK_STATUS 1 = true) ∧
      ∃ t, exec .showHomeReport s = .next { s with m := t } ∧
        (u.ejected = true → t = u) ∧
        (u.ejected = false → t.reg Reg.FPL_SH_REPORT = u.reg Reg.FPL_SH_REPORT + 1 ∧
          t.reg Reg.EGR_PACKETS = u.reg Reg.EGR_PACKETS + 1)) ∧
    (m.showHome = false ∨ m.safety.commitAt = none ∨ 2 ≤ m.phase ∨ b ≤ m.sh.boundary ∨ m.runs 151 = false →
      exec .showHomeReport s = .next s) ∧
    (∀ at_, m.sh.stopAt = some at_ → m.showHome = true → 100000000 ≤ (m.time.count - at_).toNat →
      ∃ t, exec .stopNearRelease s = .next { s with m := t } ∧ t.sh.stopAt = none ∧ t.rbit Reg.SNS_GPIO_OUT 0 = false ∧
        ∀ p, 1 ≤ p → p < 16 → t.rbit Reg.SNS_GPIO_OUT p = m.rbit Reg.SNS_GPIO_OUT p) ∧
    (∀ (off : BitVec 16) (v : Word), 0x100 ≤ off.toNat → off.toNat < 0x200 → m.writeCause (0x60000 + off.toNat) v = none →
      (m.showHome = false → ∃ t, exec (.showHomeConfigWrite off v) s = .next { s with m := t } ∧
        m.busErr t (0x60000 + off.toNat) 4) ∧
      (∀ r j, m.showHome = true → rowAt (0x60000 + off.toNat) = some (r, j) → r.acc = .rw →
        0x60000 + off.toNat ≠ Reg.FPL_SH_IMU →
        exec (.showHomeConfigWrite off v) s = .next { s with m := { m with sh := { m.sh with
          pendingCfg := (m.sh.pendingCfg.filter fun p => p.1 != 0x60000 + off.toNat) ++
            [(0x60000 + off.toNat, v &&& r.mask)] } } }))
/-! ## The configuration check and the safety supervisor (R348 to R369) -/

/-- R367, R368: the configuration check. A commit request begins a full pass outside phase B; the pass ends in a commit when
the CRC is the reference, which closes CCHK_OPEN and ends hold 8, else in a failure. What a segment may hold while CCHK_OPEN is
set or Show Home has changed its configuration is log entry 30, the model's choice. Each segment of a pass adds its bytes to
the pass CRC; one that does not hold what was committed is a configuration fault of its number, and the last ends the pass.
It says under which conditions on the state and the operands alone each of these commands answers a next state with its own
effect: cchkCommit, cchkCommitDone, configCheckSegment. -/
def Obligations.ConfigurationCheck : Prop :=
  ∀ s : State, s.m.live = true →
    let m := s.m
    let x := m.safety
    let n := x.segment
    let does : Instr → (Mach → Prop) → Prop := fun c p => ∃ t, exec c s = .next { s with m := t } ∧ p t
    let status : Mach → Prop := fun t => m.regsBut t [Reg.CCHK_STATUS] ∧ { t with regs := m.regs } = m
    (m.blockPosted Reg.CCHK_CTRL = false → m.phase < 2 → does .cchkCommit fun t =>
      t.rbit Reg.CCHK_STATUS 2 = true ∧ t.rbit Reg.CCHK_STATUS 4 = false ∧ status t) ∧
    (m.blockPosted Reg.CCHK_CTRL = false → 2 ≤ m.phase → exec .cchkCommit s = .next s) ∧
    (m.rbit Reg.CCHK_STATUS 2 = true → m.phase < 2 → m.configCrc ≠ m.reg Reg.CCHK_REF → does .cchkCommitDone fun t =>
      t.rbit Reg.CCHK_STATUS 2 = false ∧ t.rbit Reg.CCHK_STATUS 4 = true ∧ status t) ∧
    (m.rbit Reg.CCHK_STATUS 2 = true → m.phase < 2 → m.configCrc = m.reg Reg.CCHK_REF → does .cchkCommitDone fun t =>
      t.rbit Reg.CCHK_STATUS 1 = true ∧ t.rbit Reg.CCHK_STATUS 2 = false ∧ t.rbit Reg.CCHK_STATUS 3 = true ∧
        t.reg Reg.CCHK_COMMITTED = m.configCrc ∧ t.reg Reg.CCHK_LAST = m.configCrc ∧
        t.reg Reg.CCHK_PASSES = m.reg Reg.CCHK_PASSES + 1 ∧ t.rbit Reg.CCHK_OPEN 0 = false ∧ t.hold 8 = false ∧
        t.safety.segment = 0 ∧ t.safety.outValid = x.outValid ∧
        (m.fpl.copyAt = none → t.mem = m.mem) ∧
        { t with regs := m.regs, safety := m.safety, obs := m.obs, fpl := m.fpl, mem := m.mem } = m) ∧
    (m.rbit Reg.CCHK_STATUS 2 = false → exec .cchkCommitDone s = .next s) ∧
    (m.rbit Reg.CCHK_STATUS 1 = false → exec .configCheckSegment s = .next s) ∧
    (m.rbit Reg.CCHK_STATUS 1 = true →
      (m.segMismatch n = false → n < 18 → exec .configCheckSegment s = .next { s with m := { m with
        safety := { x with segment := n + 1, passCrc := crcRun x.passCrc (m.segBytes n) } } }) ∧
      (m.segMismatch n = true → n < 18 → ∃ u : Mach,
        exec .configCheckSegment s = .next { s with m := u.detect (configDetection 0x0C n) } ∧
        u.reg Reg.CCHK_MISMATCH = BitVec.ofNat 32 n ∧ u.safety.passOk = false ∧ u.safety.segment = n + 1 ∧
        m.regsBut u [Reg.CCHK_MISMATCH] ∧ { u with regs := m.regs, safety := m.safety } = m) ∧
      (m.segMismatch n = false → n = 18 → m.badEntries = [] → does .configCheckSegment fun t =>
        t.reg Reg.CCHK_LAST = crcOut (crcRun x.passCrc (m.segBytes 18)) ∧
          t.reg Reg.CCHK_PASSES = m.reg Reg.CCHK_PASSES + 1 ∧ t.rbit Reg.CCHK_STATUS 3 = x.passOk ∧
          t.safety = { x with segment := 0, passOk := true, passCrc := 0xFFFFFFFF } ∧
          m.regsBut t [Reg.CCHK_LAST, Reg.CCHK_PASSES, Reg.CCHK_STATUS] ∧
          { t with regs := m.regs, safety := m.safety, obs := m.obs } = m))

/-- R26, R350, R351, R354, R355, R357, R358, Tables 14-2 and 14-3: what a detection does while no trigger of the debug block
is set on it. An error that SEC-DED has corrected is counted and no fault. During a move-in a detection is recorded, and its
reaction waits for the end; an uncorrectable word of the image fails the load. Else, before those that waited, it is counted as transient or
permanent and logged with its reaction: a supply or temperature event begins hold 10; a fault of the timebase or the
supervisor is fatal, and asserts FAULT_n; one of the management core halts its firmware and ends a move-in; one of a unit
that is recovered begins hold 0, with OUT_VALID low, and a core's queues lose their started commands; data cleared shows in the
log (log entry 168); a reloaded configuration that does not verify at its recovery's end is fatal and shows reaction 6. Log entries 24, 28, 43, 154 and 161 are the model's choices. It says under which
conditions on the state and the operands alone each of these commands answers a next state with its own effect:
faultDetected. -/
def Obligations.FaultsDetected : Prop :=
  ∀ (s : State) (d : Detection), s.m.live = true → s.m.rbit Reg.DBG_TRIG_CFG 0 = false → s.m.rbit Reg.DBG_TRIG_CFG 1 = false →
    let m := s.m
    let perm := m.isPermanent d
    let i := (m.reg Reg.SAFE_LOG_COUNT).toNat % 64
    let count := if perm then Reg.SAFE_PERMANENT else Reg.SAFE_TRANSIENT
    let does : (Mach → Prop) → Prop := fun p => ∃ t, exec (.faultDetected d) s = .next { s with m := t } ∧ p t
    let doesLate : (Mach → Prop) → Prop := fun p => ∃ u : Mach, exec (.faultDetected d) s = .next { s with m := u.handleLate } ∧
      (m.fpl.deferred = [] → u.handleLate = u) ∧ p u
    let seen : Nat → Nat := fun r => if d.cause = 8 ∧ d.again = true then
      (if (m.regionOf d.addr).map Region.purpose = some 12 then 6 else 8) else r
    let logged : Mach → Nat → Prop := fun t r => t.reg count = m.reg count + 1 ∧ t.rbit Reg.SAFE_EVENT 1 = true ∧
      t.reg Reg.SAFE_LOG_COUNT = m.reg Reg.SAFE_LOG_COUNT + 1 ∧ t.reg (Reg.SAFE_LOG0 i) = m.now ∧
      t.fld (Reg.SAFE_LOG1 i) 24 8 = d.cause.toNat ∧ t.fld (Reg.SAFE_LOG1 i) 0 8 = r ∧ t.reg (Reg.SAFE_LOG2 i) = d.detail
    let fatal : Mach → Prop := fun t => t.hold 1 = true ∧ t.safety.outValid = false ∧ t.safety.faultN = true ∧
      t.rbit Reg.SAFE_STATUS 2 = true ∧ t.rbit Reg.SAFE_EVENT 4 = true
    let recovers : Mach → Bool → Prop := fun t lasting => t.hold 0 = true ∧ t.safety.outValid = false ∧
      ∃ r ∈ t.safety.recoveries, r.det = d ∧ r.at_ = m.time.count ∧ r.permanent = lasting
    let own := d.unit = .management ∨ d.unit = .security
    let waiting := m.fpl.deferred ++ [(d, i, perm)]
    (∀ store, d.corrected = some store → does fun t => m.regsBut t [Reg.MEM_CORR, Reg.MEM_EVENT] ∧
      (store = .hbm → t.reg Reg.MEM_CORR = m.reg Reg.MEM_CORR + 1 ∧ t.rbit Reg.MEM_EVENT 1 = true) ∧
      (store ≠ .hbm → t.regs = m.regs) ∧
      (m.frozen = false → ∃ n, n ∈ [416, 418, 420, 422] ∧ t.counter n = m.counter n + 1) ∧
      { t with regs := m.regs, obs := m.obs } = m) ∧
    (d.corrected = none → 1 ≤ m.phase → ¬ own → does fun t => logged t (m.firstReaction d perm) ∧
      (m.imageError d = false → t.fpl = { m.fpl with deferred := waiting }) ∧
      (m.imageError d = true → t.phase = 2 ∧ t.rbit Reg.FPL_EVENT 2 = true ∧
        t.fpl = { m.fpl with deferred := waiting, staged := some [] }) ∧
      t.safety = { m.safety with past := m.safety.past ++ [{ unit := d.unit, number := d.number, at_ := m.time.count }] } ∧
      { t with regs := m.regs, safety := m.safety, fpl := m.fpl, obs := m.obs, sec := m.sec } = m) ∧
    (d.corrected = none → m.phase = 0 ∨ own →
      (d.cause = 0x0F → doesLate fun t => logged t 0 ∧ t.hold 10 = true ∧ t.safety.outValid = false) ∧
      (d.cause ≠ 0x0F →
        (d.unit = .timebase ∨ d.unit = .supervisor → doesLate fun t => logged t 6 ∧ fatal t) ∧
        (own → doesLate fun t => logged t 5 ∧ t.obs.mgmtHalted = (m.obs.mgmtHalted || d.unit == .management) ∧
          (m.phase = 0 → t.fpl = m.fpl) ∧
          (m.phase = 1 → t.phase = 0 ∧ t.fpl = { m.fpl with staged := none, stagedAt := none }) ∧
          (2 ≤ m.phase → t.phase = 2 ∧ t.fpl = { m.fpl with staged := some [] })) ∧
        (d.unit = .port → doesLate fun t => logged t (seen (if perm then 7 else 0)) ∧ recovers t perm) ∧
        (d.unit = .pointUnit → doesLate fun t => t.reg count = m.reg count + 1 ∧ recovers t perm) ∧
        (d.unit = .cluster → doesLate fun t => logged t (seen (if perm then 6 else 1)) ∧ recovers t perm ∧ (perm = true → fatal t)) ∧
        (d.unit = .dieUnit → doesLate fun t => logged t (seen (if dieFatal d perm then 6 else 5)) ∧ recovers t perm ∧
          (dieFatal d perm = true → fatal t)) ∧
        (d.unit = .config → doesLate fun t => logged t 4 ∧ recovers t false ∧
          (m.coreRecovery = false → ∀ g, g < 16 → ∀ l ∈ (t.group g).open_, l.discarded = true) ∧
          (m.coreRecovery = true → t.safety.configWaiting = m.safety.configWaiting ++ [d] ∧ t.groups = m.groups)) ∧
        (d.unit = .core → m.inService (d.number % 32) = false → doesLate fun t => logged t 0 ∧ t.cq = m.cq ∧
          t.safety.outValid = m.safety.outValid) ∧
        (d.unit = .core → m.inService (d.number % 32) = true → d.cause ≠ 8 → (m.selfTestOf (d.number % 32)).leaving = false →
          (perm = false → doesLate fun t => logged t 1 ∧ recovers t false ∧
            (∀ q, q < 256 → m.queueCore q = d.number % 32 → (t.cmdq q).started = [] ∧ (t.cmdq q).rehoming = true) ∧
            ∀ q, m.queueCore q ≠ d.number % 32 → t.cmdq q = m.cmdq q) ∧
          (perm = true → doesLate fun t => t.reg count = m.reg count + 1 ∧
            t.rbit Reg.FPL_CORES_OUT (d.number % 32) = true)))) ∧
    (∀ r : Recovery, r.det.unit = .config → r.det.reloadFails = true → r.logIndex < 64 →
      fatal (m.recoverEnd r) ∧ (m.recoverEnd r).fld (Reg.SAFE_LOG1 r.logIndex) 0 8 = 6)

/-- R348, R357, R359, R362 to R365, Table 14-1: the supervisor's own happenings. A recovery late at 1 ms is fatal; an instant
past its deadline is expired once, with its group's hold; OUT_VALID rises only with no hold and 10 µs low; force_invalid is
hold 7; a core that serves no group runs its jet every 50 ms; a jet that is late is a fault; a self-test segment starts where
its core is idle, and its end counts or is a fault; a late round is re-homed; the scrub counts or detects. Log entries 70, 71,
89, 110, 152 and 158 are the model's choices. It says under
which conditions on the state and the operands alone each of these commands answers a next state with its own effect:
recoveryTimeout, mgmtFwRestart, ageExpiry, outValidRise, forceInvalid, testJetPeriodic, testJetTimeout, selfTestSegment,
selfTestSegmentDone, selfTestRehome, sramScrub, hbmRecalibration. -/
def Obligations.SafetyMonitors : Prop :=
  ∀ s : State, s.m.live = true →
    let m := s.m
    let x := m.safety
    let does : Instr → (Mach → Prop) → Prop := fun c p => ∃ t, exec c s = .next { s with m := t } ∧ p t
    let stays : Instr → Prop := fun c => exec c s = .next s
    let core : Byte → Nat → Word → Bool → Detection := fun cause c w jet =>
      { cause := cause, unit := .core, number := c, detail := w, jetFails := jet, again := false, addr := 0, reloadFails := false }
    let late := x.recoveries.filter fun r =>
      decide (1000000 ≤ (m.time.count - r.at_).toNat) && m.fld (Reg.SAFE_LOG1 r.logIndex) 0 8 != 6
    let low := (m.time.count - x.lowAt).toNat
    (late ≠ [] → m.still = false → does .recoveryTimeout fun t => t.hold 1 = true ∧
      t.safety.outValid = false ∧ t.safety.faultN = true ∧ t.rbit Reg.SAFE_STATUS 2 = true ∧
      t.rbit Reg.SAFE_EVENT 4 = true ∧ ∀ r ∈ late, t.fld (Reg.SAFE_LOG1 r.logIndex) 0 8 = 6) ∧
    (late = [] → stays .recoveryTimeout) ∧
    (does .mgmtFwRestart fun t => t.obs = { m.obs with mgmtHalted := false } ∧ m.regsBut t [Reg.TIME_STATUS, Reg.GCTL_VIN, Reg.GCTL_TEMP] ∧
      { t with regs := m.regs, obs := m.obs } = m) ∧
    (∀ g : Fin 16, let gr := m.group g
      let known := if m.ageOn g then gr.sched.find? fun i => !i.aged else none
      let expires : Mach → Prop := fun t => t.hold (16 + g) = true ∧ t.safety.outValid = false ∧
        t.reg (Reg.SAFE_AGEMISS g) = m.reg (Reg.SAFE_AGEMISS g) + 1 ∧ t.rbit Reg.SAFE_EVENT 5 = true ∧
        ∀ o, o ≠ g.val → t.group o = m.group o
      (gr.open_.find? Live.watched = none → known = none → stays (.ageExpiry g)) ∧
      (∀ l, gr.open_.find? Live.watched = some l →
        (m.overAge g l.tk = false → stays (.ageExpiry g)) ∧
        (m.overAge g l.tk = true → does (.ageExpiry g) fun t => expires t ∧ (t.group g).sched = gr.sched ∧
          (t.group g).open_.map (fun l => l.k) = gr.open_.map (fun l => l.k) ∧
          ((t.group g).open_.filter Live.watched).length + 1 = (gr.open_.filter Live.watched).length)) ∧
      (∀ i, gr.open_.find? Live.watched = none → known = some i →
        (m.overAge g i.tk = false → stays (.ageExpiry g)) ∧
        (m.overAge g i.tk = true → does (.ageExpiry g) fun t => expires t ∧ (t.group g).open_ = gr.open_ ∧
          (t.group g).sched.map (fun i => i.k) = gr.sched.map (fun i => i.k) ∧
          ((t.group g).sched.filter fun i => !i.aged).length + 1 = (gr.sched.filter fun i => !i.aged).length))) ∧
    (x.outValid = false → m.reg Reg.SAFE_HOLD = 0 → 10000 ≤ low → does .outValidRise fun t =>
      t.safety = { x with outValid := true } ∧ t.rbit Reg.SAFE_STATUS 1 = true ∧
        t.reg Reg.SAFE_LAST_OUT = BitVec.ofNat 32 (min low (2 ^ 32 - 1)) ∧
        m.regsBut t [Reg.SAFE_STATUS, Reg.SAFE_LAST_OUT] ∧ { t with regs := m.regs, safety := x } = m) ∧
    (x.outValid = true ∨ m.reg Reg.SAFE_HOLD ≠ 0 ∨ low < 10000 → stays .outValidRise) ∧
    (∀ on, m.writeCause Reg.SAFE_CTRL (BitVec.ofNat 32 on.toNat) = none → does (.forceInvalid on) fun t =>
      t.hold 7 = on ∧ t.rbit Reg.SAFE_CTRL 0 = on ∧ t.safety.outValid = (x.outValid && !on) ∧
        (∀ n, n < 32 → n ≠ 7 → t.hold n = m.hold n) ∧ { t with regs := m.regs, safety := x, obs := m.obs } = m) ∧
    (∀ c : Fin 32, let st := m.selfTestOf c
      let due := 50000000 ≤ (m.time.count - sget (fun _ => 0) x.jetAt c).toNat
      (m.coreGroups c ≠ 0 ∨ ¬ due ∨ m.jetReady c = false ∨ m.golden c = none → stays (.testJetPeriodic c)) ∧
      (∀ gr, m.coreGroups c = 0 → due → m.jetReady c = true → m.golden c = some gr →
        let u := (m.runJet c gr).2
        sget (fun _ => 0) u.safety.jetAt c = m.time.count ∧ u.regs = m.regs ∧ u.cq = m.cq ∧
        exec (.testJetPeriodic c) s = .next { s with m := match (m.runJet c gr).1 with
          | .passed => u
          | .differs => (u.bump 430 1).jetFault c 0x05
          | .stopped rows => (u.bump 430 1).detect (tensorFault c rows) }) ∧
      (m.jetReady c = true → (m.golden c).isSome = true → ∃ (u : Mach) (w : Word) (again : Bool),
        exec (.testJetTimeout c) s = .next { s with m := u.detect (core 0x14 c w again) } ∧
        (m.frozen = false → u.counter 429 = m.counter 429 + 1 ∧ u.counter 430 = m.counter 430 + 1) ∧
        { u with obs := m.obs, freeCtr := m.freeCtr } = m) ∧
      (m.jetReady c = false ∨ m.golden c = none → stays (.testJetTimeout c)) ∧
      (m.inService c = true → st.running = false → m.ccRecovering c = false → m.coreInFlight c = 0 → m.slotsFree c = true →
        st.rehomed = true ∨ m.windowBlocks c = false → does (.selfTestSegment c) fun t =>
          t.selfTestOf c =
              { st with running := true, done := if 8 ≤ st.done then 0 else st.done, startedAt := m.time.count } ∧
            (∀ o, o ≠ c.val → t.selfTestOf o = m.selfTestOf o) ∧ { t with safety := x } = m) ∧
      (m.inService c = false ∨ st.running = true ∨ m.coreInFlight c ≠ 0 ∨ m.ccRecovering c = true ∨ m.slotsFree c = false ∨
          st.rehomed = false ∧ m.windowBlocks c = true →
        stays (.selfTestSegment c)) ∧
      (st.running = true →
        (∃ u : Mach, exec (.selfTestSegmentDone c true) s = .next { s with m := (u.queuesOf c).foldl Mach.checkHead u } ∧
          u.selfTestOf c = { st with
            running := false, done := st.done + 1, roundAt := if st.done + 1 = 8 then m.runClock else st.roundAt } ∧
          { u with safety := x, obs := m.obs } = m) ∧
        (∃ (u : Mach) (w : Word), exec (.selfTestSegmentDone c false) s = .next { s with m := u.detect (core 0x06 c w false) } ∧
          (u.selfTestOf c).running = false ∧ (u.selfTestOf c).done = st.done ∧
          { u with safety := x, obs := m.obs, freeCtr := m.freeCtr } = m)) ∧
      (st.running = false → ∀ pass, stays (.selfTestSegmentDone c pass)) ∧
      (m.inService c = false ∨ st.rehomed = true ∧ st.done < 8 ∨ st.rehomed = false ∧ m.roundLate c = false →
        stays (.selfTestRehome c)) ∧
      (∀ p, m.inService c = true → st.rehomed = false → m.roundLate c = true → m.coreInFlight c ≠ 0 → m.fallbackOf c = some p →
        does (.selfTestRehome c) fun t => t.selfTestOf c = { st with leaving := true } ∧
          (∀ q ∈ p.queues, (t.cmdq q).rehoming = true) ∧ t.regs = m.regs ∧ { t with cq := m.cq, safety := x } = m) ∧
      (∀ p, m.inService c = true → st.rehomed = false → m.roundLate c = true → m.coreInFlight c = 0 → m.fallbackOf c = some p →
        does (.selfTestRehome c) fun t =>
          (t.selfTestOf c).rehomed = true ∧ ((t.selfTestOf c).rings, (t.selfTestOf c).entries) = m.standing p ∧
            t.reg Reg.SAFE_HOLD = m.reg Reg.SAFE_HOLD) ∧
      (m.inService c = true → st.rehomed = true → 8 ≤ st.done → (∀ r ∈ st.rings, (m.cmdq r.1).started = []) →
        does (.selfTestRehome c) fun t => (t.selfTestOf c).rehomed = false ∧ (t.selfTestOf c).rings = [] ∧
          t.reg Reg.SAFE_HOLD = m.reg Reg.SAFE_HOLD ∧ ∀ r ∈ st.rings, r.1 < 256 → t.queueCore r.1 = c)) ∧
    stays (.sramScrub .cleanSram) ∧
    (m.frozen = false →
      (does (.sramScrub .correctedSram) fun t => t.counter 416 = m.counter 416 + 1 ∧ { t with obs := m.obs } = m) ∧
      (does (.sramScrub .correctedSeq) fun t => t.counter 420 = m.counter 420 + 1 ∧ { t with obs := m.obs } = m)) ∧
    (∀ o : SramOwner, ∃ (u : Mach) (w : Word),
      let d := match o with
        | .core c => core 0x07 c w false
        | .cluster k => { core 0x07 k w false with unit := .cluster }
        | .ingress => { core 0x07 150 w false with unit := .dieUnit }
      exec (.sramScrub (.uncorrectableSram o)) s = .next { s with m := u.detect d } ∧ { u with freeCtr := m.freeCtr } = m) ∧
    (∀ c : Fin 40, ∃ (u : Mach) (w : Word),
      let d := if c.val < 32 then core 0x09 c w false else { core 0x09 (c.val - 32) w false with unit := .cluster }
      exec (.sramScrub (.uncorrectableSeq c)) s = .next { s with m := u.detect d } ∧ { u with freeCtr := m.freeCtr } = m) ∧
    (does .hbmRecalibration fun t => t.reg Reg.MEM_RECAL = m.reg Reg.MEM_RECAL + 1 ∧
      (∃ celsius : Byte, t.reg Reg.MEM_TEMP = celsius.setWidth 32) ∧ m.regsBut t [Reg.MEM_RECAL, Reg.MEM_TEMP] ∧
      { t with regs := m.regs, freeCtr := m.freeCtr } = m)
/-! ## Supply, reset, boot and power (R390, R395, R430, R442 to R457) -/

/-- R395, R430, R442, R444, R445, R450, R451, R455, R457: the supply and the reset pins. A VIN below VUVF turns the module off and
ends a thermal shutdown, one above VOV disconnects it, and one above VUVR brings it up in reset; a supply that leaves its
window begins hold 10. A wipe leaves what fuses, NAND and pins keep, the life-cycle state being that of the fuses; outputs are
high-impedance without power, and in reset but for OUT_VALID, which is low (R441). Reset ends when RESET_n negates, unless
EJECT_n holds it, and the holds of what is wrong at the pins begin. EJECT_n begins hold 6 and stops a move-in or a store. Log
entries 39 (thresholds), 43, 49 (what a reset keeps), 50, 55, 154 and 177 are the model's choices. It says under which
conditions on the state and the operands alone each of these commands answers a next state with its own effect: powerOn,
powerLoss, overvoltageDisconnect, overvoltageReconnect, resetAssert, resetRelease, thermalShutdown, eject, ejectRelease. -/
def Obligations.SupplyAndReset : Prop :=
  ∀ s : State,
    let m := s.m
    let does : Instr → (Mach → Prop) → Prop := fun c p => ∃ t, exec c s = .next { s with m := t } ∧ p t
    let wiped : Mach → Prop := fun t => t.mem = [] ∧ t.cq = [] ∧ t.groups = [] ∧ t.streams = [] ∧ t.core = [] ∧
      t.safety.outValid = false ∧ t.safety.faultN = t.pins.thermalOff ∧ t.pins.booted = false ∧ t.pins.inReset = true ∧
      t.fpl = { nand := m.fpl.nand } ∧ t.lifeState = burntLife m.sec.lifeFuses ∧
      (t.reg Reg.SEC_ATT_INDEX).toNat = max (m.reg Reg.SEC_ATT_INDEX).toNat m.sec.reserved % 2 ^ 32 ∧
      (∀ r, keptReg r = true → r ≠ Reg.SEC_LOG_COUNT → r ≠ Reg.SEC_ATT_INDEX → t.reg r = m.reg r) ∧
      (∀ r, keptReg r = false → r ∉ [Reg.SEC_STATUS, Reg.SEC_NONCE_LO, Reg.SEC_NONCE_HI, Reg.SAFE_HOLD, Reg.SAFE_EVENT,
        Reg.TIME_STATUS] → t.reg r = regReset r) ∧
      (m.sec.log.length < 1048576 → m.sec.log <+: t.sec.log)
    let only : Mach → (Pins → Pins) → Prop := fun t f => t = { m with pins := f m.pins }
    let sets : Nat → Mach → Prop := fun mv t => t.pins = { m.pins with vin := mv } ∧
      (m.live = true → m.mgmtRuns = true → t.reg Reg.GCTL_VIN = BitVec.ofNat 32 (mv % 65536)) ∧
      (m.live = false ∨ m.mgmtRuns = false → t.regs = m.regs) ∧ m.regsBut t [Reg.GCTL_VIN, Reg.GCTL_TEMP] ∧
      { t with regs := m.regs, pins := m.pins } = m
    let inReset : Mach → Prop := fun t => t.live = false ∧ t.drive .outValid = .low ∧ ∀ o, o ≠ .outValid → t.drive o = .highZ
    let watched := m.live = true ∧ m.pins.supplyOut = false
    let wrong : Nat → Prop := fun mv => mv < 18000 ∨ 60000 < mv
    let ends := m.pins.powered && m.pins.inReset && !m.pins.ejectLow
    (∀ mv, ∀ c ∈ [Instr.powerOn mv, Instr.powerLoss mv, Instr.overvoltageDisconnect mv],
      (mv < vuvf →
        (m.pins.powered = true → does c fun t => wiped t ∧ t.pins.powered = false ∧ t.pins.thermalOff = false ∧
          t.pins.disconnected = false ∧ t.pins.vin = mv ∧ t.live = false ∧ ∀ o, t.drive o = .highZ) ∧
        (m.pins.powered = false → does c fun t =>
          only t fun p => { p with vin := mv, thermalOff := false, disconnected := false })) ∧
      (vov < mv →
        (m.pins.powered = true → does c fun t => wiped t ∧ t.pins.powered = false ∧ t.pins.disconnected = true ∧
          t.pins.thermalOff = m.pins.thermalOff ∧ t.pins.vin = mv ∧ t.live = false) ∧
        (m.pins.powered = false → does c fun t => only t fun p => { p with vin := mv, disconnected := true })) ∧
      (vuvf ≤ mv → mv ≤ vov →
        (m.pins.powered = true → ¬ (watched ∧ wrong mv) → does c (sets mv)) ∧
        (m.pins.powered = true → watched → wrong mv → does c fun t => t.hold 10 = true ∧ t.safety.outValid = false ∧
          t.pins = { m.pins with vin := mv, supplyOut := true }) ∧
        (m.pins.powered = false → m.pins.disconnected = true ∨ mv ≤ vuvr → does c fun t =>
          only t fun p => { p with vin := mv }) ∧
        (m.pins.powered = false → m.pins.disconnected = false → vuvr < mv → does c fun t => wiped t ∧
          t.pins.powered = true ∧ t.pins.vin = mv ∧ (m.pins.thermalOff = false → inReset t)))) ∧
    (∀ mv,
      (m.pins.powered = false → mv < 60000 → vuvr < mv → does (.overvoltageReconnect mv) fun t => wiped t ∧
        t.pins.powered = true ∧ t.pins.disconnected = false ∧ t.pins.vin = mv) ∧
      (mv < 60000 → exec (.overvoltageReconnect mv) s =
        exec (.powerOn mv) { s with m := { m with pins := { m.pins with disconnected := false } } }) ∧
      (60000 ≤ mv → exec (.overvoltageReconnect mv) s = exec (.powerOn mv) s)) ∧
    (∀ width, width < 1000 → exec (.resetAssert width) s = .next s) ∧
    (∀ width, 1000 ≤ width →
      (m.supplied = true → does (.resetAssert width) fun t => wiped t ∧ t.pins.resetLow = true ∧ inReset t ∧
        (m.pins.vin < 18000 ∨ 60000 < m.pins.vin ∨ 1760 < m.pins.junction.toInt → t.hold 10 = true) ∧
        (m.time.refOk = false → t.hold 5 = true)) ∧
      (m.supplied = false → does (.resetAssert width) fun t => only t fun p => { p with resetLow := true })) ∧
    (ends = false → does .resetRelease fun t => only t fun p => { p with resetLow := false }) ∧
    (ends = true → does .resetRelease fun t => t.pins.inReset = false ∧ t.pins.resetLow = false ∧
      (m.vinOut = true ∨ m.tooHot = true → t.hold 10 = true) ∧ (m.time.refOk = false → t.hold 5 = true) ∧
      (m.vinOut = false → m.tooHot = false → m.time.refOk = true →
        only t fun p => { p with resetLow := false, inReset := false }) ∧
      m.regsBut t [Reg.SAFE_HOLD, Reg.SAFE_EVENT, Reg.SAFE_STATUS, Reg.TIME_STATUS] ∧
      { t with regs := m.regs, safety := m.safety, obs := m.obs, pins := m.pins } = m) ∧
    (m.pins.powered = true → does .thermalShutdown fun t => wiped t ∧ t.pins.thermalOff = true ∧ t.safety.faultN = true ∧
      t.live = false ∧ t.drive .outValid = .low ∧ t.drive .faultN = .low) ∧
    (m.pins.powered = false → exec .thermalShutdown s = .next s) ∧
    (m.live = true → ∃ u : Mach, exec .eject s = .next { s with m := u.handleLate } ∧
      (m.fpl.deferred = [] → u.handleLate = u) ∧ u.pins = { m.pins with ejectLow := true } ∧ u.hold 6 = true ∧
      u.safety.outValid = false ∧ u.ejected = true ∧ u.fpl = { m.fpl with staged := none, stagedAt := none, storing := none } ∧
      u.phase = (if m.phase = 1 then 0 else m.phase) ∧
      (m.fpl.storing.isSome = true → u.rbit Reg.SEC_STATUS 10 = false ∧ u.rbit Reg.SEC_EVENT 7 = true) ∧
      u.mem = m.mem ∧ u.cq = m.cq) ∧
    (m.live = false → does .eject fun t => only t fun p => { p with ejectLow := true }) ∧
    (does .ejectRelease fun t => only t fun p => { p with ejectLow := false }) ∧
    (m.live = true → (∀ n : Fin 8, m.rbit (Reg.SNS_FSYNC_CFG n) 31 = false → m.drive (.fsync n) = .highZ) ∧
      ∀ n : Fin 16, m.rbit Reg.SNS_GPIO_DIR n = false → m.drive (.gpio n) = .highZ)

/-- R421, R428, R430, R446, R447, R457, Table 18-7: the boot of a module out of reset, once for each reset. It wipes the on-die
SRAM, counts the wipe, and carries out an owner-area erase that is owed; where no firmware copy verifies it asserts FAULT_n
and goes no further, with HBM as it was. Else every block answers, HBM is trained and wiped, so that no byte of memory is
left, and the floorplan of FPL_BOOTSLOT or Show Home is moved in, except in END, where FAULT_n is asserted. Under hold 6 the
wipe alone is carried to its end. Of a module whose firmware runs and whose boot slot is not set, the boot ends with Show Home
in force. That BOOT runs whole in one command is log entry 47, the firmware image's form log entry 13 and what is held of the
NAND log entry 179: the model's choices. It says under which conditions on the state and the operands alone this command
answers a next state with its own effect: boot. -/
def Obligations.BootRuns : Prop :=
  ∀ s : State, s.m.live = true →
    let m := s.m
    let owed := m.sec.eraseOwed && !m.hold 6
    let sram : Mach → Prop := fun t => ∀ a, t.byte a = if a < 2 ^ 36 then m.byte a else 0
    let erased : Mach → Prop := fun t => owed = true → t.sec.eraseOwed = false ∧ t.sec.ownerLog = [] ∧ t.fpl.nand = []
    let wipes : BitVec 32 := if owed then 2 else 1
    (m.pins.booted = true ∨ m.rbit Reg.GCTL_STATUS 2 = true → exec .boot s = .next s) ∧
    (m.pins.booted = false → m.rbit Reg.GCTL_STATUS 2 = false →
      (m.hold 6 = true → ∃ t, exec .boot s = .next { s with m := t } ∧ sram t ∧ t.rbit Reg.GCTL_STATUS 2 = true ∧
        t.rbit Reg.GCTL_EVENT 0 = true ∧ t.reg Reg.SEC_WIPES = m.reg Reg.SEC_WIPES + 1 ∧
        m.regsBut t [Reg.GCTL_STATUS, Reg.GCTL_EVENT, Reg.SEC_WIPES] ∧ { t with regs := m.regs, mem := m.mem } = m) ∧
      (m.hold 6 = false → m.fwChoice = none → ∃ t, exec .boot s = .next { s with m := t } ∧ sram t ∧ erased t ∧
        t.safety.faultN = true ∧ t.rbit Reg.SAFE_STATUS 2 = true ∧ t.rbit Reg.GCTL_STATUS 2 = true ∧
        t.pins.booted = false ∧ t.reg Reg.SEC_WIPES = m.reg Reg.SEC_WIPES + wipes) ∧
      (∀ copy, m.hold 6 = false → m.fwChoice = some copy → ∃ u : Mach, u.mem = [] ∧ erased u ∧ u.pins.booted = true ∧
        u.rbit Reg.GCTL_STATUS 1 = true ∧ u.rbit Reg.GCTL_STATUS 2 = true ∧ u.rbit Reg.GCTL_STATUS 3 = true ∧
        u.rbit Reg.SEC_STATUS 9 = copy ∧ u.reg Reg.GCTL_FW_VER = Config.fwVer (m.fwImage copy) ∧
        u.reg Reg.GCTL_VARIANT = m.variantWord ∧ u.reg Reg.SEC_WIPES = m.reg Reg.SEC_WIPES + wipes + 1 ∧
        u.rbit Reg.MEM_STATUS 2 = true ∧ u.rbit Reg.MEM_STATUS 3 = true ∧ u.lifeState = m.lifeState ∧
        (m.lifeState = 0 → u.debugAccess = true) ∧
        exec .boot s = .next { s with m := if m.lifeState = 4 then u.assertFault else u.bootPlan }) ∧
      (∀ copy, m.hold 6 = false → m.fwChoice = some copy → m.lifeState = 4 → ∃ t, exec .boot s = .next { s with m := t } ∧
        t.mem = [] ∧ t.pins.booted = true ∧ t.safety.faultN = true ∧ t.rbit Reg.SAFE_STATUS 2 = true) ∧
      (∀ copy, m.hold 6 = false → m.fwChoice = some copy → m.lifeState ≠ 4 → m.rbit Reg.FPL_BOOTSLOT 3 = false →
        (Config.showHomeVerifies = false → ∃ t, exec .boot s = .next { s with m := t } ∧ t.mem = [] ∧
          t.safety.faultN = true) ∧
        (Config.showHomeVerifies = true → m.still = false → m.obs.mgmtHalted = false → m.obs.mgmtDebug = false →
          m.fpl.deferred = [] → ∃ t, exec .boot s = .next { s with m := t } ∧ t.pins.booted = true ∧ t.phase = 0 ∧
            t.showHome = true ∧ t.fpl.staged = none)))

/-- R390, R453, R454, R455: the monitors, the power states, the power cap and the reset requests of GCTL. A value out of its
window begins hold 10 with OUT_VALID low and is a detection of cause 0x0F; from 100 °C on islands are stretched in proportion;
the hold ends when every monitor is back. Entry to
IDLE or STANDBY begins hold 9, and a request is a bus error during a transition, phase B, a Still snapshot or in END; on
arrival GCTL_STATUS shows the state, and the clock of RUN stands or goes on. While the average of the last 1 ms is above the
cap, islands are stretched; a sample that telemetry drops is counted. A soft reset acts only within 1 ms of its arming. Log
entries 43, 51, 52, 53, 54 and 176 are the model's choices. It says under which conditions on the state and the operands alone each of these
commands answers a next state with its own effect: monitorExcursion, monitorRecovered, powerStateRequest, powerStateReached,
powerCapSample, ackReset, softResetArm, softReset. -/
def Obligations.PowerStates : Prop :=
  ∀ s : State, s.m.live = true →
    let m := s.m
    let does : Instr → (Mach → Prop) → Prop := fun c p => ∃ t, exec c s = .next { s with m := t } ∧ p t
    let event : Word → Detection := fun w =>
      { cause := 0x0F, unit := .supervisor, number := 145, detail := w, jetFails := false, again := false, addr := 0,
        reloadFails := false }
    let trips : MonitorEvent → Pins → (Mach → Prop) → Prop := fun e pins p => ∃ (u : Mach) (w : Word),
      u.pins = pins ∧ p u ∧ u.safety = m.safety ∧ ∃ t,
        t = u.oneClock Reg.SAFE_EVENT (fun x => (x.beginHold 10).detect (event w)) ∧
        exec (.monitorExcursion e) s = .next { s with m := t } ∧ t.hold 10 = true ∧ t.safety.outValid = false ∧ t.pins = pins
    (∀ mv,
      (mv < vuvf ∨ vov < mv → exec (.monitorExcursion (.supply mv)) s = exec (.powerLoss mv) s) ∧
      (vuvf ≤ mv → mv ≤ vov → mv < 18000 ∨ 60000 < mv → trips (.supply mv) { m.pins with vin := mv, supplyOut := true } fun u =>
        m.mgmtRuns = true → u.reg Reg.GCTL_VIN = BitVec.ofNat 32 (mv % 65536)) ∧
      (18000 ≤ mv → mv ≤ 60000 → does (.monitorExcursion (.supply mv)) fun t =>
        (m.mgmtRuns = true → t.reg Reg.GCTL_VIN = BitVec.ofNat 32 mv) ∧ (m.mgmtRuns = false → t.regs = m.regs) ∧
        m.regsBut t [Reg.GCTL_VIN, Reg.GCTL_TEMP] ∧ { t with regs := m.regs } = { m with pins := { m.pins with vin := mv } })) ∧
    (∀ x,
      let requests : Mach → Prop := fun t => ∀ i, i < 166 → fixedIsland i = false → (t.island i).thermal =
        if x.toInt < 1600 then none else some (256 + ((m.islandPlan i).2 - 256) * min 80 (x.toInt - 1600).toNat / 80)
      (1760 < x.toInt → trips (.junction x) { m.pins with junction := x, junctionOut := true } fun u => requests u ∧
        (m.mgmtRuns = true → u.reg Reg.GCTL_TEMP = x.setWidth 32)) ∧
      (x.toInt ≤ 1760 → does (.monitorExcursion (.junction x)) fun t => requests t ∧
        (m.mgmtRuns = true → t.reg Reg.GCTL_TEMP = x.setWidth 32) ∧ (m.mgmtRuns = false → t.regs = m.regs) ∧
        m.regsBut t [Reg.GCTL_VIN, Reg.GCTL_TEMP] ∧
        { t with regs := m.regs, islands := m.islands } = { m with pins := { m.pins with junction := x } })) ∧
    (m.powerState ≠ 2 → does .monitorRecovered fun t => t.hold 10 = false ∧
      (∀ n, n < 32 → n ≠ 10 → t.hold n = m.hold n) ∧ m.regsBut t [Reg.SAFE_HOLD, Reg.SAFE_EVENT] ∧
      { t with regs := m.regs } = { m with pins := { m.pins with supplyOut := false, junctionOut := false } }) ∧
    (m.powerState = 2 → exec .monitorRecovered s = .next s) ∧
    (∀ v, m.writeCause Reg.GCTL_PWR_STATE v = none →
      let target := v.field 0 2
      let may := m.pins.entering = none ∧ m.phase < 2 ∧ m.lifeState ≠ 4 ∧ m.still = false
      (¬ may → ∃ t, exec (.powerStateRequest v) s = .next { s with m := t } ∧ m.busErr t Reg.GCTL_PWR_STATE 4) ∧
      (may → m.hold 0 = true → does (.powerStateRequest v) fun t => t.pins = { m.pins with wanted := some target } ∧
        m.regsBut t [Reg.GCTL_PWR_STATE] ∧ { t with regs := m.regs, pins := m.pins } = m) ∧
      (may → m.hold 0 = false → target = m.powerState → does (.powerStateRequest v) fun t =>
        t.pins = { m.pins with wanted := none } ∧ m.regsBut t [Reg.GCTL_PWR_STATE] ∧
          { t with regs := m.regs, pins := m.pins } = m) ∧
      (may → m.hold 0 = false → target ≠ m.powerState → does (.powerStateRequest v) fun t =>
        t.pins = { m.pins with wanted := none, entering := some target } ∧
          (target ≠ 0 → t.hold 9 = true ∧ t.safety.outValid = false) ∧ (target = 0 → t.safety = m.safety) ∧
          m.regsBut t [Reg.GCTL_PWR_STATE, Reg.SAFE_HOLD, Reg.SAFE_EVENT, Reg.SAFE_STATUS])) ∧
    (m.pins.entering = none → exec .powerStateReached s = .next s) ∧
    (∀ x, m.pins.entering = some x → x < 3 → does .powerStateReached fun t => t.powerState = x ∧ t.pins.entering = none ∧
      t.rbit Reg.GCTL_EVENT 3 = true ∧ (x = 2 → ∀ p, p < 4 → t.macUp p = false) ∧
      (∀ i, i < 144 → (t.island i).stopped.contains .idle = decide (x = 1)) ∧
      (x = 0 → t.pins.awayAt = none ∧
        t.pins.away = m.pins.away + (m.time.count - m.pins.awayAt.getD m.time.count)) ∧
      (x ≠ 0 → t.pins.awayAt = some (m.pins.awayAt.getD m.time.count) ∧ t.pins.away = m.pins.away) ∧
      (m.headsSettled → t.mem = m.mem) ∧ (∀ q, (t.cmdq q).started = (m.cmdq q).started) ∧ t.groups = m.groups) ∧
    (∀ mw period dropped,
      let cap := m.fld Reg.GCTL_PWR_CAP 0 8 * 1000
      let now := (capIslands.map fun i => (m.island i).cap.getD 256).foldl max 256
      let last := (mw :: m.pins.samples).take 100
      let above : Nat → Prop := fun p => p * last.length < last.sum
      let asks : Mach → Nat → Prop := fun t p => ∀ i ∈ capIslands, (t.island i).cap = if p ≤ 256 then none else some p
      let run : (Mach → Prop) → Prop := fun p => does (.powerCapSample ⟨mw, dropped⟩ period) fun t => p t ∧
        t.pins.samples = last ∧
        (m.mgmtRuns = true → m.frozen = false → t.counter 434 = m.counter 434 + (if dropped then 1 else 0)) ∧
        { t with pins := m.pins, islands := m.islands, obs := m.obs } = m
      (cap = 180000 → run fun t => asks t 256 ∧ t.pins.belowCap = 0) ∧
      (cap ≠ 180000 → above cap → run fun t => asks t (max period (now + 1)) ∧ t.pins.belowCap = 0 ∧
        t.pins.overCap = m.pins.overCap + if m.capBinds ∧ m.mgmtRuns ∧ ¬ dropped then 1 else 0) ∧
      (cap ≠ 180000 → ¬ above cap → 2000 ≤ cap → ¬ above (cap - 2000) →
        (m.pins.belowCap + 10000 < 1000000 → run fun t => t.islands = m.islands ∧
          t.pins = { m.pins with samples := last, belowCap := m.pins.belowCap + 10000 }) ∧
        (1000000 ≤ m.pins.belowCap + 10000 → run fun t => asks t (min period (now - 1)))) ∧
      (cap ≠ 180000 → ¬ above cap → cap < 2000 ∨ above (cap - 2000) → run fun t => t.islands = m.islands ∧
        t.pins = { m.pins with samples := last, belowCap := 0 })) ∧
    (m.blockPosted Reg.GCTL_CTRL = false → does .ackReset fun t => t.rbit Reg.GCTL_STATUS 0 = false ∧ m.regsBut t [Reg.GCTL_STATUS] ∧ { t with regs := m.regs } = m) ∧
    (m.blockPosted Reg.GCTL_CTRL = false → exec .softResetArm s = .next { s with m := { m with pins := { m.pins with softArm := some m.time.count } } }) ∧
    (∀ at_, m.blockPosted Reg.GCTL_CTRL = false → m.pins.softArm = some at_ →
      ((m.time.count - at_).toNat ≤ 1000000 → does .softReset fun t => t.mem = [] ∧ t.cq = [] ∧ t.core = [] ∧
        t.safety.outValid = false ∧ t.pins.booted = false ∧ t.pins.inReset = false ∧ t.lifeState = burntLife m.sec.lifeFuses ∧
        t.fpl.nand = m.fpl.nand) ∧
      (1000000 < (m.time.count - at_).toNat → exec .softReset s = .next s)) ∧
    (m.blockPosted Reg.GCTL_CTRL = false → m.pins.softArm = none → exec .softReset s = .next s)

/-! ## Counters (R400 to R402) -/

/-- R400 to R402: CNT_CTRL and the time it arms. A snapshot or a freeze copies every counter to its holding register with the
short time of the copy; a timed one is armed, and snap_busy reads 1, when CNT_SNAP_AT lies 10 µs to 2 s ahead, and it copies when
its time comes, the copies of every island in one clock (log entry 31, the model's reading); a request that overlaps another, or a freeze of frozen counters, is a bus error of cause 0x04. A freeze that a fault triggers
at the armed time is taken, and the armed request counts as done. It says under which conditions on the state and the
operands alone each of these commands answers a next state with its own effect: cntSnap, cntSnapAt, cntFreeze, cntFreezeAt,
cntUnfreeze, timedSnapshot. -/
def Obligations.CounterRequests : Prop :=
  ∀ s : State, s.m.live = true →
    let m := s.m
    let noTrace := (m.traceOn && m.rbit Reg.DBG_TRACE_KINDS 7) = false
    let free := m.blockPosted Reg.CNT_CTRL = false
    let refused : Instr → Prop := fun c => ∃ t, exec c s = .next { s with m := t } ∧ m.busErr t Reg.CNT_CTRL 4
    let copies : Instr → Bool → Word → Prop := fun c freeze time => ∃ t, exec c s = .next { s with m := t } ∧
      t.obs.held = m.obs.live ∧ t.obs.live = m.obs.live ∧ t.obs.heldClocked = m.obs.clocked ∧
      t.obs.heldClockedAll = m.obs.clockedAll ∧ t.obs.clockNo = m.freeCtr ∧ t.reg Reg.CNT_SNAP_TIME = time ∧
      t.reg Reg.CNT_SNAP_SEQ = m.reg Reg.CNT_SNAP_SEQ + 1 ∧ t.rbit Reg.CNT_EVENT 0 = true ∧
      (freeze = true → t.frozen = true ∧ t.rbit Reg.CNT_EVENT 1 = true) ∧ (freeze = false → t.frozen = m.frozen) ∧
      m.regsBut t [Reg.CNT_SNAP_TIME, Reg.CNT_SNAP_SEQ, Reg.CNT_EVENT, Reg.CNT_STATUS] ∧
      { t with regs := m.regs, obs := m.obs, freeCtr := m.freeCtr } = m
    let arms : Instr → Bool → Prop := fun c freeze => ∃ t, exec c s = .next { s with m := t } ∧
      t.obs = { m.obs with armed := some freeze } ∧ t.rbit Reg.CNT_STATUS 2 = true ∧ t.rbit Reg.CNT_STATUS 1 = true ∧ m.regsBut t [Reg.CNT_STATUS] ∧
      { t with regs := m.regs, obs := m.obs } = m
    let ahead := m.aheadWithin (m.reg Reg.CNT_SNAP_AT) 10000 2000000000 = true
    (free → noTrace → m.rbit Reg.CNT_STATUS 1 = false →
      copies .cntSnap false m.now ∧ (m.frozen = false → copies .cntFreeze true m.now)) ∧
    (free → m.rbit Reg.CNT_STATUS 1 = true → refused .cntSnap ∧ refused .cntFreeze) ∧
    (free → m.frozen = true → refused .cntFreeze ∧ refused .cntFreezeAt) ∧
    (free → ahead → m.obs.armed = none → arms .cntSnapAt false ∧ (m.frozen = false → arms .cntFreezeAt true)) ∧
    (free → ¬ ahead ∨ m.obs.armed.isSome = true → refused .cntSnapAt ∧ refused .cntFreezeAt) ∧
    (free → ∃ t, exec .cntUnfreeze s = .next { s with m := t } ∧ t.frozen = false ∧ m.regsBut t [Reg.CNT_STATUS] ∧
      { t with regs := m.regs } = m) ∧
    (∀ freeze, m.obs.armed = some freeze →
      (noTrace → reached m.now (m.reg Reg.CNT_SNAP_AT) = true →
        copies .timedSnapshot freeze (m.reg Reg.CNT_SNAP_AT) ∧
        ∃ t, exec .timedSnapshot s = .next { s with m := t } ∧ t.obs.armed = none ∧ t.rbit Reg.CNT_STATUS 1 = false ∧
          t.rbit Reg.CNT_STATUS 2 = false) ∧
      (reached m.now (m.reg Reg.CNT_SNAP_AT) = false → exec .timedSnapshot s = .next s)) ∧
    (m.obs.armed = none → exec .timedSnapshot s = .next s) ∧
    (∀ d : Detection, d.corrected = none → 1 ≤ m.phase → d.unit = .core → m.rbit Reg.DBG_TRIG_CFG 0 = true → m.frozen = false →
      m.obs.armed.isSome = true → m.now = m.reg Reg.CNT_SNAP_AT → ∃ t, exec (.faultDetected d) s = .next { s with m := t } ∧
        t.frozen = true ∧ t.obs.armed = none ∧ t.rbit Reg.CNT_STATUS 2 = false ∧ t.rbit Reg.CNT_STATUS 1 = false ∧ t.obs.held = t.obs.live)
/-! ## The host port (R375 to R386, R389) -/

/-- R375, R378 to R382: transactions that read or that the module turns away. An opcode whose complement is wrong is not
answered and counts a frame error; an op that is none of the five of Table 15-2 is refused with cause 0x09; every other
transaction is counted and moves tseq. An immediate error is captured and answered with ERR set and zeros for the data of a
read. A read answers the words at their addresses, each sampled on its own, and the CRC over address and data when asked; a
word of the HBM window that SEC-DED has corrected is counted, and one that it cannot correct reads as 0 and is a deferred bus
error of cause 0x0D; STATUS answers its byte alone; each clears PERR, and changes nothing else. It says under which
conditions on the state and the operands alone each of these commands answers a next state with its own effect: xspiRead,
xspiReadFixed, xspiStatus, transactionAbandon. -/
def Obligations.HostReads : Prop :=
  ∀ (s : State) (a : Word) (n : Fin 16) (crc : Bool) (hbm : List (Nat × EccResult)), s.m.live = true →
    let m := s.m
    let does : Instr → (Mach → Prop) → Prop := fun c p => ∃ t, exec c s = .next { s with m := t } ∧ p t
    let txn : Nat → Nat → Txn := fun op words => { op := op, addr := a.toNat, n := n, crc := crc, compOk := true, words := words, hbm := hbm }
    let u := m.accept.onPort fun p => { p with perr := false }
    let counts : Mach → Prop := fun t => t.reg Reg.HIF_TXNS = m.reg Reg.HIF_TXNS + 1 ∧ t.port.tseq = m.port.tseq + 1 ∧
      t.port.perr = false ∧ t.port.posted = m.port.posted
    let counted : Mach → Prop := fun t => counts t ∧ { t with regs := m.regs, port := m.port } = m
    let silent : Instr → Prop := fun c => does c fun t => t.port = { m.port with answer := {} } ∧
      t.reg Reg.HIF_FRAME_ERRS = m.reg Reg.HIF_FRAME_ERRS + 1 ∧ t.rbit Reg.HIF_EVENT 3 = true ∧
      m.regsBut t [Reg.HIF_FRAME_ERRS, Reg.HIF_EVENT] ∧ { t with regs := m.regs, port := m.port } = m
    let turned : Instr → Txn → Nat → Prop := fun c x bytes => ∀ cause, m.immediate x = some cause → does c fun t => counted t ∧
      t.port.answer.driven = true ∧ t.port.answer.status.getLsbD 7 = true ∧ t.port.answer.data = List.replicate bytes 0 ∧
      t.reg Reg.HIF_ERR_COUNT = m.reg Reg.HIF_ERR_COUNT + 1 ∧
      (m.rbit Reg.HIF_ERR_CAUSE 31 = false → t.reg Reg.HIF_ERR_ADDR = a ∧ t.fld Reg.HIF_ERR_CAUSE 0 8 = cause % 256) ∧
      m.regsBut t [Reg.HIF_TXNS, Reg.HIF_ERR_COUNT, Reg.HIF_ERR_ADDR, Reg.HIF_ERR_CAUSE, Reg.HIF_EVENT]
    let answered : Mach → Prop := fun t => counted t ∧ m.regsBut t [Reg.HIF_TXNS] ∧ t.port.answer.driven = true ∧
      t.port.answer.status.getLsbD 7 = false ∧ t.port.answer.status.getLsbD 6 = m.port.perr ∧
      t.port.answer.status.toNat % 4 = (m.port.tseq + 1).toNat
    let read : Instr → Txn → Bool → Prop := fun c x withCrc =>
      m.immediate x = none → m.lateness x = (none, m) →
      (∀ i, i < x.words → m.decodeCause false (x.wordAddr i) = none ∧ (u.regRead (x.wordAddr i)).2 = u ∧
        ∀ e ∈ hbm, e.1 = i → e.2 = .clean) →
      does c fun t => answered t ∧
        t.port.answer.data = (List.range x.words).flatMap (fun i => wordBytes (u.regRead (x.wordAddr i)).1) ∧
        t.port.answer.crc = if withCrc then some (crc16 (x.addrBytes ++ t.port.answer.data)) else none
    silent (.xspiRead a n crc ⟨false, hbm⟩) ∧ silent (.xspiReadFixed a n crc ⟨false, hbm⟩) ∧ (∀ op, silent (.xspiStatus op a n crc false)) ∧
    (∀ data sum, silent (.xspiWrite a n data sum false) ∧ silent (.xspiWriteFixed a n data sum false)) ∧
    silent (.transactionAbandon (.early false)) ∧
    (does (.transactionAbandon (.early true)) fun t => t.reg Reg.HIF_TXNS = m.reg Reg.HIF_TXNS + 1 ∧
      t.port = { m.port with tseq := m.port.tseq + 1, answer := {} } ∧ m.regsBut t [Reg.HIF_TXNS] ∧
      { t with regs := m.regs, port := m.port } = m) ∧
    (n.val ≤ 10 →
      turned (.xspiRead a n crc ⟨true, hbm⟩) (txn 1 (2 ^ n.val)) (4 * 2 ^ n.val) ∧
      turned (.xspiReadFixed a n crc ⟨true, hbm⟩) (txn 2 (2 ^ n.val)) (4 * 2 ^ n.val) ∧
      (∀ op, turned (.xspiStatus op a n crc true) (txn (noDataBits op) 0) 0) ∧
      read (.xspiRead a n crc ⟨true, hbm⟩) (txn 1 (2 ^ n.val)) crc ∧ read (.xspiReadFixed a n crc ⟨true, hbm⟩) (txn 2 (2 ^ n.val)) crc) ∧
    (∀ op, op ≠ .status → m.immediate (txn (noDataBits op) 0) = some 9) ∧
    (m.immediate (txn 5 0) = none → does (.xspiStatus .status a n crc true) fun t => answered t ∧ t.port.answer.data = []) ∧
    (∀ words fixed, words < 1024 → n.val = codeFor (words + 1) →
      read (.transactionAbandon (.read a fixed crc words hbm)) (txn (if fixed then 2 else 1) words) false) ∧
    (∀ o, n.val = 0 → m.immediate (txn 1 1) = none → m.lateness (txn 1 1) = (none, m) → blockOf a.toNat = some (.window, o) →
      m.port.posted = [] →
      (hbm = [(0, .corrected)] → does (.xspiRead a n crc ⟨true, hbm⟩) fun t => counts t ∧
        t.port.answer.data = wordBytes (m.word (m.windowAddr a.toNat)) ∧ t.reg Reg.MEM_CORR = m.reg Reg.MEM_CORR + 1 ∧
        t.rbit Reg.MEM_EVENT 1 = true ∧ m.regsBut t [Reg.HIF_TXNS, Reg.MEM_CORR, Reg.MEM_EVENT] ∧
        (m.frozen = false → t.counter 418 = m.counter 418 + 1) ∧
        { t with regs := m.regs, port := m.port, obs := m.obs } = m) ∧
      (hbm = [(0, .uncorrectable)] → does (.xspiRead a n crc ⟨true, hbm⟩) fun t =>
        t.port.answer.data = wordBytes 0 ∧ t.port.perr = true ∧ t.reg Reg.MEM_UNCORR = m.reg Reg.MEM_UNCORR + 1 ∧
        t.reg Reg.HIF_ERR_COUNT = m.reg Reg.HIF_ERR_COUNT + 1 ∧
        (m.rbit Reg.HIF_ERR_CAUSE 31 = false → t.fld Reg.HIF_ERR_CAUSE 0 8 = 0x0D) ∧ t.mem = m.mem))

/-- R380, R382, R383, R385, R386, R389: writes. A write whose CRC is wrong writes nothing and is captured as cause 0x08; else
its words, when none is refused at decode, enter the sluice of their block in order; an abandoned one with CRC writes
nothing. A register of any block whose block does no more than store it takes the implemented bits of a word that reaches it;
a word is refused while the block's sluice is busy; the window writes HBM at its base. A write-back clears the event bits it holds when the
sequence field is unchanged, and HIF_ERR_CTRL arms the capture again. That a row of one write is its arrival at the block, that
posted words wait for a tick, that a burst with CRC is tried whole and that the lock is judged before the range are log entries
5, 48, 120 and 124: the model's choices. It says under which conditions on the state and the
operands alone each of these commands answers a next state with its own effect: xspiWrite, xspiWriteFixed, registerWrite,
eventWriteBack, errCaptureClear. -/
def Obligations.HostWrites : Prop :=
  ∀ (s : State) (a v : Word), s.m.live = true →
    let m := s.m
    let ad := a.toNat
    let does : Instr → (Mach → Prop) → Prop := fun c p => ∃ t, exec c s = .next { s with m := t } ∧ p t
    let counted : Mach → Prop := fun t => t.reg Reg.HIF_TXNS = m.reg Reg.HIF_TXNS + 1 ∧ t.port.tseq = m.port.tseq + 1 ∧
      { t with regs := m.regs, port := m.port } = m
    (∀ (n : Fin 16) (data : List Word) (crc : Option (BitVec 16)) (fixed : Bool), n.val ≤ 10 → data.length = 2 ^ n.val →
      let c : Instr := if fixed then .xspiWriteFixed a n data crc true else .xspiWrite a n data crc true
      let x : Txn :=
        { op := if fixed then 4 else 3, addr := ad, n := n, crc := crc.isSome, compOk := true, words := 2 ^ n.val }
      let sum := crc16 (x.addrBytes ++ data.flatMap wordBytes)
      m.immediate x = none →
      ((∃ k, crc = some k ∧ k ≠ sum) → does c fun t => counted t ∧ t.port.posted = m.port.posted ∧ t.port.perr = true ∧
        t.reg Reg.HIF_CRC_ERRS = m.reg Reg.HIF_CRC_ERRS + 1 ∧ t.rbit Reg.HIF_EVENT 2 = true ∧
        (m.rbit Reg.HIF_ERR_CAUSE 31 = false → t.fld Reg.HIF_ERR_CAUSE 0 8 = 8) ∧
        m.regsBut t [Reg.HIF_TXNS, Reg.HIF_ERR_COUNT, Reg.HIF_ERR_ADDR, Reg.HIF_ERR_CAUSE, Reg.HIF_EVENT, Reg.HIF_CRC_ERRS]) ∧
      (∀ b o, (crc = none ∨ crc = some sum) → blockOf ad = some (b, o) → b ≠ .gctl → b ≠ .hif →
        (∀ i, i < 2 ^ n.val → m.decodeCause true (x.wordAddr i) = none ∧
          m.dataCause (x.wordAddr i) (data.getD i 0) = none) →
        does c fun t => counted t ∧ t.port.perr = false ∧ t.port.answer.driven = true ∧ m.regsBut t [Reg.HIF_TXNS] ∧
          t.port.posted = m.port.posted ++ [{ block := b, opcode := BitVec.ofNat 8 x.opcode, whole := crc.isSome,
                                              words := data.zipIdx.map (fun p => (p.2, x.wordAddr p.2, p.1)),
                                              winBase := m.fld Reg.HIF_WIN_BASE 0 10 }])) ∧
    (∀ fixed words,
      let n := codeFor (words.length + 1)
      m.immediate { op := if fixed then 4 else 3, addr := ad, n := n, crc := true, compOk := true, words := words.length } = none →
      does (.transactionAbandon (.write a fixed true words)) fun t => counted t ∧ m.regsBut t [Reg.HIF_TXNS] ∧
        t.port.posted = m.port.posted) ∧
    (blockOf ad = none → does (.registerWrite a v) fun t => t.reg Reg.HIF_ERR_COUNT = m.reg Reg.HIF_ERR_COUNT + 1 ∧
      { t with regs := m.regs } = m ∧
      m.regsBut t [Reg.HIF_ERR_COUNT, Reg.HIF_ERR_ADDR, Reg.HIF_ERR_CAUSE, Reg.HIF_EVENT]) ∧
    (∀ o, blockOf ad = some (.window, o) → m.windowAddr ad < m.hbmSize → m.sluiceBusy .window = false → does (.registerWrite a v) fun t =>
      t.word (m.windowAddr ad) = v ∧ m.onlyBytes t (m.windowAddr ad) 4 ∧ { t with mem := m.mem } = m) ∧
    (∀ b o, blockOf ad = some (b, o) → (rowAt ad).isSome = true → m.sluiceBusy b = true → does (.registerWrite a v) fun t =>
      t.reg Reg.HIF_ERR_COUNT = m.reg Reg.HIF_ERR_COUNT + 1 ∧
      (m.rbit Reg.HIF_ERR_CAUSE 31 = false → t.reg Reg.HIF_ERR_ADDR = a ∧ t.fld Reg.HIF_ERR_CAUSE 0 8 = 2) ∧
      { t with regs := m.regs } = m ∧ m.regsBut t [Reg.HIF_ERR_COUNT, Reg.HIF_ERR_ADDR, Reg.HIF_ERR_CAUSE, Reg.HIF_EVENT]) ∧
    (∀ b o cause, blockOf ad = some (b, o) → (rowAt ad).isSome = true → m.sluiceBusy b = false → m.writeCause ad v = some cause →
      ∃ t, exec (.registerWrite a v) s = .next { s with m := t } ∧ m.busErr t ad cause) ∧
    (∀ b o r j, blockOf ad = some (b, o) → rowAt ad = some (r, j) → r.acc = .rw → ownRule ad = false →
      m.sluiceBusy b = false → m.writeCause ad v = none → does (.registerWrite a v) fun t => t.reg ad = v &&& r.mask ∧ m.regsBut t [ad] ∧ { t with regs := m.regs } = m) ∧
    (isEventReg ad = true → m.blockPosted ad = false → v.field 16 16 = m.fld ad 16 16 → does (.eventWriteBack a v) fun t =>
      t.reg ad = m.reg ad &&& ~~~(v &&& 0xFFFF) ∧ m.regsBut t [ad] ∧ { t with regs := m.regs } = m) ∧
    (isEventReg ad = false ∨ m.blockPosted ad = false ∧ v.field 16 16 ≠ m.fld ad 16 16 → exec (.eventWriteBack a v) s = .next s) ∧
    (does .errCaptureClear fun t => t.reg Reg.HIF_ERR_ADDR = 0 ∧ t.reg Reg.HIF_ERR_CAUSE = 0 ∧
      m.regsBut t [Reg.HIF_ERR_ADDR, Reg.HIF_ERR_CAUSE] ∧ { t with regs := m.regs } = m)

/-! ## Debug (R403 to R418, R24) -/

/-- R24, R404, R406, R414 to R416: the debug block. A SYNC record goes into trace where it is selected; a ring that stands
full is restarted by a write of its pointer inside it; a trigger of a Still snapshot is missed while one stands, waits for
hold 0 to end, and else writes the snapshot at the base of the Cellar and holds the islands where DBG_STILL_CFG says so,
until resume; a late kick and a stall are such triggers. With debug access the debug port halts and resumes the management
core. Log entries 40, 41, 42, 57, 58, 59, 88 and 172 are the model's choices: the refusal of a pointer outside the ring, the
channels listed, when the two timers begin, the snapshot's number, the states of contexts, debug access for the hold of the
management core, and the end of the ring. It says under which conditions on the state and the operands alone each of these commands answers a next state with its
own effect: traceSyncRecord, cellarRestart, stillTake, stillResume, watchdogKick, stillWatchdogExpiry, stillStallExpiry,
mgmtDebugHalt, mgmtDebugResume. -/
def Obligations.DebugBlock : Prop :=
  ∀ s : State, s.m.live = true →
    let m := s.m
    let does : Instr → (Mach → Prop) → Prop := fun c p => ∃ t, exec c s = .next { s with m := t } ∧ p t
    let stays : Instr → Prop := fun c => exec c s = .next s
    let loose : Mach → Prop := fun t => t.rbit Reg.DBG_STATUS 4 = false ∧ t.rbit Reg.DBG_STATUS 5 = false ∧
      ∀ i ∈ stillIslands, StopCause.still ∉ (t.island i).stopped
    -- what a trigger x on u does
    let triggers : Instr → Mach → Nat → Prop := fun c u x =>
      (u.still = true ∨ 2 ≤ u.phase ∨ u.obs.stillPending.isSome = true → does c fun t =>
        t.reg Reg.DBG_STILL_MISSED = u.reg Reg.DBG_STILL_MISSED + 1 ∧ u.regsBut t [Reg.DBG_STILL_MISSED] ∧
          { t with regs := u.regs } = u) ∧
      (u.still = false → u.phase < 2 → u.obs.stillPending = none →
        (u.hold 0 = true → does c fun t => t = { u with obs := { u.obs with stillPending := some x } }) ∧
        (u.hold 0 = false → does c fun t => t.reg Reg.DBG_STILL_SEQ = u.reg Reg.DBG_STILL_SEQ + 1 ∧
          t.reg Reg.DBG_STILL_TIME = u.now ∧ t.rbit Reg.DBG_EVENT 3 = true ∧
          (u.rbit Reg.DBG_STILL_CFG 31 = true → t.rbit Reg.DBG_STATUS 5 = true ∧ ∀ i ∈ stillIslands, t.runs i = false) ∧
          (u.rbit Reg.DBG_STILL_CFG 31 = false → loose t) ∧ t.core = u.core ∧
          (u.rbit Reg.DBG_STILL_CFG 31 = true ∨ u.headsSettled →
            t.bytes u.cellarBase 4 = [0x53, 0x56, 0x53, 0x54] ∧ t.word (u.cellarBase + 8) = u.reg Reg.DBG_STILL_SEQ + 1 ∧
            u.onlyBytes t u.cellarBase (0x16800 + 4 * u.stillChannels.length) ∧ t.cq = u.cq)))
    (∀ c : Fin 40,
      (m.tracesCore c 3 = true → exec (.traceSyncRecord c) s = .next { s with m :=
        (m.trace c 0x04 0 (leBytes 4 (m.cc c).pc.toNat ++ leBytes 1 (m.ccStateCode c))).onCc c fun x =>
          { x with sinceTrace := 0 } }) ∧
      (m.tracesCore c 3 = false → stays (.traceSyncRecord c))) ∧
    (∀ v, m.writeCause Reg.DBG_CELLAR_WR v = none →
      let o := (v &&& 0x7FFFFFE0).toNat
      let may := m.rbit Reg.DBG_TRACE_CTRL 30 = true ∧ m.cellarFull = true ∧ 0x40000 ≤ o ∧ o < m.cellarSize
      (may → does (.cellarRestart v) fun t => (t.reg Reg.DBG_CELLAR_WR).toNat = o ∧ t.cellarFull = false ∧
        m.regsBut t [Reg.DBG_CELLAR_WR, Reg.DBG_STATUS] ∧ { t with regs := m.regs } = m) ∧
      (¬ may → ∃ t, exec (.cellarRestart v) s = .next { s with m := t } ∧ m.busErr t Reg.DBG_CELLAR_WR 4)) ∧
    (m.blockPosted Reg.DBG_STILL_CTRL = false → triggers .stillTake m 1) ∧
    (m.blockPosted Reg.DBG_STILL_CTRL = false → m.rbit Reg.DBG_STATUS 5 = true → does .stillResume fun t => loose t ∧ t.core = m.core ∧
      (m.headsSettled → m.regsBut t [Reg.DBG_STATUS] ∧ t.mem = m.mem ∧ t.cq = m.cq)) ∧
    (m.blockPosted Reg.DBG_STILL_CTRL = false → m.rbit Reg.DBG_STATUS 5 = false → stays .stillResume) ∧
    (m.blockPosted Reg.DBG_STILL_CTRL = false → exec .watchdogKick s = .next { s with m := { m with obs := { m.obs with kickAt := m.time.count } } }) ∧
    (m.rbit Reg.DBG_STILL_CFG 30 = true → m.msReg Reg.DBG_STILL_WDOG ≤ (m.time.count - m.obs.kickAt).toNat →
      ∃ u : Mach, triggers .stillWatchdogExpiry u 2 ∧ u.obs = { m.obs with kickAt := m.time.count } ∧
        u.rbit Reg.DBG_EVENT 4 = true ∧ m.regsBut u [Reg.DBG_EVENT] ∧ { u with regs := m.regs, obs := m.obs } = m) ∧
    (m.rbit Reg.DBG_STILL_CFG 30 = false → stays .stillWatchdogExpiry) ∧
    (m.rbit Reg.DBG_STILL_CFG 29 = true → m.anyQueued = true →
      m.msReg Reg.DBG_STILL_STALL ≤ (m.time.count - m.obs.progressAt).toNat →
      triggers .stillStallExpiry { m with obs := { m.obs with progressAt := m.time.count } } 3) ∧
    (m.rbit Reg.DBG_STILL_CFG 29 = false ∨ m.anyQueued = false → stays .stillStallExpiry) ∧
    (m.debugAccess = true →
      (does .mgmtDebugHalt fun t => t.mgmtRuns = false ∧ t.obs = { m.obs with mgmtDebug := true } ∧
        m.regsBut t [Reg.TIME_STATUS, Reg.GCTL_VIN, Reg.GCTL_TEMP] ∧ { t with regs := m.regs, obs := m.obs } = m) ∧
      (does .mgmtDebugResume fun t => t.mgmtRuns = (m.pins.booted && !m.obs.mgmtHalted) ∧
        t.obs = { m.obs with mgmtDebug := false } ∧ m.regsBut t [Reg.TIME_STATUS, Reg.GCTL_VIN, Reg.GCTL_TEMP] ∧
        { t with regs := m.regs, obs := m.obs } = m)) ∧
    (m.debugAccess = false → stays .mgmtDebugHalt ∧ stays .mgmtDebugResume)

/-! ## Security (R420 to R436) -/

/-- R423, R424, R426 to R429, R435: the signed requests. A malformed request, and one that a check refuses, ends with its
cause in SEC_REQ_RESULT, an event, a log record and a new nonce, and changes nothing else. One that passes every check has
the effect that Table 17-4 gives its code. Each of the eight commands finds nothing to do where a request of another code
lies at the request address. A life-cycle change burns the fuse of its transition and resets the module. The hash computations
behind a signature, the order of the checks and the events of a life-cycle change are log entries 10, 44 and 114, the model's
choices. It says under which conditions on the state and the operands alone each of these commands
answers a next state with its own effect: debugUnlock, cchkOpen, setMinVersion, enrollKey, revokeKey, lifecycle, ownerPort,
fwUpdate. -/
def Obligations.SignedRequests : Prop :=
  ∀ (s : State) (r : Request), s.m.live = true → s.m.blockPosted Reg.SEC_CTRL = false → s.m.readRequest = some r →
    let m := s.m
    let does : Instr → (Mach → Prop) → Prop := fun c p => ∃ t, exec c s = .next { s with m := t } ∧ p t
    let ends : Mach → Nat → Prop := fun t cause => t.reg Reg.SEC_REQ_RESULT = BitVec.ofNat 32 (r.code * 256 + cause) ∧
      t.rbit Reg.SEC_EVENT (if cause = 0 then 0 else 1) = true ∧ t.sec.nonceNo = m.sec.nonceNo + 1
    let commands : List (Nat × Instr) := [(1, .debugUnlock), (2, .cchkOpen), (3, .setMinVersion), (4, .enrollKey),
      (5, .revokeKey), (6, .lifecycle), (7, .ownerPort), (8, .fwUpdate)]
    let passes : Instr → (Mach → Prop) → Prop := fun c p => (r.code, c) ∈ commands → does c fun t => ends t 0 ∧ p t
    (∀ p ∈ commands, p.1 ≠ r.code → exec p.2 s = .next s) ∧
    (∀ p ∈ commands, ∀ cause, p.1 = r.code → m.checkRequest r = .error cause → does p.2 fun t =>
      t.reg Reg.SEC_REQ_RESULT = BitVec.ofNat 32 (r.code * 256 + cause) ∧ t.sec.nonceNo = m.sec.nonceNo + 1 ∧
        t.sec.log.length = min (m.sec.log.length + 1) 1048576 ∧
        m.regsBut t [Reg.SEC_REQ_RESULT, Reg.SEC_EVENT, Reg.SEC_LOG_COUNT, Reg.SEC_NONCE_LO, Reg.SEC_NONCE_HI] ∧
        { t with regs := m.regs, sec := m.sec } = m) ∧
    (m.checkRequest r = .ok () →
      (passes .debugUnlock fun t => t.debugAccess = true ∧ t.rbit Reg.SEC_STATUS 5 = true ∧
        t.sec.debugUntil = (if r.arg0 = 0 then none else some (m.time.count + BitVec.ofNat 64 (r.arg0 * 1000000000))) ∧
        (m.headsSettled → { t with regs := m.regs, sec := m.sec } = m)) ∧
      (passes .cchkOpen fun t =>
        (m.phase < 2 → t.rbit Reg.CCHK_OPEN 0 = true ∧ t.hold 8 = true ∧ t.safety.outValid = false) ∧
        (2 ≤ m.phase → t.sec.openAfter = true ∧ t.reg Reg.CCHK_OPEN = m.reg Reg.CCHK_OPEN)) ∧
      (passes .setMinVersion fun t => t.reg Reg.SEC_MINVER = BitVec.ofNat 32 r.arg0 ∧
        t.sec.versionRecs = m.sec.versionRecs ++ [BitVec.ofNat 32 r.arg0] ∧ { t with regs := m.regs, sec := m.sec } = m) ∧
      (passes .enrollKey fun t => t.rbit Reg.SEC_KEYS r.arg0 = true ∧
        t.ownerKey r.arg0 = BitVec.ofNat 256 (hash256 (r.block.take 32)) ∧
        (∀ k, k ≠ r.arg0 → t.ownerKey k = m.ownerKey k) ∧ { t with regs := m.regs, sec := m.sec } = m) ∧
      (passes .revokeKey fun t => t.keyUsable r.arg0 = false ∧
        (∀ k, k ≠ r.arg0 → t.keyUsable k = m.keyUsable k) ∧ { t with regs := m.regs, sec := m.sec } = m) ∧
      (r.code = 6 → does .lifecycle fun t => t.mem = [] ∧ t.pins.booted = false ∧
        t.sec.lifeFuses = m.sec.lifeFuses ||| BitVec.ofNat 4 (2 ^ (r.arg0 - 1)) ∧ t.lifeState = burntLife t.sec.lifeFuses ∧
        (m.lifeState = burntLife m.sec.lifeFuses → t.lifeState = r.arg0) ∧ t.rbit Reg.SEC_EVENT 3 = true ∧ t.sec.eraseOwed = (m.sec.eraseOwed || decide (3 ≤ r.arg0)) ∧
        (r.arg0 = 3 → ∀ k, t.keyUsable k = false)) ∧
      (passes .ownerPort fun t => t.rbit Reg.SEC_PRIV 4 = false ∧ t.rbit Reg.SEC_STATUS 6 = false ∧
        { t with regs := m.regs, sec := m.sec } = m) ∧
      (passes .fwUpdate fun t => some (t.fwImage (!m.rbit Reg.SEC_STATUS 9)) = m.fwOf r ∧
        t.fwImage (m.rbit Reg.SEC_STATUS 9) = m.fwImage (m.rbit Reg.SEC_STATUS 9) ∧
        { t with regs := m.regs, sec := m.sec } = m))

/-- R425, R429, R431, R432, R434: what needs no signature. Attestation takes the host's nonce and, when the management core
has signed, shows the report and uses one signature up; with none left it is refused, and a second one meanwhile is a bus
error. Debug access is switched on in DEVELOP alone, and off, or ends with its time. Tenant mode shuts the owner's writes
out, and a write of SEC_PRIV that arrives at tenant privilege is turned away with cause 0x0B. A failed NAND block, which of
them a free value says, takes a spare. The corners of attestation and of SEC_CTRL, and what is held of the NAND, are log entries
115, 116 and 179: the model's choices. It says under which conditions on the state and the operands alone each of these
commands answers a next state with its own effect: attest, attestDone, debugOn, debugOff, debugExpiry, tenantMode,
nandBlockFail. -/
def Obligations.SecurityIsland : Prop :=
  ∀ s : State, s.m.live = true → s.m.blockPosted Reg.SEC_CTRL = false →
    let m := s.m
    let does : Instr → (Mach → Prop) → Prop := fun c p => ∃ t, exec c s = .next { s with m := t } ∧ p t
    let index := (m.reg Reg.SEC_ATT_INDEX).toNat
    let access : Mach → Bool → Prop := fun t on => t.debugAccess = on ∧ t.rbit Reg.SEC_STATUS 5 = on ∧
      t.rbit Reg.SEC_EVENT 4 = true ∧ t.sec.debugUntil = none ∧ t.sec.log.length = min (m.sec.log.length + 1) 1048576 ∧
      (on = false ∨ m.headsSettled → m.regsBut t [Reg.SEC_STATUS, Reg.DBG_STATUS, Reg.SEC_EVENT, Reg.SEC_LOG_COUNT] ∧
        { t with regs := m.regs, sec := m.sec } = m)
    let shut : Instr → Prop := fun c => m.rbit Reg.SEC_PRIV 4 = true → does c fun t =>
      t.reg Reg.HIF_ERR_COUNT = m.reg Reg.HIF_ERR_COUNT + 1 ∧ { t with regs := m.regs } = m ∧
      m.regsBut t [Reg.HIF_ERR_COUNT, Reg.HIF_ERR_ADDR, Reg.HIF_ERR_CAUSE, Reg.HIF_EVENT]
    (m.sec.attesting = false → index < 2 ^ 20 → does .attest fun t => t.rbit Reg.SEC_STATUS 8 = true ∧
      t.sec = { m.sec with attesting := true, attNonce := (List.range 8).flatMap fun i => wordBytes (m.reg (Reg.SEC_NONCE_IN i)) } ∧
      m.regsBut t [Reg.SEC_STATUS] ∧ { t with regs := m.regs, sec := m.sec } = m) ∧
    (m.sec.attesting = false → 2 ^ 20 ≤ index → does .attest fun t => t.fld Reg.SEC_REQ_RESULT 0 8 = 8 ∧
      t.rbit Reg.SEC_EVENT 1 = true ∧ m.regsBut t [Reg.SEC_REQ_RESULT, Reg.SEC_EVENT] ∧ { t with regs := m.regs } = m) ∧
    (m.sec.attesting = true → ∃ t, exec .attest s = .next { s with m := t } ∧ m.busErr t Reg.SEC_CTRL 4) ∧
    (m.sec.attesting = true → m.mgmtRuns = true → does .attestDone fun t =>
      t.reg Reg.SEC_ATT_INDEX = m.reg Reg.SEC_ATT_INDEX + 1 ∧ t.rbit Reg.SEC_STATUS 8 = false ∧ t.sec.attesting = false ∧
        t.rbit Reg.SEC_EVENT 2 = true ∧ t.reg (Reg.SEC_ATT_REPORT 0) = 0x54415653 ∧
        t.reg (Reg.SEC_ATT_REPORT 6) = m.reg Reg.SEC_ATT_INDEX ∧ index < t.sec.reserved ∧ index / 1024 < t.sec.topBurnt ∧
        (∀ r, r < 0x51000 ∨ 0x53000 ≤ r → r ∉ [Reg.SEC_ATT_INDEX, Reg.SEC_STATUS, Reg.SEC_EVENT] → t.reg r = m.reg r) ∧
        { t with regs := m.regs, sec := m.sec } = m) ∧
    (m.sec.attesting = false → exec .attestDone s = .next s) ∧
    shut .debugOn ∧ shut .debugOff ∧ (∀ v, shut (.tenantMode v)) ∧
    (∀ v, m.rbit Reg.SEC_PRIV 4 = true → m.writeCause Reg.SEC_PRIV v = none → m.sluiceBusy .sec = false →
      ∃ t, exec (.registerWrite (BitVec.ofNat 32 Reg.SEC_PRIV) v) s = .next { s with m := t } ∧ m.busErr t Reg.SEC_PRIV 0x0B) ∧
    (m.rbit Reg.SEC_PRIV 4 = false →
      (m.lifeState = 1 → m.rbit Reg.GCTL_STATUS 2 = true → does .debugOn fun t => access t true) ∧
      (m.lifeState ≠ 1 → exec .debugOn s = .next s) ∧
      (m.debugAccess = true → does .debugOff fun t => access t false) ∧
      (m.debugAccess = false → exec .debugOff s = .next s) ∧
      (∀ v, does (.tenantMode v) fun t => t.reg Reg.SEC_PRIV = v &&& 0x1F ∧ t.rbit Reg.SEC_STATUS 6 = v.bit 4 ∧
        m.regsBut t [Reg.SEC_PRIV, Reg.SEC_STATUS] ∧ { t with regs := m.regs } = m)) ∧
    (∀ x, m.sec.debugUntil = some x →
      (x ≤ m.time.count → m.debugAccess = true → does .debugExpiry fun t => access t false) ∧
      (m.time.count < x → exec .debugExpiry s = .next s)) ∧
    (m.sec.debugUntil = none → exec .debugExpiry s = .next s) ∧
    (m.mgmtRuns = false → exec .nandBlockFail s = .next s) ∧
    (m.mgmtRuns = true → does .nandBlockFail fun t =>
      let bad := (m.sec.badBlocks ++ [(Config.freeWord m.freeCtr).toNat % 8192]).take 768
      t.sec = { m.sec with badBlocks := bad } ∧ t.fld Reg.SEC_NAND_STATUS 24 8 = bad.length * 100 / 768 ∧
        t.rbit Reg.SEC_EVENT 5 = true ∧ m.regsBut t [Reg.SEC_NAND_STATUS, Reg.SEC_EVENT] ∧
        { t with regs := m.regs, sec := m.sec, freeCtr := m.freeCtr } = m)

/-! ## Control cores (R308 to R313, R352, R413) -/

/-- R308, R309, R50: every arithmetic instruction of Table 12-6, LUI and TIMEREAD put their value into rd, go on to the next
instruction, and change nothing else; a write of g0 is discarded. It says under which conditions on the state and the
operands alone each of these commands answers a next state with its own effect: ccAdd, ccSub, ccAnd, ccOr, ccXor, ccSll,
ccSrl, ccSra, ccSlt, ccSltu, ccMul, ccMulhu, ccMin, ccMax, ccMinu, ccMaxu, ccAddi, ccAndi, ccOri, ccXori, ccSlli, ccSrli,
ccSrai, ccSlti, ccSltiu, ccLui, ccTimeread. -/
def Obligations.ControlArithmetic : Prop :=
  ∀ (s : State) (c : Fin 40) (rd ra rb : Fin 32) (imm : BitVec 16), s.m.live = true →
    let a := s.m.greg c ra
    let b := s.m.greg c rb
    let sx : Word := imm.signExtend 32
    let zx : Word := imm.setWidth 32
    ∀ p ∈ ([
      (.ccAdd c rd ra rb, encR 0x0 rd ra rb, a + b),
      (.ccSub c rd ra rb, encR 0x1 rd ra rb, a - b),
      (.ccAnd c rd ra rb, encR 0x2 rd ra rb, a &&& b),
      (.ccOr c rd ra rb, encR 0x3 rd ra rb, a ||| b),
      (.ccXor c rd ra rb, encR 0x4 rd ra rb, a ^^^ b),
      (.ccSll c rd ra rb, encR 0x5 rd ra rb, a <<< (b.toNat % 32)),
      (.ccSrl c rd ra rb, encR 0x6 rd ra rb, a >>> (b.toNat % 32)),
      (.ccSra c rd ra rb, encR 0x7 rd ra rb, a.sshiftRight (b.toNat % 32)),
      (.ccSlt c rd ra rb, encR 0x8 rd ra rb, if a.toInt < b.toInt then 1 else 0),
      (.ccSltu c rd ra rb, encR 0x9 rd ra rb, if a.toNat < b.toNat then 1 else 0),
      (.ccMul c rd ra rb, encR 0xA rd ra rb, a * b),
      (.ccMulhu c rd ra rb, encR 0xB rd ra rb, BitVec.ofNat 32 (a.toNat * b.toNat / 2 ^ 32)),
      (.ccMin c rd ra rb, encR 0xC rd ra rb, if a.toInt ≤ b.toInt then a else b),
      (.ccMax c rd ra rb, encR 0xD rd ra rb, if b.toInt ≤ a.toInt then a else b),
      (.ccMinu c rd ra rb, encR 0xE rd ra rb, if a.toNat ≤ b.toNat then a else b),
      (.ccMaxu c rd ra rb, encR 0xF rd ra rb, if b.toNat ≤ a.toNat then a else b),
      (.ccAddi c rd ra imm, encI 0x01 rd ra imm, a + sx),
      (.ccAndi c rd ra imm, encI 0x02 rd ra imm, a &&& zx),
      (.ccOri c rd ra imm, encI 0x03 rd ra imm, a ||| zx),
      (.ccXori c rd ra imm, encI 0x04 rd ra imm, a ^^^ zx),
      (.ccSlli c rd ra imm, encI 0x05 rd ra imm, a <<< (imm.toNat % 32)),
      (.ccSrli c rd ra imm, encI 0x06 rd ra imm, a >>> (imm.toNat % 32)),
      (.ccSrai c rd ra imm, encI 0x07 rd ra imm, a.sshiftRight (imm.toNat % 32)),
      (.ccSlti c rd ra imm, encI 0x08 rd ra imm, if a.toInt < sx.toInt then 1 else 0),
      (.ccSltiu c rd ra imm, encI 0x09 rd ra imm, if a.toNat < zx.toNat then 1 else 0),
      (.ccLui c rd 0 imm, encI 0x0A rd 0 imm, zx <<< 16),
      (.ccTimeread c rd, encI 0x34 rd 0 0, s.m.time.count.setWidth 32)] : List (Instr × Word × Word)),
      s.m.issues c p.2.1 →
        ∃ t, exec p.1 s = .next { s with m := t } ∧ s.m.ccWent t c rd p.2.2 ((s.m.cc c).pc + 4) ∧
          { t with core := s.m.core } = s.m

/-- R309, R313: a load from an aligned address below 0x4_0000 puts the little-endian bytes of sequencer memory there, widened
as Table 12-6 says, into rd, and changes nothing else. It says under which conditions on the state and the operands alone
each of these commands answers a next state with its own effect: ccLw, ccLh, ccLhu, ccLb, ccLbu. -/
def Obligations.ControlLoads : Prop :=
  ∀ (s : State) (c : Fin 40) (rd ra : Fin 32) (imm : BitVec 16), s.m.live = true →
    let a := (s.m.greg c ra + imm.signExtend 32).toNat
    let at_ := seqBase c + a
    ∀ p ∈ ([
      (.ccLw c rd ra imm, encI 0x10 rd ra imm, 4, s.m.word at_),
      (.ccLh c rd ra imm, encI 0x11 rd ra imm, 2, (s.m.byte (at_ + 1) ++ s.m.byte at_).signExtend 32),
      (.ccLhu c rd ra imm, encI 0x12 rd ra imm, 2, (s.m.byte (at_ + 1) ++ s.m.byte at_).setWidth 32),
      (.ccLb c rd ra imm, encI 0x13 rd ra imm, 1, (s.m.byte at_).signExtend 32),
      (.ccLbu c rd ra imm, encI 0x14 rd ra imm, 1, (s.m.byte at_).setWidth 32)] : List (Instr × Word × Nat × Word)),
      s.m.issues c p.2.1 → a % p.2.2.1 = 0 → a < 0x40000 →
        ∃ t, exec p.1 s = .next { s with m := t } ∧ s.m.ccWent t c rd p.2.2.2 ((s.m.cc c).pc + 4) ∧
          { t with core := s.m.core } = s.m

/-- R309, R313: a store to an aligned address below 0x4_0000 writes the low bytes of rs there, little-endian; every other
byte of memory, every register of the core and everything else is as before. It says under which conditions on the state and
the operands alone each of these commands answers a next state with its own effect: ccSw, ccSh, ccSb. -/
def Obligations.ControlStores : Prop :=
  ∀ (s : State) (c : Fin 40) (rs ra : Fin 32) (imm : BitVec 16), s.m.live = true →
    let a := (s.m.greg c ra + imm.signExtend 32).toNat
    let at_ := seqBase c + a
    ∀ p ∈ ([
      (.ccSw c rs ra imm, encI 0x18 rs ra imm, 4),
      (.ccSh c rs ra imm, encI 0x19 rs ra imm, 2),
      (.ccSb c rs ra imm, encI 0x1A rs ra imm, 1)] : List (Instr × Word × Nat)),
      s.m.issues c p.2.1 → a % p.2.2 = 0 → a < 0x40000 →
        ∃ t, exec p.1 s = .next { s with m := t } ∧ s.m.ccWent t c 0 0 ((s.m.cc c).pc + 4) ∧
          (∀ i, i < p.2.2 → t.byte (at_ + i) = (s.m.greg c rs).extractLsb' (8 * i) 8) ∧
          (∀ x, x < at_ ∨ at_ + p.2.2 ≤ x → t.byte x = s.m.byte x) ∧
          (Memory.wf s.m.mem → Memory.wf t.mem) ∧
          { t with core := s.m.core, mem := s.m.mem } = s.m

/-- R309: a taken branch goes to pc + 4 × sext(offset), one not taken to pc + 4; JAL and JALR write pc + 4 to g31 and to rd
and go to their targets. Without a BRANCH record nothing but the core changes; with one, no byte of memory outside the Cellar, no
register of the module outside the DBG block, and nothing else beside observation. It says under which conditions on the state and the operands alone each of these commands answers a next state with its own effect:
ccBeq, ccBne, ccBlt, ccBge, ccBltu, ccBgeu, ccJal, ccJalr. -/
def Obligations.ControlTransfers : Prop :=
  ∀ (s : State) (c : Fin 40) (rd ra rb : Fin 32) (off : BitVec 16) (far : BitVec 26), s.m.live = true →
    let a := s.m.greg c ra
    let b := s.m.greg c rb
    let pc := (s.m.cc c).pc
    let link : Word := (pc + 4).setWidth 32
    let near := pc + BitVec.ofInt 18 (4 * off.toInt)
    let reg := (a + off.signExtend 32) &&& 0xFFFFFFFC
    -- the command i, of word w, goes on to pc', writes v to register r, and is traced as a taken transfer or not at all
    let goesTo : Instr → Word → Bool → Nat → Word → BitVec 18 → Prop := fun i w taken r v pc' => s.m.issues c w →
      ∃ t, exec i s = .next { s with m := t } ∧ s.m.ccWent t c r v pc' ∧
        (∀ r, r < 0x70000 ∨ 0x80000 ≤ r → t.reg r = s.m.reg r) ∧
        { t with core := s.m.core, regs := s.m.regs, mem := s.m.mem, obs := s.m.obs } = s.m ∧
        s.m.tracesOnly t (taken && s.m.tracesCore c 1 && s.m.debugAccess) ∧
        ((taken && s.m.tracesCore c 1 && s.m.debugAccess) = false → { t with core := s.m.core } = s.m)
    let branch : Instr → Word → Bool → Prop := fun i w taken => goesTo i w taken 0 0 (if taken then near else pc + 4)
    branch (.ccBeq c ra rb off) (encI 0x20 ra rb off) (a == b) ∧
    branch (.ccBne c ra rb off) (encI 0x21 ra rb off) (a != b) ∧
    branch (.ccBlt c ra rb off) (encI 0x22 ra rb off) (decide (a.toInt < b.toInt)) ∧
    branch (.ccBge c ra rb off) (encI 0x23 ra rb off) (decide (b.toInt ≤ a.toInt)) ∧
    branch (.ccBltu c ra rb off) (encI 0x24 ra rb off) (decide (a.toNat < b.toNat)) ∧
    branch (.ccBgeu c ra rb off) (encI 0x25 ra rb off) (decide (b.toNat ≤ a.toNat)) ∧
    goesTo (.ccJal c far) (encJ far) true 31 link (pc + BitVec.ofInt 18 (4 * far.toInt)) ∧
    (reg.toNat < 0x40000 → goesTo (.ccJalr c rd ra off) (encI 0x27 rd ra off) true rd link (reg.setWidth 18))

/-- R313: what halts a control core, and with which code: TRAP with its own, a misaligned load or store or one above 0x3_FFFF
with 0xFFFF, a JALR to a target above it with the same, an encoding that is illegal with 0xFFFE, an ISSUE at a misaligned
address with 0xFFFC and one above 0x3_FFFF with 0xFFFF, a BARRIER whose mask leaves the core out, or differs from the mask of a
core that waits there, with 0xFFFD. Without a HALT record no byte of memory changes, with one none outside the Cellar. That the
command carries its operands, and what is illegal in WAIT and SIGNAL, are log entries 86 and 87, the model's reading. It says
under which conditions on the state and
the operands alone each of these commands answers a next state with its own effect: ccTrap. -/
def Obligations.ControlHalts : Prop :=
  ∀ (s : State) (c : Fin 40) (rd ra rt : Fin 32) (imm : BitVec 16) (kind : BitVec 2) (obj : BitVec 8), s.m.live = true →
    let a := (s.m.greg c ra + imm.signExtend 32).toNat
    let bad : Nat → Prop := fun size => a % size ≠ 0 ∨ 0x40000 ≤ a
    ∀ p ∈ ([
      (.ccTrap c imm, encI 0x35 0 0 imm, imm.toNat ≤ 0xFFFB, imm),
      (.ccTrap c imm, encI 0x35 0 0 imm, 0xFFFB < imm.toNat, 0xFFFE),
      (.ccLw c rd ra imm, encI 0x10 rd ra imm, bad 4, 0xFFFF),
      (.ccLh c rd ra imm, encI 0x11 rd ra imm, bad 2, 0xFFFF),
      (.ccLhu c rd ra imm, encI 0x12 rd ra imm, bad 2, 0xFFFF),
      (.ccLb c rd ra imm, encI 0x13 rd ra imm, bad 1, 0xFFFF),
      (.ccLbu c rd ra imm, encI 0x14 rd ra imm, bad 1, 0xFFFF),
      (.ccSw c rd ra imm, encI 0x18 rd ra imm, bad 4, 0xFFFF),
      (.ccSh c rd ra imm, encI 0x19 rd ra imm, bad 2, 0xFFFF),
      (.ccSb c rd ra imm, encI 0x1A rd ra imm, bad 1, 0xFFFF),
      (.ccJalr c rd ra imm, encI 0x27 rd ra imm,
        0x40000 ≤ ((s.m.greg c ra + imm.signExtend 32) &&& 0xFFFFFFFC).toNat, 0xFFFF),
      (.ccLui c rd ra imm, encI 0x0A rd ra imm, ra ≠ 0, 0xFFFE),
      (.ccIssue c rd ra imm, encI 0x30 rd ra imm, a % 64 ≠ 0, 0xFFFC),
      (.ccIssue c rd ra imm, encI 0x30 rd ra imm,
        a % 64 = 0 ∧ a < 0x40000 ∧ s.m.produces c ((s.m.greg c rd).toNat % 256) = false, 0xFFFC),
      (.ccIssue c rd ra imm, encI 0x30 rd ra imm, a % 64 = 0 ∧ 0x40000 ≤ a, 0xFFFF),
      (.ccWait c rd ra kind rt obj, encWait rd ra kind rt obj, waitObjOk kind obj = false, 0xFFFE),
      (.ccSignal c ra kind obj, encSignal ra kind obj,
        kind = 3 ∨ kind.toNat ≤ 1 ∧ 64 ≤ obj.toNat ∨ kind = 2 ∧ obj.toNat < 16, 0xFFFE),
      (.ccBarrier c imm, encI 0x33 0 0 imm, (imm.toNat % 32).testBit (ccIndex c) = false, 0xFFFD),
      (.ccBarrier c imm, encI 0x33 0 0 imm, ∃ i, i < 5 ∧ atBarrier (s.m.cc (ccOf (ccCluster c) i)) (imm.toNat / 256 % 8) = true ∧
        (s.m.cc (ccOf (ccCluster c) i)).barMask ≠ imm.toNat % 32, 0xFFFD)] :
        List (Instr × Word × Prop × BitVec 16)),
      s.m.issues c p.2.1 → p.2.2.1 → ∃ t, exec p.1 s = .next { s with m := t } ∧ s.m.ccHalts t c p.2.2.2 ∧
        s.m.tracesOnly t (s.m.tracesCore c 3) ∧
        (∀ r, r < 0x70000 ∨ 0x80000 ≤ r → r ≠ Reg.CLU_EVENT (ccCluster c) → t.reg r = s.m.reg r) ∧
        { t with core := s.m.core, regs := s.m.regs, mem := s.m.mem, obs := s.m.obs } = s.m

/-- R298, R299, R309: SIGNAL adds to a semaphore of the core's own cluster, sets it, or adds to a completion signal of 16 to
255, modulo 2^16, and goes on; no other register changes. It says under which conditions on the state and the operands alone
each of these commands answers a next state with its own effect: ccSignal. -/
def Obligations.ControlSignal : Prop :=
  ∀ (s : State) (c : Fin 40) (rv : Fin 32) (obj : BitVec 8), s.m.live = true →
    let k := ccCluster c
    let n := obj.toNat
    let v : BitVec 16 := (s.m.greg c rv).setWidth 16
    ∀ p ∈ ([
      (0, n < 64, Reg.CLU_SEM k n, s.m.sem k n + v),
      (1, n < 64, Reg.CLU_SEM k n, v),
      (2, 16 ≤ n, Reg.CQ_CSIG n, s.m.csig n + v)] : List (BitVec 2 × Prop × Nat × BitVec 16)),
      s.m.issues c (encSignal rv p.1 obj) → p.2.1 →
        ∃ t, exec (.ccSignal c rv p.1 obj) s = .next { s with m := t } ∧ s.m.ccWent t c 0 0 ((s.m.cc c).pc + 4) ∧
          t.reg p.2.2.1 = p.2.2.2.setWidth 32 ∧ (∀ r, r ≠ p.2.2.1 → t.reg r = s.m.reg r) ∧
          { t with core := s.m.core, regs := s.m.regs } = s.m

/-- R311: a WAIT whose condition holds writes 0 to rd and goes on; one whose deadline has come writes 1; one that neither
holds nor has come stands in state wait with its registers and pc as before. Without a WAIT record no byte of memory changes, with
one none outside the Cellar. R311: a core that waits goes on with 0 in its
register once its condition holds, with 1 once its deadline has come first, and stays as it is otherwise. It says under which
conditions on the state and the operands alone each of these commands answers a next state with its own effect: ccWait,
waitResume. -/
def Obligations.ControlWaits : Prop :=
  (∀ (s : State) (c : Fin 40) (rd rv rt : Fin 32) (kind : BitVec 2) (obj : BitVec 8), s.m.live = true →
     s.m.issues c (encWait rd rv kind rt obj) → waitObjOk kind obj = true →
     let v := s.m.greg c rv
     let holds := s.m.waitHolds c kind obj v
     let due : Bool := decide (rt ≠ 0) && reached (s.m.time.count.setWidth 32) (s.m.greg c rt)
     ∃ t, exec (.ccWait c rd rv kind rt obj) s = .next { s with m := t } ∧
       (∀ r, r < 0x70000 ∨ 0x80000 ≤ r → t.reg r = s.m.reg r) ∧
       { t with core := s.m.core, regs := s.m.regs, mem := s.m.mem, obs := s.m.obs } = s.m ∧
       s.m.tracesOnly t (s.m.tracesCore c 2 && s.m.debugAccess) ∧
       (holds = true → s.m.ccWent t c rd 0 ((s.m.cc c).pc + 4)) ∧
       (holds = false → due = true → s.m.ccWent t c rd 1 ((s.m.cc c).pc + 4)) ∧
       (holds = false → due = false →
         (∀ r, t.greg c r = s.m.greg c r) ∧ (t.cc c).pc = (s.m.cc c).pc ∧ (t.cc c).state = .wait ∧
           (t.cc c).waitKind = kind ∧ (t.cc c).waitObj = obj ∧ (t.cc c).waitVal = v ∧ (t.cc c).waitRd = rd ∧
           (t.cc c).waitDeadline = if rt = 0 then none else some (s.m.greg c rt))) ∧
  (∀ (s : State) (c : Fin 40), s.m.live = true → (s.m.cc c).state = .wait → (s.m.cc c).stepping = false →
     s.m.ccAwake c = true →
     let x := s.m.cc c
     let holds := s.m.waitHolds c x.waitKind x.waitObj x.waitVal
     let due := x.waitDeadline.elim false fun d => reached (s.m.time.count.setWidth 32) d
     ∃ t, exec (.waitResume c) s = .next { s with m := t } ∧
       (∀ r, r < 0x70000 ∨ 0x80000 ≤ r → t.reg r = s.m.reg r) ∧
       { t with core := s.m.core, regs := s.m.regs, mem := s.m.mem, obs := s.m.obs } = s.m ∧
       s.m.tracesOnly t (s.m.tracesCore c 2 && s.m.debugAccess) ∧
       (holds = true → s.m.ccWent t c x.waitRd 0 (x.pc + 4)) ∧
       (holds = false → due = true → s.m.ccWent t c x.waitRd 1 (x.pc + 4)) ∧
       (holds = false → due = false → t = s.m))

/-- R312: a core at a BARRIER that nobody else's mask contradicts stands in state barrier with its number and mask; once
every control core of the cluster that the mask names stands there, or is a sequencer whose core is out of service,
BARRIER_RELEASE lets every one that stands there go on to its next instruction, one that the debug port has halted there at
its resume. None of those that stand there is held still or under a self-test (R37, R363). It says under which conditions on the state and the operands alone each of these commands
answers a next state with its own effect: ccBarrier, barrierRelease. -/
def Obligations.ControlBarrier : Prop :=
  ∀ (s : State), s.m.live = true →
    (∀ (c : Fin 40) (imm : BitVec 16), s.m.issues c (encI 0x33 0 0 imm) →
      let mask := imm.toNat % 32
      let n := imm.toNat / 256 % 8
      mask.testBit (ccIndex c) = true →
      (∀ i, i < 5 → atBarrier (s.m.cc (ccOf (ccCluster c) i)) n = true → (s.m.cc (ccOf (ccCluster c) i)).barMask = mask) →
      ∃ t, exec (.ccBarrier c imm) s = .next { s with m := t } ∧ (∀ r, t.greg c r = s.m.greg c r) ∧
        (t.cc c).pc = (s.m.cc c).pc ∧ (t.cc c).state = .barrier ∧ (t.cc c).barNum = n ∧ (t.cc c).barMask = mask ∧
        (∀ d, d ≠ c.val → t.cc d = s.m.cc d) ∧ { t with core := s.m.core } = s.m) ∧
    (∀ (k n : Fin 8) (mask : Nat),
      (∀ i, i < 5 → atBarrier (s.m.cc (ccOf k i)) n = true →
        (s.m.cc (ccOf k i)).barMask = mask ∧ (s.m.cc (ccOf k i)).stepping = false ∧ s.m.ccAwake (ccOf k i) = true) →
      (∃ i, i < 5 ∧ atBarrier (s.m.cc (ccOf k i)) n = true) →
      (∀ i, i < 5 → mask.testBit i = true →
        atBarrier (s.m.cc (ccOf k i)) n = true ∨ i < 4 ∧ s.m.inService (ccOf k i) = false) →
      ∃ t, exec (.barrierRelease k n) s = .next { s with m := t } ∧ { t with core := s.m.core } = s.m ∧
        (∀ i, i < 5 → atBarrier (s.m.cc (ccOf k i)) n = true →
          let x := s.m.cc (ccOf k i)
          let y := t.cc (ccOf k i)
          y.pc = x.pc + 4 ∧ (x.state = .barrier → y.state = .running) ∧
            (x.state ≠ .barrier → y.state = x.state ∧ y.debugHalt = some .running)) ∧
        ∀ c, (∀ i, i < 5 → atBarrier (s.m.cc (ccOf k i)) n = true → c ≠ ccOf k i) → t.cc c = s.m.cc c)

/-- R310, R290: ISSUE of a 64-byte aligned block to a queue that the core produces copies it into the ring at TAIL, moves
TAIL on by one and goes on, and the start stage looks at the head; while TAIL − DONE is 2^n the core stands in state issue,
and ISSUE_RESUME does the rest once there is room. Without a CMD record no other byte of memory changes. A misaligned block,
or a queue of another producer, halts the core with 0xFFFC. It says under which conditions on the state and the operands
alone each of these commands answers a next state with its own effect: ccIssue, issueResume. -/
def Obligations.ControlIssue : Prop :=
  ∀ (s : State) (c : Fin 40), s.m.live = true →
    let sent : Nat → Nat → Instr → Prop := fun q a i =>
      let tail := s.m.reg (Reg.CQ_TAIL q)
      let slot := s.m.slotAddr q tail
      ∃ t : Mach, exec i s = .next { s with m := t.checkHead q } ∧ s.m.ccWent t c 0 0 ((s.m.cc c).pc + 4) ∧
        t.reg (Reg.CQ_TAIL q) = tail + 1 ∧
        (∀ r, r ≠ Reg.CQ_TAIL q → r < 0x70000 ∨ 0x80000 ≤ r → t.reg r = s.m.reg r) ∧
        { t with core := s.m.core, regs := s.m.regs, mem := s.m.mem, obs := s.m.obs } = s.m ∧
        ((s.m.tracesCore c 0 && s.m.debugAccess) = false →
          (∀ j, j < 64 → t.byte (slot + j) = s.m.byte (seqBase c + a + j)) ∧
          (∀ x, x < slot ∨ slot + 64 ≤ x → t.byte x = s.m.byte x))
    (∀ (rd ra : Fin 32) (imm : BitVec 16),
      let a := (s.m.greg c ra + imm.signExtend 32).toNat
      let q := (s.m.greg c rd).toNat % 256
      let room := (s.m.reg (Reg.CQ_TAIL q) - s.m.reg (Reg.CQ_DONE q)).toNat < 2 ^ s.m.ringLog q
      let may := a % 64 = 0 ∧ a < 0x40000 ∧ s.m.produces c q = true
      s.m.issues c (encI 0x30 rd ra imm) →
      (a % 64 ≠ 0 ∨ a < 0x40000 ∧ s.m.produces c q = false →
        ∃ t, exec (.ccIssue c rd ra imm) s = .next { s with m := t } ∧ s.m.ccHalts t c 0xFFFC) ∧
      (may → room → sent q a (.ccIssue c rd ra imm)) ∧
      (may → ¬ room → ∃ t, exec (.ccIssue c rd ra imm) s = .next { s with m := t } ∧ (∀ r, t.greg c r = s.m.greg c r) ∧
        (t.cc c).pc = (s.m.cc c).pc ∧ (t.cc c).state = .issue ∧ (t.cc c).issueQ = q ∧ (t.cc c).issueAddr = a ∧
        (∀ d, d ≠ c.val → t.cc d = s.m.cc d) ∧ (∀ r, r < 0x70000 ∨ 0x80000 ≤ r → t.reg r = s.m.reg r))) ∧
    ((s.m.cc c).state = .issue → (s.m.cc c).stepping = false → s.m.ccAwake c = true →
      let q := (s.m.cc c).issueQ
      (s.m.reg (Reg.CQ_TAIL q) - s.m.reg (Reg.CQ_DONE q)).toNat < 2 ^ s.m.ringLog q →
      sent q (s.m.cc c).issueAddr (.issueResume c))

/-- R315, R413: with debug access the debug port halts a control core, which keeps its registers and pc and raises
CLU_EVENT.halted, and lets it go on in the state that it had; without debug access both writes are bus errors of cause 0x04
that change no control core. It says under which conditions on the state and the operands alone each of these commands
answers a next state with its own effect: ccHalt, ccResume. -/
def Obligations.ControlDebug : Prop :=
  ∀ (s : State) (c : Fin 40), s.m.live = true → s.m.blockPosted (ccCtrlReg c) = false →
    (s.m.debugAccess = true → (s.m.cc c).debugHalt = none →
      ∃ t, exec (.ccHalt c) s = .next { s with m := t } ∧ (∀ r, t.greg c r = s.m.greg c r) ∧
        (t.cc c).pc = (s.m.cc c).pc ∧ (t.cc c).state = .halted ∧ (t.cc c).debugHalt = some (s.m.cc c).state ∧
        (∀ d, d ≠ c.val → t.cc d = s.m.cc d) ∧ t.rbit (Reg.CLU_EVENT (ccCluster c)) 1 = true ∧
        s.m.tracesOnly t (s.m.tracesCore c 3)) ∧
    (∀ st, s.m.debugAccess = true → (s.m.cc c).debugHalt = some st →
      ∃ t, exec (.ccResume c) s = .next { s with m := t } ∧ (∀ r, t.greg c r = s.m.greg c r) ∧
        (t.cc c).pc = (s.m.cc c).pc ∧ (t.cc c).state = st ∧ (t.cc c).debugHalt = none ∧
        (∀ d, d ≠ c.val → t.cc d = s.m.cc d) ∧ { t with core := s.m.core } = s.m) ∧
    (s.m.debugAccess = false → ∀ i ∈ ([.ccHalt c, .ccResume c] : List Instr),
      ∃ t, exec i s = .next { s with m := t } ∧ s.m.busErr t (ccCtrlReg c) 4)

/-- R309, R413: a step of a control core that the debug port halted while it ran runs exactly the instruction whose word
Table 12-6 spells lies in sequencer memory at its pc: for every control-core instruction and all of its operands, what
DBG_CC_STEP decodes is what the instruction's own command does to the core, resumed for one step. It says under which
conditions on the state and the operands alone each of these commands answers a next state with its own effect: ccStep. -/
def Obligations.ControlStepDecodes : Prop :=
  ∀ (s : State) (c : Fin 40) (v w : Word) (i : Instr), s.m.live = true → s.m.debugAccess = true →
    s.m.writeCause Reg.DBG_CC_STEP v = none → v.toNat % 64 = c.val → (s.m.cc c).debugHalt = some .running →
    s.m.word (seqBase c + (s.m.cc c).pc.toNat) = w → ctlWord i = some (c.val, w) →
    let ready : Mach := s.m.onCc c fun x => { x with debugHalt := none, state := .running, stepping := true }
    ∃ t, exec (.ccStep v) s = .next { s with m := t } ∧ exec i { s with m := ready } = .next { s with m := t }
end

