-- ==== Sys2Proof/Laws/Sparse.lean ====
section
/-! SUPPORT. The laws of a sparse table: a read after a write, a write leaves other keys, the
canonical form is kept. -/

namespace Sys2Proof.Machine

section
variable {β : Type} (d : Nat → β)

theorem sget_sins_same (k : Nat) (v : β) (t : Sparse β) : sget d (sins k v t) k = v := by
  induction t with
  | nil => simp [sins, sget]
  | cons p t ih =>
    unfold sins
    split
    · simp [sget]
    · split
      · simp [sget]
      · simp [sget, *]

theorem sget_sins_ne {k k' : Nat} (h : k' ≠ k) (v : β) (t : Sparse β) :
    sget d (sins k v t) k' = sget d t k' := by
  have hk : k ≠ k' := h.symm
  induction t with
  | nil => simp [sins, sget, hk]
  | cons p t ih =>
    unfold sins
    split
    · simp [sget, hk]
    · split
      · simp_all [sget]
      · simp [sget, ih]

theorem sget_srem_same (k : Nat) (t : Sparse β) : sget d (srem k t) k = d k := by
  induction t with
  | nil => rfl
  | cons p t ih =>
    by_cases h : p.1 = k <;> simp_all [srem, sget]

theorem sget_srem_ne {k k' : Nat} (h : k' ≠ k) (t : Sparse β) :
    sget d (srem k t) k' = sget d t k' := by
  induction t with
  | nil => rfl
  | cons p t ih =>
    by_cases hp : p.1 = k
    · have : p.1 ≠ k' := fun e => h (e.symm.trans hp)
      simp_all [srem, sget]
    · simp_all [srem, sget]

variable [DecidableEq β]

/-- A read of the key just written gives the value written. -/
@[simp] theorem sget_sput_same (k : Nat) (v : β) (t : Sparse β) : sget d (sput d k v t) k = v := by
  unfold sput
  split
  · rw [sget_srem_same]; exact Eq.symm ‹_›
  · exact sget_sins_same d k v t

/-- A write leaves every other key. -/
theorem sget_sput_ne {k k' : Nat} (h : k' ≠ k) (v : β) (t : Sparse β) :
    sget d (sput d k v t) k' = sget d t k' := by
  unfold sput
  split
  · exact sget_srem_ne d h t
  · exact sget_sins_ne d h v t

/-- What a read gives after a write, at any key. -/
theorem sget_sput (k k' : Nat) (v : β) (t : Sparse β) :
    sget d (sput d k v t) k' = if k' = k then v else sget d t k' := by
  split
  · subst_vars; simp
  · exact sget_sput_ne d ‹_› v t

theorem swf_mono {lo lo' : Nat} (h : lo' ≤ lo) {t : Sparse β} (ht : swf d lo t = true) :
    swf d lo' t = true := by
  cases t with
  | nil => rfl
  | cons p t =>
    simp only [swf, Bool.and_eq_true, decide_eq_true_eq] at ht ⊢
    exact ⟨⟨h.trans ht.1.1, ht.1.2⟩, ht.2⟩

theorem srem_wf {lo : Nat} (k : Nat) {t : Sparse β} (ht : swf d lo t = true) :
    swf d lo (srem k t) = true := by
  induction t generalizing lo with
  | nil => rfl
  | cons p t ih =>
    simp only [swf, Bool.and_eq_true, decide_eq_true_eq] at ht
    by_cases hp : p.1 = k
    · have : srem k (p :: t) = srem k t := by simp [srem, hp]
      rw [this]
      exact swf_mono d (by omega) (ih ht.2)
    · have : srem k (p :: t) = p :: srem k t := by simp [srem, hp]
      rw [this]
      simp only [swf, Bool.and_eq_true, decide_eq_true_eq]
      exact ⟨ht.1, ih ht.2⟩

theorem sins_wf {lo k : Nat} {v : β} (hv : v ≠ d k) (hk : lo ≤ k) {t : Sparse β}
    (ht : swf d lo t = true) : swf d lo (sins k v t) = true := by
  induction t generalizing lo with
  | nil => simp [sins, swf, hv, hk]
  | cons p t ih =>
    simp only [swf, Bool.and_eq_true, decide_eq_true_eq] at ht
    unfold sins
    split
    · simp only [swf, Bool.and_eq_true, decide_eq_true_eq]
      exact ⟨⟨hk, hv⟩, ⟨by omega, ht.1.2⟩, ht.2⟩
    · split
      · subst_vars
        simp only [swf, Bool.and_eq_true, decide_eq_true_eq]
        exact ⟨⟨ht.1.1, hv⟩, ht.2⟩
      · simp only [swf, Bool.and_eq_true, decide_eq_true_eq]
        exact ⟨ht.1, ih (by omega) ht.2⟩

/-- A write keeps the canonical form. -/
theorem sput_wf (k : Nat) (v : β) {t : Sparse β} (ht : swf d 0 t = true) :
    swf d 0 (sput d k v t) = true := by
  unfold sput
  split
  · exact srem_wf d k ht
  · exact sins_wf d ‹_› (Nat.zero_le k) ht

end

end Sys2Proof.Machine
end

