-- ==== Sys2Proof/Laws/State.lean ====
section
/-! SUPPORT. What each update of the module leaves: one lemma for each field and each update, by rfl. -/

namespace Sys2Proof.Machine

variable (m : Mach)

/-! setReg changes regs alone. -/

@[simp] theorem Mach.setReg_variant (a : Nat) (v : Word) : (m.setReg a v).variant = m.variant := rfl
@[simp] theorem Mach.setReg_freeCtr (a : Nat) (v : Word) : (m.setReg a v).freeCtr = m.freeCtr := rfl
@[simp] theorem Mach.setReg_mem (a : Nat) (v : Word) : (m.setReg a v).mem = m.mem := rfl
@[simp] theorem Mach.setReg_time (a : Nat) (v : Word) : (m.setReg a v).time = m.time := rfl
@[simp] theorem Mach.setReg_islands (a : Nat) (v : Word) : (m.setReg a v).islands = m.islands := rfl
@[simp] theorem Mach.setReg_sluices (a : Nat) (v : Word) : (m.setReg a v).sluices = m.sluices := rfl
@[simp] theorem Mach.setReg_stageCfg (a : Nat) (v : Word) : (m.setReg a v).stageCfg = m.stageCfg := rfl
@[simp] theorem Mach.setReg_stageQ (a : Nat) (v : Word) : (m.setReg a v).stageQ = m.stageQ := rfl
@[simp] theorem Mach.setReg_resultQ (a : Nat) (v : Word) : (m.setReg a v).resultQ = m.resultQ := rfl
@[simp] theorem Mach.setReg_injectQ (a : Nat) (v : Word) : (m.setReg a v).injectQ = m.injectQ := rfl
@[simp] theorem Mach.setReg_cq (a : Nat) (v : Word) : (m.setReg a v).cq = m.cq := rfl
@[simp] theorem Mach.setReg_lastQ (a : Nat) (v : Word) : (m.setReg a v).lastQ = m.lastQ := rfl
@[simp] theorem Mach.setReg_core (a : Nat) (v : Word) : (m.setReg a v).core = m.core := rfl
@[simp] theorem Mach.setReg_safety (a : Nat) (v : Word) : (m.setReg a v).safety = m.safety := rfl
@[simp] theorem Mach.setReg_obs (a : Nat) (v : Word) : (m.setReg a v).obs = m.obs := rfl
@[simp] theorem Mach.setReg_port (a : Nat) (v : Word) : (m.setReg a v).port = m.port := rfl
@[simp] theorem Mach.setReg_pins (a : Nat) (v : Word) : (m.setReg a v).pins = m.pins := rfl
@[simp] theorem Mach.setReg_fpl (a : Nat) (v : Word) : (m.setReg a v).fpl = m.fpl := rfl
@[simp] theorem Mach.setReg_sh (a : Nat) (v : Word) : (m.setReg a v).sh = m.sh := rfl
@[simp] theorem Mach.setReg_sec (a : Nat) (v : Word) : (m.setReg a v).sec = m.sec := rfl
@[simp] theorem Mach.setReg_ports (a : Nat) (v : Word) : (m.setReg a v).ports = m.ports := rfl
@[simp] theorem Mach.setReg_streams (a : Nat) (v : Word) : (m.setReg a v).streams = m.streams := rfl
@[simp] theorem Mach.setReg_groups (a : Nat) (v : Word) : (m.setReg a v).groups = m.groups := rfl
@[simp] theorem Mach.setReg_cal (a : Nat) (v : Word) : (m.setReg a v).cal = m.cal := rfl
@[simp] theorem Mach.setReg_egr (a : Nat) (v : Word) : (m.setReg a v).egr = m.egr := rfl
@[simp] theorem Mach.setReg_slots (a : Nat) (v : Word) : (m.setReg a v).slots = m.slots := rfl
@[simp] theorem Mach.setReg_latches (a : Nat) (v : Word) : (m.setReg a v).latches = m.latches := rfl
@[simp] theorem Mach.setReg_contexts (a : Nat) (v : Word) : (m.setReg a v).contexts = m.contexts := rfl
@[simp] theorem Mach.setReg_dropShare (a : Nat) (v : Word) : (m.setReg a v).dropShare = m.dropShare := rfl

/-! setByte changes mem alone. -/

@[simp] theorem Mach.setByte_variant (a : Nat) (b : Byte) : (m.setByte a b).variant = m.variant := rfl
@[simp] theorem Mach.setByte_freeCtr (a : Nat) (b : Byte) : (m.setByte a b).freeCtr = m.freeCtr := rfl
@[simp] theorem Mach.setByte_regs (a : Nat) (b : Byte) : (m.setByte a b).regs = m.regs := rfl
@[simp] theorem Mach.setByte_time (a : Nat) (b : Byte) : (m.setByte a b).time = m.time := rfl
@[simp] theorem Mach.setByte_islands (a : Nat) (b : Byte) : (m.setByte a b).islands = m.islands := rfl
@[simp] theorem Mach.setByte_sluices (a : Nat) (b : Byte) : (m.setByte a b).sluices = m.sluices := rfl
@[simp] theorem Mach.setByte_stageCfg (a : Nat) (b : Byte) : (m.setByte a b).stageCfg = m.stageCfg := rfl
@[simp] theorem Mach.setByte_stageQ (a : Nat) (b : Byte) : (m.setByte a b).stageQ = m.stageQ := rfl
@[simp] theorem Mach.setByte_resultQ (a : Nat) (b : Byte) : (m.setByte a b).resultQ = m.resultQ := rfl
@[simp] theorem Mach.setByte_injectQ (a : Nat) (b : Byte) : (m.setByte a b).injectQ = m.injectQ := rfl
@[simp] theorem Mach.setByte_cq (a : Nat) (b : Byte) : (m.setByte a b).cq = m.cq := rfl
@[simp] theorem Mach.setByte_lastQ (a : Nat) (b : Byte) : (m.setByte a b).lastQ = m.lastQ := rfl
@[simp] theorem Mach.setByte_core (a : Nat) (b : Byte) : (m.setByte a b).core = m.core := rfl
@[simp] theorem Mach.setByte_safety (a : Nat) (b : Byte) : (m.setByte a b).safety = m.safety := rfl
@[simp] theorem Mach.setByte_obs (a : Nat) (b : Byte) : (m.setByte a b).obs = m.obs := rfl
@[simp] theorem Mach.setByte_port (a : Nat) (b : Byte) : (m.setByte a b).port = m.port := rfl
@[simp] theorem Mach.setByte_pins (a : Nat) (b : Byte) : (m.setByte a b).pins = m.pins := rfl
@[simp] theorem Mach.setByte_fpl (a : Nat) (b : Byte) : (m.setByte a b).fpl = m.fpl := rfl
@[simp] theorem Mach.setByte_sh (a : Nat) (b : Byte) : (m.setByte a b).sh = m.sh := rfl
@[simp] theorem Mach.setByte_sec (a : Nat) (b : Byte) : (m.setByte a b).sec = m.sec := rfl
@[simp] theorem Mach.setByte_ports (a : Nat) (b : Byte) : (m.setByte a b).ports = m.ports := rfl
@[simp] theorem Mach.setByte_streams (a : Nat) (b : Byte) : (m.setByte a b).streams = m.streams := rfl
@[simp] theorem Mach.setByte_groups (a : Nat) (b : Byte) : (m.setByte a b).groups = m.groups := rfl
@[simp] theorem Mach.setByte_cal (a : Nat) (b : Byte) : (m.setByte a b).cal = m.cal := rfl
@[simp] theorem Mach.setByte_egr (a : Nat) (b : Byte) : (m.setByte a b).egr = m.egr := rfl
@[simp] theorem Mach.setByte_slots (a : Nat) (b : Byte) : (m.setByte a b).slots = m.slots := rfl
@[simp] theorem Mach.setByte_latches (a : Nat) (b : Byte) : (m.setByte a b).latches = m.latches := rfl
@[simp] theorem Mach.setByte_contexts (a : Nat) (b : Byte) : (m.setByte a b).contexts = m.contexts := rfl
@[simp] theorem Mach.setByte_dropShare (a : Nat) (b : Byte) : (m.setByte a b).dropShare = m.dropShare := rfl

/-! wipe changes mem alone. -/

@[simp] theorem Mach.wipe_variant (a n : Nat) : (m.wipe a n).variant = m.variant := rfl
@[simp] theorem Mach.wipe_freeCtr (a n : Nat) : (m.wipe a n).freeCtr = m.freeCtr := rfl
@[simp] theorem Mach.wipe_regs (a n : Nat) : (m.wipe a n).regs = m.regs := rfl
@[simp] theorem Mach.wipe_time (a n : Nat) : (m.wipe a n).time = m.time := rfl
@[simp] theorem Mach.wipe_islands (a n : Nat) : (m.wipe a n).islands = m.islands := rfl
@[simp] theorem Mach.wipe_sluices (a n : Nat) : (m.wipe a n).sluices = m.sluices := rfl
@[simp] theorem Mach.wipe_stageCfg (a n : Nat) : (m.wipe a n).stageCfg = m.stageCfg := rfl
@[simp] theorem Mach.wipe_stageQ (a n : Nat) : (m.wipe a n).stageQ = m.stageQ := rfl
@[simp] theorem Mach.wipe_resultQ (a n : Nat) : (m.wipe a n).resultQ = m.resultQ := rfl
@[simp] theorem Mach.wipe_injectQ (a n : Nat) : (m.wipe a n).injectQ = m.injectQ := rfl
@[simp] theorem Mach.wipe_cq (a n : Nat) : (m.wipe a n).cq = m.cq := rfl
@[simp] theorem Mach.wipe_lastQ (a n : Nat) : (m.wipe a n).lastQ = m.lastQ := rfl
@[simp] theorem Mach.wipe_core (a n : Nat) : (m.wipe a n).core = m.core := rfl
@[simp] theorem Mach.wipe_safety (a n : Nat) : (m.wipe a n).safety = m.safety := rfl
@[simp] theorem Mach.wipe_obs (a n : Nat) : (m.wipe a n).obs = m.obs := rfl
@[simp] theorem Mach.wipe_port (a n : Nat) : (m.wipe a n).port = m.port := rfl
@[simp] theorem Mach.wipe_pins (a n : Nat) : (m.wipe a n).pins = m.pins := rfl
@[simp] theorem Mach.wipe_fpl (a n : Nat) : (m.wipe a n).fpl = m.fpl := rfl
@[simp] theorem Mach.wipe_sh (a n : Nat) : (m.wipe a n).sh = m.sh := rfl
@[simp] theorem Mach.wipe_sec (a n : Nat) : (m.wipe a n).sec = m.sec := rfl
@[simp] theorem Mach.wipe_ports (a n : Nat) : (m.wipe a n).ports = m.ports := rfl
@[simp] theorem Mach.wipe_streams (a n : Nat) : (m.wipe a n).streams = m.streams := rfl
@[simp] theorem Mach.wipe_groups (a n : Nat) : (m.wipe a n).groups = m.groups := rfl
@[simp] theorem Mach.wipe_cal (a n : Nat) : (m.wipe a n).cal = m.cal := rfl
@[simp] theorem Mach.wipe_egr (a n : Nat) : (m.wipe a n).egr = m.egr := rfl
@[simp] theorem Mach.wipe_slots (a n : Nat) : (m.wipe a n).slots = m.slots := rfl
@[simp] theorem Mach.wipe_latches (a n : Nat) : (m.wipe a n).latches = m.latches := rfl
@[simp] theorem Mach.wipe_contexts (a n : Nat) : (m.wipe a n).contexts = m.contexts := rfl
@[simp] theorem Mach.wipe_dropShare (a n : Nat) : (m.wipe a n).dropShare = m.dropShare := rfl

/-! onTime changes time alone. -/

@[simp] theorem Mach.onTime_variant (f : TimeLine → TimeLine) : (m.onTime f).variant = m.variant := rfl
@[simp] theorem Mach.onTime_freeCtr (f : TimeLine → TimeLine) : (m.onTime f).freeCtr = m.freeCtr := rfl
@[simp] theorem Mach.onTime_regs (f : TimeLine → TimeLine) : (m.onTime f).regs = m.regs := rfl
@[simp] theorem Mach.onTime_mem (f : TimeLine → TimeLine) : (m.onTime f).mem = m.mem := rfl
@[simp] theorem Mach.onTime_islands (f : TimeLine → TimeLine) : (m.onTime f).islands = m.islands := rfl
@[simp] theorem Mach.onTime_sluices (f : TimeLine → TimeLine) : (m.onTime f).sluices = m.sluices := rfl
@[simp] theorem Mach.onTime_stageCfg (f : TimeLine → TimeLine) : (m.onTime f).stageCfg = m.stageCfg := rfl
@[simp] theorem Mach.onTime_stageQ (f : TimeLine → TimeLine) : (m.onTime f).stageQ = m.stageQ := rfl
@[simp] theorem Mach.onTime_resultQ (f : TimeLine → TimeLine) : (m.onTime f).resultQ = m.resultQ := rfl
@[simp] theorem Mach.onTime_injectQ (f : TimeLine → TimeLine) : (m.onTime f).injectQ = m.injectQ := rfl
@[simp] theorem Mach.onTime_cq (f : TimeLine → TimeLine) : (m.onTime f).cq = m.cq := rfl
@[simp] theorem Mach.onTime_lastQ (f : TimeLine → TimeLine) : (m.onTime f).lastQ = m.lastQ := rfl
@[simp] theorem Mach.onTime_core (f : TimeLine → TimeLine) : (m.onTime f).core = m.core := rfl
@[simp] theorem Mach.onTime_safety (f : TimeLine → TimeLine) : (m.onTime f).safety = m.safety := rfl
@[simp] theorem Mach.onTime_obs (f : TimeLine → TimeLine) : (m.onTime f).obs = m.obs := rfl
@[simp] theorem Mach.onTime_port (f : TimeLine → TimeLine) : (m.onTime f).port = m.port := rfl
@[simp] theorem Mach.onTime_pins (f : TimeLine → TimeLine) : (m.onTime f).pins = m.pins := rfl
@[simp] theorem Mach.onTime_fpl (f : TimeLine → TimeLine) : (m.onTime f).fpl = m.fpl := rfl
@[simp] theorem Mach.onTime_sh (f : TimeLine → TimeLine) : (m.onTime f).sh = m.sh := rfl
@[simp] theorem Mach.onTime_sec (f : TimeLine → TimeLine) : (m.onTime f).sec = m.sec := rfl
@[simp] theorem Mach.onTime_ports (f : TimeLine → TimeLine) : (m.onTime f).ports = m.ports := rfl
@[simp] theorem Mach.onTime_streams (f : TimeLine → TimeLine) : (m.onTime f).streams = m.streams := rfl
@[simp] theorem Mach.onTime_groups (f : TimeLine → TimeLine) : (m.onTime f).groups = m.groups := rfl
@[simp] theorem Mach.onTime_cal (f : TimeLine → TimeLine) : (m.onTime f).cal = m.cal := rfl
@[simp] theorem Mach.onTime_egr (f : TimeLine → TimeLine) : (m.onTime f).egr = m.egr := rfl
@[simp] theorem Mach.onTime_slots (f : TimeLine → TimeLine) : (m.onTime f).slots = m.slots := rfl
@[simp] theorem Mach.onTime_latches (f : TimeLine → TimeLine) : (m.onTime f).latches = m.latches := rfl
@[simp] theorem Mach.onTime_contexts (f : TimeLine → TimeLine) : (m.onTime f).contexts = m.contexts := rfl
@[simp] theorem Mach.onTime_dropShare (f : TimeLine → TimeLine) : (m.onTime f).dropShare = m.dropShare := rfl

/-! onSafety changes safety alone. -/

@[simp] theorem Mach.onSafety_variant (f : Safety → Safety) : (m.onSafety f).variant = m.variant := rfl
@[simp] theorem Mach.onSafety_freeCtr (f : Safety → Safety) : (m.onSafety f).freeCtr = m.freeCtr := rfl
@[simp] theorem Mach.onSafety_regs (f : Safety → Safety) : (m.onSafety f).regs = m.regs := rfl
@[simp] theorem Mach.onSafety_mem (f : Safety → Safety) : (m.onSafety f).mem = m.mem := rfl
@[simp] theorem Mach.onSafety_time (f : Safety → Safety) : (m.onSafety f).time = m.time := rfl
@[simp] theorem Mach.onSafety_islands (f : Safety → Safety) : (m.onSafety f).islands = m.islands := rfl
@[simp] theorem Mach.onSafety_sluices (f : Safety → Safety) : (m.onSafety f).sluices = m.sluices := rfl
@[simp] theorem Mach.onSafety_stageCfg (f : Safety → Safety) : (m.onSafety f).stageCfg = m.stageCfg := rfl
@[simp] theorem Mach.onSafety_stageQ (f : Safety → Safety) : (m.onSafety f).stageQ = m.stageQ := rfl
@[simp] theorem Mach.onSafety_resultQ (f : Safety → Safety) : (m.onSafety f).resultQ = m.resultQ := rfl
@[simp] theorem Mach.onSafety_injectQ (f : Safety → Safety) : (m.onSafety f).injectQ = m.injectQ := rfl
@[simp] theorem Mach.onSafety_cq (f : Safety → Safety) : (m.onSafety f).cq = m.cq := rfl
@[simp] theorem Mach.onSafety_lastQ (f : Safety → Safety) : (m.onSafety f).lastQ = m.lastQ := rfl
@[simp] theorem Mach.onSafety_core (f : Safety → Safety) : (m.onSafety f).core = m.core := rfl
@[simp] theorem Mach.onSafety_obs (f : Safety → Safety) : (m.onSafety f).obs = m.obs := rfl
@[simp] theorem Mach.onSafety_port (f : Safety → Safety) : (m.onSafety f).port = m.port := rfl
@[simp] theorem Mach.onSafety_pins (f : Safety → Safety) : (m.onSafety f).pins = m.pins := rfl
@[simp] theorem Mach.onSafety_fpl (f : Safety → Safety) : (m.onSafety f).fpl = m.fpl := rfl
@[simp] theorem Mach.onSafety_sh (f : Safety → Safety) : (m.onSafety f).sh = m.sh := rfl
@[simp] theorem Mach.onSafety_sec (f : Safety → Safety) : (m.onSafety f).sec = m.sec := rfl
@[simp] theorem Mach.onSafety_ports (f : Safety → Safety) : (m.onSafety f).ports = m.ports := rfl
@[simp] theorem Mach.onSafety_streams (f : Safety → Safety) : (m.onSafety f).streams = m.streams := rfl
@[simp] theorem Mach.onSafety_groups (f : Safety → Safety) : (m.onSafety f).groups = m.groups := rfl
@[simp] theorem Mach.onSafety_cal (f : Safety → Safety) : (m.onSafety f).cal = m.cal := rfl
@[simp] theorem Mach.onSafety_egr (f : Safety → Safety) : (m.onSafety f).egr = m.egr := rfl
@[simp] theorem Mach.onSafety_slots (f : Safety → Safety) : (m.onSafety f).slots = m.slots := rfl
@[simp] theorem Mach.onSafety_latches (f : Safety → Safety) : (m.onSafety f).latches = m.latches := rfl
@[simp] theorem Mach.onSafety_contexts (f : Safety → Safety) : (m.onSafety f).contexts = m.contexts := rfl
@[simp] theorem Mach.onSafety_dropShare (f : Safety → Safety) : (m.onSafety f).dropShare = m.dropShare := rfl

/-! onObs changes obs alone. -/

@[simp] theorem Mach.onObs_variant (f : Observe → Observe) : (m.onObs f).variant = m.variant := rfl
@[simp] theorem Mach.onObs_freeCtr (f : Observe → Observe) : (m.onObs f).freeCtr = m.freeCtr := rfl
@[simp] theorem Mach.onObs_regs (f : Observe → Observe) : (m.onObs f).regs = m.regs := rfl
@[simp] theorem Mach.onObs_mem (f : Observe → Observe) : (m.onObs f).mem = m.mem := rfl
@[simp] theorem Mach.onObs_time (f : Observe → Observe) : (m.onObs f).time = m.time := rfl
@[simp] theorem Mach.onObs_islands (f : Observe → Observe) : (m.onObs f).islands = m.islands := rfl
@[simp] theorem Mach.onObs_sluices (f : Observe → Observe) : (m.onObs f).sluices = m.sluices := rfl
@[simp] theorem Mach.onObs_stageCfg (f : Observe → Observe) : (m.onObs f).stageCfg = m.stageCfg := rfl
@[simp] theorem Mach.onObs_stageQ (f : Observe → Observe) : (m.onObs f).stageQ = m.stageQ := rfl
@[simp] theorem Mach.onObs_resultQ (f : Observe → Observe) : (m.onObs f).resultQ = m.resultQ := rfl
@[simp] theorem Mach.onObs_injectQ (f : Observe → Observe) : (m.onObs f).injectQ = m.injectQ := rfl
@[simp] theorem Mach.onObs_cq (f : Observe → Observe) : (m.onObs f).cq = m.cq := rfl
@[simp] theorem Mach.onObs_lastQ (f : Observe → Observe) : (m.onObs f).lastQ = m.lastQ := rfl
@[simp] theorem Mach.onObs_core (f : Observe → Observe) : (m.onObs f).core = m.core := rfl
@[simp] theorem Mach.onObs_safety (f : Observe → Observe) : (m.onObs f).safety = m.safety := rfl
@[simp] theorem Mach.onObs_port (f : Observe → Observe) : (m.onObs f).port = m.port := rfl
@[simp] theorem Mach.onObs_pins (f : Observe → Observe) : (m.onObs f).pins = m.pins := rfl
@[simp] theorem Mach.onObs_fpl (f : Observe → Observe) : (m.onObs f).fpl = m.fpl := rfl
@[simp] theorem Mach.onObs_sh (f : Observe → Observe) : (m.onObs f).sh = m.sh := rfl
@[simp] theorem Mach.onObs_sec (f : Observe → Observe) : (m.onObs f).sec = m.sec := rfl
@[simp] theorem Mach.onObs_ports (f : Observe → Observe) : (m.onObs f).ports = m.ports := rfl
@[simp] theorem Mach.onObs_streams (f : Observe → Observe) : (m.onObs f).streams = m.streams := rfl
@[simp] theorem Mach.onObs_groups (f : Observe → Observe) : (m.onObs f).groups = m.groups := rfl
@[simp] theorem Mach.onObs_cal (f : Observe → Observe) : (m.onObs f).cal = m.cal := rfl
@[simp] theorem Mach.onObs_egr (f : Observe → Observe) : (m.onObs f).egr = m.egr := rfl
@[simp] theorem Mach.onObs_slots (f : Observe → Observe) : (m.onObs f).slots = m.slots := rfl
@[simp] theorem Mach.onObs_latches (f : Observe → Observe) : (m.onObs f).latches = m.latches := rfl
@[simp] theorem Mach.onObs_contexts (f : Observe → Observe) : (m.onObs f).contexts = m.contexts := rfl
@[simp] theorem Mach.onObs_dropShare (f : Observe → Observe) : (m.onObs f).dropShare = m.dropShare := rfl

/-! onPort changes port alone. -/

@[simp] theorem Mach.onPort_variant (f : Port → Port) : (m.onPort f).variant = m.variant := rfl
@[simp] theorem Mach.onPort_freeCtr (f : Port → Port) : (m.onPort f).freeCtr = m.freeCtr := rfl
@[simp] theorem Mach.onPort_regs (f : Port → Port) : (m.onPort f).regs = m.regs := rfl
@[simp] theorem Mach.onPort_mem (f : Port → Port) : (m.onPort f).mem = m.mem := rfl
@[simp] theorem Mach.onPort_time (f : Port → Port) : (m.onPort f).time = m.time := rfl
@[simp] theorem Mach.onPort_islands (f : Port → Port) : (m.onPort f).islands = m.islands := rfl
@[simp] theorem Mach.onPort_sluices (f : Port → Port) : (m.onPort f).sluices = m.sluices := rfl
@[simp] theorem Mach.onPort_stageCfg (f : Port → Port) : (m.onPort f).stageCfg = m.stageCfg := rfl
@[simp] theorem Mach.onPort_stageQ (f : Port → Port) : (m.onPort f).stageQ = m.stageQ := rfl
@[simp] theorem Mach.onPort_resultQ (f : Port → Port) : (m.onPort f).resultQ = m.resultQ := rfl
@[simp] theorem Mach.onPort_injectQ (f : Port → Port) : (m.onPort f).injectQ = m.injectQ := rfl
@[simp] theorem Mach.onPort_cq (f : Port → Port) : (m.onPort f).cq = m.cq := rfl
@[simp] theorem Mach.onPort_lastQ (f : Port → Port) : (m.onPort f).lastQ = m.lastQ := rfl
@[simp] theorem Mach.onPort_core (f : Port → Port) : (m.onPort f).core = m.core := rfl
@[simp] theorem Mach.onPort_safety (f : Port → Port) : (m.onPort f).safety = m.safety := rfl
@[simp] theorem Mach.onPort_obs (f : Port → Port) : (m.onPort f).obs = m.obs := rfl
@[simp] theorem Mach.onPort_pins (f : Port → Port) : (m.onPort f).pins = m.pins := rfl
@[simp] theorem Mach.onPort_fpl (f : Port → Port) : (m.onPort f).fpl = m.fpl := rfl
@[simp] theorem Mach.onPort_sh (f : Port → Port) : (m.onPort f).sh = m.sh := rfl
@[simp] theorem Mach.onPort_sec (f : Port → Port) : (m.onPort f).sec = m.sec := rfl
@[simp] theorem Mach.onPort_ports (f : Port → Port) : (m.onPort f).ports = m.ports := rfl
@[simp] theorem Mach.onPort_streams (f : Port → Port) : (m.onPort f).streams = m.streams := rfl
@[simp] theorem Mach.onPort_groups (f : Port → Port) : (m.onPort f).groups = m.groups := rfl
@[simp] theorem Mach.onPort_cal (f : Port → Port) : (m.onPort f).cal = m.cal := rfl
@[simp] theorem Mach.onPort_egr (f : Port → Port) : (m.onPort f).egr = m.egr := rfl
@[simp] theorem Mach.onPort_slots (f : Port → Port) : (m.onPort f).slots = m.slots := rfl
@[simp] theorem Mach.onPort_latches (f : Port → Port) : (m.onPort f).latches = m.latches := rfl
@[simp] theorem Mach.onPort_contexts (f : Port → Port) : (m.onPort f).contexts = m.contexts := rfl
@[simp] theorem Mach.onPort_dropShare (f : Port → Port) : (m.onPort f).dropShare = m.dropShare := rfl

/-! onPins changes pins alone. -/

@[simp] theorem Mach.onPins_variant (f : Pins → Pins) : (m.onPins f).variant = m.variant := rfl
@[simp] theorem Mach.onPins_freeCtr (f : Pins → Pins) : (m.onPins f).freeCtr = m.freeCtr := rfl
@[simp] theorem Mach.onPins_regs (f : Pins → Pins) : (m.onPins f).regs = m.regs := rfl
@[simp] theorem Mach.onPins_mem (f : Pins → Pins) : (m.onPins f).mem = m.mem := rfl
@[simp] theorem Mach.onPins_time (f : Pins → Pins) : (m.onPins f).time = m.time := rfl
@[simp] theorem Mach.onPins_islands (f : Pins → Pins) : (m.onPins f).islands = m.islands := rfl
@[simp] theorem Mach.onPins_sluices (f : Pins → Pins) : (m.onPins f).sluices = m.sluices := rfl
@[simp] theorem Mach.onPins_stageCfg (f : Pins → Pins) : (m.onPins f).stageCfg = m.stageCfg := rfl
@[simp] theorem Mach.onPins_stageQ (f : Pins → Pins) : (m.onPins f).stageQ = m.stageQ := rfl
@[simp] theorem Mach.onPins_resultQ (f : Pins → Pins) : (m.onPins f).resultQ = m.resultQ := rfl
@[simp] theorem Mach.onPins_injectQ (f : Pins → Pins) : (m.onPins f).injectQ = m.injectQ := rfl
@[simp] theorem Mach.onPins_cq (f : Pins → Pins) : (m.onPins f).cq = m.cq := rfl
@[simp] theorem Mach.onPins_lastQ (f : Pins → Pins) : (m.onPins f).lastQ = m.lastQ := rfl
@[simp] theorem Mach.onPins_core (f : Pins → Pins) : (m.onPins f).core = m.core := rfl
@[simp] theorem Mach.onPins_safety (f : Pins → Pins) : (m.onPins f).safety = m.safety := rfl
@[simp] theorem Mach.onPins_obs (f : Pins → Pins) : (m.onPins f).obs = m.obs := rfl
@[simp] theorem Mach.onPins_port (f : Pins → Pins) : (m.onPins f).port = m.port := rfl
@[simp] theorem Mach.onPins_fpl (f : Pins → Pins) : (m.onPins f).fpl = m.fpl := rfl
@[simp] theorem Mach.onPins_sh (f : Pins → Pins) : (m.onPins f).sh = m.sh := rfl
@[simp] theorem Mach.onPins_sec (f : Pins → Pins) : (m.onPins f).sec = m.sec := rfl
@[simp] theorem Mach.onPins_ports (f : Pins → Pins) : (m.onPins f).ports = m.ports := rfl
@[simp] theorem Mach.onPins_streams (f : Pins → Pins) : (m.onPins f).streams = m.streams := rfl
@[simp] theorem Mach.onPins_groups (f : Pins → Pins) : (m.onPins f).groups = m.groups := rfl
@[simp] theorem Mach.onPins_cal (f : Pins → Pins) : (m.onPins f).cal = m.cal := rfl
@[simp] theorem Mach.onPins_egr (f : Pins → Pins) : (m.onPins f).egr = m.egr := rfl
@[simp] theorem Mach.onPins_slots (f : Pins → Pins) : (m.onPins f).slots = m.slots := rfl
@[simp] theorem Mach.onPins_latches (f : Pins → Pins) : (m.onPins f).latches = m.latches := rfl
@[simp] theorem Mach.onPins_contexts (f : Pins → Pins) : (m.onPins f).contexts = m.contexts := rfl
@[simp] theorem Mach.onPins_dropShare (f : Pins → Pins) : (m.onPins f).dropShare = m.dropShare := rfl

/-! onFpl changes fpl alone. -/

@[simp] theorem Mach.onFpl_variant (f : Fpl → Fpl) : (m.onFpl f).variant = m.variant := rfl
@[simp] theorem Mach.onFpl_freeCtr (f : Fpl → Fpl) : (m.onFpl f).freeCtr = m.freeCtr := rfl
@[simp] theorem Mach.onFpl_regs (f : Fpl → Fpl) : (m.onFpl f).regs = m.regs := rfl
@[simp] theorem Mach.onFpl_mem (f : Fpl → Fpl) : (m.onFpl f).mem = m.mem := rfl
@[simp] theorem Mach.onFpl_time (f : Fpl → Fpl) : (m.onFpl f).time = m.time := rfl
@[simp] theorem Mach.onFpl_islands (f : Fpl → Fpl) : (m.onFpl f).islands = m.islands := rfl
@[simp] theorem Mach.onFpl_sluices (f : Fpl → Fpl) : (m.onFpl f).sluices = m.sluices := rfl
@[simp] theorem Mach.onFpl_stageCfg (f : Fpl → Fpl) : (m.onFpl f).stageCfg = m.stageCfg := rfl
@[simp] theorem Mach.onFpl_stageQ (f : Fpl → Fpl) : (m.onFpl f).stageQ = m.stageQ := rfl
@[simp] theorem Mach.onFpl_resultQ (f : Fpl → Fpl) : (m.onFpl f).resultQ = m.resultQ := rfl
@[simp] theorem Mach.onFpl_injectQ (f : Fpl → Fpl) : (m.onFpl f).injectQ = m.injectQ := rfl
@[simp] theorem Mach.onFpl_cq (f : Fpl → Fpl) : (m.onFpl f).cq = m.cq := rfl
@[simp] theorem Mach.onFpl_lastQ (f : Fpl → Fpl) : (m.onFpl f).lastQ = m.lastQ := rfl
@[simp] theorem Mach.onFpl_core (f : Fpl → Fpl) : (m.onFpl f).core = m.core := rfl
@[simp] theorem Mach.onFpl_safety (f : Fpl → Fpl) : (m.onFpl f).safety = m.safety := rfl
@[simp] theorem Mach.onFpl_obs (f : Fpl → Fpl) : (m.onFpl f).obs = m.obs := rfl
@[simp] theorem Mach.onFpl_port (f : Fpl → Fpl) : (m.onFpl f).port = m.port := rfl
@[simp] theorem Mach.onFpl_pins (f : Fpl → Fpl) : (m.onFpl f).pins = m.pins := rfl
@[simp] theorem Mach.onFpl_sh (f : Fpl → Fpl) : (m.onFpl f).sh = m.sh := rfl
@[simp] theorem Mach.onFpl_sec (f : Fpl → Fpl) : (m.onFpl f).sec = m.sec := rfl
@[simp] theorem Mach.onFpl_ports (f : Fpl → Fpl) : (m.onFpl f).ports = m.ports := rfl
@[simp] theorem Mach.onFpl_streams (f : Fpl → Fpl) : (m.onFpl f).streams = m.streams := rfl
@[simp] theorem Mach.onFpl_groups (f : Fpl → Fpl) : (m.onFpl f).groups = m.groups := rfl
@[simp] theorem Mach.onFpl_cal (f : Fpl → Fpl) : (m.onFpl f).cal = m.cal := rfl
@[simp] theorem Mach.onFpl_egr (f : Fpl → Fpl) : (m.onFpl f).egr = m.egr := rfl
@[simp] theorem Mach.onFpl_slots (f : Fpl → Fpl) : (m.onFpl f).slots = m.slots := rfl
@[simp] theorem Mach.onFpl_latches (f : Fpl → Fpl) : (m.onFpl f).latches = m.latches := rfl
@[simp] theorem Mach.onFpl_contexts (f : Fpl → Fpl) : (m.onFpl f).contexts = m.contexts := rfl
@[simp] theorem Mach.onFpl_dropShare (f : Fpl → Fpl) : (m.onFpl f).dropShare = m.dropShare := rfl

/-! onSec changes sec alone. -/

@[simp] theorem Mach.onSec_variant (f : Security → Security) : (m.onSec f).variant = m.variant := rfl
@[simp] theorem Mach.onSec_freeCtr (f : Security → Security) : (m.onSec f).freeCtr = m.freeCtr := rfl
@[simp] theorem Mach.onSec_regs (f : Security → Security) : (m.onSec f).regs = m.regs := rfl
@[simp] theorem Mach.onSec_mem (f : Security → Security) : (m.onSec f).mem = m.mem := rfl
@[simp] theorem Mach.onSec_time (f : Security → Security) : (m.onSec f).time = m.time := rfl
@[simp] theorem Mach.onSec_islands (f : Security → Security) : (m.onSec f).islands = m.islands := rfl
@[simp] theorem Mach.onSec_sluices (f : Security → Security) : (m.onSec f).sluices = m.sluices := rfl
@[simp] theorem Mach.onSec_stageCfg (f : Security → Security) : (m.onSec f).stageCfg = m.stageCfg := rfl
@[simp] theorem Mach.onSec_stageQ (f : Security → Security) : (m.onSec f).stageQ = m.stageQ := rfl
@[simp] theorem Mach.onSec_resultQ (f : Security → Security) : (m.onSec f).resultQ = m.resultQ := rfl
@[simp] theorem Mach.onSec_injectQ (f : Security → Security) : (m.onSec f).injectQ = m.injectQ := rfl
@[simp] theorem Mach.onSec_cq (f : Security → Security) : (m.onSec f).cq = m.cq := rfl
@[simp] theorem Mach.onSec_lastQ (f : Security → Security) : (m.onSec f).lastQ = m.lastQ := rfl
@[simp] theorem Mach.onSec_core (f : Security → Security) : (m.onSec f).core = m.core := rfl
@[simp] theorem Mach.onSec_safety (f : Security → Security) : (m.onSec f).safety = m.safety := rfl
@[simp] theorem Mach.onSec_obs (f : Security → Security) : (m.onSec f).obs = m.obs := rfl
@[simp] theorem Mach.onSec_port (f : Security → Security) : (m.onSec f).port = m.port := rfl
@[simp] theorem Mach.onSec_pins (f : Security → Security) : (m.onSec f).pins = m.pins := rfl
@[simp] theorem Mach.onSec_fpl (f : Security → Security) : (m.onSec f).fpl = m.fpl := rfl
@[simp] theorem Mach.onSec_sh (f : Security → Security) : (m.onSec f).sh = m.sh := rfl
@[simp] theorem Mach.onSec_ports (f : Security → Security) : (m.onSec f).ports = m.ports := rfl
@[simp] theorem Mach.onSec_streams (f : Security → Security) : (m.onSec f).streams = m.streams := rfl
@[simp] theorem Mach.onSec_groups (f : Security → Security) : (m.onSec f).groups = m.groups := rfl
@[simp] theorem Mach.onSec_cal (f : Security → Security) : (m.onSec f).cal = m.cal := rfl
@[simp] theorem Mach.onSec_egr (f : Security → Security) : (m.onSec f).egr = m.egr := rfl
@[simp] theorem Mach.onSec_slots (f : Security → Security) : (m.onSec f).slots = m.slots := rfl
@[simp] theorem Mach.onSec_latches (f : Security → Security) : (m.onSec f).latches = m.latches := rfl
@[simp] theorem Mach.onSec_contexts (f : Security → Security) : (m.onSec f).contexts = m.contexts := rfl
@[simp] theorem Mach.onSec_dropShare (f : Security → Security) : (m.onSec f).dropShare = m.dropShare := rfl

/-! onCal changes cal alone. -/

@[simp] theorem Mach.onCal_variant (f : CalState → CalState) : (m.onCal f).variant = m.variant := rfl
@[simp] theorem Mach.onCal_freeCtr (f : CalState → CalState) : (m.onCal f).freeCtr = m.freeCtr := rfl
@[simp] theorem Mach.onCal_regs (f : CalState → CalState) : (m.onCal f).regs = m.regs := rfl
@[simp] theorem Mach.onCal_mem (f : CalState → CalState) : (m.onCal f).mem = m.mem := rfl
@[simp] theorem Mach.onCal_time (f : CalState → CalState) : (m.onCal f).time = m.time := rfl
@[simp] theorem Mach.onCal_islands (f : CalState → CalState) : (m.onCal f).islands = m.islands := rfl
@[simp] theorem Mach.onCal_sluices (f : CalState → CalState) : (m.onCal f).sluices = m.sluices := rfl
@[simp] theorem Mach.onCal_stageCfg (f : CalState → CalState) : (m.onCal f).stageCfg = m.stageCfg := rfl
@[simp] theorem Mach.onCal_stageQ (f : CalState → CalState) : (m.onCal f).stageQ = m.stageQ := rfl
@[simp] theorem Mach.onCal_resultQ (f : CalState → CalState) : (m.onCal f).resultQ = m.resultQ := rfl
@[simp] theorem Mach.onCal_injectQ (f : CalState → CalState) : (m.onCal f).injectQ = m.injectQ := rfl
@[simp] theorem Mach.onCal_cq (f : CalState → CalState) : (m.onCal f).cq = m.cq := rfl
@[simp] theorem Mach.onCal_lastQ (f : CalState → CalState) : (m.onCal f).lastQ = m.lastQ := rfl
@[simp] theorem Mach.onCal_core (f : CalState → CalState) : (m.onCal f).core = m.core := rfl
@[simp] theorem Mach.onCal_safety (f : CalState → CalState) : (m.onCal f).safety = m.safety := rfl
@[simp] theorem Mach.onCal_obs (f : CalState → CalState) : (m.onCal f).obs = m.obs := rfl
@[simp] theorem Mach.onCal_port (f : CalState → CalState) : (m.onCal f).port = m.port := rfl
@[simp] theorem Mach.onCal_pins (f : CalState → CalState) : (m.onCal f).pins = m.pins := rfl
@[simp] theorem Mach.onCal_fpl (f : CalState → CalState) : (m.onCal f).fpl = m.fpl := rfl
@[simp] theorem Mach.onCal_sh (f : CalState → CalState) : (m.onCal f).sh = m.sh := rfl
@[simp] theorem Mach.onCal_sec (f : CalState → CalState) : (m.onCal f).sec = m.sec := rfl
@[simp] theorem Mach.onCal_ports (f : CalState → CalState) : (m.onCal f).ports = m.ports := rfl
@[simp] theorem Mach.onCal_streams (f : CalState → CalState) : (m.onCal f).streams = m.streams := rfl
@[simp] theorem Mach.onCal_groups (f : CalState → CalState) : (m.onCal f).groups = m.groups := rfl
@[simp] theorem Mach.onCal_egr (f : CalState → CalState) : (m.onCal f).egr = m.egr := rfl
@[simp] theorem Mach.onCal_slots (f : CalState → CalState) : (m.onCal f).slots = m.slots := rfl
@[simp] theorem Mach.onCal_latches (f : CalState → CalState) : (m.onCal f).latches = m.latches := rfl
@[simp] theorem Mach.onCal_contexts (f : CalState → CalState) : (m.onCal f).contexts = m.contexts := rfl
@[simp] theorem Mach.onCal_dropShare (f : CalState → CalState) : (m.onCal f).dropShare = m.dropShare := rfl

/-! onPorts changes ports alone. -/

@[simp] theorem Mach.onPorts_variant (f : Ports → Ports) : (m.onPorts f).variant = m.variant := rfl
@[simp] theorem Mach.onPorts_freeCtr (f : Ports → Ports) : (m.onPorts f).freeCtr = m.freeCtr := rfl
@[simp] theorem Mach.onPorts_regs (f : Ports → Ports) : (m.onPorts f).regs = m.regs := rfl
@[simp] theorem Mach.onPorts_mem (f : Ports → Ports) : (m.onPorts f).mem = m.mem := rfl
@[simp] theorem Mach.onPorts_time (f : Ports → Ports) : (m.onPorts f).time = m.time := rfl
@[simp] theorem Mach.onPorts_islands (f : Ports → Ports) : (m.onPorts f).islands = m.islands := rfl
@[simp] theorem Mach.onPorts_sluices (f : Ports → Ports) : (m.onPorts f).sluices = m.sluices := rfl
@[simp] theorem Mach.onPorts_stageCfg (f : Ports → Ports) : (m.onPorts f).stageCfg = m.stageCfg := rfl
@[simp] theorem Mach.onPorts_stageQ (f : Ports → Ports) : (m.onPorts f).stageQ = m.stageQ := rfl
@[simp] theorem Mach.onPorts_resultQ (f : Ports → Ports) : (m.onPorts f).resultQ = m.resultQ := rfl
@[simp] theorem Mach.onPorts_injectQ (f : Ports → Ports) : (m.onPorts f).injectQ = m.injectQ := rfl
@[simp] theorem Mach.onPorts_cq (f : Ports → Ports) : (m.onPorts f).cq = m.cq := rfl
@[simp] theorem Mach.onPorts_lastQ (f : Ports → Ports) : (m.onPorts f).lastQ = m.lastQ := rfl
@[simp] theorem Mach.onPorts_core (f : Ports → Ports) : (m.onPorts f).core = m.core := rfl
@[simp] theorem Mach.onPorts_safety (f : Ports → Ports) : (m.onPorts f).safety = m.safety := rfl
@[simp] theorem Mach.onPorts_obs (f : Ports → Ports) : (m.onPorts f).obs = m.obs := rfl
@[simp] theorem Mach.onPorts_port (f : Ports → Ports) : (m.onPorts f).port = m.port := rfl
@[simp] theorem Mach.onPorts_pins (f : Ports → Ports) : (m.onPorts f).pins = m.pins := rfl
@[simp] theorem Mach.onPorts_fpl (f : Ports → Ports) : (m.onPorts f).fpl = m.fpl := rfl
@[simp] theorem Mach.onPorts_sh (f : Ports → Ports) : (m.onPorts f).sh = m.sh := rfl
@[simp] theorem Mach.onPorts_sec (f : Ports → Ports) : (m.onPorts f).sec = m.sec := rfl
@[simp] theorem Mach.onPorts_streams (f : Ports → Ports) : (m.onPorts f).streams = m.streams := rfl
@[simp] theorem Mach.onPorts_groups (f : Ports → Ports) : (m.onPorts f).groups = m.groups := rfl
@[simp] theorem Mach.onPorts_cal (f : Ports → Ports) : (m.onPorts f).cal = m.cal := rfl
@[simp] theorem Mach.onPorts_egr (f : Ports → Ports) : (m.onPorts f).egr = m.egr := rfl
@[simp] theorem Mach.onPorts_slots (f : Ports → Ports) : (m.onPorts f).slots = m.slots := rfl
@[simp] theorem Mach.onPorts_latches (f : Ports → Ports) : (m.onPorts f).latches = m.latches := rfl
@[simp] theorem Mach.onPorts_contexts (f : Ports → Ports) : (m.onPorts f).contexts = m.contexts := rfl
@[simp] theorem Mach.onPorts_dropShare (f : Ports → Ports) : (m.onPorts f).dropShare = m.dropShare := rfl

/-! onEgr changes egr alone. -/

@[simp] theorem Mach.onEgr_variant (f : Egress → Egress) : (m.onEgr f).variant = m.variant := rfl
@[simp] theorem Mach.onEgr_freeCtr (f : Egress → Egress) : (m.onEgr f).freeCtr = m.freeCtr := rfl
@[simp] theorem Mach.onEgr_regs (f : Egress → Egress) : (m.onEgr f).regs = m.regs := rfl
@[simp] theorem Mach.onEgr_mem (f : Egress → Egress) : (m.onEgr f).mem = m.mem := rfl
@[simp] theorem Mach.onEgr_time (f : Egress → Egress) : (m.onEgr f).time = m.time := rfl
@[simp] theorem Mach.onEgr_islands (f : Egress → Egress) : (m.onEgr f).islands = m.islands := rfl
@[simp] theorem Mach.onEgr_sluices (f : Egress → Egress) : (m.onEgr f).sluices = m.sluices := rfl
@[simp] theorem Mach.onEgr_stageCfg (f : Egress → Egress) : (m.onEgr f).stageCfg = m.stageCfg := rfl
@[simp] theorem Mach.onEgr_stageQ (f : Egress → Egress) : (m.onEgr f).stageQ = m.stageQ := rfl
@[simp] theorem Mach.onEgr_resultQ (f : Egress → Egress) : (m.onEgr f).resultQ = m.resultQ := rfl
@[simp] theorem Mach.onEgr_injectQ (f : Egress → Egress) : (m.onEgr f).injectQ = m.injectQ := rfl
@[simp] theorem Mach.onEgr_cq (f : Egress → Egress) : (m.onEgr f).cq = m.cq := rfl
@[simp] theorem Mach.onEgr_lastQ (f : Egress → Egress) : (m.onEgr f).lastQ = m.lastQ := rfl
@[simp] theorem Mach.onEgr_core (f : Egress → Egress) : (m.onEgr f).core = m.core := rfl
@[simp] theorem Mach.onEgr_safety (f : Egress → Egress) : (m.onEgr f).safety = m.safety := rfl
@[simp] theorem Mach.onEgr_obs (f : Egress → Egress) : (m.onEgr f).obs = m.obs := rfl
@[simp] theorem Mach.onEgr_port (f : Egress → Egress) : (m.onEgr f).port = m.port := rfl
@[simp] theorem Mach.onEgr_pins (f : Egress → Egress) : (m.onEgr f).pins = m.pins := rfl
@[simp] theorem Mach.onEgr_fpl (f : Egress → Egress) : (m.onEgr f).fpl = m.fpl := rfl
@[simp] theorem Mach.onEgr_sh (f : Egress → Egress) : (m.onEgr f).sh = m.sh := rfl
@[simp] theorem Mach.onEgr_sec (f : Egress → Egress) : (m.onEgr f).sec = m.sec := rfl
@[simp] theorem Mach.onEgr_ports (f : Egress → Egress) : (m.onEgr f).ports = m.ports := rfl
@[simp] theorem Mach.onEgr_streams (f : Egress → Egress) : (m.onEgr f).streams = m.streams := rfl
@[simp] theorem Mach.onEgr_groups (f : Egress → Egress) : (m.onEgr f).groups = m.groups := rfl
@[simp] theorem Mach.onEgr_cal (f : Egress → Egress) : (m.onEgr f).cal = m.cal := rfl
@[simp] theorem Mach.onEgr_slots (f : Egress → Egress) : (m.onEgr f).slots = m.slots := rfl
@[simp] theorem Mach.onEgr_latches (f : Egress → Egress) : (m.onEgr f).latches = m.latches := rfl
@[simp] theorem Mach.onEgr_contexts (f : Egress → Egress) : (m.onEgr f).contexts = m.contexts := rfl
@[simp] theorem Mach.onEgr_dropShare (f : Egress → Egress) : (m.onEgr f).dropShare = m.dropShare := rfl

/-! setIsland changes islands alone. -/

@[simp] theorem Mach.setIsland_variant (i : Nat) (x : Island) : (m.setIsland i x).variant = m.variant := rfl
@[simp] theorem Mach.setIsland_freeCtr (i : Nat) (x : Island) : (m.setIsland i x).freeCtr = m.freeCtr := rfl
@[simp] theorem Mach.setIsland_regs (i : Nat) (x : Island) : (m.setIsland i x).regs = m.regs := rfl
@[simp] theorem Mach.setIsland_mem (i : Nat) (x : Island) : (m.setIsland i x).mem = m.mem := rfl
@[simp] theorem Mach.setIsland_time (i : Nat) (x : Island) : (m.setIsland i x).time = m.time := rfl
@[simp] theorem Mach.setIsland_sluices (i : Nat) (x : Island) : (m.setIsland i x).sluices = m.sluices := rfl
@[simp] theorem Mach.setIsland_stageCfg (i : Nat) (x : Island) : (m.setIsland i x).stageCfg = m.stageCfg := rfl
@[simp] theorem Mach.setIsland_stageQ (i : Nat) (x : Island) : (m.setIsland i x).stageQ = m.stageQ := rfl
@[simp] theorem Mach.setIsland_resultQ (i : Nat) (x : Island) : (m.setIsland i x).resultQ = m.resultQ := rfl
@[simp] theorem Mach.setIsland_injectQ (i : Nat) (x : Island) : (m.setIsland i x).injectQ = m.injectQ := rfl
@[simp] theorem Mach.setIsland_cq (i : Nat) (x : Island) : (m.setIsland i x).cq = m.cq := rfl
@[simp] theorem Mach.setIsland_lastQ (i : Nat) (x : Island) : (m.setIsland i x).lastQ = m.lastQ := rfl
@[simp] theorem Mach.setIsland_core (i : Nat) (x : Island) : (m.setIsland i x).core = m.core := rfl
@[simp] theorem Mach.setIsland_safety (i : Nat) (x : Island) : (m.setIsland i x).safety = m.safety := rfl
@[simp] theorem Mach.setIsland_obs (i : Nat) (x : Island) : (m.setIsland i x).obs = m.obs := rfl
@[simp] theorem Mach.setIsland_port (i : Nat) (x : Island) : (m.setIsland i x).port = m.port := rfl
@[simp] theorem Mach.setIsland_pins (i : Nat) (x : Island) : (m.setIsland i x).pins = m.pins := rfl
@[simp] theorem Mach.setIsland_fpl (i : Nat) (x : Island) : (m.setIsland i x).fpl = m.fpl := rfl
@[simp] theorem Mach.setIsland_sh (i : Nat) (x : Island) : (m.setIsland i x).sh = m.sh := rfl
@[simp] theorem Mach.setIsland_sec (i : Nat) (x : Island) : (m.setIsland i x).sec = m.sec := rfl
@[simp] theorem Mach.setIsland_ports (i : Nat) (x : Island) : (m.setIsland i x).ports = m.ports := rfl
@[simp] theorem Mach.setIsland_streams (i : Nat) (x : Island) : (m.setIsland i x).streams = m.streams := rfl
@[simp] theorem Mach.setIsland_groups (i : Nat) (x : Island) : (m.setIsland i x).groups = m.groups := rfl
@[simp] theorem Mach.setIsland_cal (i : Nat) (x : Island) : (m.setIsland i x).cal = m.cal := rfl
@[simp] theorem Mach.setIsland_egr (i : Nat) (x : Island) : (m.setIsland i x).egr = m.egr := rfl
@[simp] theorem Mach.setIsland_slots (i : Nat) (x : Island) : (m.setIsland i x).slots = m.slots := rfl
@[simp] theorem Mach.setIsland_latches (i : Nat) (x : Island) : (m.setIsland i x).latches = m.latches := rfl
@[simp] theorem Mach.setIsland_contexts (i : Nat) (x : Island) : (m.setIsland i x).contexts = m.contexts := rfl
@[simp] theorem Mach.setIsland_dropShare (i : Nat) (x : Island) : (m.setIsland i x).dropShare = m.dropShare := rfl

/-! setSluice changes sluices alone. -/

@[simp] theorem Mach.setSluice_variant (k : Nat) (x : Sluice) : (m.setSluice k x).variant = m.variant := rfl
@[simp] theorem Mach.setSluice_freeCtr (k : Nat) (x : Sluice) : (m.setSluice k x).freeCtr = m.freeCtr := rfl
@[simp] theorem Mach.setSluice_regs (k : Nat) (x : Sluice) : (m.setSluice k x).regs = m.regs := rfl
@[simp] theorem Mach.setSluice_mem (k : Nat) (x : Sluice) : (m.setSluice k x).mem = m.mem := rfl
@[simp] theorem Mach.setSluice_time (k : Nat) (x : Sluice) : (m.setSluice k x).time = m.time := rfl
@[simp] theorem Mach.setSluice_islands (k : Nat) (x : Sluice) : (m.setSluice k x).islands = m.islands := rfl
@[simp] theorem Mach.setSluice_stageCfg (k : Nat) (x : Sluice) : (m.setSluice k x).stageCfg = m.stageCfg := rfl
@[simp] theorem Mach.setSluice_stageQ (k : Nat) (x : Sluice) : (m.setSluice k x).stageQ = m.stageQ := rfl
@[simp] theorem Mach.setSluice_resultQ (k : Nat) (x : Sluice) : (m.setSluice k x).resultQ = m.resultQ := rfl
@[simp] theorem Mach.setSluice_injectQ (k : Nat) (x : Sluice) : (m.setSluice k x).injectQ = m.injectQ := rfl
@[simp] theorem Mach.setSluice_cq (k : Nat) (x : Sluice) : (m.setSluice k x).cq = m.cq := rfl
@[simp] theorem Mach.setSluice_lastQ (k : Nat) (x : Sluice) : (m.setSluice k x).lastQ = m.lastQ := rfl
@[simp] theorem Mach.setSluice_core (k : Nat) (x : Sluice) : (m.setSluice k x).core = m.core := rfl
@[simp] theorem Mach.setSluice_safety (k : Nat) (x : Sluice) : (m.setSluice k x).safety = m.safety := rfl
@[simp] theorem Mach.setSluice_obs (k : Nat) (x : Sluice) : (m.setSluice k x).obs = m.obs := rfl
@[simp] theorem Mach.setSluice_port (k : Nat) (x : Sluice) : (m.setSluice k x).port = m.port := rfl
@[simp] theorem Mach.setSluice_pins (k : Nat) (x : Sluice) : (m.setSluice k x).pins = m.pins := rfl
@[simp] theorem Mach.setSluice_fpl (k : Nat) (x : Sluice) : (m.setSluice k x).fpl = m.fpl := rfl
@[simp] theorem Mach.setSluice_sh (k : Nat) (x : Sluice) : (m.setSluice k x).sh = m.sh := rfl
@[simp] theorem Mach.setSluice_sec (k : Nat) (x : Sluice) : (m.setSluice k x).sec = m.sec := rfl
@[simp] theorem Mach.setSluice_ports (k : Nat) (x : Sluice) : (m.setSluice k x).ports = m.ports := rfl
@[simp] theorem Mach.setSluice_streams (k : Nat) (x : Sluice) : (m.setSluice k x).streams = m.streams := rfl
@[simp] theorem Mach.setSluice_groups (k : Nat) (x : Sluice) : (m.setSluice k x).groups = m.groups := rfl
@[simp] theorem Mach.setSluice_cal (k : Nat) (x : Sluice) : (m.setSluice k x).cal = m.cal := rfl
@[simp] theorem Mach.setSluice_egr (k : Nat) (x : Sluice) : (m.setSluice k x).egr = m.egr := rfl
@[simp] theorem Mach.setSluice_slots (k : Nat) (x : Sluice) : (m.setSluice k x).slots = m.slots := rfl
@[simp] theorem Mach.setSluice_latches (k : Nat) (x : Sluice) : (m.setSluice k x).latches = m.latches := rfl
@[simp] theorem Mach.setSluice_contexts (k : Nat) (x : Sluice) : (m.setSluice k x).contexts = m.contexts := rfl
@[simp] theorem Mach.setSluice_dropShare (k : Nat) (x : Sluice) : (m.setSluice k x).dropShare = m.dropShare := rfl

/-! setStage changes stageQ alone. -/

@[simp] theorem Mach.setStage_variant (n : Nat) (q : Tbq) : (m.setStage n q).variant = m.variant := rfl
@[simp] theorem Mach.setStage_freeCtr (n : Nat) (q : Tbq) : (m.setStage n q).freeCtr = m.freeCtr := rfl
@[simp] theorem Mach.setStage_regs (n : Nat) (q : Tbq) : (m.setStage n q).regs = m.regs := rfl
@[simp] theorem Mach.setStage_mem (n : Nat) (q : Tbq) : (m.setStage n q).mem = m.mem := rfl
@[simp] theorem Mach.setStage_time (n : Nat) (q : Tbq) : (m.setStage n q).time = m.time := rfl
@[simp] theorem Mach.setStage_islands (n : Nat) (q : Tbq) : (m.setStage n q).islands = m.islands := rfl
@[simp] theorem Mach.setStage_sluices (n : Nat) (q : Tbq) : (m.setStage n q).sluices = m.sluices := rfl
@[simp] theorem Mach.setStage_stageCfg (n : Nat) (q : Tbq) : (m.setStage n q).stageCfg = m.stageCfg := rfl
@[simp] theorem Mach.setStage_resultQ (n : Nat) (q : Tbq) : (m.setStage n q).resultQ = m.resultQ := rfl
@[simp] theorem Mach.setStage_injectQ (n : Nat) (q : Tbq) : (m.setStage n q).injectQ = m.injectQ := rfl
@[simp] theorem Mach.setStage_cq (n : Nat) (q : Tbq) : (m.setStage n q).cq = m.cq := rfl
@[simp] theorem Mach.setStage_lastQ (n : Nat) (q : Tbq) : (m.setStage n q).lastQ = m.lastQ := rfl
@[simp] theorem Mach.setStage_core (n : Nat) (q : Tbq) : (m.setStage n q).core = m.core := rfl
@[simp] theorem Mach.setStage_safety (n : Nat) (q : Tbq) : (m.setStage n q).safety = m.safety := rfl
@[simp] theorem Mach.setStage_obs (n : Nat) (q : Tbq) : (m.setStage n q).obs = m.obs := rfl
@[simp] theorem Mach.setStage_port (n : Nat) (q : Tbq) : (m.setStage n q).port = m.port := rfl
@[simp] theorem Mach.setStage_pins (n : Nat) (q : Tbq) : (m.setStage n q).pins = m.pins := rfl
@[simp] theorem Mach.setStage_fpl (n : Nat) (q : Tbq) : (m.setStage n q).fpl = m.fpl := rfl
@[simp] theorem Mach.setStage_sh (n : Nat) (q : Tbq) : (m.setStage n q).sh = m.sh := rfl
@[simp] theorem Mach.setStage_sec (n : Nat) (q : Tbq) : (m.setStage n q).sec = m.sec := rfl
@[simp] theorem Mach.setStage_ports (n : Nat) (q : Tbq) : (m.setStage n q).ports = m.ports := rfl
@[simp] theorem Mach.setStage_streams (n : Nat) (q : Tbq) : (m.setStage n q).streams = m.streams := rfl
@[simp] theorem Mach.setStage_groups (n : Nat) (q : Tbq) : (m.setStage n q).groups = m.groups := rfl
@[simp] theorem Mach.setStage_cal (n : Nat) (q : Tbq) : (m.setStage n q).cal = m.cal := rfl
@[simp] theorem Mach.setStage_egr (n : Nat) (q : Tbq) : (m.setStage n q).egr = m.egr := rfl
@[simp] theorem Mach.setStage_slots (n : Nat) (q : Tbq) : (m.setStage n q).slots = m.slots := rfl
@[simp] theorem Mach.setStage_latches (n : Nat) (q : Tbq) : (m.setStage n q).latches = m.latches := rfl
@[simp] theorem Mach.setStage_contexts (n : Nat) (q : Tbq) : (m.setStage n q).contexts = m.contexts := rfl
@[simp] theorem Mach.setStage_dropShare (n : Nat) (q : Tbq) : (m.setStage n q).dropShare = m.dropShare := rfl

/-! setCmdq changes cq alone. -/

@[simp] theorem Mach.setCmdq_variant (q : Nat) (x : CmdQ) : (m.setCmdq q x).variant = m.variant := rfl
@[simp] theorem Mach.setCmdq_freeCtr (q : Nat) (x : CmdQ) : (m.setCmdq q x).freeCtr = m.freeCtr := rfl
@[simp] theorem Mach.setCmdq_regs (q : Nat) (x : CmdQ) : (m.setCmdq q x).regs = m.regs := rfl
@[simp] theorem Mach.setCmdq_mem (q : Nat) (x : CmdQ) : (m.setCmdq q x).mem = m.mem := rfl
@[simp] theorem Mach.setCmdq_time (q : Nat) (x : CmdQ) : (m.setCmdq q x).time = m.time := rfl
@[simp] theorem Mach.setCmdq_islands (q : Nat) (x : CmdQ) : (m.setCmdq q x).islands = m.islands := rfl
@[simp] theorem Mach.setCmdq_sluices (q : Nat) (x : CmdQ) : (m.setCmdq q x).sluices = m.sluices := rfl
@[simp] theorem Mach.setCmdq_stageCfg (q : Nat) (x : CmdQ) : (m.setCmdq q x).stageCfg = m.stageCfg := rfl
@[simp] theorem Mach.setCmdq_stageQ (q : Nat) (x : CmdQ) : (m.setCmdq q x).stageQ = m.stageQ := rfl
@[simp] theorem Mach.setCmdq_resultQ (q : Nat) (x : CmdQ) : (m.setCmdq q x).resultQ = m.resultQ := rfl
@[simp] theorem Mach.setCmdq_injectQ (q : Nat) (x : CmdQ) : (m.setCmdq q x).injectQ = m.injectQ := rfl
@[simp] theorem Mach.setCmdq_lastQ (q : Nat) (x : CmdQ) : (m.setCmdq q x).lastQ = m.lastQ := rfl
@[simp] theorem Mach.setCmdq_core (q : Nat) (x : CmdQ) : (m.setCmdq q x).core = m.core := rfl
@[simp] theorem Mach.setCmdq_safety (q : Nat) (x : CmdQ) : (m.setCmdq q x).safety = m.safety := rfl
@[simp] theorem Mach.setCmdq_obs (q : Nat) (x : CmdQ) : (m.setCmdq q x).obs = m.obs := rfl
@[simp] theorem Mach.setCmdq_port (q : Nat) (x : CmdQ) : (m.setCmdq q x).port = m.port := rfl
@[simp] theorem Mach.setCmdq_pins (q : Nat) (x : CmdQ) : (m.setCmdq q x).pins = m.pins := rfl
@[simp] theorem Mach.setCmdq_fpl (q : Nat) (x : CmdQ) : (m.setCmdq q x).fpl = m.fpl := rfl
@[simp] theorem Mach.setCmdq_sh (q : Nat) (x : CmdQ) : (m.setCmdq q x).sh = m.sh := rfl
@[simp] theorem Mach.setCmdq_sec (q : Nat) (x : CmdQ) : (m.setCmdq q x).sec = m.sec := rfl
@[simp] theorem Mach.setCmdq_ports (q : Nat) (x : CmdQ) : (m.setCmdq q x).ports = m.ports := rfl
@[simp] theorem Mach.setCmdq_streams (q : Nat) (x : CmdQ) : (m.setCmdq q x).streams = m.streams := rfl
@[simp] theorem Mach.setCmdq_groups (q : Nat) (x : CmdQ) : (m.setCmdq q x).groups = m.groups := rfl
@[simp] theorem Mach.setCmdq_cal (q : Nat) (x : CmdQ) : (m.setCmdq q x).cal = m.cal := rfl
@[simp] theorem Mach.setCmdq_egr (q : Nat) (x : CmdQ) : (m.setCmdq q x).egr = m.egr := rfl
@[simp] theorem Mach.setCmdq_slots (q : Nat) (x : CmdQ) : (m.setCmdq q x).slots = m.slots := rfl
@[simp] theorem Mach.setCmdq_latches (q : Nat) (x : CmdQ) : (m.setCmdq q x).latches = m.latches := rfl
@[simp] theorem Mach.setCmdq_contexts (q : Nat) (x : CmdQ) : (m.setCmdq q x).contexts = m.contexts := rfl
@[simp] theorem Mach.setCmdq_dropShare (q : Nat) (x : CmdQ) : (m.setCmdq q x).dropShare = m.dropShare := rfl

/-! setCc changes core alone. -/

@[simp] theorem Mach.setCc_variant (c : Nat) (x : Core) : (m.setCc c x).variant = m.variant := rfl
@[simp] theorem Mach.setCc_freeCtr (c : Nat) (x : Core) : (m.setCc c x).freeCtr = m.freeCtr := rfl
@[simp] theorem Mach.setCc_regs (c : Nat) (x : Core) : (m.setCc c x).regs = m.regs := rfl
@[simp] theorem Mach.setCc_mem (c : Nat) (x : Core) : (m.setCc c x).mem = m.mem := rfl
@[simp] theorem Mach.setCc_time (c : Nat) (x : Core) : (m.setCc c x).time = m.time := rfl
@[simp] theorem Mach.setCc_islands (c : Nat) (x : Core) : (m.setCc c x).islands = m.islands := rfl
@[simp] theorem Mach.setCc_sluices (c : Nat) (x : Core) : (m.setCc c x).sluices = m.sluices := rfl
@[simp] theorem Mach.setCc_stageCfg (c : Nat) (x : Core) : (m.setCc c x).stageCfg = m.stageCfg := rfl
@[simp] theorem Mach.setCc_stageQ (c : Nat) (x : Core) : (m.setCc c x).stageQ = m.stageQ := rfl
@[simp] theorem Mach.setCc_resultQ (c : Nat) (x : Core) : (m.setCc c x).resultQ = m.resultQ := rfl
@[simp] theorem Mach.setCc_injectQ (c : Nat) (x : Core) : (m.setCc c x).injectQ = m.injectQ := rfl
@[simp] theorem Mach.setCc_cq (c : Nat) (x : Core) : (m.setCc c x).cq = m.cq := rfl
@[simp] theorem Mach.setCc_lastQ (c : Nat) (x : Core) : (m.setCc c x).lastQ = m.lastQ := rfl
@[simp] theorem Mach.setCc_safety (c : Nat) (x : Core) : (m.setCc c x).safety = m.safety := rfl
@[simp] theorem Mach.setCc_obs (c : Nat) (x : Core) : (m.setCc c x).obs = m.obs := rfl
@[simp] theorem Mach.setCc_port (c : Nat) (x : Core) : (m.setCc c x).port = m.port := rfl
@[simp] theorem Mach.setCc_pins (c : Nat) (x : Core) : (m.setCc c x).pins = m.pins := rfl
@[simp] theorem Mach.setCc_fpl (c : Nat) (x : Core) : (m.setCc c x).fpl = m.fpl := rfl
@[simp] theorem Mach.setCc_sh (c : Nat) (x : Core) : (m.setCc c x).sh = m.sh := rfl
@[simp] theorem Mach.setCc_sec (c : Nat) (x : Core) : (m.setCc c x).sec = m.sec := rfl
@[simp] theorem Mach.setCc_ports (c : Nat) (x : Core) : (m.setCc c x).ports = m.ports := rfl
@[simp] theorem Mach.setCc_streams (c : Nat) (x : Core) : (m.setCc c x).streams = m.streams := rfl
@[simp] theorem Mach.setCc_groups (c : Nat) (x : Core) : (m.setCc c x).groups = m.groups := rfl
@[simp] theorem Mach.setCc_cal (c : Nat) (x : Core) : (m.setCc c x).cal = m.cal := rfl
@[simp] theorem Mach.setCc_egr (c : Nat) (x : Core) : (m.setCc c x).egr = m.egr := rfl
@[simp] theorem Mach.setCc_slots (c : Nat) (x : Core) : (m.setCc c x).slots = m.slots := rfl
@[simp] theorem Mach.setCc_latches (c : Nat) (x : Core) : (m.setCc c x).latches = m.latches := rfl
@[simp] theorem Mach.setCc_contexts (c : Nat) (x : Core) : (m.setCc c x).contexts = m.contexts := rfl
@[simp] theorem Mach.setCc_dropShare (c : Nat) (x : Core) : (m.setCc c x).dropShare = m.dropShare := rfl

/-! setGroup changes groups alone. -/

@[simp] theorem Mach.setGroup_variant (g : Nat) (x : Group) : (m.setGroup g x).variant = m.variant := rfl
@[simp] theorem Mach.setGroup_freeCtr (g : Nat) (x : Group) : (m.setGroup g x).freeCtr = m.freeCtr := rfl
@[simp] theorem Mach.setGroup_regs (g : Nat) (x : Group) : (m.setGroup g x).regs = m.regs := rfl
@[simp] theorem Mach.setGroup_mem (g : Nat) (x : Group) : (m.setGroup g x).mem = m.mem := rfl
@[simp] theorem Mach.setGroup_time (g : Nat) (x : Group) : (m.setGroup g x).time = m.time := rfl
@[simp] theorem Mach.setGroup_islands (g : Nat) (x : Group) : (m.setGroup g x).islands = m.islands := rfl
@[simp] theorem Mach.setGroup_sluices (g : Nat) (x : Group) : (m.setGroup g x).sluices = m.sluices := rfl
@[simp] theorem Mach.setGroup_stageCfg (g : Nat) (x : Group) : (m.setGroup g x).stageCfg = m.stageCfg := rfl
@[simp] theorem Mach.setGroup_stageQ (g : Nat) (x : Group) : (m.setGroup g x).stageQ = m.stageQ := rfl
@[simp] theorem Mach.setGroup_resultQ (g : Nat) (x : Group) : (m.setGroup g x).resultQ = m.resultQ := rfl
@[simp] theorem Mach.setGroup_injectQ (g : Nat) (x : Group) : (m.setGroup g x).injectQ = m.injectQ := rfl
@[simp] theorem Mach.setGroup_cq (g : Nat) (x : Group) : (m.setGroup g x).cq = m.cq := rfl
@[simp] theorem Mach.setGroup_lastQ (g : Nat) (x : Group) : (m.setGroup g x).lastQ = m.lastQ := rfl
@[simp] theorem Mach.setGroup_core (g : Nat) (x : Group) : (m.setGroup g x).core = m.core := rfl
@[simp] theorem Mach.setGroup_safety (g : Nat) (x : Group) : (m.setGroup g x).safety = m.safety := rfl
@[simp] theorem Mach.setGroup_obs (g : Nat) (x : Group) : (m.setGroup g x).obs = m.obs := rfl
@[simp] theorem Mach.setGroup_port (g : Nat) (x : Group) : (m.setGroup g x).port = m.port := rfl
@[simp] theorem Mach.setGroup_pins (g : Nat) (x : Group) : (m.setGroup g x).pins = m.pins := rfl
@[simp] theorem Mach.setGroup_fpl (g : Nat) (x : Group) : (m.setGroup g x).fpl = m.fpl := rfl
@[simp] theorem Mach.setGroup_sh (g : Nat) (x : Group) : (m.setGroup g x).sh = m.sh := rfl
@[simp] theorem Mach.setGroup_sec (g : Nat) (x : Group) : (m.setGroup g x).sec = m.sec := rfl
@[simp] theorem Mach.setGroup_ports (g : Nat) (x : Group) : (m.setGroup g x).ports = m.ports := rfl
@[simp] theorem Mach.setGroup_streams (g : Nat) (x : Group) : (m.setGroup g x).streams = m.streams := rfl
@[simp] theorem Mach.setGroup_cal (g : Nat) (x : Group) : (m.setGroup g x).cal = m.cal := rfl
@[simp] theorem Mach.setGroup_egr (g : Nat) (x : Group) : (m.setGroup g x).egr = m.egr := rfl
@[simp] theorem Mach.setGroup_slots (g : Nat) (x : Group) : (m.setGroup g x).slots = m.slots := rfl
@[simp] theorem Mach.setGroup_latches (g : Nat) (x : Group) : (m.setGroup g x).latches = m.latches := rfl
@[simp] theorem Mach.setGroup_contexts (g : Nat) (x : Group) : (m.setGroup g x).contexts = m.contexts := rfl
@[simp] theorem Mach.setGroup_dropShare (g : Nat) (x : Group) : (m.setGroup g x).dropShare = m.dropShare := rfl

/-! setStream changes streams alone. -/

@[simp] theorem Mach.setStream_variant (s : Nat) (x : Stream) : (m.setStream s x).variant = m.variant := rfl
@[simp] theorem Mach.setStream_freeCtr (s : Nat) (x : Stream) : (m.setStream s x).freeCtr = m.freeCtr := rfl
@[simp] theorem Mach.setStream_regs (s : Nat) (x : Stream) : (m.setStream s x).regs = m.regs := rfl
@[simp] theorem Mach.setStream_mem (s : Nat) (x : Stream) : (m.setStream s x).mem = m.mem := rfl
@[simp] theorem Mach.setStream_time (s : Nat) (x : Stream) : (m.setStream s x).time = m.time := rfl
@[simp] theorem Mach.setStream_islands (s : Nat) (x : Stream) : (m.setStream s x).islands = m.islands := rfl
@[simp] theorem Mach.setStream_sluices (s : Nat) (x : Stream) : (m.setStream s x).sluices = m.sluices := rfl
@[simp] theorem Mach.setStream_stageCfg (s : Nat) (x : Stream) : (m.setStream s x).stageCfg = m.stageCfg := rfl
@[simp] theorem Mach.setStream_stageQ (s : Nat) (x : Stream) : (m.setStream s x).stageQ = m.stageQ := rfl
@[simp] theorem Mach.setStream_resultQ (s : Nat) (x : Stream) : (m.setStream s x).resultQ = m.resultQ := rfl
@[simp] theorem Mach.setStream_injectQ (s : Nat) (x : Stream) : (m.setStream s x).injectQ = m.injectQ := rfl
@[simp] theorem Mach.setStream_cq (s : Nat) (x : Stream) : (m.setStream s x).cq = m.cq := rfl
@[simp] theorem Mach.setStream_lastQ (s : Nat) (x : Stream) : (m.setStream s x).lastQ = m.lastQ := rfl
@[simp] theorem Mach.setStream_core (s : Nat) (x : Stream) : (m.setStream s x).core = m.core := rfl
@[simp] theorem Mach.setStream_safety (s : Nat) (x : Stream) : (m.setStream s x).safety = m.safety := rfl
@[simp] theorem Mach.setStream_obs (s : Nat) (x : Stream) : (m.setStream s x).obs = m.obs := rfl
@[simp] theorem Mach.setStream_port (s : Nat) (x : Stream) : (m.setStream s x).port = m.port := rfl
@[simp] theorem Mach.setStream_pins (s : Nat) (x : Stream) : (m.setStream s x).pins = m.pins := rfl
@[simp] theorem Mach.setStream_fpl (s : Nat) (x : Stream) : (m.setStream s x).fpl = m.fpl := rfl
@[simp] theorem Mach.setStream_sh (s : Nat) (x : Stream) : (m.setStream s x).sh = m.sh := rfl
@[simp] theorem Mach.setStream_sec (s : Nat) (x : Stream) : (m.setStream s x).sec = m.sec := rfl
@[simp] theorem Mach.setStream_ports (s : Nat) (x : Stream) : (m.setStream s x).ports = m.ports := rfl
@[simp] theorem Mach.setStream_groups (s : Nat) (x : Stream) : (m.setStream s x).groups = m.groups := rfl
@[simp] theorem Mach.setStream_cal (s : Nat) (x : Stream) : (m.setStream s x).cal = m.cal := rfl
@[simp] theorem Mach.setStream_egr (s : Nat) (x : Stream) : (m.setStream s x).egr = m.egr := rfl
@[simp] theorem Mach.setStream_slots (s : Nat) (x : Stream) : (m.setStream s x).slots = m.slots := rfl
@[simp] theorem Mach.setStream_latches (s : Nat) (x : Stream) : (m.setStream s x).latches = m.latches := rfl
@[simp] theorem Mach.setStream_contexts (s : Nat) (x : Stream) : (m.setStream s x).contexts = m.contexts := rfl
@[simp] theorem Mach.setStream_dropShare (s : Nat) (x : Stream) : (m.setStream s x).dropShare = m.dropShare := rfl

/-! setSlot changes slots alone. -/

@[simp] theorem Mach.setSlot_variant (c n : Nat) (x : Slot) : (m.setSlot c n x).variant = m.variant := rfl
@[simp] theorem Mach.setSlot_freeCtr (c n : Nat) (x : Slot) : (m.setSlot c n x).freeCtr = m.freeCtr := rfl
@[simp] theorem Mach.setSlot_regs (c n : Nat) (x : Slot) : (m.setSlot c n x).regs = m.regs := rfl
@[simp] theorem Mach.setSlot_mem (c n : Nat) (x : Slot) : (m.setSlot c n x).mem = m.mem := rfl
@[simp] theorem Mach.setSlot_time (c n : Nat) (x : Slot) : (m.setSlot c n x).time = m.time := rfl
@[simp] theorem Mach.setSlot_islands (c n : Nat) (x : Slot) : (m.setSlot c n x).islands = m.islands := rfl
@[simp] theorem Mach.setSlot_sluices (c n : Nat) (x : Slot) : (m.setSlot c n x).sluices = m.sluices := rfl
@[simp] theorem Mach.setSlot_stageCfg (c n : Nat) (x : Slot) : (m.setSlot c n x).stageCfg = m.stageCfg := rfl
@[simp] theorem Mach.setSlot_stageQ (c n : Nat) (x : Slot) : (m.setSlot c n x).stageQ = m.stageQ := rfl
@[simp] theorem Mach.setSlot_resultQ (c n : Nat) (x : Slot) : (m.setSlot c n x).resultQ = m.resultQ := rfl
@[simp] theorem Mach.setSlot_injectQ (c n : Nat) (x : Slot) : (m.setSlot c n x).injectQ = m.injectQ := rfl
@[simp] theorem Mach.setSlot_cq (c n : Nat) (x : Slot) : (m.setSlot c n x).cq = m.cq := rfl
@[simp] theorem Mach.setSlot_lastQ (c n : Nat) (x : Slot) : (m.setSlot c n x).lastQ = m.lastQ := rfl
@[simp] theorem Mach.setSlot_core (c n : Nat) (x : Slot) : (m.setSlot c n x).core = m.core := rfl
@[simp] theorem Mach.setSlot_safety (c n : Nat) (x : Slot) : (m.setSlot c n x).safety = m.safety := rfl
@[simp] theorem Mach.setSlot_obs (c n : Nat) (x : Slot) : (m.setSlot c n x).obs = m.obs := rfl
@[simp] theorem Mach.setSlot_port (c n : Nat) (x : Slot) : (m.setSlot c n x).port = m.port := rfl
@[simp] theorem Mach.setSlot_pins (c n : Nat) (x : Slot) : (m.setSlot c n x).pins = m.pins := rfl
@[simp] theorem Mach.setSlot_fpl (c n : Nat) (x : Slot) : (m.setSlot c n x).fpl = m.fpl := rfl
@[simp] theorem Mach.setSlot_sh (c n : Nat) (x : Slot) : (m.setSlot c n x).sh = m.sh := rfl
@[simp] theorem Mach.setSlot_sec (c n : Nat) (x : Slot) : (m.setSlot c n x).sec = m.sec := rfl
@[simp] theorem Mach.setSlot_ports (c n : Nat) (x : Slot) : (m.setSlot c n x).ports = m.ports := rfl
@[simp] theorem Mach.setSlot_streams (c n : Nat) (x : Slot) : (m.setSlot c n x).streams = m.streams := rfl
@[simp] theorem Mach.setSlot_groups (c n : Nat) (x : Slot) : (m.setSlot c n x).groups = m.groups := rfl
@[simp] theorem Mach.setSlot_cal (c n : Nat) (x : Slot) : (m.setSlot c n x).cal = m.cal := rfl
@[simp] theorem Mach.setSlot_egr (c n : Nat) (x : Slot) : (m.setSlot c n x).egr = m.egr := rfl
@[simp] theorem Mach.setSlot_latches (c n : Nat) (x : Slot) : (m.setSlot c n x).latches = m.latches := rfl
@[simp] theorem Mach.setSlot_contexts (c n : Nat) (x : Slot) : (m.setSlot c n x).contexts = m.contexts := rfl
@[simp] theorem Mach.setSlot_dropShare (c n : Nat) (x : Slot) : (m.setSlot c n x).dropShare = m.dropShare := rfl

@[simp] theorem Mach.onTime_time (f : TimeLine → TimeLine) : (m.onTime f).time = f m.time := rfl
@[simp] theorem Mach.onSafety_safety (f : Safety → Safety) : (m.onSafety f).safety = f m.safety := rfl
@[simp] theorem Mach.onObs_obs (f : Observe → Observe) : (m.onObs f).obs = f m.obs := rfl
@[simp] theorem Mach.onPort_port (f : Port → Port) : (m.onPort f).port = f m.port := rfl
@[simp] theorem Mach.onPins_pins (f : Pins → Pins) : (m.onPins f).pins = f m.pins := rfl
@[simp] theorem Mach.onFpl_fpl (f : Fpl → Fpl) : (m.onFpl f).fpl = f m.fpl := rfl
@[simp] theorem Mach.onSec_sec (f : Security → Security) : (m.onSec f).sec = f m.sec := rfl
@[simp] theorem Mach.onCal_cal (f : CalState → CalState) : (m.onCal f).cal = f m.cal := rfl
@[simp] theorem Mach.onPorts_ports (f : Ports → Ports) : (m.onPorts f).ports = f m.ports := rfl
@[simp] theorem Mach.onEgr_egr (f : Egress → Egress) : (m.onEgr f).egr = f m.egr := rfl

/-! setLatches changes latches alone. -/

@[simp] theorem Mach.setLatches_variant (c : Nat) (x : Latches) : (m.setLatches c x).variant = m.variant := rfl
@[simp] theorem Mach.setLatches_freeCtr (c : Nat) (x : Latches) : (m.setLatches c x).freeCtr = m.freeCtr := rfl
@[simp] theorem Mach.setLatches_regs (c : Nat) (x : Latches) : (m.setLatches c x).regs = m.regs := rfl
@[simp] theorem Mach.setLatches_mem (c : Nat) (x : Latches) : (m.setLatches c x).mem = m.mem := rfl
@[simp] theorem Mach.setLatches_time (c : Nat) (x : Latches) : (m.setLatches c x).time = m.time := rfl
@[simp] theorem Mach.setLatches_islands (c : Nat) (x : Latches) : (m.setLatches c x).islands = m.islands := rfl
@[simp] theorem Mach.setLatches_sluices (c : Nat) (x : Latches) : (m.setLatches c x).sluices = m.sluices := rfl
@[simp] theorem Mach.setLatches_stageCfg (c : Nat) (x : Latches) : (m.setLatches c x).stageCfg = m.stageCfg := rfl
@[simp] theorem Mach.setLatches_stageQ (c : Nat) (x : Latches) : (m.setLatches c x).stageQ = m.stageQ := rfl
@[simp] theorem Mach.setLatches_resultQ (c : Nat) (x : Latches) : (m.setLatches c x).resultQ = m.resultQ := rfl
@[simp] theorem Mach.setLatches_injectQ (c : Nat) (x : Latches) : (m.setLatches c x).injectQ = m.injectQ := rfl
@[simp] theorem Mach.setLatches_cq (c : Nat) (x : Latches) : (m.setLatches c x).cq = m.cq := rfl
@[simp] theorem Mach.setLatches_lastQ (c : Nat) (x : Latches) : (m.setLatches c x).lastQ = m.lastQ := rfl
@[simp] theorem Mach.setLatches_core (c : Nat) (x : Latches) : (m.setLatches c x).core = m.core := rfl
@[simp] theorem Mach.setLatches_safety (c : Nat) (x : Latches) : (m.setLatches c x).safety = m.safety := rfl
@[simp] theorem Mach.setLatches_obs (c : Nat) (x : Latches) : (m.setLatches c x).obs = m.obs := rfl
@[simp] theorem Mach.setLatches_port (c : Nat) (x : Latches) : (m.setLatches c x).port = m.port := rfl
@[simp] theorem Mach.setLatches_pins (c : Nat) (x : Latches) : (m.setLatches c x).pins = m.pins := rfl
@[simp] theorem Mach.setLatches_fpl (c : Nat) (x : Latches) : (m.setLatches c x).fpl = m.fpl := rfl
@[simp] theorem Mach.setLatches_sh (c : Nat) (x : Latches) : (m.setLatches c x).sh = m.sh := rfl
@[simp] theorem Mach.setLatches_sec (c : Nat) (x : Latches) : (m.setLatches c x).sec = m.sec := rfl
@[simp] theorem Mach.setLatches_ports (c : Nat) (x : Latches) : (m.setLatches c x).ports = m.ports := rfl
@[simp] theorem Mach.setLatches_streams (c : Nat) (x : Latches) : (m.setLatches c x).streams = m.streams := rfl
@[simp] theorem Mach.setLatches_groups (c : Nat) (x : Latches) : (m.setLatches c x).groups = m.groups := rfl
@[simp] theorem Mach.setLatches_cal (c : Nat) (x : Latches) : (m.setLatches c x).cal = m.cal := rfl
@[simp] theorem Mach.setLatches_egr (c : Nat) (x : Latches) : (m.setLatches c x).egr = m.egr := rfl
@[simp] theorem Mach.setLatches_slots (c : Nat) (x : Latches) : (m.setLatches c x).slots = m.slots := rfl
@[simp] theorem Mach.setLatches_latches (c : Nat) (x : Latches) : (m.setLatches c x).latches = sput (fun _ => {}) c x m.latches := rfl
@[simp] theorem Mach.setLatches_contexts (c : Nat) (x : Latches) : (m.setLatches c x).contexts = m.contexts := rfl
@[simp] theorem Mach.setLatches_dropShare (c : Nat) (x : Latches) : (m.setLatches c x).dropShare = m.dropShare := rfl

/-! setContext changes contexts alone. -/

@[simp] theorem Mach.setContext_variant (n : Nat) (x : VContext) : (m.setContext n x).variant = m.variant := rfl
@[simp] theorem Mach.setContext_freeCtr (n : Nat) (x : VContext) : (m.setContext n x).freeCtr = m.freeCtr := rfl
@[simp] theorem Mach.setContext_regs (n : Nat) (x : VContext) : (m.setContext n x).regs = m.regs := rfl
@[simp] theorem Mach.setContext_mem (n : Nat) (x : VContext) : (m.setContext n x).mem = m.mem := rfl
@[simp] theorem Mach.setContext_time (n : Nat) (x : VContext) : (m.setContext n x).time = m.time := rfl
@[simp] theorem Mach.setContext_islands (n : Nat) (x : VContext) : (m.setContext n x).islands = m.islands := rfl
@[simp] theorem Mach.setContext_sluices (n : Nat) (x : VContext) : (m.setContext n x).sluices = m.sluices := rfl
@[simp] theorem Mach.setContext_stageCfg (n : Nat) (x : VContext) : (m.setContext n x).stageCfg = m.stageCfg := rfl
@[simp] theorem Mach.setContext_stageQ (n : Nat) (x : VContext) : (m.setContext n x).stageQ = m.stageQ := rfl
@[simp] theorem Mach.setContext_resultQ (n : Nat) (x : VContext) : (m.setContext n x).resultQ = m.resultQ := rfl
@[simp] theorem Mach.setContext_injectQ (n : Nat) (x : VContext) : (m.setContext n x).injectQ = m.injectQ := rfl
@[simp] theorem Mach.setContext_cq (n : Nat) (x : VContext) : (m.setContext n x).cq = m.cq := rfl
@[simp] theorem Mach.setContext_lastQ (n : Nat) (x : VContext) : (m.setContext n x).lastQ = m.lastQ := rfl
@[simp] theorem Mach.setContext_core (n : Nat) (x : VContext) : (m.setContext n x).core = m.core := rfl
@[simp] theorem Mach.setContext_safety (n : Nat) (x : VContext) : (m.setContext n x).safety = m.safety := rfl
@[simp] theorem Mach.setContext_obs (n : Nat) (x : VContext) : (m.setContext n x).obs = m.obs := rfl
@[simp] theorem Mach.setContext_port (n : Nat) (x : VContext) : (m.setContext n x).port = m.port := rfl
@[simp] theorem Mach.setContext_pins (n : Nat) (x : VContext) : (m.setContext n x).pins = m.pins := rfl
@[simp] theorem Mach.setContext_fpl (n : Nat) (x : VContext) : (m.setContext n x).fpl = m.fpl := rfl
@[simp] theorem Mach.setContext_sh (n : Nat) (x : VContext) : (m.setContext n x).sh = m.sh := rfl
@[simp] theorem Mach.setContext_sec (n : Nat) (x : VContext) : (m.setContext n x).sec = m.sec := rfl
@[simp] theorem Mach.setContext_ports (n : Nat) (x : VContext) : (m.setContext n x).ports = m.ports := rfl
@[simp] theorem Mach.setContext_streams (n : Nat) (x : VContext) : (m.setContext n x).streams = m.streams := rfl
@[simp] theorem Mach.setContext_groups (n : Nat) (x : VContext) : (m.setContext n x).groups = m.groups := rfl
@[simp] theorem Mach.setContext_cal (n : Nat) (x : VContext) : (m.setContext n x).cal = m.cal := rfl
@[simp] theorem Mach.setContext_egr (n : Nat) (x : VContext) : (m.setContext n x).egr = m.egr := rfl
@[simp] theorem Mach.setContext_slots (n : Nat) (x : VContext) : (m.setContext n x).slots = m.slots := rfl
@[simp] theorem Mach.setContext_latches (n : Nat) (x : VContext) : (m.setContext n x).latches = m.latches := rfl
@[simp] theorem Mach.setContext_contexts (n : Nat) (x : VContext) : (m.setContext n x).contexts = sput (fun _ => {}) n x m.contexts := rfl
@[simp] theorem Mach.setContext_dropShare (n : Nat) (x : VContext) : (m.setContext n x).dropShare = m.dropShare := rfl

/-! A register reads through every update but setReg, a byte through every update but those of memory. -/

@[simp] theorem Mach.setReg_byte (a : Nat) (v : Word) (a' : Nat) : (m.setReg a v).byte a' = m.byte a' := rfl
@[simp] theorem Mach.setByte_reg (a : Nat) (b : Byte) (a' : Nat) : (m.setByte a b).reg a' = m.reg a' := rfl
@[simp] theorem Mach.wipe_reg (a n : Nat) (a' : Nat) : (m.wipe a n).reg a' = m.reg a' := rfl
@[simp] theorem Mach.onTime_reg (f : TimeLine → TimeLine) (a' : Nat) : (m.onTime f).reg a' = m.reg a' := rfl
@[simp] theorem Mach.onTime_byte (f : TimeLine → TimeLine) (a' : Nat) : (m.onTime f).byte a' = m.byte a' := rfl
@[simp] theorem Mach.onSafety_reg (f : Safety → Safety) (a' : Nat) : (m.onSafety f).reg a' = m.reg a' := rfl
@[simp] theorem Mach.onSafety_byte (f : Safety → Safety) (a' : Nat) : (m.onSafety f).byte a' = m.byte a' := rfl
@[simp] theorem Mach.onObs_reg (f : Observe → Observe) (a' : Nat) : (m.onObs f).reg a' = m.reg a' := rfl
@[simp] theorem Mach.onObs_byte (f : Observe → Observe) (a' : Nat) : (m.onObs f).byte a' = m.byte a' := rfl
@[simp] theorem Mach.onPort_reg (f : Port → Port) (a' : Nat) : (m.onPort f).reg a' = m.reg a' := rfl
@[simp] theorem Mach.onPort_byte (f : Port → Port) (a' : Nat) : (m.onPort f).byte a' = m.byte a' := rfl
@[simp] theorem Mach.onPins_reg (f : Pins → Pins) (a' : Nat) : (m.onPins f).reg a' = m.reg a' := rfl
@[simp] theorem Mach.onPins_byte (f : Pins → Pins) (a' : Nat) : (m.onPins f).byte a' = m.byte a' := rfl
@[simp] theorem Mach.onFpl_reg (f : Fpl → Fpl) (a' : Nat) : (m.onFpl f).reg a' = m.reg a' := rfl
@[simp] theorem Mach.onFpl_byte (f : Fpl → Fpl) (a' : Nat) : (m.onFpl f).byte a' = m.byte a' := rfl
@[simp] theorem Mach.onSec_reg (f : Security → Security) (a' : Nat) : (m.onSec f).reg a' = m.reg a' := rfl
@[simp] theorem Mach.onSec_byte (f : Security → Security) (a' : Nat) : (m.onSec f).byte a' = m.byte a' := rfl
@[simp] theorem Mach.onCal_reg (f : CalState → CalState) (a' : Nat) : (m.onCal f).reg a' = m.reg a' := rfl
@[simp] theorem Mach.onCal_byte (f : CalState → CalState) (a' : Nat) : (m.onCal f).byte a' = m.byte a' := rfl
@[simp] theorem Mach.onPorts_reg (f : Ports → Ports) (a' : Nat) : (m.onPorts f).reg a' = m.reg a' := rfl
@[simp] theorem Mach.onPorts_byte (f : Ports → Ports) (a' : Nat) : (m.onPorts f).byte a' = m.byte a' := rfl
@[simp] theorem Mach.onEgr_reg (f : Egress → Egress) (a' : Nat) : (m.onEgr f).reg a' = m.reg a' := rfl
@[simp] theorem Mach.onEgr_byte (f : Egress → Egress) (a' : Nat) : (m.onEgr f).byte a' = m.byte a' := rfl
@[simp] theorem Mach.setIsland_reg (i : Nat) (x : Island) (a' : Nat) : (m.setIsland i x).reg a' = m.reg a' := rfl
@[simp] theorem Mach.setIsland_byte (i : Nat) (x : Island) (a' : Nat) : (m.setIsland i x).byte a' = m.byte a' := rfl
@[simp] theorem Mach.setSluice_reg (k : Nat) (x : Sluice) (a' : Nat) : (m.setSluice k x).reg a' = m.reg a' := rfl
@[simp] theorem Mach.setSluice_byte (k : Nat) (x : Sluice) (a' : Nat) : (m.setSluice k x).byte a' = m.byte a' := rfl
@[simp] theorem Mach.setStage_reg (n : Nat) (q : Tbq) (a' : Nat) : (m.setStage n q).reg a' = m.reg a' := rfl
@[simp] theorem Mach.setStage_byte (n : Nat) (q : Tbq) (a' : Nat) : (m.setStage n q).byte a' = m.byte a' := rfl
@[simp] theorem Mach.setCmdq_reg (q : Nat) (x : CmdQ) (a' : Nat) : (m.setCmdq q x).reg a' = m.reg a' := rfl
@[simp] theorem Mach.setCmdq_byte (q : Nat) (x : CmdQ) (a' : Nat) : (m.setCmdq q x).byte a' = m.byte a' := rfl
@[simp] theorem Mach.setCc_reg (c : Nat) (x : Core) (a' : Nat) : (m.setCc c x).reg a' = m.reg a' := rfl
@[simp] theorem Mach.setCc_byte (c : Nat) (x : Core) (a' : Nat) : (m.setCc c x).byte a' = m.byte a' := rfl
@[simp] theorem Mach.setGroup_reg (g : Nat) (x : Group) (a' : Nat) : (m.setGroup g x).reg a' = m.reg a' := rfl
@[simp] theorem Mach.setGroup_byte (g : Nat) (x : Group) (a' : Nat) : (m.setGroup g x).byte a' = m.byte a' := rfl
@[simp] theorem Mach.setStream_reg (s : Nat) (x : Stream) (a' : Nat) : (m.setStream s x).reg a' = m.reg a' := rfl
@[simp] theorem Mach.setStream_byte (s : Nat) (x : Stream) (a' : Nat) : (m.setStream s x).byte a' = m.byte a' := rfl
@[simp] theorem Mach.setSlot_reg (c n : Nat) (x : Slot) (a' : Nat) : (m.setSlot c n x).reg a' = m.reg a' := rfl
@[simp] theorem Mach.setSlot_byte (c n : Nat) (x : Slot) (a' : Nat) : (m.setSlot c n x).byte a' = m.byte a' := rfl
@[simp] theorem Mach.setLatches_reg (c : Nat) (x : Latches) (a' : Nat) : (m.setLatches c x).reg a' = m.reg a' := rfl
@[simp] theorem Mach.setLatches_byte (c : Nat) (x : Latches) (a' : Nat) : (m.setLatches c x).byte a' = m.byte a' := rfl
@[simp] theorem Mach.setContext_reg (n : Nat) (x : VContext) (a' : Nat) : (m.setContext n x).reg a' = m.reg a' := rfl
@[simp] theorem Mach.setContext_byte (n : Nat) (x : VContext) (a' : Nat) : (m.setContext n x).byte a' = m.byte a' := rfl

/-! The state: what a command changes is the module alone. -/

@[simp] theorem act_eq (s : State) (f : Mach → Mach) :
    act s f = .next { s with m := if s.m.live then f s.m else s.m } := rfl
@[simp] theorem atPins_eq (s : State) (f : Mach → Mach) : atPins s f = .next { s with m := f s.m } := rfl

end Sys2Proof.Machine
end

