-- ==== Sys2Proof/Laws/Memory.lean ====
section
/-! SUPPORT. Addressed memory: a read after a write, what a write leaves alone, and the canonical form that every memory
operation keeps. -/

namespace Sys2Proof.Machine

variable (m : Mach)

@[simp] theorem Mach.byte_setByte_same (a : Nat) (b : Byte) : (m.setByte a b).byte a = b := by
  simp [Mach.byte, Mach.setByte]

theorem Mach.byte_setByte_ne {a x : Nat} (h : x ≠ a) (b : Byte) : (m.setByte a b).byte x = m.byte x := by
  simp [Mach.byte, Mach.setByte, sget_sput_ne memZero h]

/-- A byte outside those written is as before. -/
theorem Mach.setBytes_byte_out (l : List Byte) (a x : Nat) (h : x < a ∨ a + l.length ≤ x) :
    (m.setBytes a l).byte x = m.byte x := by
  induction l generalizing m a with
  | nil => rfl
  | cons b bs ih =>
    have hx : x ≠ a := by simp only [List.length_cons] at h; omega
    rw [Mach.setBytes, ih (m.setByte a b) (a + 1) (by simp only [List.length_cons] at h; omega), m.byte_setByte_ne hx]

/-- A byte among those written is the one written. -/
theorem Mach.setBytes_byte_in (l : List Byte) (a i : Nat) (h : i < l.length) :
    (m.setBytes a l).byte (a + i) = l[i] := by
  induction l generalizing m a i with
  | nil => simp at h
  | cons b bs ih =>
    cases i with
    | zero => simp [Mach.setBytes, Mach.setBytes_byte_out]
    | succ i =>
      have := ih (m.setByte a b) (a + 1) i (by simpa using h)
      simpa [Mach.setBytes, Nat.add_assoc, Nat.add_comm 1 i] using this

/-- Writing bytes changes memory alone. -/
@[simp] theorem Mach.setBytes_reg (l : List Byte) (a r : Nat) : (m.setBytes a l).reg r = m.reg r := by
  induction l generalizing m a with
  | nil => rfl
  | cons b bs ih => rw [Mach.setBytes, ih]; rfl

theorem Mach.setByte_wf (a : Nat) (b : Byte) (h : Memory.wf m.mem) : Memory.wf (m.setByte a b).mem := sput_wf memZero a b h

theorem Mach.setBytes_wf (l : List Byte) (a : Nat) (h : Memory.wf m.mem) : Memory.wf (m.setBytes a l).mem := by
  induction l generalizing m a with
  | nil => exact h
  | cons b bs ih => exact ih _ _ (m.setByte_wf a b h)

theorem Mach.setLe_wf (a n v : Nat) (h : Memory.wf m.mem) : Memory.wf (m.setLe a n v).mem := m.setBytes_wf _ a h

theorem Mach.setWord_wf (a : Nat) (v : Word) (h : Memory.wf m.mem) : Memory.wf (m.setWord a v).mem := m.setLe_wf a 4 _ h

theorem filter_wf {β : Type} (d : Nat → β) [DecidableEq β] (p : Nat × β → Bool) (t : Sparse β) {lo : Nat}
    (h : swf d lo t = true) : swf d lo (t.filter p) = true := by
  induction t generalizing lo with
  | nil => rfl
  | cons x t ih =>
    simp only [swf, Bool.and_eq_true, decide_eq_true_eq] at h
    by_cases hp : p x = true
    · simp only [List.filter_cons, hp, ↓reduceIte, swf, Bool.and_eq_true, decide_eq_true_eq]
      exact ⟨h.1, ih h.2⟩
    · simp only [List.filter_cons, hp, Bool.false_eq_true, ↓reduceIte]
      exact swf_mono d (by omega) (ih h.2)

theorem Mach.wipe_wf (a n : Nat) (h : Memory.wf m.mem) : Memory.wf (m.wipe a n).mem := filter_wf memZero _ _ h

/-- The memory after reset has the canonical form. -/
theorem reset_mem_wf : Memory.wf State.reset.m.mem := rfl

end Sys2Proof.Machine
end

