-- ==== Sys2Proof/Laws/Registers.lean ====
section
/-! SUPPORT. Registers (R16, R386) and what the shared register operations do, once each. -/

namespace Sys2Proof.Machine

variable (m : Mach)

/-- The register just written. -/
@[simp] theorem Mach.reg_setReg_same (a : Nat) (v : Word) : (m.setReg a v).reg a = v := by
  simp [Mach.reg, Mach.setReg]

/-- Another register. -/
theorem Mach.reg_setReg_ne {a b : Nat} (h : b ≠ a) (v : Word) : (m.setReg a v).reg b = m.reg b := by
  simp [Mach.reg, Mach.setReg, sget_sput_ne regReset h]

/-- Any register after a write. -/
theorem Mach.reg_setReg (a b : Nat) (v : Word) : (m.setReg a v).reg b = if b = a then v else m.reg b := by
  split
  · subst_vars; simp
  · exact m.reg_setReg_ne ‹_› v

theorem Mach.setFld_reg (a lo n v b : Nat) :
    (m.setFld a lo n v).reg b = if b = a then (m.reg a).setField lo n v else m.reg b := by
  simp [Mach.setFld, Mach.reg_setReg]

theorem Mach.setRBit_reg (a n b : Nat) (on : Bool) :
    (m.setRBit a n on).reg b = if b = a then (m.reg a).setBit n on else m.reg b := by
  simp [Mach.setRBit, Mach.reg_setReg]

theorem Mach.addReg_reg (a n b : Nat) :
    (m.addReg a n).reg b = if b = a then m.reg a + BitVec.ofNat 32 n else m.reg b := by
  simp [Mach.addReg, Mach.reg_setReg]

theorem Mach.incReg_reg (a b : Nat) : (m.incReg a).reg b = if b = a then m.reg a + 1#32 else m.reg b := by
  simp [Mach.incReg, Mach.addReg_reg]

/-- An event register after events: seq moves and the bits set; every other register is as before. -/
theorem Mach.raise_reg (a bits b : Nat) :
    (m.raise a bits).reg b =
      if b = a then ((m.reg a).setField 16 16 ((m.reg a).field 16 16 + 1)) ||| BitVec.ofNat 32 (bits % 2 ^ 16) else m.reg b := by
  simp [Mach.raise, Mach.reg_setReg]

/-- A write-back clears what it names when its number is seq, and nothing otherwise. -/
theorem Mach.writeBack_reg (a b : Nat) (v : Word) :
    (m.writeBack a v).reg b =
      if b = a ∧ v.field 16 16 = (m.reg a).field 16 16 then m.reg a &&& ~~~(v &&& 0xFFFF) else m.reg b := by
  unfold Mach.writeBack
  by_cases h : v.field 16 16 = (m.reg a).field 16 16 <;> by_cases hb : b = a <;> simp [h, hb, Mach.reg_setReg]

/-- A register write keeps the canonical form of the registers. -/
theorem Mach.setReg_regs_wf (a : Nat) (v : Word) (h : swf regReset 0 m.regs = true) :
    swf regReset 0 (m.setReg a v).regs = true := sput_wf regReset a v h

/-- A write that has reached its block: refused by its access code, refused by the block, or its effect. -/
theorem Mach.arriveWith_eq (a : Nat) (v : Word) (e : Effect) :
    m.arriveWith a v e = match m.writeCause a v with
      | some c => m.busError (c != 0x02) a c 0x60 0
      | none => if e.1 then m.refuse a else e.2 := rfl

end Sys2Proof.Machine
end

