-- ==== Sys2Proof/Laws/Trace.lean ====
section
/-! SUPPORT. What a trace record changes: registers of the DBG block, the Cellar's bytes and what observation holds,
and nothing else (R23: a tap never changes what it observes). -/

namespace Sys2Proof.Machine

/-- t differs from m in no more than a trace record can change. -/
structure Mach.TraceFrame (m t : Mach) : Prop where
  rest : { t with regs := m.regs, mem := m.mem, obs := m.obs } = m
  reg : ∀ a, a < 0x70000 ∨ 0x80000 ≤ a → t.reg a = m.reg a
  wf : Memory.wf m.mem → Memory.wf t.mem

theorem Mach.TraceFrame.same (m : Mach) : m.TraceFrame m := ⟨rfl, fun _ _ => rfl, id⟩

theorem Mach.TraceFrame.trans {m t u : Mach} (h : m.TraceFrame t) (k : t.TraceFrame u) : m.TraceFrame u :=
  ⟨(congrArg (fun x : Mach => { x with regs := m.regs, mem := m.mem, obs := m.obs }) k.rest).trans h.rest,
    fun a ha => (k.reg a ha).trans (h.reg a ha), fun w => k.wf (h.wf w)⟩

/-! Each update that a trace record is made of, after what came before it. -/

theorem Mach.setBytes_eq (m : Mach) (l : List Byte) (a : Nat) : m.setBytes a l = { m with mem := (m.setBytes a l).mem } := by
  induction l generalizing m a with
  | nil => rfl
  | cons b bs ih => exact ih (m.setByte a b) (a + 1)

section
variable {m t : Mach} (h : m.TraceFrame t)
include h

theorem Mach.TraceFrame.setReg (a : Nat) (v : Word) (ha : 0x70000 ≤ a ∧ a < 0x80000) : m.TraceFrame (t.setReg a v) :=
  h.trans ⟨rfl, fun b hb => t.reg_setReg_ne (by omega) v, id⟩

theorem Mach.TraceFrame.onObs (f : Observe → Observe) : m.TraceFrame (t.onObs f) := h.trans ⟨rfl, fun _ _ => rfl, id⟩

theorem Mach.TraceFrame.setBytes (a : Nat) (l : List Byte) : m.TraceFrame (t.setBytes a l) :=
  h.trans ⟨by rw [t.setBytes_eq], fun _ _ => by simp, t.setBytes_wf l a⟩

theorem Mach.TraceFrame.raise (a bits : Nat) (ha : 0x70000 ≤ a ∧ a < 0x80000) : m.TraceFrame (t.raise a bits) :=
  h.setReg a _ ha

theorem Mach.TraceFrame.bump (i n : Nat) : m.TraceFrame (t.bump i n) := by
  unfold Mach.bump
  split
  · exact h
  · exact h.onObs _

theorem Mach.TraceFrame.cellarWrap : m.TraceFrame t.cellarWrap :=
  ((h.setReg _ _ (by decide)).setReg _ _ (by decide)).raise _ _ (by decide)

theorem Mach.TraceFrame.cellarStop : m.TraceFrame t.cellarStop := (h.setReg _ _ (by decide)).raise _ _ (by decide)

theorem Mach.TraceFrame.cellarWrite (rec : List Byte) : m.TraceFrame (t.cellarWrite rec) := by
  unfold Mach.cellarWrite
  dsimp only
  split
  · exact (h.setBytes _ _).setReg _ _ (by decide)
  · split
    · exact ((h.setBytes _ _).setReg _ _ (by decide)).cellarStop
    · exact (h.setBytes _ _).cellarWrap

theorem Mach.TraceFrame.loseRecords (watch : Bool) (n : Nat) : m.TraceFrame (t.loseRecords watch n) :=
  ((h.onObs _).setReg _ _ (by cases watch <;> decide)).bump _ _

theorem Mach.TraceFrame.makeRecord (source kind flags : Nat) (w : Word) (payload : List Byte) :
    m.TraceFrame (t.makeRecord source kind flags w payload).2 :=
  h.trans ⟨rfl, fun _ _ => rfl, id⟩

theorem Mach.TraceFrame.foldl (l : List (List Byte)) : m.TraceFrame (l.foldl Mach.cellarWrite t) := by
  induction l generalizing t with
  | nil => exact h
  | cons r l ih => exact ih (h.cellarWrite r)

theorem Mach.TraceFrame.offer (watch : Bool) (recs : List (List Byte)) : m.TraceFrame (t.offer watch recs) := by
  unfold Mach.offer
  have h := h.onObs fun o => { o with
    bucket := min 65536000 (o.bucket + (t.time.count - t.obs.bucketAt).toNat * (t.fld Reg.DBG_OBS_CAP 0 5 * 2048)),
    bucketAt := t.time.count }
  change m.TraceFrame t.refill at h
  extract_lets u n k need w x
  split
  · exact h.loseRecords _ _
  · split
    · exact (h.loseRecords _ _).raise _ _ (by decide)
    split
    · exact h.cellarStop.loseRecords _ _
    · refine Mach.TraceFrame.foldl ?_ _
      have hw : m.TraceFrame w := h.onObs _
      unfold x
      split
      · exact hw
      · exact ((hw.makeRecord 0xFF 0x3F 0 w.now (leBytes 4 w.obs.lost.toNat ++ leBytes 4 w.obs.lostAt.toNat)).onObs _).cellarWrite _

end

/-- Everything a trace record can do. -/
theorem Mach.traceFrame_trace (m : Mach) (source kind flags : Nat) (payload : List Byte) :
    m.TraceFrame (m.trace source kind flags payload) :=
  ((Mach.TraceFrame.same m).makeRecord source kind flags m.now payload).offer false _

/-- One field that no trace record changes. -/
theorem Mach.TraceFrame.core {m t : Mach} (h : m.TraceFrame t) : t.core = m.core := (congrArg Mach.core h.rest :)
theorem Mach.TraceFrame.time {m t : Mach} (h : m.TraceFrame t) : t.time = m.time := (congrArg Mach.time h.rest :)
theorem Mach.TraceFrame.cq {m t : Mach} (h : m.TraceFrame t) : t.cq = m.cq := (congrArg Mach.cq h.rest :)
theorem Mach.TraceFrame.pins {m t : Mach} (h : m.TraceFrame t) : t.pins = m.pins := (congrArg Mach.pins h.rest :)
theorem Mach.TraceFrame.safety {m t : Mach} (h : m.TraceFrame t) : t.safety = m.safety := (congrArg Mach.safety h.rest :)

end Sys2Proof.Machine
end

