-- ==== Sys2Proof/Laws/Control.lean ====
section
/-! SUPPORT. Control cores: what issuing, stopping and going on do, once each (R308 to R313, R352). -/

namespace Sys2Proof.Machine

variable (m : Mach)

/-! ## One control core changed -/

@[simp] theorem Mach.cc_setCc_same (c : Nat) (x : Core) : (m.setCc c x).cc c = x := by simp [Mach.cc, Mach.setCc]
theorem Mach.cc_of_core {m t : Mach} (h : t.core = m.core) (c : Nat) : t.cc c = m.cc c := by rw [Mach.cc, h]; rfl
theorem Mach.cc_setCc (c d : Nat) (x : Core) : (m.setCc c x).cc d = if d = c then x else m.cc d := by
  split
  · subst_vars; simp
  · simp [Mach.cc, Mach.setCc, sget_sput_ne _ ‹_›]
theorem Mach.cc_onCc (c d : Nat) (f : Core → Core) : (m.onCc c f).cc d = if d = c then f (m.cc c) else m.cc d :=
  m.cc_setCc c d _
@[simp] theorem Mach.cc_onCc_same (c : Nat) (f : Core → Core) : (m.onCc c f).cc c = f (m.cc c) := m.cc_setCc_same c _
@[simp] theorem Mach.setReg_cc (a : Nat) (v : Word) (c : Nat) : (m.setReg a v).cc c = m.cc c := rfl
@[simp] theorem Mach.raise_cc (a b c : Nat) : (m.raise a b).cc c = m.cc c := rfl
@[simp] theorem Mach.setBytes_cc (a : Nat) (l : List Byte) (c : Nat) : (m.setBytes a l).cc c = m.cc c := by
  rw [m.setBytes_eq]; rfl
theorem Mach.setBytes_core (a : Nat) (l : List Byte) : (m.setBytes a l).core = m.core := by rw [m.setBytes_eq]
theorem Mach.greg_eq (c n : Nat) : m.greg c n = if n = 0 then 0 else sget (fun _ => 0) (m.cc c).regs n := rfl
theorem Mach.greg_congr {m t : Mach} {c : Nat} (h : (t.cc c).regs = (m.cc c).regs) (r : Nat) : t.greg c r = m.greg c r := by
  simp [Mach.greg, h]

/-- A register written; g0 discards it. -/
theorem Mach.greg_setGreg (c n r : Nat) (v : Word) :
    (m.setGreg c n v).greg c r = if r = n ∧ r ≠ 0 then v else m.greg c r := by
  unfold Mach.setGreg Mach.greg
  by_cases h : n = 0
  · subst h; by_cases hr : r = 0 <;> simp [hr]
  · by_cases hr : r = 0
    · simp [hr]
    · by_cases he : r = n
      · subst he; simp [h]
      · simp only [h, hr, he, if_false, false_and, Mach.cc_onCc_same]
        exact sget_sput_ne _ he _ _

/-- A register write leaves everything of the core but its registers, and everything but the cores. -/
theorem Mach.setGreg_eq (c n : Nat) (v : Word) : ∃ r, (m.setGreg c n v).cc c = { m.cc c with regs := r } ∧
    (∀ d, d ≠ c → (m.setGreg c n v).cc d = m.cc d) ∧ { m.setGreg c n v with core := m.core } = m := by
  unfold Mach.setGreg
  split
  · exact ⟨_, rfl, fun _ _ => rfl, rfl⟩
  · exact ⟨_, m.cc_onCc_same c _, fun d hd => by simp [Mach.cc_onCc, hd], rfl⟩

/-! ## Issue (R352) -/

/-- What the checker changes is its own. -/
theorem sigIssue_eq {x y : Core} {w : Word} (h : sigIssue x w = some y) :
    ∃ a b c d e, y = { x with sigOpen := a, sigCrc := b, sigWant := c, sigNeed := d, sigCount := e } := by
  unfold sigIssue at h
  split at h
  · split at h
    · cases h
    · exact ⟨_, _, _, _, _, (Option.some.inj h).symm⟩
  · split at h
    · cases h
    · simp only at h
      split at h
      · split at h
        · cases h
        · exact ⟨_, _, _, _, _, (Option.some.inj h).symm⟩
      · exact ⟨_, _, _, _, _, (Option.some.inj h).symm⟩

/-- The core with which an instruction's effect starts: as it stands, but for its checker and its trace count. -/
structure Core.Issued (x y : Core) : Prop where
  regs : y.regs = x.regs
  pc : y.pc = x.pc
  state : y.state = x.state
  stepping : y.stepping = x.stepping
  code : y.code = x.code

/-- An instruction that is issued has its effect, on the core as the checker leaves it; then a step ends. -/
theorem Mach.ccIssue_eq {c : Nat} {w : Word} (h : m.issues c w) (body : Mach → Mach) :
    ∃ x, (m.cc c).Issued x ∧ x.state = .running ∧ x.stepping = false ∧ m.ccIssue c w body = (body (m.setCc c x)).stepEnd c := by
  obtain ⟨hr, hs, hp⟩ := h
  obtain ⟨y, hy⟩ := Option.isSome_iff_exists.mp hs
  have hrun : (m.cc c).state = .running := by
    simp only [Mach.ccReady, Bool.and_eq_true, beq_iff_eq] at hr; exact hr.1.1.1
  obtain ⟨a, b, d, e, f, rfl⟩ := sigIssue_eq hy
  exact ⟨{ m.cc c with sigOpen := a, sigCrc := b, sigWant := d, sigNeed := e, sigCount := f, sinceTrace := (m.cc c).sinceTrace + 1 },
    ⟨rfl, rfl, rfl, rfl, rfl⟩, hrun, hp, by simp only [Mach.ccIssue, hr, if_true, hy]⟩

/-- No step is in progress. -/
theorem Mach.stepEnd_eq {c : Nat} (h : (m.cc c).stepping = false) : m.stepEnd c = m := by simp [Mach.stepEnd, h]

/-! ## Going on and stopping -/

/-- rd takes a value and the core goes on. -/
theorem Mach.ccSet_went (c rd : Nat) (v : Word) (h : (m.cc c).state = .running) :
    m.ccWent (m.ccSet c rd v) c rd v ((m.cc c).pc + 4) ∧ ((m.ccSet c rd v).cc c).stepping = (m.cc c).stepping ∧
      { m.ccSet c rd v with core := m.core } = m := by
  obtain ⟨r, h1, h2, h3⟩ := m.setGreg_eq c rd v
  have hg := m.greg_setGreg c rd (v := v)
  unfold Mach.ccSet Mach.advance
  refine ⟨⟨fun n => ?_, by simp [h1], by simp [h1, h], fun d hd => ?_⟩, by simp [h1], h3⟩
  · rw [← hg]; exact Mach.greg_congr (by simp) n
  · rw [Mach.cc_onCc, if_neg hd, h2 d hd]

/-- A record of a control core. -/
theorem Mach.traceCc_frame (c b kind : Nat) (dbg : Bool) (payload : List Byte) :
    (∀ d, ∃ n, (m.traceCc c b kind dbg payload).cc d = { m.cc d with sinceTrace := n }) ∧
      (∀ d, d ≠ c → (m.traceCc c b kind dbg payload).cc d = m.cc d) ∧
      (∀ r, r < 0x70000 ∨ 0x80000 ≤ r → (m.traceCc c b kind dbg payload).reg r = m.reg r) ∧
      { m.traceCc c b kind dbg payload with core := m.core, regs := m.regs, mem := m.mem, obs := m.obs } = m ∧
      (Memory.wf m.mem → Memory.wf (m.traceCc c b kind dbg payload).mem) := by
  unfold Mach.traceCc
  split
  · have h := m.traceFrame_trace c kind 0 (leBytes 4 (m.cc c).pc.toNat ++ payload)
    refine ⟨fun d => ?_, fun d hd => ?_, h.reg, congrArg (fun x : Mach => { x with core := m.core }) h.rest, h.wf⟩
    · by_cases hd : d = c
      · subst hd; exact ⟨0, by rw [Mach.cc_onCc_same, Mach.cc_of_core h.core]⟩
      · exact ⟨(m.cc d).sinceTrace, by rw [Mach.cc_onCc, if_neg hd, Mach.cc_of_core h.core]⟩
    · rw [Mach.cc_onCc, if_neg hd, Mach.cc_of_core h.core]
  · exact ⟨fun d => ⟨_, rfl⟩, fun _ _ => rfl, fun _ _ => rfl, rfl, id⟩

/-- An event bit that has just been raised stands (R386). -/
theorem Mach.raise_bit (a bits n : Nat) (hn : n < 16) (hb : bits.testBit n = true) : (m.raise a bits).rbit a n = true := by
  rw [Mach.rbit, Word.bit, Mach.raise_reg, if_pos rfl, BitVec.getLsbD_or, BitVec.getLsbD_ofNat, Nat.testBit_mod_two_pow]
  have h2 : n < 32 := by omega
  simp [h2, hn, hb]

/-- A core that stops halts with its code. -/
theorem Mach.ccStop_halts (c : Nat) (code : BitVec 16) : m.ccHalts (m.ccStop c code) c code := by
  unfold Mach.ccStop
  simp only
  have h := ((m.onCc c fun x => { x with state := .halted, code := code, stepping := false }).raise
    (Reg.CLU_EVENT (ccCluster c)) 0x1).traceCc_frame c 3 0x05 false (leBytes 2 code.toNat)
  obtain ⟨h1, h2, h3, h4, h5⟩ := h
  obtain ⟨n, hn⟩ := h1 c
  rw [Mach.raise_cc, Mach.cc_onCc, if_pos rfl] at hn
  refine ⟨fun r => Mach.greg_congr (by rw [hn]) r, by rw [hn], by rw [hn], by rw [hn], fun d hd => ?_, ?_⟩
  · rw [h2 d hd, Mach.raise_cc, Mach.cc_onCc, if_neg hd]
  · have h6 := (m.onCc c fun x => { x with state := .halted, code := code, stepping := false }).raise_bit
      (Reg.CLU_EVENT (ccCluster c)) 0x1 0 (by decide) (by decide)
    rw [Mach.rbit] at h6 ⊢
    rw [h3 _ (by right; simp only [Reg.CLU_EVENT]; omega)]
    exact h6

theorem Mach.ccStop_stepping (c : Nat) (code : BitVec 16) : ((m.ccStop c code).cc c).stepping = false := by
  unfold Mach.ccStop
  simp only
  have h := ((m.onCc c fun x => { x with state := .halted, code := code, stepping := false }).raise
    (Reg.CLU_EVENT (ccCluster c)) 0x1).traceCc_frame c 3 0x05 false (leBytes 2 code.toNat)
  obtain ⟨n, hn⟩ := h.1 c
  rw [Mach.raise_cc, Mach.cc_onCc, if_pos rfl] at hn
  rw [hn]

end Sys2Proof.Machine
end

