-- ==== Sys2Proof/Laws/Shared.lean ====
section
/-! SUPPORT. What the operations that many commands share can do, once each: taking a command, holds and OUT_VALID
(R348, R357), bus errors (R382), the start stage (R292, R293) and twin-basin queues (R101 to R107). -/

namespace Sys2Proof.Machine

variable (m : Mach)

/-! ## Taking a command (R441) -/

theorem act_live {s : State} (h : s.m.live = true) (f : Mach → Mach) : act s f = .next { s with m := f s.m } := by
  simp [act, h]

theorem act_dead {s : State} (h : s.m.live = false) (f : Mach → Mach) : act s f = .next s := by simp [act, h]

/-- A command leaves the rest of the queue as it was. -/
theorem act_pending {s t : State} {f : Mach → Mach} (h : act s f = .next t) : t.pending = s.pending := by
  simp only [act, Host.Outcome.next.injEq] at h
  subst h; rfl

/-! ## One bit of a register -/

theorem Word.setBit_bit (w : Word) (n k : Nat) (hk : k < 32) (on : Bool) :
    (w.setBit n on).bit k = if k = n then on else w.bit k := by
  have hm : (BitVec.ofNat 32 ((2 ^ 1 - 1) * 2 ^ n)).getLsbD k = decide (n = k) := by
    rw [BitVec.getLsbD_ofNat, Nat.pow_one, Nat.one_mul, Nat.testBit_two_pow]
    simp [hk]
  have ho : (BitVec.ofNat 32 (on.toNat % 2 ^ 1 * 2 ^ n)).getLsbD k = (on && decide (n = k)) := by
    cases on
    · simp
    · rw [BitVec.getLsbD_ofNat, show true.toNat % 2 ^ 1 * 2 ^ n = 2 ^ n by simp, Nat.testBit_two_pow]
      simp [hk]
  rw [Word.bit, Word.bit, Word.setBit, Word.setField]
  simp only [BitVec.getLsbD_or, BitVec.getLsbD_and, BitVec.getLsbD_not, hm, ho]
  by_cases h : k = n
  · subst h; simp
  · simp [h, Ne.symm h, hk]

theorem Word.bit_setBit_same (w : Word) {n : Nat} (hn : n < 32) (on : Bool) : (w.setBit n on).bit n = on := by
  rw [Word.setBit_bit w n n hn, if_pos rfl]

theorem Word.bit_setBit_ne (w : Word) {n k : Nat} (h : k ≠ n) (on : Bool) : (w.setBit n on).bit k = w.bit k := by
  by_cases hk : k < 32
  · rw [Word.setBit_bit w n k hk, if_neg h]
  · rw [Word.bit, Word.bit, BitVec.getLsbD_of_ge _ _ (by omega), BitVec.getLsbD_of_ge _ _ (by omega)]

/-! ## Holds and OUT_VALID (R348, R357) -/

/-- t differs from m in nothing but registers of the SAFE block, the supervisor and what the counters hold. -/
def Mach.safeOnly (m t : Mach) : Prop := { t with regs := m.regs, safety := m.safety, obs := m.obs } = m

theorem Mach.bump_eq (i n : Nat) : (m.bump i n).obs = (m.bump i n).obs ∧ { m.bump i n with obs := m.obs } = m := by
  unfold Mach.bump; split <;> exact ⟨rfl, rfl⟩

theorem Mach.bump_regs (i n : Nat) : (m.bump i n).regs = m.regs := by unfold Mach.bump; split <;> rfl
theorem Mach.bump_safety (i n : Nat) : (m.bump i n).safety = m.safety := by unfold Mach.bump; split <;> rfl
theorem Mach.bump_reg (i n a : Nat) : (m.bump i n).reg a = m.reg a := by rw [Mach.reg, m.bump_regs]; rfl

/-- After OUT_VALID has fallen it is low, SAFE_STATUS bit 1 has followed it, and no other register has moved. -/
theorem Mach.outFall_frame :
    m.outFall.safety.outValid = false ∧ (∀ a, a ≠ Reg.SAFE_STATUS → m.outFall.reg a = m.reg a) ∧ m.safeOnly m.outFall ∧
      (m.safety.outValid = true → m.outFall.rbit Reg.SAFE_STATUS 1 = false) := by
  unfold Mach.outFall
  split
  · rename_i h
    refine ⟨by rw [Mach.bump_safety]; rfl, fun a ha => ?_, ?_, fun _ => ?_⟩
    · rw [Mach.bump_reg, Mach.setRBit_reg, if_neg ha]; rfl
    · rw [Mach.safeOnly]
      exact congrArg (fun x : Mach => { x with regs := m.regs, safety := m.safety }) (Mach.bump_eq _ 427 1).2
    · rw [Mach.rbit, Mach.bump_reg, Mach.setRBit_reg, if_pos rfl]
      exact Word.bit_setBit_same _ (by omega) false
  · rename_i h
    exact ⟨by simpa using h, fun _ _ => rfl, rfl, fun k => absurd k h⟩

/-- The registers that the start or end of a hold can change. -/
def holdRegs : List Nat := [Reg.SAFE_STATUS, Reg.SAFE_HOLD, Reg.SAFE_EVENT, Reg.SAFE_MAX_OUT]

/-- After a hold has begun it is in effect, OUT_VALID is low, every other hold is as before, and nothing outside the SAFE
block, the supervisor and the counters has changed. -/
theorem Mach.beginHold_frame (n : Nat) (hn : n < 32) :
    (m.beginHold n).hold n = true ∧ (m.beginHold n).safety.outValid = false ∧
      (∀ k, k ≠ n → (m.beginHold n).hold k = m.hold k) ∧
      (∀ a, a ∉ holdRegs → (m.beginHold n).reg a = m.reg a) ∧ m.safeOnly (m.beginHold n) := by
  obtain ⟨h1, h2, h3, -⟩ := m.outFall_frame
  have hr : m.outFall.reg Reg.SAFE_HOLD = m.reg Reg.SAFE_HOLD := h2 _ (by decide)
  have hs : (Reg.SAFE_HOLD = Reg.SAFE_STATUS) = False := by decide
  have he : (Reg.SAFE_HOLD = Reg.SAFE_EVENT) = False := by decide
  unfold Mach.beginHold
  simp only
  by_cases hh : m.outFall.hold n = true
  · rw [if_pos hh]
    exact ⟨hh, h1, fun k _ => by rw [Mach.hold, Mach.rbit, hr]; rfl,
      fun a ha => h2 a (fun e => ha (by simp [holdRegs, e])), h3⟩
  · rw [if_neg hh]
    by_cases h0 : n = 0
    · rw [if_pos h0]
      have key : ∀ t : Mach, (((t.setRBit Reg.SAFE_HOLD n true).raise Reg.SAFE_EVENT 0x1).onSafety fun x =>
          { x with hold0At := some ((t.setRBit Reg.SAFE_HOLD n true).raise Reg.SAFE_EVENT 0x1).time.count }).reg Reg.SAFE_HOLD =
          (t.reg Reg.SAFE_HOLD).setBit n true := fun t => by
        rw [Mach.onSafety_reg, Mach.raise_reg, if_neg (by decide), Mach.setRBit_reg, if_pos rfl]
      refine ⟨?_, h1, fun k hk => ?_, fun a ha => ?_, ?_⟩
      · rw [Mach.hold, Mach.rbit, Mach.setRBit_reg, if_neg (by decide), key]
        exact Word.bit_setBit_same _ hn true
      · rw [Mach.hold, Mach.rbit, Mach.setRBit_reg, if_neg (by decide), key, Word.bit_setBit_ne _ hk, hr]; rfl
      · simp only [holdRegs, List.mem_cons, List.not_mem_nil, or_false, not_or] at ha
        rw [Mach.setRBit_reg, if_neg ha.1, Mach.onSafety_reg, Mach.raise_reg, if_neg ha.2.2.1, Mach.setRBit_reg, if_neg ha.2.1, h2 a ha.1]
      · exact h3
    · rw [if_neg h0]
      have key : ((m.outFall.setRBit Reg.SAFE_HOLD n true).raise Reg.SAFE_EVENT 0x1).reg Reg.SAFE_HOLD =
          (m.reg Reg.SAFE_HOLD).setBit n true := by
        rw [Mach.raise_reg, if_neg (by decide), Mach.setRBit_reg, if_pos rfl, hr]
      refine ⟨?_, h1, fun k hk => ?_, fun a ha => ?_, ?_⟩
      · rw [Mach.hold, Mach.rbit, key]; exact Word.bit_setBit_same _ hn true
      · rw [Mach.hold, Mach.rbit, key, Word.bit_setBit_ne _ hk]; rfl
      · simp only [holdRegs, List.mem_cons, List.not_mem_nil, or_false, not_or] at ha
        rw [Mach.raise_reg, if_neg ha.2.2.1, Mach.setRBit_reg, if_neg ha.2.1, h2 a ha.1]
      · exact h3

/-! ## Bus errors (R382) -/

/-- A deferred bus error counts, is captured when capture is armed, raises HIF_EVENT and PERR, and changes nothing else. -/
theorem Mach.busError_regs (deferred : Bool) (a code opcode index r : Nat)
    (hr : r ∉ [Reg.HIF_ERR_COUNT, Reg.HIF_ERR_ADDR, Reg.HIF_ERR_CAUSE, Reg.HIF_EVENT]) :
    (m.busError deferred a code opcode index).reg r = m.reg r := by
  rw [List.mem_cons, List.mem_cons, List.mem_cons, List.mem_singleton, not_or, not_or, not_or] at hr
  obtain ⟨h1, h2, h3, h4⟩ := hr
  have base : ∀ b, ((m.incReg Reg.HIF_ERR_COUNT).raise Reg.HIF_EVENT b).reg r = m.reg r := fun b => by
    rw [Mach.raise_reg, if_neg h4, Mach.incReg_reg, if_neg h1]
  have capt : ∀ (t : Mach) (v w : Word), ((t.setReg Reg.HIF_ERR_ADDR v).setReg Reg.HIF_ERR_CAUSE w).reg r = t.reg r :=
    fun t v w => by rw [Mach.reg_setReg_ne _ h3, Mach.reg_setReg_ne _ h2]
  have both : ∀ (c : Bool) (t u : Mach) (f : Port → Port), t.reg r = m.reg r → u.reg r = m.reg r →
      (if deferred = true then (if c = true then t else u).onPort f else if c = true then t else u).reg r = m.reg r :=
    fun c t u f ht hu => by cases c <;> cases deferred <;> assumption
  exact both _ _ _ _ (base _) ((capt _ _ _).trans (base _))

theorem Mach.busError_rest (deferred : Bool) (a code opcode index : Nat) :
    { m.busError deferred a code opcode index with regs := m.regs, port := m.port } = m ∧
      (m.busError deferred a code opcode index).port =
        (if deferred then { m.port with perr := true } else m.port) := by
  have both : ∀ (c : Bool) (t u : Mach), { t with regs := m.regs } = m → { u with regs := m.regs } = m →
      t.port = m.port → u.port = m.port →
      { (if deferred = true then (if c = true then t else u).onPort (fun p => { p with perr := true })
          else if c = true then t else u) with regs := m.regs, port := m.port } = m ∧
        (if deferred = true then (if c = true then t else u).onPort (fun p => { p with perr := true })
          else if c = true then t else u).port = (if deferred then { m.port with perr := true } else m.port) := by
    intro c t u ht hu hp hq
    have ht' := congrArg (fun x : Mach => { x with port := m.port }) ht
    have hu' := congrArg (fun x : Mach => { x with port := m.port }) hu
    cases c <;> cases deferred
    · exact ⟨hu', hq⟩
    · exact ⟨hu', congrArg (fun p : Port => { p with perr := true }) hq⟩
    · exact ⟨ht', hp⟩
    · exact ⟨ht', congrArg (fun p : Port => { p with perr := true }) hp⟩
  have capt : ∀ (t : Mach) (v w : Word), { t with regs := m.regs } = m →
      { (t.setReg Reg.HIF_ERR_ADDR v).setReg Reg.HIF_ERR_CAUSE w with regs := m.regs } = m := fun t v w h => h
  have base : ∀ b, { (m.incReg Reg.HIF_ERR_COUNT).raise Reg.HIF_EVENT b with regs := m.regs } = m := fun b => rfl
  have port : ∀ t : Mach, { t with regs := m.regs } = m → t.port = m.port := fun t h =>
    show ({ t with regs := m.regs } : Mach).port = m.port from congrArg Mach.port h
  rw [Mach.busError]
  generalize BitVec.ofNat 32 a = v
  generalize BitVec.ofNat 32 _ = w
  exact both _ _ _ (base _) (capt _ v w (base _)) (port _ (base _)) (port _ (capt _ v w (base _)))

/-! ## The start stage (R292, R293, R295) -/

/-- A startable head whose unit finds no error has its effect and is taken. -/
theorem Mach.startWith_ok {q cls op : Nat} {body : Mach → Nat → List Byte → Except CmdErr Mach} {u : Mach}
    (h : m.startable q cls op) (hk : knownOp cls op = true) (hb : body m q (m.headBytes q) = .ok u) :
    m.startWith q cls op body = (u.take q (m.headBytes q) []).checkHead q := by
  obtain ⟨h1, h2, h3, h4, h5⟩ := h
  simp [Mach.startWith, picks, h1, h2, h3, h4, h5, hk, hb]

/-- A startable head in which its unit finds an error stops its queue. -/
theorem Mach.startWith_error {q cls op : Nat} {body : Mach → Nat → List Byte → Except CmdErr Mach} {e : CmdErr}
    (h : m.startable q cls op) (hk : knownOp cls op = true) (hb : body m q (m.headBytes q) = .error e) :
    m.startWith q cls op body = m.cmdError q e := by
  obtain ⟨h1, h2, h3, h4, h5⟩ := h
  simp [Mach.startWith, picks, h1, h2, h3, h4, h5, hk, hb]

/-- A startable head whose operation its class does not define stops its queue, whichever start command of the class takes it. -/
theorem Mach.startWith_unknown {q cls o : Nat} (op : Nat) (body : Mach → Nat → List Byte → Except CmdErr Mach)
    (h : m.startable q cls o) (hk : knownOp cls o = false) : m.startWith q cls op body = m.cmdError q (0x10, 0x02) := by
  obtain ⟨h1, h2, h3, h4, h5⟩ := h
  simp [Mach.startWith, picks, h1, h2, h3, h4, h5, hk]

/-- A head that must wait stays where it is. -/
theorem Mach.startWith_waits {q cls op : Nat} (body : Mach → Nat → List Byte → Except CmdErr Mach)
    (h : m.headErr q (m.headBytes q) = .ok ()) (hw : m.goes q = false) : m.startWith q cls op body = m := by
  simp [Mach.startWith, h, hw]

/-- A head that waits for a reason does not go. -/
theorem Mach.goes_of_waits {q : Nat} (hw : m.waitReason q ≠ 0) : m.goes q = false := by simp [Mach.goes, hw]

/-- A queue that may not start anything starts nothing. -/
theorem Mach.startWith_idle {q cls op : Nat} (body : Mach → Nat → List Byte → Except CmdErr Mach)
    (h : m.mayStart q = false) : m.startWith q cls op body = m := by simp [Mach.startWith, h]

theorem Mach.startRun_ok {q cls op : Nat} {check : Mach → Nat → List Byte → Except CmdErr Unit}
    {run : Mach → Nat → Started → Mach} {c : Started} (h : m.startable q cls op)
    (hk : knownOp cls op = true) (hb : check m q (m.headBytes q) = .ok ())
    (hc : ((m.take q (m.headBytes q) []).cmdq q).started.getLast? = some c) :
    m.startRun q cls op check run = (run (m.take q (m.headBytes q) []) q c).checkHead q := by
  obtain ⟨h1, h2, h3, h4, h5⟩ := h
  simp [Mach.startRun, picks, h1, h2, h3, h4, h5, hk, hb, hc]

theorem Mach.startRun_error {q cls op : Nat} {check : Mach → Nat → List Byte → Except CmdErr Unit}
    {run : Mach → Nat → Started → Mach} {e : CmdErr} (h : m.startable q cls op)
    (hk : knownOp cls op = true) (hb : check m q (m.headBytes q) = .error e) : m.startRun q cls op check run = m.cmdError q e := by
  obtain ⟨h1, h2, h3, h4, h5⟩ := h
  simp [Mach.startRun, picks, h1, h2, h3, h4, h5, hk, hb]

/-! ## Twin-basin queues (R101 to R107) -/

/-- At the end of a clock the basins swap, which moves the filled bytes to the draining side, or nothing changes. -/
theorem Tbq.settle_cases (q : Tbq) (g : QGeom) (o : Bool) :
    (q.canSwap g o = true ∧ q.settle g o = q.swap ∧ q.swap.l = q.f ∧ q.swap.f = 0 ∧ q.swap.rd = 0 ∧ q.swap.rl = 0) ∨
      (q.canSwap g o = false ∧ q.settle g o = q) := by
  unfold Tbq.settle
  by_cases h : q.canSwap g o = true
  · exact .inl ⟨h, if_pos h, rfl, rfl, rfl, rfl⟩
  · exact .inr ⟨by simpa using h, if_neg h⟩

/-- A swap needs every byte of the draining basin released and a byte in the filling one (R101). -/
theorem Tbq.canSwap_needs {q : Tbq} {g : QGeom} {o : Bool} (h : q.canSwap g o = true) : q.rl = q.l ∧ 0 < q.f := by
  simp only [Tbq.canSwap, Bool.and_eq_true, decide_eq_true_eq] at h
  exact ⟨h.1.1.1, h.1.1.2⟩

/-- RELEASE never moves RL back (R106). -/
theorem Tbq.release_ge (q : Tbq) : q.rl ≤ q.release.rl := by simp only [Tbq.release]; omega

/-- MARK, RELEASE and REWIND leave the filling basin and every count alone (R105 to R107). -/
theorem Tbq.mark_release_rewind_fill (q : Tbq) :
    q.doMark.f = q.f ∧ q.release.f = q.f ∧ q.rewind.f = q.f ∧ q.doMark.l = q.l ∧ q.release.l = q.l ∧ q.rewind.l = q.l ∧
      q.doMark.swaps = q.swaps ∧ q.release.swaps = q.swaps ∧ q.rewind.swaps = q.swaps := by simp [Tbq.doMark, Tbq.release, Tbq.rewind]

/-- A rewind after a mark goes back to it, whatever has been read since (R105, R107). -/
theorem Tbq.rewind_after_mark (q : Tbq) (n : Nat) : (Tbq.rewind { q.doMark with rd := n }).rd = q.rd := by simp [Tbq.rewind, Tbq.doMark]

end Sys2Proof.Machine
end

