-- ==== Sys2Proof/WellFormed.lean ====
section
/-! DEFINITION. Which commands are well formed: what a command carries from outside is of a size that its wire, its rule
or its table admits. exec is total and asks for none of this. -/

namespace Sys2Proof

/-- An IPv4 or IPv6 address. -/
def ipWf (ip : List Byte) : Bool := ip.length == 4 || ip.length == 16

/-- A UDP datagram: addresses of one family, and a payload that a UDP length can give. -/
def Datagram.wf (d : Datagram) : Bool := ipWf d.srcIp && d.srcIp.length == d.dstIp.length && decide (d.payload.length ≤ 65527)

/-- A CAN frame: an 11-bit identifier unless extended; up to 8 bytes, up to 64 with FD (R78). -/
def CanFrame.wf (f : CanFrame) : Bool :=
  (f.ext || decide (f.ident.toNat < 2048)) && decide (f.data.length ≤ if f.fd then 64 else 8)

/-- A PTP message: nanoseconds below 1 s (R48). -/
def PtpRx.wf (p : PtpRx) : Bool := decide (p.gmNs.toNat < 1000000000)

/-- A request to NET for an address. -/
def NetRequest.wf : NetRequest → Bool
  | .arp t => t.length == 4
  | .neighbourSolicitation t => t.length == 16
  | .echo t => ipWf t

/-- Units of a kind: cores, point units, clusters; islands for the kinds that Table 14-8 gives by island. -/
def UnitKind.units : UnitKind → Nat
  | .core => 32
  | .pointUnit => 8
  | .cluster => 8
  | .config => 256
  | .dieUnit | .port | .timebase | .supervisor | .management | .security => 166

/-- A detection: a cause of Table 14-2, of a unit that its kind has. -/
def Detection.wf (d : Detection) : Bool :=
  decide (1 ≤ d.cause.toNat ∧ d.cause.toNat ≤ 0x14) && decide (d.number < d.unit.units)

/-- A data phase of 2^n words, where n is a length that R376 defines. -/
def phaseWf (n : Fin 16) (data : List Word) : Bool := decide (10 < n.val) || data.length == 2 ^ n.val

/-- An abandoned transaction: no more words than the longest data phase. -/
def Abandoned.wf : Abandoned → Bool
  | .early _ => true
  | .read _ _ _ words _ => decide (words ≤ 1024)
  | .write _ _ _ words => decide (words.length ≤ 1024)

/-- The command is well formed. -/
def Instr.wf : Instr → Bool
  | .sluiceTransfer _ _ _ bundle parity _ => decide (0 < bundle.length) && parity.length == bundle.length
  | .csiLongPacket _ _ _ line _ _ => decide (line.length ≤ 65535)
  | .i3cTransferDone _ data _ => decide (data.length ≤ 32)
  | .spiReadDone _ data => decide (data.length ≤ 64)
  | .neighbourRefresh _ ip _ => ipWf ip
  | .ptpMessageRx _ msg => msg.wf
  | .datagramRx _ d => d.wf
  | .messageDatagramRx _ d => d.wf
  | .netRequestRx _ r => r.wf
  | .canFrameRx _ f => f.wf
  | .faultDetected d => d.wf
  | .xspiWrite _ n data _ _ => phaseWf n data
  | .xspiWriteFixed _ n data _ _ => phaseWf n data
  | .transactionAbandon t => t.wf
  | _ => true

end Sys2Proof
end

