-- ==== Sys2Proof/Tests/Slice0.lean ====
section
/-! SUPPORT. The model's own tests: the checks of WellFormed, the spec's worked examples, and for each statement states and
operands that meet its hypotheses. -/

set_option Elab.async false

namespace Sys2Proof.Tests

open Sys2Proof Sys2Proof.Machine

/-! ## Small states -/

/-- A module after reset with some registers written. -/
def mach (l : List (Nat × Word)) : Mach := l.foldl (fun m p => m.setReg p.1 p.2) State.reset.m

/-- A booted one, with time on the count. -/
def up (l : List (Nat × Word)) : Mach :=
  { mach l with pins := { State.reset.m.pins with booted := true }, time := { State.reset.m.time with count := 5000000000 } }

/-- A state of the block around a module. -/
def st (m : Mach) : State := { State.reset with m := m }

/-! ## The block and its queue -/

theorem witness_StepTakesFront : ({ State.reset with pending := [.boot, .eject] } : State).pending = .boot :: [.eject] := rfl

theorem witness_StepTakesFront_idle : State.reset.pending = [] := rfl

theorem witness_QueueDrainsInOrder : 2 ≤ ({ State.reset with pending := [.boot, .eject] } : State).pending.length := by decide

/-- OUT_VALID is high and no hold stands; a write for the next Show Home boundary waits. -/
theorem witness_OutValidInvariant :
    let m : Mach := up [(Reg.SAFE_HOLD, 0)]
    let m := { m with safety := { m.safety with outValid := true }, sh := { m.sh with pendingCfg := [(Reg.FPL_SH_CTRL, 1)] } }
    m.outGuarded ∧ m.safety.outValid = true ∧ step (st m) = .next (st m) :=
  ⟨⟨fun _ => by decide +kernel, by decide +kernel⟩, by decide +kernel, rfl⟩

theorem witness_MemoryInvariant :
    let s := st { up [] with mem := [(3, 1), (2 ^ 36, 5)] }
    s.memWf ∧ step s = .next s := ⟨(by decide : Memory.wf _), rfl⟩

theorem witness_AsleepInvariant :
    State.Asleep { State.reset with m := { State.reset.m with pins := { powered := false } }, pending := [.boot, .nsCountTick] } :=
  ⟨by decide +kernel, by decide⟩

/-! ## Evaluating a CRC

The kernel evaluates a fold from the outside in; these take the register as a number and evaluate it at each byte. -/

def crcShift : Nat → Nat → Nat
  | 0, c => c
  | n + 1, c => crcShift n (if c % 2 = 1 then (c / 2) ^^^ 0x82F63B78 else c / 2)

def forced (n : Nat) (f : Nat → Nat) : Nat := Nat.rec (f 0) (fun k _ => f (k + 1)) n

theorem forced_eq (n : Nat) (f : Nat → Nat) : forced n f = f n := by cases n <;> rfl

def crcFold : List Byte → Nat → Nat
  | [], c => c
  | b :: l, c => forced (crcShift 8 (c ^^^ b.toNat)) (crcFold l)

theorem crc32cBits_toNat (n : Nat) (c : BitVec 32) : (crc32cBits n c).toNat = crcShift n c.toNat := by
  induction n generalizing c with
  | zero => rfl
  | succ n ih =>
    simp only [crc32cBits, crcShift, ih]
    congr 1
    have h : c.getLsbD 0 = decide (c.toNat % 2 = 1) := by simp [BitVec.getLsbD, Nat.testBit_zero]
    rw [h]
    by_cases hc : c.toNat % 2 = 1 <;> simp [hc, Nat.shiftRight_one]

theorem crc32c_fold (l : List Byte) (c : BitVec 32) : (l.foldl crc32cByte c).toNat = crcFold l c.toNat := by
  induction l generalizing c with
  | nil => rfl
  | cons b l ih =>
    have hb : b.toNat % 2 ^ 32 = b.toNat := Nat.mod_eq_of_lt (by have := b.isLt; omega)
    simp only [List.foldl_cons, ih, crcFold, forced_eq, crc32cByte, crc32cBits_toNat, BitVec.toNat_xor,
      BitVec.toNat_setWidth, hb]

theorem crc32c_eq (l : List Byte) : crc32c l = BitVec.ofNat 32 (crcFold l 0xFFFFFFFF ^^^ 0xFFFFFFFF) := by
  apply BitVec.eq_of_toNat_eq
  have h : (crc32c l).toNat = crcFold l 0xFFFFFFFF ^^^ 0xFFFFFFFF := by
    simp only [crc32c, BitVec.toNat_xor, crc32c_fold]; rfl
  rw [← h, BitVec.ofNat_toNat, BitVec.setWidth_eq]

/-- The check value of CRC-32C over "123456789". -/
theorem test_crc32c : crc32c [0x31, 0x32, 0x33, 0x34, 0x35, 0x36, 0x37, 0x38, 0x39] = 0xE3069283 := by
  rw [crc32c_eq]; decide +kernel

/-! ## Islands, sluices, time and the ports -/

theorem witness_reset_lives : State.reset.m.live = true ∧ (st (up [])).m.live = true := by decide +kernel

/-- Island 0 belongs to a core that is out; island 144 is of R35. -/
theorem witness_IslandRules :
    let m := up [(Reg.FPL_CORES_OUT, 1)]
    m.stopCase 0 .coreOut = true ∧ m.stopCase 0 .idle = false ∧ fixedIsland 145 = true ∧ fixedIsland 165 = false ∧
      ([StopCause.idle, .standby, .port, .coreOut, .still].all fun w => m.stopCase 8 w == false) = true ∧
      m.mgmtRuns = true ∧ { m with obs := { m.obs with mgmtDebug := true } }.mgmtRuns = false ∧
      (m.islandPlan 0).1 ≤ 512 ∧ (m.islandPlan 0).2 ≤ 512 ∧ 256 ≤ (m.islandPlan 0).1 ∧ (m.island 0).droop = none := by
  decide +kernel

/-- A channel with credits and one without; sequence bits and parities right and wrong; a receiver that stands still. -/
theorem witness_SluiceTransfers :
    let m := { up [] with
      sluices := [(sluiceKey 1 2 0, { credit := 0 })], islands := [(3, { stopped := [.idle] })] }
    m.runs 1 = true ∧ (m.sluice (sluiceKey 1 2 0)).credit = 0 ∧ (m.sluice (sluiceKey 1 3 0)).credit ≠ 0 ∧
      false = !(m.sluice (sluiceKey 1 3 0)).seqBit ∧ true = (m.sluice (sluiceKey 1 3 0)).seqBit ∧ m.runs 3 = false ∧
      [true] ≠ [(0 : Word)].map evenParity := by
  decide +kernel

theorem witness_CountAndCapture :
    let m := up []
    m.port.posted = [] ∧ m.safety.recoveries = [] ∧ m.obs.stillPending = none ∧ m.pins.wanted = none ∧ m.traceOn = false ∧
      m.time.refOk = true ∧ m.time.rate = 1000000000 * 0 ∧ m.frozen = false ∧ m.blockPosted Reg.TIME_CTRL = false ∧
      m.reg Reg.TIME_CTRL = BitVec.ofNat 32 (m.timeSource * 256) ∧ m.timeSource ≠ 3 := by
  decide +kernel

/-- The count stands at 705,032,704 modulo 2^32; the step lies 1 ms ahead, then reached. -/
theorem witness_TimeSteps :
    let m := up [(Reg.TIME_STEP_AT, 705032704 + 1000000)]
    let ahead := (m.reg Reg.TIME_STEP_AT - m.time.count.setWidth 32).toInt
    m.blockPosted Reg.TIME_CTRL = false ∧ m.rbit Reg.TIME_STATUS 0 = false ∧ m.rbit Reg.TIME_STATUS 4 = false ∧
      m.timeSource = 0 ∧ ahead = 1000000 ∧
      ¬ (1000000 : Int) ≤ ((up []).reg Reg.TIME_STEP_AT - (up []).time.count.setWidth 32).toInt ∧
      reached ((up []).time.count.setWidth 32) 705032704 = true ∧ reached ((up []).time.count.setWidth 32) 705032705 = false := by
  decide +kernel

theorem witness_EpochReset :
    (up []).blockPosted Reg.TIME_CTRL = false ∧ (up [(Reg.TIME_STATUS, 8)]).blockPosted Reg.TIME_CTRL = false ∧
      (up []).rbit Reg.TIME_STATUS 3 = false ∧ (up [(Reg.TIME_STATUS, 8)]).rbit Reg.TIME_STATUS 3 = true ∧
      (up []).reg Reg.TIME_CTRL = BitVec.ofNat 32 ((up []).timeSource * 256) := by
  decide +kernel

theorem witness_TimeDiscipline :
    let m := up [(Reg.TIME_STATUS, 16), (Reg.TIME_RATE_LO, 65536000000 % 2 ^ 32)]
    m.blockPosted Reg.TIME_CTRL = false ∧
      m.writeCause Reg.TIME_CTRL 256 = none ∧ m.rbit Reg.TIME_STATUS 4 = true ∧ 1 ≠ m.timeSource ∧ 0 = m.timeSource ∧
      (BitVec.ofNat 40 ((m.reg Reg.TIME_RATE_LO).toNat + 15 * 2 ^ 32)).toInt = 65536000000 ∧
      (BitVec.ofNat 40 ((m.reg Reg.TIME_RATE_LO).toNat + 16 * 2 ^ 32)).toInt = 69830967296 ∧
      m.fld Reg.TIME_FAR_CFG 0 10 * m.fld Reg.TIME_FAR_CFG 16 12 * 1000 < (0x7FFFFFFF : Word).toInt.natAbs ∧
      ¬ m.fld Reg.TIME_FAR_CFG 0 10 * m.fld Reg.TIME_FAR_CFG 16 12 * 1000 < (0 : Word).toInt.natAbs := by
  decide +kernel

/-- A message of a port's transport, domain and profile, from a master. -/
def ptpMsg (k : PtpKind) (st : BitVec 4) : PtpRx :=
  { kind := k, transport := .layer2, domain := 0, delay := 100, delayValid := true, offset := 5, state := st, gmSec := 7,
    gmNs := 8 }

/-- MAC 0 is up and runs PTP, MAC 1 as a master only; the servo has PPS, then a fourth Sync. -/
theorem witness_ServoAndPtp :
    let m := up [(Reg.SNS_MAC_CFG 0, 0x80000000), (Reg.SNS_MAC_STAT 0, 1), (Reg.TIME_PTP_CFG 0, 0x10), (Reg.TIME_CTRL, 0x100),
      (Reg.SNS_MAC_CFG 1, 0x80000000), (Reg.SNS_MAC_STAT 1, 1), (Reg.TIME_PTP_CFG 1, 0x410)]
    let m := m.onTime fun x => { x with syncs := [(0, 3)] }
    let p := (m.setReg Reg.TIME_CTRL 0x200).onTime fun x => { x with ppsRef := true }
    let msg := ptpMsg .sync 9
    m.ptpOn 0 = true ∧ m.ptpOn 1 = true ∧ m.ptpServed 0 = true ∧ m.timeSource = 1 ∧ sget (fun _ => 0) m.time.syncs 0 = 3 ∧
      m.time.ptpRef = none ∧ msg.transport = m.ptpTransport 0 ∧ msg.domain.toNat = m.fld Reg.TIME_PTP_CLOCK 0 8 ∧
      m.profileKnows 0 msg.kind = true ∧ m.roleAllows 0 9 = true ∧ m.roleAllows 1 9 = false ∧
      ({ msg with transport := .ipv4 } : PtpRx).transport ≠ m.ptpTransport 0 ∧
      m.profileKnows 1 .announce = true ∧ m.roleSends 1 .announce = true ∧ m.roleSends 0 .sync = true ∧
      ptpEvent .sync = true ∧ (ptpMsg .announce 9).kind ≠ .sync ∧
      m.rbit Reg.TIME_STATUS 0 = false ∧ (m.setReg Reg.TIME_STATUS 1).rbit Reg.TIME_STATUS 0 = true ∧
      p.mgmtRuns = true ∧ p.servoRef = true := by
  decide +kernel

theorem witness_TimeReferences :
    let m := up [(Reg.TIME_PPS_CFG, 0x22)]
    let hi := m.onTime fun x => { x with ppsOut := true }
    let early := m.onTime fun x => { x with ppsIn := some 4950000000 }
    let after := m.onTime fun x => { x with ppsAfter := some 4990000000 }
    m.ppsRuns = true ∧ m.time.ppsOut = false ∧ m.wide.ns ≤ 1 ∧ m.time.ppsAfter = none ∧ m.rbit Reg.TIME_PPS_CFG 5 = true ∧
      1000000 + after.wide.ns ≤ (after.time.count - 4990000000).toNat ∧ after.ppsRuns = true ∧
      true = (!m.rbit Reg.TIME_PPS_CFG 4) ∧ m.time.ppsIn = none ∧ m.frozen = false ∧
      hi.fld Reg.TIME_PPS_CFG 16 9 * 1000000 ≤ (hi.time.count - hi.time.ppsRise).toNat ∧
      (early.time.count - 4950000000).toNat ≤ 100000000 ∧ (early.time.count - 0).toNat ≥ 2000000000 ∧
      m.time.refOk = true ∧ ({ m.time with refOk := false } : TimeLine).refOk = false := by
  decide +kernel

/-- Port 0 enabled, stream 5 takes RAW8 of virtual channel 0 from it with a queue of 4 KB; then a frame is open. -/
def cam : Mach :=
  up [(Reg.SNS_CSI_CFG 0, 0x80000000), (Reg.STR_SOURCE 5, 0x100A8000), (Reg.STR_INQ 5, 1), (Reg.STR_CTRL 5, 0x80000000)]

def frame : OpenFrame :=
  { vc := 0, dt := 0x2A, stream := 5, startAt := 705032704,
    item := { kind := 1, stamp := 705032704, tFirst := 705032704, tLast := 705032704 } }

theorem witness_CameraFrames :
    let m := { cam with ports := { cam.ports with frames := [(0, [frame])] } }
    cam.csiEnabled 0 = true ∧ csiBits 0x2A ≠ 0 ∧ cam.cameraStream 0 0 0x2A = some 5 ∧ cam.rbit (Reg.STR_SOURCE 5) 13 = false ∧
      cam.openFrames 0 = [] ∧ 32 ≤ (cam.stream 5).q.capacity (cam.inqGeom 5) ∧
      cam.unselected 0 1 0x2A = true ∧ cam.unselected 0 0 0x2A = false ∧
      (m.openFrames 0).find? (fun g => g.is 0 0x2A) = some frame ∧ frame.skip = false ∧ frame.cut = false ∧
      4096 ≤ (m.stream 5).q.capacity (m.inqGeom 5) ∧
      reached 705032704 (frame.startAt + BitVec.ofNat 32 (m.fld (Reg.SNS_CSI_CFG 0) 8 8 * 1000000)) = true := by
  decide +kernel

/-- The same stream triggered by output 2, which fired 1 µs ago, with a window of 10 µs; then it has that fire's frame. -/
def camTriggered (taken : List Nat) : Mach :=
  let m := (cam.setReg (Reg.STR_SOURCE 5) 0x100AA800).setReg (Reg.STR_CTRL 5) 0x80000001
  { m with ports := { m.ports with fsync := [(2, { fires := [(705032704 - 1000, taken)] })] } }

/-- A fire in the window, one that has its frame, none; and a frame of the channel that is still open. -/
theorem witness_CameraFrames_triggered :
    let m := camTriggered []
    let opened : Mach := { cam.setReg Reg.FPL_STATUS 0 with ports := { cam.ports with frames := [(0, [frame])] } }
    m.csiEnabled 0 = true ∧ m.cameraStream 0 0 0x2A = some 5 ∧ m.rbit (Reg.STR_SOURCE 5) 13 = true ∧
      m.fld (Reg.STR_SOURCE 5) 10 3 = 2 ∧ m.openFrames 0 = [] ∧ m.matchFire 5 2 = some (705032704 - 1000, []) ∧
      32 ≤ (m.stream 5).q.capacity (m.inqGeom 5) ∧
      (camTriggered [5]).matchFire 5 2 = some (705032704 - 1000, [5]) ∧ cam.matchFire 5 2 = none ∧
      opened.csiEnabled 0 = true ∧ opened.cameraStream 0 0 0x2A = some 5 ∧ opened.showHome = false ∧
      (opened.openFrames 0).filter (fun g => g.is 0 0x2A) = [frame] ∧ frame.skip = false := by
  decide +kernel

def i3cSet : Mach :=
  let m := up [(Reg.SNS_I3C_CFG 0, 0x80000000), (Reg.SNS_I3C_CFG 3, 0x80000000), (Reg.SNS_I3C_AT 0, 705032704)]
  { m with ports := { m.ports with
      i3c := [(0, { cmds := [(0x40010000, none)] }), (1, { cmds := List.replicate 16 (0, none) }),
              (2, { busy := true, rdata := [1, 2, 3, 4] }), (3, { cmds := [(0x40410000, some 705032000)], rdata := [9] })] } }

theorem witness_I3cAndFsync :
    let m := i3cSet
    m.runs 164 = true ∧ m.writeCause (Reg.SNS_I3C_DATA 0) 7 = none ∧ m.writeCause (Reg.SNS_I3C_CMD 0) 0x40010000 = none ∧
      (m.i3cOf 0).cmds.length < 16 ∧ (0x40010000 : Word).getLsbD 22 = false ∧ (0x40410000 : Word).getLsbD 22 = true ∧
      (m.reg (Reg.SNS_I3C_AT 0) - m.time.count.setWidth 32).toInt ≤ 2000000000 ∧ 16 ≤ (m.i3cOf 1).cmds.length ∧
      m.writeCause (Reg.SNS_I3C_CMD 1) 0x40010000 = none ∧
      (m.i3cOf 0).cmds = [(0x40010000, none)] ∧ m.rbit (Reg.SNS_I3C_CFG 0) 31 = true ∧ (m.i3cOf 0).busy = false ∧
      (m.i3cOf 3).cmds = [(0x40410000, some 705032000)] ∧ m.rbit (Reg.SNS_I3C_CFG 3) 31 = true ∧ (m.i3cOf 3).busy = false ∧
      reached (m.time.count.setWidth 32) 705032000 = true ∧
      (m.i3cOf 2).busy = true ∧ 4 ≤ (m.i3cOf 2).rdata.length ∧ (m.i3cOf 3).rdata.length < 4 := by
  decide +kernel

/-- Output 0 in period mode with a pulse in progress; 1 in group mode with a plan due; 2 with a plan past; 3 with a long pulse;
4 with a plan due within the pulse in progress. -/
def fsyncSet : Mach :=
  let m := up [(Reg.SNS_FSYNC_CFG 0, 0x8000000A), (Reg.SNS_FSYNC_PERIOD 0, 20000), (Reg.SNS_FSYNC_NEXT 0, 705032704),
    (Reg.SNS_FSYNC_CFG 1, 0xC000000A), (Reg.SNS_FSYNC_CFG 2, 0xC000000A), (Reg.SNS_FSYNC_CFG 3, 0x8000FFFF),
    (Reg.SNS_FSYNC_CFG 4, 0xC000000A), (Reg.SNS_FSYNC_PERIOD 5, 20000), (Reg.SNS_FSYNC_NEXT 5, 705032704 + 10000)]
  { m with ports := { m.ports with
      fsync := [(0, { pulseEnd := some 705032704 }), (1, { plans := [705032704] }), (2, { plans := [705032702] }),
                (4, { plans := [705032704], pulseEnd := some 705032705 })] } }

theorem witness_I3cAndFsync_pulses :
    let m := fsyncSet
    let now : Word := m.time.count.setWidth 32
    m.runs 164 = true ∧ reached now (m.reg (Reg.SNS_FSYNC_NEXT 0)) = true ∧
      (m.reg (Reg.SNS_FSYNC_CFG 0)).getLsbD 31 = true ∧ (m.reg (Reg.SNS_FSYNC_CFG 0)).getLsbD 30 = false ∧
      (m.reg (Reg.SNS_FSYNC_CFG 1)).getLsbD 31 = true ∧ (m.reg (Reg.SNS_FSYNC_CFG 1)).getLsbD 30 = true ∧
      (m.fsyncOf 1).plans = now :: [] ∧ (m.fsyncOf 1).pulseEnd = none ∧
      (m.fsyncOf 2).plans = [705032702] ∧ 1 < (now - 705032702).toInt ∧ reached now 705032702 = true ∧
      (m.fsyncOf 4).plans = [705032704] ∧ (m.fsyncOf 4).pulseEnd = some 705032705 ∧ before 705032704 705032705 = true ∧
      (m.fsyncOf 0).pulseEnd = some 705032704 ∧ reached now 705032704 = true ∧ before now 705032704 = false ∧
      m.writeCause (Reg.SNS_FSYNC_NEXT 0) (705032704 + 10000) = none ∧ ((705032704 + 10000 : Word) - now).toInt = 10000 ∧
      before (705032704 + 10000) 705032704 = false ∧
      m.writeCause (Reg.SNS_FSYNC_PERIOD 3) 65535001 = none ∧ m.writeCause (Reg.SNS_FSYNC_PERIOD 3) 65535000 = none ∧
      (m.reg (Reg.SNS_FSYNC_CFG 3)).field 0 16 * 1000 = 65535000 := by
  decide +kernel

theorem witness_I3cAndFsync_cfg :
    let m := fsyncSet
    m.writeCause (Reg.SNS_FSYNC_CFG 0) 0x40000001 = none ∧ m.writeCause (Reg.SNS_FSYNC_CFG 5) 0x8000000A = none ∧
      (0x8000000A : Word).field 0 16 * 1000 < (m.reg (Reg.SNS_FSYNC_PERIOD 5)).toNat ∧
      (m.reg (Reg.SNS_FSYNC_NEXT 5) - m.time.count.setWidth 32).toInt = 10000 ∧
      m.writeCause (Reg.SNS_FSYNC_CFG 5) 0x80000014 = none ∧
      ¬ (0x80000014 : Word).field 0 16 * 1000 < (m.reg (Reg.SNS_FSYNC_PERIOD 5)).toNat := by
  decide +kernel

theorem witness_I3cAndFsync_window : (st cam).m.live = true ∧ ((st cam).m.fsyncOf 0).fires = [] := by decide +kernel

/-- A datagram of UDP from 10.0.0.2 to 10.0.0.1, port 6699. -/
def dgram (payload : List Byte) : Datagram :=
  { srcIp := [10, 0, 0, 2], dstIp := [10, 0, 0, 1], srcPort := 5000, dstPort := 6699, vlan := none, payload := payload,
    supported := true, checksumOk := true }

/-- One CGPF point of format 0 (R84): header of 32 bytes and 20 bytes. -/
def cgpf : List Byte :=
  leBytes 4 0x46504743 ++ [1, 0, 1, 0] ++ List.replicate 24 0 ++ List.replicate 20 0

/-- MAC 0 up, stream 6 takes scanner datagrams of port 6699 from it, stream 7 described ones of port 6700. -/
def lan : Mach :=
  up [(Reg.SNS_MAC_CFG 0, 0x90000000), (Reg.SNS_MAC_STAT 0, 1), (Reg.STR_SOURCE 6, 0x20000000), (Reg.STR_INQ 6, 1),
    (Reg.STR_MATCH 6, 0x1A2B0000), (Reg.STR_CTRL 6, 0x80000000), (Reg.NET_CFG 0, 0xA0000000), (Reg.NET_IP4 0, 0x0A000001),
    (Reg.STR_SOURCE 7, 0x30000000), (Reg.STR_INQ 7, 1), (Reg.STR_MATCH 7, 0x1A2C0000), (Reg.STR_CTRL 7, 0x80000000),
    (Reg.EGR_DEST_CFG 0, 0x80000000), (Reg.EGR_DEST_IP 0 0, 0x0A000009)]

theorem witness_EthernetPorts :
    let late := { lan with streams := [(6, { blockMin := some (0, 5, 7) })] }
    let d := dgram cgpf
    lan.macUp 0 = true ∧ lan.isMessage d = false ∧ d.intact = true ∧ ({ d with intact := false } : Datagram).intact = false ∧
      lan.unsupported 0 d = false ∧ isPtp d = false ∧ isPtp { d with dstPort := 319 } = true ∧
      lan.unsupported 0 { d with dstPort := 319 } = false ∧ lan.isMessage { d with dstPort := 319 } = false ∧
      lan.unsupported 0 { d with checksumOk := false } = true ∧ lan.scannerStream 0 d = some 6 ∧
      lan.scannerStream 0 { d with dstPort := 9 } = none ∧
      (lan.setReg Reg.FPL_STATUS 0).showHome = false ∧
      (lan.setReg Reg.FPL_STATUS 0).scannerStream 0 { d with dstPort := 9 } = none ∧
      lan.strKind 6 = 2 ∧ cgpfOk d.payload = true ∧ cgpfOk (dgram []).payload = false ∧
      lan.scannerStream 0 { d with dstPort := 6700 } = some 7 ∧ lan.strKind 7 = 3 ∧
      (late.stream 6).blockMin = some (0, 5, 7) ∧ 0 < late.time.count.toNat / 250000000 := by
  decide +kernel

/-- Stream 6 under its calibrated map takes the one point of a datagram. -/
theorem witness_EthernetPorts_delivered :
    let m := (lan.setReg Reg.FPL_STATUS 0).setReg (Reg.STR_CTRL 6) 0xA0000000
    let cgpf := cgpf.take 32 ++ leBytes 4 0x40000000 ++ cgpf.drop 36
    let sc := cgpfScan cgpf (m.stream 6).lastSweep
    let kept := (keepPoints (entryCoef (m.calForMap 6 m.time.count)).conv (m.stream 6).sweepOwed sc.pts).1
    m.scannerStream 0 (dgram cgpf) = some 6 ∧ m.strKind 6 = 2 ∧ cgpfOk cgpf = true ∧ m.showHome = false ∧
      m.fld (Reg.STR_CTRL 6) 29 2 = 1 ∧ kept ≠ [] ∧
      recordBytes (kept.flatMap fun k => pointBytes k.1 k.2.1 k.2.2).length ≤ (m.stream 6).q.capacity (m.inqGeom 6) := by
  decide +kernel

theorem witness_EthernetPorts_links :
    lan.macUp 0 = true ∧ lan.rbit (Reg.SNS_MAC_CFG 0) 28 = true ∧ lan.rbit (Reg.SNS_MAC_CFG 0) 31 = true ∧
      lan.rbit (Reg.NET_CFG 0) 29 = true ∧ lan.rbit (Reg.NET_CFG 0) (if reqSix (.arp [10, 0, 0, 1]) then 30 else 31) = true ∧
      reqTarget (.arp [10, 0, 0, 1]) = lan.ownIp 0 (reqSix (.arp [10, 0, 0, 1])) ∧
      lan.resolves 0 [10, 0, 0, 9] = true ∧ lan.resolveDue 0 [10, 0, 0, 9] = true := by
  decide +kernel

/-- Streams 1 to 3 take SPI 0, CAN 0 and encoder 0. -/
def hub : Mach :=
  up [(Reg.SNS_SPI_CFG 0, 0x80000000), (Reg.STR_SOURCE 1, 0x40000000), (Reg.STR_INQ 1, 1), (Reg.STR_CTRL 1, 0x80000000),
    (Reg.SNS_CAN_CFG 0, 0x80000000), (Reg.STR_SOURCE 2, 0x60000000), (Reg.STR_INQ 2, 1), (Reg.STR_CTRL 2, 0x80000000),
    (Reg.SNS_ENC_CFG 0, 0x80000064), (Reg.STR_SOURCE 3, 0x50000000), (Reg.STR_INQ 3, 1), (Reg.STR_CTRL 3, 0x80000000),
    (Reg.SNS_GPIO_TAT, 705032704 + 1000), (Reg.SNS_CAN_STAT 1, 2)]

def canFrame : CanFrame := { ident := 0, ext := false, fd := false, data := [1, 2], sof := 705032704 }

/-- SPI 0 reads for stream 1, SPI 1 for none; encoder 0 has a sample due; a timed output is armed. -/
def hubBusy : Mach :=
  { hub with ports := { hub.ports with
      spi := [(0, { reading := some (1, some 1) }), (1, { reading := some (1, none) })],
      enc := [(0, { next := some 705032704 })], timed := some (705032704, 3, true) } }

theorem witness_LowRatePorts_spi :
    let m := hubBusy
    let late := (m.setReg (Reg.STR_INQ 1) 0).onPorts fun x => { x with spi := [(0, { reading := some (1, none) })] }
    let dest : Option Nat := some 1
    hub.runs 164 = true ∧ (hub.reg (Reg.SNS_SPI_CFG 0)).getLsbD 31 = true ∧
      true = (!(hub.reg (Reg.SNS_SPI_CFG 0)).getLsbD 28) ∧ (hub.spiOf 0).reading = none ∧
      (m.spiOf 0).reading = some (1, some 1) ∧
      (dest.filter fun o => m.strEnabled o || m.rbit (Reg.STR_STATUS o) 3) = some 1 ∧
      recordBytes 6 ≤ (m.stream 1).q.capacity (m.inqGeom 1) ∧ (late.spiOf 0).reading = some (1, none) ∧
      m.selectStream (fun o => m.strFrom o 4 0) = some 1 ∧ late.selectStream (fun o => late.strFrom o 4 0) = some 1 ∧
      (late.stream 1).q.capacity (late.inqGeom 1) < recordBytes 6 ∧
      (m.spiOf 1).reading = some (1, none) ∧ m.selectStream (fun o => m.strFrom o 4 1) = none := by
  decide +kernel

theorem witness_LowRatePorts :
    let m := hubBusy
    hub.rbit (Reg.SNS_CAN_CFG 0) 31 = true ∧ hub.canState 0 ≠ 2 ∧ canFrame.fd = false ∧
      hub.selectStream (hub.canMatch 0 canFrame) = some 2 ∧
      recordBytes canFrame.data.length ≤ (hub.stream 2).q.capacity (hub.inqGeom 2) ∧ hub.canState 1 = 2 ∧
      hub.rbit (Reg.SNS_ENC_CFG 0) 31 = true ∧ (m.encOf 0).next = some 705032704 ∧
      reached (m.time.count.setWidth 32) 705032704 = true ∧ m.selectStream (fun o => m.strFrom o 5 0) = some 3 ∧
      64 ≤ (m.stream 3).q.capacity (m.inqGeom 3) ∧
      hub.rbit Reg.SNS_GPIO_DIR 4 = false ∧ hub.rbit Reg.SNS_GPIO_IN 4 ≠ true ∧
      hub.rbit Reg.SNS_GPIO_EDGE (if true then 16 + 4 else 4) = false ∧
      hub.writeCause Reg.SNS_GPIO_TARM 1 = none ∧ hub.ports.timed = none ∧
      (hub.reg Reg.SNS_GPIO_TAT - hub.time.count.setWidth 32).toInt = 1000 ∧ hub.fld Reg.SNS_GPIO_TCFG 4 4 = 0 ∧
      (hub.setReg (Reg.FPL_STATUS) 0).showHome = false ∧ m.ports.timed = some (705032704, 3, true) := by
  decide +kernel

/-- Both edges of pin 4 make items of stream 9; those of pin 5 of none. -/
theorem witness_LowRatePorts_gpio :
    let m := up [(Reg.SNS_GPIO_EDGE, 0x300030), (Reg.STR_SOURCE 9, 0x70000000), (Reg.STR_INQ 9, 1), (Reg.STR_MATCH 9, 0x10),
      (Reg.STR_CTRL 9, 0x80000000)]
    let sel := fun (pin : Nat) => m.selectStream fun o => m.strKind o == 7 && m.rbit (Reg.STR_MATCH o) pin
    m.runs 164 = true ∧ m.rbit Reg.SNS_GPIO_DIR 4 = false ∧ m.rbit Reg.SNS_GPIO_IN 4 ≠ true ∧
      m.rbit Reg.SNS_GPIO_EDGE (if true then 16 + 4 else 4) = true ∧ m.rbit Reg.SNS_GPIO_EDGE (if true then 16 + 5 else 5) = true ∧
      sel 4 = some 9 ∧ sel 5 = none ∧ 32 ≤ (m.stream 9).q.capacity (m.inqGeom 9) ∧
      ((m.setReg (Reg.STR_INQ 9) 0).stream 9).q.capacity ((m.setReg (Reg.STR_INQ 9) 0).inqGeom 9) < 32 := by
  decide +kernel

/-- Stream 1 holds an item of 4 bytes, 64 with its header, in the filling basin of its queue. -/
theorem witness_SpillwayWrites :
    let it := { plainItem 4 1 4 0 [1, 2, 3, 4] with left := 64 }
    let m := { hub.setReg (Reg.STR_RING_SIZE 1) 0x10000 with streams := [(1, { items := [it], q := { f := 64, flushPending := true } })] }
    m.runs 150 = true ∧ m.spillNext = some 1 ∧ (m.stream 1).items = [it] ∧
      (spillBytes (m.inqGeom 1) (m.stream 1).q it.left).2 = 0 ∧
      (m.reg (Reg.STR_RING_WR 1)).toNat + recordBytes it.payload.length ≤ m.ringSize 1 := by
  decide +kernel

theorem witness_StreamAndPortEnables :
    let off := up [(Reg.STR_SOURCE 1, 0x40000000), (Reg.STR_INQ 1, 1), (Reg.SNS_INQ_SIZE 12, 1)]
    let v := (off.reg (Reg.STR_CTRL 1)).setBit 31 true
    let w := (hub.reg (Reg.STR_CTRL 1)).setBit 31 false
    let on := up [(Reg.SNS_CSI_CFG 0, State.reset.m.reg (Reg.SNS_CSI_CFG 0) ||| 0x80000000),
      (Reg.SNS_SPI_CFG 0, State.reset.m.reg (Reg.SNS_SPI_CFG 0) ||| 0x80000000)]
    off.writeCause (Reg.STR_CTRL 1) v = none ∧ off.strEnabled 1 = false ∧
      ((off.strKind 1 == 2 || off.strKind 1 == 3) && v.field 0 16 == 0) = false ∧ off.rbit (Reg.STR_STATUS 1) 3 = false ∧
      off.inqOk 1 (off.reg (Reg.STR_SOURCE 1)) (off.reg (Reg.STR_INQ 1)) = true ∧
      off.inqOk 1 (off.reg (Reg.STR_SOURCE 1)) 0 = false ∧
      hub.writeCause (Reg.STR_CTRL 1) w = none ∧ hub.strEnabled 1 = true ∧
      ((hub.strKind 1 == 2 || hub.strKind 1 == 3) && w.field 0 16 == 0) = false ∧
      hub.writeCause (Reg.SNS_CAN_CFG 0) ((hub.reg (Reg.SNS_CAN_CFG 0)).setBit 31 false) = none ∧
      on.writeCause (Reg.SNS_CSI_CFG 0) ((on.reg (Reg.SNS_CSI_CFG 0)).setBit 31 false) = none ∧
      on.rbit (Reg.SNS_CSI_CFG 0) 31 = true ∧
      on.writeCause (Reg.SNS_SPI_CFG 0) ((on.reg (Reg.SNS_SPI_CFG 0)).setBit 31 false) = none ∧
      on.rbit (Reg.SNS_SPI_CFG 0) 31 = true ∧ lan.rbit (Reg.SNS_MAC_CFG 0) 31 = true ∧
      lan.writeCause (Reg.SNS_MAC_CFG 0) ((lan.reg (Reg.SNS_MAC_CFG 0)).setBit 31 false) = none ∧
      hub.writeCause (Reg.SNS_MAC_CFG 0) ((hub.reg (Reg.SNS_MAC_CFG 0)).setBit 31 true) = none ∧
      hub.writeCause (Reg.SNS_ENC_CFG 1) ((hub.reg (Reg.SNS_ENC_CFG 1)).setBit 31 true) = none ∧
      hub.rbit (Reg.SNS_ENC_CFG 1) 31 = false ∧
      hub.writeCause (Reg.SNS_ENC_CFG 0) ((hub.reg (Reg.SNS_ENC_CFG 0)).setBit 31 false) = none ∧
      hub.rbit (Reg.SNS_ENC_CFG 0) 31 = true ∧
      off.writeCause (portReg (.csi 0)) ((off.reg (portReg (.csi 0))).setBit 31 true) = none ∧ off.rbit (portReg (.csi 0)) 31 = false ∧
      off.writeCause (portReg (.spi 0)) ((off.reg (portReg (.spi 0))).setBit 31 true) = none ∧ off.rbit (portReg (.spi 0)) 31 = false ∧
      hub.writeCause (portReg (.can 0)) ((hub.reg (portReg (.can 0))).setBit 31 true) = none := by
  decide +kernel

/-! ## Queues, groups, calibration and pose -/

/-- The result queue is read by the host and holds one word; the injection queue is written by it and empty. -/
def hostQueues : Mach :=
  { up [(Reg.Q_CFG Reg.HRQ, 0x50000001), (Reg.Q_CFG Reg.HIQ, 0x60000001)] with
    resultQ := { l := 4, drainEnds := [4] } }

theorem witness_HostQueueAccess :
    let m := hostQueues
    let full := { m with injectQ := { f := 1024, rl := 4, l := 8 } }
    let open_ := { m with injectQ := { f := 8 } }
    m.blockPosted (Reg.Q_CMD Reg.HRQ) = false ∧ m.blockPosted (Reg.Q_WDATA Reg.HIQ) = false ∧
      open_.injectQ.recordOpen = true ∧ open_.injectQ.fillEnds.length < 64 ∧
      m.hqConsumer .result = true ∧ m.hqProducer .result = false ∧ m.hqConsumer .inject = false ∧ m.hqProducer .inject = true ∧
      m.resultQ.rd ≠ m.resultQ.l ∧ (up []).resultQ.rd = (up []).resultQ.l ∧ m.injectQ.recordOpen = false ∧
      m.injectTarget = none ∧ (m.injectQ.settle (m.hqGeom .inject) m.injectQ.recordOpen).f + 4 ≤ (m.hqGeom .inject).size ∧
      (full.hqGeom .inject).size < (full.injectQ.settle (full.hqGeom .inject) full.injectQ.recordOpen).f + 4 := by
  decide +kernel

/-- Stage queue 4 is fed by the injection queue, stage queue 9 by group 0, in HBM. -/
def stages : Mach :=
  { hostQueues with
    stageCfg := [(4, some { producer := .inject, consumer := 1, base := 0x10000, basin := 1024 }),
      (9, some { producer := .group 0, consumer := 1, base := 0x20000, basin := 1024 })],
    injectQ := { f := 8, fillEnds := [8], l := 12, rd := 4, rl := 12, drainEnds := [4, 12], flushPending := true } }

theorem witness_QueueSwapForward :
    let full := { stages with stageQ := [(4, { f := 1024, l := 8 })] }
    stages.stageCfgOf 4 = some { producer := .inject, consumer := 1, base := 0x10000, basin := 1024 } ∧
      (stages.hostq .inject).canSwap (stages.hqGeom .inject) (stages.hostq .inject).recordOpen = true ∧
      (stages.injectTarget.map Prod.fst) = some 4 ∧ stages.injectQ.nextRecord = some 8 ∧
      ((stages.stage 4).settle { base := 0x10000, size := 1024 } false).fits { base := 0x10000, size := 1024 } 8 = true ∧
      ((full.stage 4).settle { base := 0x10000, size := 1024 } false).fits { base := 0x10000, size := 1024 } 8 = false := by
  decide +kernel

/-- Group 0 of stages: periodic, T0 1 ms ahead; group 1 triggered by the host. -/
def groups : Mach :=
  let m := { stages with groups := [(1, { running := true }), (0, { running := true, sched := [{ k := 0, tk := 5000000000 }] })] }
  [(Reg.FUS_T0 0, 705032704 + 1000000), (Reg.FUS_PERIOD 0, 50000000), (Reg.FUS_CTRL 1, 0xC0000000)].foldl
    (fun m p => m.setReg p.1 p.2) m

theorem witness_GroupSchedules :
    let m := groups
    m.blockPosted (Reg.FUS_TRIG 0) = false ∧
      m.writeCause (Reg.FUS_CTRL 0) ((m.reg (Reg.FUS_CTRL 0)).setBit 31 true) = none ∧ m.rbit (Reg.FUS_CTRL 0) 31 = false ∧
      (m.group 0).draining = false ∧ (m.releaseQueue 0).isSome = true ∧ (m.releaseQueue 1).isSome = false ∧
      (m.reg (Reg.FUS_T0 0) - m.time.count.setWidth 32).toInt = 1000000 ∧
      m.writeCause (Reg.FUS_CTRL 1) ((m.reg (Reg.FUS_CTRL 1)).setBit 31 false) = none ∧ m.rbit (Reg.FUS_CTRL 1) 31 = true ∧
      m.triggered 1 = true ∧ (m.group 1).running = true ∧ m.fld (Reg.FUS_CTRL 1) 28 2 = 0 ∧
      m.gapOk 1 (m.ext64 705032704) = true ∧ m.triggered 0 = false := by
  decide +kernel

theorem witness_InstantsRelease :
    let due := (groups.setReg (Reg.FUS_CTRL 0) 0x80000000).setGroup 0
      { running := true, sched := [{ k := 0, tk := 5000000000, due := true, pending := true }] }
    let late := due.setGroup 0 { running := true, sched := [{ k := 0, tk := 1000, due := true, pending := true }] }
    (∀ i ∈ (groups.group 0).sched, i.due = true → i.pending = true) ∧ due.cal.swap = none ∧
      (due.stageCfgOf 9).isSome = true ∧ groups.runs 150 = true ∧ groups.nextDue 0 = some { k := 0, tk := 5000000000 } ∧
      (5000000000 : BitVec 64).toNat ≤ groups.time.count.toNat ∧
      late.waitOver 0 { k := 0, tk := 1000, due := true, pending := true } = true ∧
      due.judge 0 = some ({ k := 0, tk := 5000000000, due := true, pending := true }, [], true, true) ∧
      due.releaseQueue 0 = some 9 := by
  decide +kernel

/-- Stream 7 takes CAN and holds an entry with a latency of 1 µs and is in the swap set; the CRC of stream 8's entry is wrong; tick 4,998 is due, and before
it tick 4,997 was computed. -/
def swapping : Mach :=
  { up [] with regs := [(Reg.STR_SOURCE 7, 0x60000000), (Reg.CAL_SHADOW 7 1, 1000), (Reg.CAL_SHADOW 7 63, 0xB805077E),
    (Reg.CAL_SHADOW 8 63, 5), (Reg.CAL_SWAP_SET 0, 0x80)] }

theorem witness_CalibrationAndPose :
    let m := swapping
    let p := { up [(Reg.CAL_POSE_CFG, 0x80000000)] with
      cal := { pose := { next := some 4998, first := 4998, ticks := [{ n := 4997 }] } } }
    m.blockPosted Reg.CAL_CTRL = false ∧ p.blockPosted Reg.CAL_CTRL = false ∧
      m.cal.swap = none ∧ m.swapSet.testBit 7 = true ∧ m.swapSet.testBit 8 = false ∧ m.swapSet = 0x80 ∧
      p.runs 150 = true ∧ p.cal.pose.next = some 4998 ∧
      4998 * 1000000 + p.fld Reg.CAL_POSE_CFG 0 13 * 1000 ≤ p.time.count.toNat ∧
      (p.cal.pose.ticks.head?.map PoseTick.n) = some 4997 ∧ (up []).cal.pose.ticks.head? = none := by
  decide +kernel

theorem witness_CalibrationAndPose_valid : calCause (swapping.calEntry true 7) (swapping.strKind 7) = 0 := by
  unfold calCause; rw [crc32c_eq]; decide +kernel

theorem witness_CalibrationAndPose_invalid : calCause (swapping.calEntry true 8) (swapping.strKind 8) ≠ 0 := by
  unfold calCause; rw [crc32c_eq]; decide +kernel

/-! ## Commands at the head of a queue -/

/-- Queue 0, bound to core 0, holds one command at address 0 of HBM; `l` lists its bytes that are not 0, and after them
the other bytes of memory. -/
def headed (regs : List (Nat × Word)) (l : List (Nat × Byte)) : Mach :=
  { up ([(Reg.CQ_CTRL 0, 0x80000000), (Reg.CQ_TAIL 0, 1)] ++ regs) with mem := l }

/-- The head of queue 0 is a command that starts, as a Bool. -/
def starting (m : Mach) (cls op : Nat) : Bool :=
  m.mayStart 0 && cmdClass (m.headBytes 0) == cls && cmdOp (m.headBytes 0) == op &&
    (m.headErr 0 (m.headBytes 0)).toBool && m.goes 0

theorem ok_of {x : Except CmdErr Unit} (h : x.toBool = true) : x = .ok () := by
  cases x with
  | error e => cases h
  | ok u => rfl

theorem startable_of {m : Mach} {cls op : Nat} (h : starting m cls op = true) : m.startable 0 cls op := by
  simp only [starting, Bool.and_eq_true, beq_iff_eq] at h
  exact ⟨h.1.1.1.1, h.1.1.1.2, h.1.1.2, ok_of h.1.2, h.2⟩

/-- Point tables 0 and voxel tables 0 to 2 enabled; 0 and 1 of one epoch's cells, 100 and 200 mm, 2 accumulated. -/
def pointRegs : List (Nat × Word) :=
  [(Reg.PNT_PT_CFG 0, 0x80000000), (Reg.PNT_PT_BASE_LO 0, 0x10000000), (Reg.PNT_VT_CFG 0, 0x80006400),
    (Reg.PNT_VT_BASE_LO 0, 0x20000000), (Reg.PNT_VT_CFG 1, 0x8000C800), (Reg.PNT_VT_BASE_LO 1, 0x30000000),
    (Reg.PNT_VT_CFG 2, 0xC0006400), (Reg.PNT_VT_BASE_LO 2, 0x40000000)]

/-- A POINT command of an operation without error, at the head of queue 0. -/
def pointGoes (m : Mach) (op : Nat) : Prop :=
  m.startable 0 4 op ∧ firstErr (m.pointErrs (m.queueCore 0) (m.headBytes 0)) = .ok ()

theorem pointGoes_of {m : Mach} {op : Nat}
    (h : (starting m 4 op && (firstErr (m.pointErrs (m.queueCore 0) (m.headBytes 0))).toBool) = true) : pointGoes m op := by
  rw [Bool.and_eq_true] at h
  exact ⟨startable_of h.1, ok_of h.2⟩

def point (l : List (Nat × Byte)) : Mach := headed pointRegs ((0, 4) :: l)

def ptBegin : Mach := point [(0x10, 1), (0x14, 3)]
def ptAppend : Mach := point [(0x10, 2), (0x1C, 1), (0x21, 0x20)]
def ptVoxelise : Mach :=
  point ([(0x10, 3), (0x1C, 1)] ++ (List.range 8).map fun i => (0x28 + i, 0xFF))
/-- One live cell of voxel table 0, bucket 5. -/
def ptCoarsen : Mach := point [(0x10, 4), (0x13, 1), (0x32, 1), (0x20000000 + 32 * 5 + 0x17, 1)]
def ptAge : Mach := point [(0x10, 5), (0x12, 2), (0x32, 1)]
def ptPurge : Mach := point [(0x10, 6), (0x32, 1), (0x20000000 + 32 * 5 + 0x17, 1)]

theorem witness_PointTableCommands :
    (pointGoes ptBegin 1 ∧ ptBegin.beginHeld 0 = false ∧ ptBegin.dropOpen 0 3 = false) ∧
      (pointGoes ptAppend 2 ∧ ptAppend.fld (Reg.PNT_PT_COUNT 0) 0 23 < 3670016) ∧
      (pointGoes ptVoxelise 3 ∧ voxelRows ptVoxelise 0 (ptVoxelise.headBytes 0) = none ∧ binOf (ptVoxelise.vtEdge 0) 0 = some (0, 0) ∧
        inKeyRange 0 0 0 = true ∧ (ptVoxelise.probe 0 (packKey 0 0 0 0)).hit = none ∧
        (ptVoxelise.probe 0 (packKey 0 0 0 0)).free = some (homeBucket (packKey 0 0 0 0))) ∧
      (pointGoes ptCoarsen 4 ∧ (ptCoarsen.liveCells 0) = [5] ∧
        (u16 (ptCoarsen.headBytes 0) 0x32).testBit (keyEpoch (ptCoarsen.cell 0 5).key) = true) ∧
      (pointGoes ptAge 5 ∧ ptAge.fld (Reg.PNT_VT_SWEEP 2) 0 16 ≠ 1) ∧
      (pointGoes ptPurge 6 ∧ ptPurge.listed 0 1 = [5]) :=
  ⟨⟨pointGoes_of (by decide +kernel), by decide +kernel⟩, ⟨pointGoes_of (by decide +kernel), by decide +kernel⟩,
    ⟨pointGoes_of (by decide +kernel), by decide +kernel⟩, ⟨pointGoes_of (by decide +kernel), by decide +kernel⟩,
    ⟨pointGoes_of (by decide +kernel), by decide +kernel⟩, ⟨pointGoes_of (by decide +kernel), by decide +kernel⟩⟩

/-- BEGIN of an instant whose entry is open; AGE of a sweep that has been; PURGE of a whole table. -/
theorem witness_PointTableCommands_again :
    (pointGoes ((ptBegin.setReg (Reg.PNT_DK 0 3) 3).setReg (Reg.PNT_DSTAT 0 3) 1) 1 ∧
        ((ptBegin.setReg (Reg.PNT_DK 0 3) 3).setReg (Reg.PNT_DSTAT 0 3) 1).dropOpen 0 3 = true) ∧
      (pointGoes (ptAge.setReg (Reg.PNT_VT_SWEEP 2) 1) 5 ∧ (ptAge.setReg (Reg.PNT_VT_SWEEP 2) 1).fld (Reg.PNT_VT_SWEEP 2) 0 16 = 1) ∧
      pointGoes (point [(0x10, 6), (0x32, 0xFF), (0x33, 0xFF)]) 6 :=
  ⟨⟨pointGoes_of (by decide +kernel), by decide +kernel⟩, ⟨pointGoes_of (by decide +kernel), by decide +kernel⟩,
    pointGoes_of (by decide +kernel)⟩

theorem witness_PointListCommands :
    pointGoes (point [(0x10, 7), (0x21, 0x20), (0x32, 1)]) 7 ∧
      pointGoes (point [(0x10, 8), (0x1C, 1), (0x21, 0x20), (0x29, 0x40)]) 8 ∧
      pointGoes (point [(0x10, 9), (0x1C, 1), (0x21, 0x20), (0x29, 0x40)]) 9 ∧
      pointGoes (point [(0x10, 10), (0x29, 0x40)]) 10 ∧
      pointGoes (point [(0x10, 11), (0x1C, 1), (0x21, 0x20), (0x29, 0x40), (0x34, 32)]) 11 ∧
      pointGoes (point [(0x10, 12), (0x1C, 1), (0x21, 0x20), (0x29, 0x40), (0x34, 32)]) 12 :=
  ⟨pointGoes_of (by decide +kernel), pointGoes_of (by decide +kernel), pointGoes_of (by decide +kernel),
    pointGoes_of (by decide +kernel), pointGoes_of (by decide +kernel), pointGoes_of (by decide +kernel)⟩

/-- The non-zero bytes of a tensor descriptor in the local store of core 0, at `at_`: tiles, no conversion, no walk. -/
def desc (at_ page fmt bits rowsHi rowsLo colsHi colsLo : Nat) : List (Nat × Byte) :=
  ([(1, page), (5, fmt), (6, bits), (8, rowsLo), (9, rowsHi), (12, colsLo), (13, colsHi), (0x18, 0xFF), (0x1C, 1), (0x1E, 1),
    (0x2C, 1)] ++ (List.range 10).map fun i => (0x30 + i, 0xFF)).map fun (p : Nat × Nat) => (2 ^ 36 + at_ + p.1, BitVec.ofNat 8 p.2)

def tensor (l : List (Nat × Byte)) (act wgt out : List (Nat × Byte)) : Mach :=
  headed [] ([(0, 1)] ++ l ++ act ++ wgt ++ out)

def tensorGoes (m : Mach) (op : Nat) : Prop := m.startable 0 1 op ∧ tensorCheck m 0 (m.headBytes 0) = .ok ()

theorem tensorGoes_of {m : Mach} {op : Nat}
    (h : (starting m 1 op && (tensorCheck m 0 (m.headBytes 0)).toBool) = true) : tensorGoes m op := by
  rw [Bool.and_eq_true] at h
  exact ⟨startable_of h.1, ok_of h.2⟩

/-- INT8 by 8-bit weights, one tile by one tile. -/
def matmul1 : Mach :=
  tensor [(0x10, 1), (0x13, 8), (0x18, 1), (0x1A, 1), (0x1C, 1), (0x24, 0x40), (0x28, 0x80), (0x2D, 0x10)]
    (desc 0 0x20 0 0 0 32 0 32) (desc 0x40 0x30 10 8 0 32 0 32) (desc 0x80 0x40 0 0 0 32 0 32)

/-- The same of a vector: 32 output columns of tiles. -/
def thin1 : Mach :=
  tensor [(0x10, 2), (0x13, 8), (0x18, 1), (0x1A, 1), (0x1C, 1), (0x24, 0x40), (0x28, 0x80), (0x2D, 0x10)]
    (desc 0 0x20 0 0 0 32 0 32) (desc 0x40 0x30 10 8 0 32 4 0) (desc 0x80 0xC0 0 0 0 32 4 0)

/-- INT32 words to INT8. -/
def outflow1 : Mach :=
  tensor [(0x10, 3), (0x11, 6), (0x18, 1), (0x1A, 1), (0x1C, 1), (0x28, 0x80)]
    (desc 0 0x20 6 0 0 32 0 32) [] (desc 0x80 0x40 0 0 0 32 0 32)

theorem witness_TensorCommands :
    (tensorGoes matmul1 1 ∧
      let t := matmul1.readTCmd 0 0 (matmul1.headBytes 0)
      t.path = .int ∧ t.cont = false ∧ t.drain = false ∧ t.mT = 1 ∧ t.nT = 1 ∧ t.kS = 1) ∧
      (tensorGoes thin1 2 ∧ (thin1.readTCmd 0 0 (thin1.headBytes 0)).nT = 1) ∧
      tensorGoes outflow1 3 ∧
        let t := outflow1.readTCmd 0 0 (outflow1.headBytes 0)
        t.useCol = false ∧ t.useTable = false ∧ t.out.rowMajor = false ∧ (t.out.tile 0 0).tr = 0 :=
  ⟨⟨tensorGoes_of (by decide +kernel), by decide +kernel⟩, ⟨tensorGoes_of (by decide +kernel), by decide +kernel⟩,
    tensorGoes_of (by decide +kernel), by decide +kernel⟩

def vectorGoes (m : Mach) (op : Nat) : Prop := m.startable 0 2 op ∧ vectorCheck m 0 (m.headBytes 0) = .ok ()

theorem vectorGoes_of {m : Mach} {op : Nat}
    (h : (starting m 2 op && (vectorCheck m 0 (m.headBytes 0)).toBool) = true) : vectorGoes m op := by
  rw [Bool.and_eq_true] at h
  exact ⟨startable_of h.1, ok_of h.2⟩

/-- A VECTOR command over the local store: src_a at 0x1000, src_b at 0x4000, dst at 0x8000. -/
def vector (l rest : List (Nat × Byte)) : Mach :=
  headed pointRegs ([(0, 2), (0x12, 1), (0x13, 1), (0x18, 1), (0x1D, 0x10), (0x21, 0x40), (0x25, 0x80)] ++ l ++ rest)

/-- CHAIN of one operation on v0 and v1; SCAN with a sum per item; the others over INT32. -/
def chain1 : Mach :=
  vector [(0x10, 1), (0x14, 2)] [(2 ^ 36, 1), (2 ^ 36 + 1, 5), (2 ^ 36 + 7, 4)]
def gather1 : Mach := vector [(0x10, 2), (0x11, 1), (0x14, 2)] []
def scatter1 : Mach := vector [(0x10, 3), (0x11, 1), (0x14, 2)] []
def probe1 : Mach := vector [(0x10, 4), (0x14, 2), (0x1B, 0)] []
def xform1 : Mach := vector [(0x10, 5), (0x14, 2)] []
def sort1 : Mach := vector [(0x10, 6), (0x11, 1), (0x14, 64), (0x1A, 0), (0x1B, 15)] []
def scan1 : Mach := vector [(0x10, 7), (0x11, 1), (0x14, 2), (0x1A, 12)] []
def reduce1 : Mach := vector [(0x10, 8), (0x11, 1), (0x14, 2)] []

theorem witness_VectorCommands :
    vectorGoes chain1 1 ∧ vectorGoes gather1 2 ∧ vectorGoes scatter1 3 ∧ vectorGoes probe1 4 ∧ vectorGoes xform1 5 ∧
      (vectorGoes sort1 6 ∧ (sort1.readVCmd 0 (sort1.headBytes 0)).count = 64) ∧
      (vectorGoes scan1 7 ∧ (scan1.readVCmd 0 (scan1.headBytes 0)).items = 1) ∧
      vectorGoes reduce1 8 ∧ (reduce1.readVCmd 0 (reduce1.headBytes 0)).items = 1 :=
  ⟨vectorGoes_of (by decide +kernel), vectorGoes_of (by decide +kernel), vectorGoes_of (by decide +kernel),
    vectorGoes_of (by decide +kernel), vectorGoes_of (by decide +kernel),
    ⟨vectorGoes_of (by decide +kernel), by decide +kernel⟩, ⟨vectorGoes_of (by decide +kernel), by decide +kernel⟩,
    vectorGoes_of (by decide +kernel), by decide +kernel⟩

def moveGoes (m : Mach) (op : Nat) : Prop :=
  m.startable 0 3 op ∧ firstErr (m.moveErrs 0 (m.headBytes 0)) = .ok ()

theorem moveGoes_of {m : Mach} {op : Nat}
    (h : (starting m 3 op && (firstErr (m.moveErrs 0 (m.headBytes 0))).toBool) = true) : moveGoes m op := by
  rw [Bool.and_eq_true] at h
  exact ⟨startable_of h.1, ok_of h.2⟩

/-- COPY of two rows of 8 bytes, 16 apart, from 0x1000 to 0x2000; FILL of one row. -/
def copy1 : Mach :=
  headed [] [(0, 3), (0x10, 1), (0x12, 0xFF), (0x14, 2), (0x18, 8), (0x21, 0x10), (0x29, 0x20), (0x30, 16), (0x34, 16)]
def fill1 : Mach := headed [] [(0, 3), (0x10, 2), (0x12, 0xFF), (0x14, 1), (0x18, 8), (0x1C, 7), (0x29, 0x20)]

/-- Stage queue 4 of 1 KB basins in HBM, queue 0 its producer, then its consumer. -/
def put1 (full : Bool) : Mach :=
  { headed [] [(0, 3), (0x10, 3), (0x12, 4), (0x14, 1), (0x18, 8), (0x21, 0x10)] with
    stageCfg := [(4, some { producer := .queue 0, consumer := 1, base := 0x10000, basin := 1024 })],
    stageQ := if full then [(4, { f := 1024, l := 8 })] else [] }
def get1 : Mach :=
  { headed [] [(0, 3), (0x10, 4), (0x12, 4), (0x14, 1), (0x18, 8), (0x29, 0x20)] with
    stageCfg := [(4, some { producer := .queue 1, consumer := 0, base := 0x10000, basin := 1024 })],
    stageQ := [(4, { l := 8, drainEnds := [8] })] }

/-- A UNIT of group 0 that waits for a weight patch. -/
def heldUnit1 : Mach :=
  let m := headed [] [(0, 7), (0x10, 2)]
  { m with fpl := { m.fpl with patch := some { seq := 1, layers := [], groups := [(0, 0)] } } }

/-- A SYNC or META command. -/
def sync (cls : Byte) (l : List (Nat × Byte)) : Mach := headed [] ([(0, cls)] ++ l)

theorem witness_MoveSyncMetaCommands :
    moveGoes copy1 1 ∧ moveGoes fill1 2 ∧
      ((put1 false).mayStart 0 = true ∧ isStagePut ((put1 false).headBytes 0) = true ∧
        (put1 false).headErr 0 ((put1 false).headBytes 0) = .ok () ∧ (put1 false).goes 0 = true) ∧
      ((put1 true).mayStart 0 = true ∧ (put1 true).headErr 0 ((put1 true).headBytes 0) = .ok () ∧ (put1 true).waitReason 0 = 5) ∧
      (get1.startable 0 3 4 ∧ (get1.stage 4).nextRecord = some 8 ∧ 8 ≤ moveLen (get1.headBytes 0)) ∧
      ((sync 6 [(0x10, 1)]).startable 0 6 1 ∧ (sync 6 [(0x10, 2), (0x11, 63)]).startable 0 6 2 ∧
        (sync 6 [(0x10, 3)]).startable 0 6 3 ∧ (sync 6 [(0x10, 4)]).startable 0 6 4 ∧
        (sync 6 [(0x10, 5), (0x11, 16)]).startable 0 6 5) ∧
      (sync 7 [(0x10, 1)]).startable 0 7 1 ∧ (sync 7 [(0x10, 2), (0x11, 15)]).startable 0 7 2 ∧
      (sync 7 [(0x10, 2)]).patchHolds ((sync 7 [(0x10, 2)]).headBytes 0) = false ∧
      (heldUnit1.startable 0 7 2 ∧ heldUnit1.patchHolds (heldUnit1.headBytes 0) = true) ∧
      (sync 7 [(0x10, 3)]).startable 0 7 3 ∧ (sync 7 [(0x10, 4), (0x19, 0x10)]).startable 0 7 4 :=
  ⟨moveGoes_of (by decide +kernel), moveGoes_of (by decide +kernel),
    ⟨by decide +kernel, by decide +kernel, ok_of (by decide +kernel), by decide +kernel⟩,
    ⟨by decide +kernel, ok_of (by decide +kernel), by decide +kernel⟩,
    ⟨startable_of (by decide +kernel), by decide +kernel⟩,
    ⟨startable_of (by decide +kernel), startable_of (by decide +kernel), startable_of (by decide +kernel),
      startable_of (by decide +kernel), startable_of (by decide +kernel)⟩,
    startable_of (by decide +kernel), startable_of (by decide +kernel), by decide +kernel,
    ⟨startable_of (by decide +kernel), by decide +kernel⟩, startable_of (by decide +kernel), startable_of (by decide +kernel)⟩

/-- Zeros written above everything that memory lists change nothing. -/
theorem setBytes_zeros (l : List Byte) (m : Mach) (a : Nat) (hl : ∀ b ∈ l, b = 0) (hm : ∀ p ∈ m.mem, p.1 < a) :
    m.setBytes a l = m := by
  induction l generalizing a with
  | nil => rfl
  | cons b bs ih =>
    have hb : b = 0 := hl b (by simp)
    have hs : m.setByte a b = m := by
      have hf : srem a m.mem = m.mem := by
        refine List.filter_eq_self.mpr fun p hp => ?_
        have := hm p hp
        simp only [bne_iff_ne, ne_eq]; omega
      simp only [Mach.setByte, sput, hb, memZero, if_true, hf]
    rw [Mach.setBytes, hs]
    exact ih (a + 1) (fun x hx => hl x (by simp [hx])) fun p hp => by have := hm p hp; omega

theorem clearSlot_zeros (m : Mach) (c n q : Nat) (hm : ∀ p ∈ m.mem, p.1 < slotBase c n) :
    m.clearSlot c n q = m.setSlot c n { owner := some q } := by
  have hl : ∀ b ∈ (List.range 1024).flatMap fun _ => wordBytes 0, b = (0 : Byte) := by
    intro b hb
    obtain ⟨_, _, h⟩ := List.mem_flatMap.mp hb
    exact (by decide : ∀ b ∈ wordBytes 0, b = (0 : Byte)) b h
  simp only [Mach.clearSlot, Mach.mapSlot, setBytes_zeros _ m _ hl hm]

/-- A descriptor of INT8 or 8-bit weights, one tile. -/
def tile1 (base fmt bits : Nat) : TDesc :=
  { base := base, space := 0, fmt := fmt, bits := bits, flags := 0, rows := 32, cols := 32, tr0 := 0, tc0 := 0, pad := 0,
    cvt := 255, pitch := 0, count1 := 1, count2 := 1, count3 := 1, stride1 := 0, stride2 := 0, stride3 := 0,
    stages := List.replicate 10 255, clean := true }

def matmulCmd : TCmd :=
  { core := 0, q := 0, b := matmul1.headBytes 0, act := tile1 0x2000 0 0, wgt := tile1 0x3000 10 8, out := tile1 0x4000 0 0,
    golden := false }

theorem matmul1_taken : (matmul1.take 0 (matmul1.headBytes 0) []).readTCmd 0 0 (matmul1.headBytes 0) = matmulCmd := by
  decide +kernel

/-- Weights of zeros, and a checksum record of zeros: the premise of an integer step. -/
theorem witness_TensorCommands_step :
    let m := matmul1.take 0 (matmul1.headBytes 0) []
    let t := m.readTCmd 0 0 (matmul1.headBytes 0)
    let m2 := m.clearSlot t.core t.s0 t.q
    t.depth = 32 ∧ ∀ d, d < 32 → m2.word (t.auxBase + u32 t.b 0x2C + 4 * d) =
      BitVec.ofInt 32 ((List.range 32).map fun j => m2.wgtInt t d j).sum := by
  intro m t m2
  have ht : t = matmulCmd := matmul1_taken
  have h : m2 = m.setSlot t.core t.s0 { owner := some t.q } := clearSlot_zeros m _ _ _ (by rw [ht]; decide +kernel)
  rw [h, ht]
  refine ⟨by decide +kernel, ?_⟩
  decide +kernel

def fuseGoes (m : Mach) (op : Nat) : Prop := m.startable 0 5 op ∧ fuseCheck m 0 (m.headBytes 0) = .ok ()

theorem fuseGoes_of {m : Mach} {op : Nat}
    (h : (starting m 5 op && (fuseCheck m 0 (m.headBytes 0)).toBool) = true) : fuseGoes m op := by
  rw [Bool.and_eq_true] at h
  exact ⟨startable_of h.1, ok_of h.2⟩

/-- Group 0 with a grid, a scanner in slot 0, tracks 0 to 63 and a route to the host for every kind. -/
def fuse (l : List (Nat × Byte)) : Mach :=
  headed [(Reg.EGR_GRID_CFG 0, 0x80000101), (Reg.FUS_MEM 0 0, 0x80000000), (Reg.EGR_TRK_CFG, 0x80000000),
    (Reg.EGR_TRK_RANGE 0, 64), (Reg.EGR_ROUTE 0, 7)] ((0, 5) :: l)

theorem witness_FusionCommands :
    (fuseGoes (fuse [(0x10, 1), (0x12, 0xFF)]) 1 ∧ (fuse []).copyBusy 0 0 1 = false) ∧
      fuseGoes (fuse [(0x10, 2), (0x21, 0x20)]) 2 ∧ fuseGoes (fuse [(0x10, 3), (0x12, 0xFF)]) 3 ∧
      (fuseGoes (fuse [(0x10, 4), (0x12, 0xFF), (0x1C, 1), (0x21, 0x20), (0x29, 0x40)]) 4 ∧
        0x2000 + 32 * 1 ≤ fuseB 0 ((fuse [(0x10, 4), (0x29, 0x40)]).headBytes 0)) ∧
      (fuseGoes (fuse [(0x10, 5), (0x12, 0xFF), (0x21, 0x20), (0x29, 0x40)]) 5 ∧ (fuse []).copyBusy 0 0 4 = false ∧
        (fuse []).trkFirst 0 + (fuse []).trkCount 0 ≤ 4096) :=
  ⟨⟨fuseGoes_of (by decide +kernel), by decide +kernel⟩, fuseGoes_of (by decide +kernel), fuseGoes_of (by decide +kernel),
    ⟨fuseGoes_of (by decide +kernel), by decide +kernel⟩, fuseGoes_of (by decide +kernel), by decide +kernel⟩

/-- EMIT of a grid for instant 0; the same with instant 7 not yet left, and with instant 1 already gone; a held EMIT of
the instant whose turn it is, and one behind an instant past its deadline. -/
def emit0 : Mach := fuse [(0x10, 6), (0x12, 0xFF), (0x13, 1)]
def emit0Held : Mach := emit0.setGroup 0 { open_ := [{ k := 7, tk := 1000 }] }
def heldEmit (open_ : Word) : Mach :=
  { emit0.setGroup 0 { open_ := [{ k := open_, tk := 1000 }] } with
    cq := [(0, { started := [{ num := 0, bytes := List.replicate 64 0 }] })]
    egr := { emit0.egr with held := [(0, [{ q := 0, num := 0, k := 0 }])] } }

/-- A message packet of one datagram: 8 bytes of serial, index and count, then its header with its CRC and its record. -/
def message : List Byte :=
  let head : List Byte := [5, 0, 0, 0, 0, 4] ++ List.replicate 22 0
  let record : List Byte := [0, 0xFF, 0, 0]
  [0, 0, 0, 0, 0, 0, 1, 0] ++ head ++ leBytes 4 (crcFold (head ++ record) 0xFFFFFFFF ^^^ 0xFFFFFFFF) ++ record

/-- Stage queue 3 takes messages, which come to port 6699. -/
def messages : Mach :=
  { lan.setReg Reg.EGR_MSG_CFG 0x21A2B with
    stageCfg := [(3, some { producer := .messages, consumer := 1, base := 0x10000, basin := 1024 })] }

theorem witness_EgressPackets :
    (fuseGoes emit0 6 ∧ emit0.mustHold 0 0 = false ∧ emit0.passed 0 0 = false ∧ emit0.ejected = false ∧
        emit0.inLoss 0 = false ∧ emit0Held.mustHold 0 0 = true ∧
        (emit0.setGroup 0 { left := some 1 }).mustHold 0 0 = false ∧ (emit0.setGroup 0 { left := some 1 }).passed 0 0 = true) ∧
      ((emit0Held.setGroup 0 { open_ := [{ k := 0, tk := 1000, discarded := true }] }).mustHold 0 0 = false) ∧
      ((heldEmit 0).runs 151 = true ∧ (heldEmit 0).emitReady 0 =
        some ({ q := 0, num := 0, k := 0 }, { num := 0, bytes := List.replicate 64 0 })) ∧
      (((heldEmit 7).group 0).open_ = [{ k := 7, tk := 1000 }] ∧ (heldEmit 7).heldEmits 0 = [{ q := 0, num := 0, k := 0 }] ∧
        (0 : Word) ≠ 7 ∧ ((heldEmit 7).reg (Reg.FUS_DEADLINE 0)).toNat * 1000 ≤ ((heldEmit 7).time.count - 1000).toInt) ∧
      (messages.macUp 0 = true ∧ messages.isMessage (dgram message) = true ∧ messages.unsupported 0 (dgram message) = false ∧
        messages.reasm 0 = [] ∧ 8 ≤ message.length ∧ u16 message 4 = 0 ∧ u16 message 6 = 1 ∧
        (dgram message).intact = true ∧ ({ dgram message with intact := false } : Datagram).intact = false ∧
        (∀ r ∈ messages.reasm 0, r.src ≠ (dgram message).srcIp) ∧ (dgram []).payload.length < 8 ∧
        (message.drop 8).length = 36 ∧ u8 (message.drop 8) 0 = 5 ∧ fieldAt (message.drop 8) 5 3 + 32 = 36 ∧
        u8 (message.drop 8) 0x21 = 0xFF ∧ messages.msgQueue = some 3 ∧
        (messages.stage 3).fits { base := 0x10000, size := 1024 } 36 = true) :=
  ⟨⟨fuseGoes_of (by decide +kernel), by decide +kernel⟩, by decide +kernel, by decide +kernel, by decide +kernel,
    by decide +kernel⟩

theorem witness_EgressPackets_crc :
    w32 (message.drop 8) 0x1C = crc32c ((message.drop 8).take 0x1C ++ (message.drop 8).drop 0x20) := by
  rw [crc32c_eq]; decide +kernel

/-- The second part of that packet comes after its first, once of two parts, once of three; the first comes again. -/
theorem witness_EgressPackets_parts :
    let first := (message.drop 8).take 20
    let held : Nat → Mach := fun n => { messages with egr := { messages.egr with
      reasm := [(0, [{ src := [10, 0, 0, 2], serial := 0, total := n, firstAt := 0, parts := [(0, first)] }])] } }
    let part := fun (i n : Byte) => dgram ([0, 0, 0, 0, i, 0, n, 0] ++ message.drop 28)
    let mine := fun (r : Reasm) => r.src == [10, 0, 0, 2] && r.serial == 0
    (held 2).macUp 0 = true ∧ (held 2).isMessage (part 1 2) = true ∧ (held 2).unsupported 0 (part 1 2) = false ∧
      ((held 2).reasm 0).find? mine = ((held 2).reasm 0).head? ∧ ((held 2).reasm 0).length = 1 ∧
      u16 (part 1 2).payload 4 = 1 ∧ u16 (part 1 2).payload 6 = 2 ∧ u16 (part 0 2).payload 4 = 0 ∧
      first ++ (part 1 2).payload.drop 8 = message.drop 8 ∧ (held 2).msgQueue = some 3 ∧
      (held 3).isMessage (part 1 3) = true ∧ u16 (part 1 3).payload 6 = 3 ∧ [(0, first)].length + 1 ≠ 3 := by
  decide +kernel

/-- A queue that may be rung; one that is disabled, drains, or whose ring lies outside HBM; one that stopped on an error;
one with a command in flight. -/
theorem witness_QueuesOfCommands :
    let m := headed [(Reg.CQ_CTRL 1, 0)] []
    let c : Started := { num := 0, bytes := List.replicate 64 0 }
    let err := m.setCmdq 0 { error := true }
    let busy := m.setCmdq 0 { started := [c] }
    m.blockPosted (Reg.CQ_CMD 0) = false ∧ m.port.posted = [] ∧ m.writeCause (Reg.CQ_TAIL 0) 1 = none ∧ m.rbit (Reg.CQ_CFG 0) 31 = false ∧ 0 ≤ ((1 : Word) - m.reg (Reg.CQ_TAIL 0)).toInt ∧
      ((1 : Word) - m.reg (Reg.CQ_DONE 0)).toNat ≤ 2 ^ m.ringLog 0 ∧ 2 ^ m.ringLog 0 < ((0x10001 : Word) - m.reg (Reg.CQ_DONE 0)).toNat ∧
      m.writeCause (Reg.CQ_CTRL 1) ((m.reg (Reg.CQ_CTRL 1)).setBit 31 true) = none ∧ m.qEnabled 1 = false ∧
      (m.cmdq 1).draining = false ∧ m.ringInside 1 = true ∧ (m.setReg (Reg.CQ_BASE_HI 1) 15).ringInside 1 = false ∧
      m.writeCause (Reg.CQ_CTRL 0) ((m.reg (Reg.CQ_CTRL 0)).setBit 31 false) = none ∧ m.qEnabled 0 = true ∧
      (m.cmdq 0).started = [] ∧ (m.cmdq 0).redo = none ∧ (err.cmdq 0).error = true ∧ (err.cmdq 0).ahead = [] ∧
      err.reg (Reg.CQ_ERRPOS 0) = err.reg (Reg.CQ_DONE 0) ∧ (m.cmdq 0).error = false ∧
      m.writeCause Reg.CQ_CSIG_RAISE 16 = none ∧ (busy.cmdq 0).started.find? (fun d => d.num == c.num) = some c ∧
      busy.heldEmit 0 0 = false ∧ busy.runs (busy.unitIsland 0 c.bytes) = true ∧ c.num = busy.reg (Reg.CQ_DONE 0) ∧ c.stopped = false ∧
      ({ c with stopped := true } : Started).stopped = true := by
  decide +kernel

/-- A VECTOR command in flight holds a context. -/
theorem witness_QueuesOfCommands_vector :
    let c : Started := { num := 0, bytes := 2 :: List.replicate 63 0 }
    let m := { headed [] [] with cq := [(0, { started := [c] })], contexts := [(5, { state := .ready, queue := 0, num := 0 })] }
    cmdClass c.bytes = 2 ∧ (m.cmdq 0).started.find? (fun d => d.num == c.num) = some c ∧ m.heldEmit 0 0 = false ∧
      m.runs (m.unitIsland 0 c.bytes) = true ∧ m.holdsContext 0 0 = true := by
  decide +kernel

/-! ## Floorplans, Show Home and the safety supervisor -/

/-- An image of 64 bytes at 0x1000 that is none, in phase n of a move-in. -/
def image (phase : Word) : Mach := up [(Reg.FPL_ADDR_LO, 0x1000), (Reg.FPL_LEN, 64), (Reg.FPL_STATUS, 0x10 + 2 * phase)]

theorem witness_FloorplanRequests :
    let m := image 0
    let owner := m.setReg Reg.FPL_STATUS 0
    let nand := m.setReg Reg.FPL_SRC 1
    let storing : Mach := { m with fpl := { m.fpl with storing := some (3, [1]) } }
    m.blockPosted Reg.FPL_CTRL = false ∧
      m.phase = 0 ∧ m.fpl.patch.isSome = false ∧ m.still = false ∧ m.stagingOk = true ∧ m.fld Reg.FPL_SRC 0 2 ≠ 1 ∧
      nand.fld Reg.FPL_SRC 0 2 = 1 ∧ nand.phase = 0 ∧ (nand.stagingFor nand.namedImage.length).isSome = true ∧
      ((nand.setReg Reg.FPL_STATUS 0).stagingFor 64) = none ∧ owner.stagingOk = false ∧
      (m.checkPatch m.namedImage).toBool = false ∧ (image 1).phase = 1 ∧ (image 4).phase = 4 ∧ m.fpl.storing = none ∧
      m.hold 6 = false ∧ (m.setReg Reg.SAFE_HOLD 0x40).hold 6 = true ∧
      m.fld Reg.SEC_NAND_STATUS 24 8 < 100 ∧ storing.mgmtRuns = true ∧ storing.fpl.storing = some (3, [1]) := by
  decide +kernel

/-- What an image holds is signed, so no concrete one verifies (log entry 10): the refused image, Show Home, and a patch
that has passed. -/
theorem witness_FloorplanChanges :
    let m := image 1
    let layer : WeightRec := { layer := 0, group := 3, size := 4, master := 0x2000, crc := 0, dests := [] }
    let patch : Mach := { m with fpl := { m.fpl with patch := some { seq := 1, layers := [(layer, [1, 2, 3, 4])], groups := [(3, 0)] } } }
    m.mgmtRuns = true ∧ m.still = false ∧ (m.setReg Reg.DBG_STATUS 0x10).still = true ∧ m.phase = 1 ∧ (image 4).phase = 4 ∧ (m.checkFloorplan [0]).toBool = false ∧ (image 2).phase = 2 ∧
      (image 2).hold 0 = false ∧ ((image 2).setReg Reg.SAFE_HOLD 1).hold 0 = true ∧
      (patch.fpl.patch.map Patch.groups) = some [(3, 0)] ∧ patch.patchReady 3 0 = true := by
  decide +kernel

/-- The first page of an image of n pages, whose sections are the required ones: section 0x08 has len bytes, the others none. -/
def firstPage (n len : Nat) : List Byte :=
  let head : List (Nat × Byte) := [(0, 0x53), (1, 0x56), (2, 0x46), (3, 0x50), (4, 1), (6, 1), (8, 7), (0x19, BitVec.ofNat 8 (16 * n)),
    (0x1C, 64), (0x20, 9), (0x22, 0xA1), (0x23, 16), (0x25, BitVec.ofNat 8 (16 * n))]
  let dir : List (Nat × Byte) := requiredTypes.zipIdx.flatMap fun p => [(64 + 48 * p.2, BitVec.ofNat 8 p.1), (64 + 48 * p.2 + 5, 0x10)]
  let all := (64 + 48 * 3 + 8, BitVec.ofNat 8 len) :: head ++ dir
  ((List.range 496).map fun i => (all.find? fun p => p.1 == i).elim 0 Prod.snd) ++ List.replicate 3600 0

/-- Nothing in its sections. -/
def emptyImage : List Byte := firstPage 1 0

/-- The module in phase 3. -/
def loading : Mach := { image 3 with fpl := { (image 3).fpl with staged := some emptyImage } }

set_option maxRecDepth 100000 in
/-- An image with nothing in its sections loads. -/
theorem witness_FloorplanChanges_loads :
    loading.mgmtRuns = true ∧ loading.still = false ∧ loading.fpl.staged = some emptyImage ∧ emptyImage ≠ [] ∧ loading.phase = 3 ∧
      ∃ im m', parseImage emptyImage = .ok im ∧ loading.applyImage emptyImage im true = .ok m' := by
  refine ⟨rfl, by decide +kernel, rfl, by decide +kernel, by decide +kernel, ?_⟩
  have h : (match parseImage emptyImage with
      | .ok im => (loading.applyImage emptyImage im true).toBool
      | .error _ => false) = true := by decide +kernel
  split at h
  · rename_i im himg
    refine ⟨im, ?_⟩
    cases hx : loading.applyImage emptyImage im true with
    | ok m' => exact ⟨m', himg, rfl⟩
    | error e => rw [hx] at h; exact absurd h (by simp [Except.toBool])
  · exact absurd h (by decide)

/-- One that writes a register what its block refuses does not. -/
def badImage : List Byte :=
  firstPage 2 12 ++ wordBytes (BitVec.ofNat 32 (Reg.CQ_TAIL 0)) ++ wordBytes 1 ++ wordBytes 0x10001 ++ List.replicate 4084 0

set_option maxRecDepth 100000 in
theorem witness_FloorplanChanges_fails :
    ∃ im r, parseImage badImage = .ok im ∧ loading.applyImage badImage im true = .error r := by
  have h : (match parseImage badImage with
      | .ok im => !(loading.applyImage badImage im true).toBool
      | .error _ => false) = true := by decide +kernel
  split at h
  · rename_i im himg
    refine ⟨im, ?_⟩
    cases hx : loading.applyImage badImage im true with
    | error r => exact ⟨r, himg, rfl⟩
    | ok m' => rw [hx] at h; exact absurd h (by simp [Except.toBool])
  · exact absurd h (by decide)

/-- The registers of a block's segment before they are put in order. -/
def blockRegs (b : Block) : List (Nat × Word) :=
  ((rowsOf b).filter fun r => r.lmask != 0).flatMap fun r => (rowOffsets r).map fun o => (blockBase b + o, r.lmask)

theorem crc_not_covered (n : Nat) : ∀ p ∈ segRegs n, p.1 ≠ Reg.CCHK_REF := by
  have all : ((segBlocks ++ (List.range 8).map Block.clu).all fun b => (blockRegs b).all fun p => p.1 != Reg.CCHK_REF) = true := by
    decide +kernel
  have block : ∀ b ∈ segBlocks ++ (List.range 8).map Block.clu, ∀ p ∈ rwlRegs b, p.1 ≠ Reg.CCHK_REF := by
    intro b hb p hp
    have hp' : p ∈ blockRegs b := by simpa [rwlRegs, blockRegs, List.mem_mergeSort] using hp
    simpa using List.all_eq_true.mp (List.all_eq_true.mp all b hb) p hp'
  intro p hp
  unfold segRegs at hp
  split at hp
  · obtain ⟨k, hk, hp⟩ := List.mem_flatMap.mp hp
    exact block _ (List.mem_append_right _ (List.mem_map_of_mem hk)) p hp
  · split at hp
    · rename_i b hb
      exact block b (List.mem_append_left _ (List.mem_of_getElem? hb)) p hp
    · simp at hp

/-- CCHK_REF is in no segment, so each state has one beside it whose reference is its CRC. -/
theorem configCrc_ref (m : Mach) (v : Word) : (m.setReg Reg.CCHK_REF v).configCrc = m.configCrc := by
  have h : ∀ n, (m.setReg Reg.CCHK_REF v).segBytes n = m.segBytes n := by
    intro n
    unfold Mach.segBytes
    split
    · simp only [List.flatMap]
      congr 1
      refine List.map_congr_left fun p hp => ?_
      rw [Mach.reg_setReg_ne _ (crc_not_covered n p hp)]
    · rfl
  simp only [Mach.configCrc, h]

theorem endHold_fpl (m : Mach) (n : Nat) : (m.endHold n).fpl = m.fpl := by
  unfold Mach.endHold
  dsimp only
  repeat' split
  all_goals rfl

theorem takeCopy_fpl (m : Mach) (h : m.fpl.copyAt = none) : ∃ c, m.takeCopy.fpl = { m.fpl with copy := c } := by
  unfold Mach.takeCopy Mach.copyWords Mach.onFpl
  simp only [h]
  exact ⟨_, rfl⟩

/-- The registers and the CRCs that a commit writes first. -/
def committing (m : Mach) : Mach :=
  let crc := m.configCrc
  let m := ((m.setRBit Reg.CCHK_STATUS 1 true).setRBit Reg.CCHK_STATUS 2 false).setRBit Reg.CCHK_STATUS 3 true
  let m := (m.setReg Reg.CCHK_COMMITTED crc).setReg Reg.CCHK_COUNT (BitVec.ofNat 32 m.configWords)
  (((m.setReg Reg.CCHK_LAST crc).incReg Reg.CCHK_PASSES).bump 432 1).onSafety fun x => { x with
    segCrc := (List.range 19).foldl (fun t n => sput (fun _ => 0) n (crcOut (crcRun 0xFFFFFFFF#32 (m.segBytes n))) t) []
    segment := 0, passOk := true, passCrc := 0xFFFFFFFF, commitAt := some m.time.count }

theorem commit_eq (m : Mach) : m.commit = (((committing m).setOpen false).endHold 8).takeCopy := rfl

theorem bump_fpl (m : Mach) (i n : Nat) : (m.bump i n).fpl = m.fpl := by unfold Mach.bump; split <;> rfl

theorem onSafety_fpl (m : Mach) (f : Safety → Safety) : (m.onSafety f).fpl = m.fpl := rfl

theorem commit_fpl (m : Mach) (h : m.fpl.copyAt = none) : ∃ c, m.commit.fpl = { m.fpl with copy := c } := by
  have hx : (committing m).fpl = m.fpl := by
    simp only [committing, onSafety_fpl, bump_fpl, Mach.incReg, Mach.addReg, Mach.setRBit, Mach.setReg_fpl]
  have hy : (((committing m).setOpen false).endHold 8).fpl = m.fpl := by
    rw [endHold_fpl]
    simp only [Mach.setOpen, Mach.setRBit, Mach.setReg_fpl, hx]
  obtain ⟨c, hc⟩ := takeCopy_fpl (((committing m).setOpen false).endHold 8) (by rw [hy]; exact h)
  exact ⟨c, by rw [commit_eq, hc, hy]⟩

/-- Show Home in phase 4, its configuration as the reference says, and not. -/
theorem witness_FloorplanChanges_commits :
    let m : Mach := { image 4 with fpl := { (image 4).fpl with staged := some [] } }
    let good := m.setReg Reg.CCHK_REF m.configCrc
    let bad := m.setReg Reg.CCHK_REF (~~~ m.configCrc)
    m.phase = 4 ∧ m.fpl.staged = some [] ∧ good.configCrc = good.reg Reg.CCHK_REF ∧ bad.configCrc ≠ bad.reg Reg.CCHK_REF ∧
      ∃ m', good.commit.startPrograms.startAll (enablesOf []) = some m' ∧ m'.fpl.deferred = [] := by
  intro m good bad
  obtain ⟨c, hc⟩ := commit_fpl good rfl
  refine ⟨by decide +kernel, rfl, ?_, ?_, good.commit.startPrograms, rfl, ?_⟩
  · rw [configCrc_ref]; simp [good]
  · rw [configCrc_ref]; simp [bad]
  · rw [Mach.startPrograms, hc]
    show good.commit.fpl.deferred = []
    rw [hc]; rfl

theorem witness_ShowHomeRuns :
    let m : Mach := { image 0 with safety := { (image 0).safety with commitAt := some 0 } }
    let near : Mach := { m with sh := { m.sh with stopAt := some 4900000000 } }
    let late : Mach := { m with sh := { m.sh with boundary := 100 } }
    m.showHome = true ∧ m.safety.commitAt.isSome = true ∧ (image 0).safety.commitAt = none ∧ m.phase < 2 ∧ m.sh.boundary < m.time.count.toNat / 50000000 ∧ m.runs 151 = true ∧
      late.time.count.toNat / 50000000 ≤ late.sh.boundary ∧ near.sh.stopAt = some 4900000000 ∧
      100000000 ≤ (near.time.count - 4900000000).toNat ∧ m.writeCause (0x60000 + 0x100) 0 = none ∧
      { m with sh := { m.sh with pendingCfg := [(Reg.FPL_SH_CTRL, 1)] } }.sh.pendingCfg ≠ [] ∧
      (m.setReg Reg.FPL_STATUS 0).showHome = false ∧ ((rowAt (0x60000 + 0x100)).map fun r => r.1.acc) = some .rw ∧
      0x60000 + 0x100 ≠ Reg.FPL_SH_IMU := by
  decide +kernel

/-- Segments that hold the lives of the check: one that was committed as something else, and one that is not checked while
the configuration is open; the first segment and the last. -/
theorem witness_ConfigurationCheck :
    let m := up [(Reg.CCHK_STATUS, 2), (Reg.CCHK_OPEN, 1)]
    let bad : Mach := { up [(Reg.CCHK_STATUS, 2), (Reg.FPL_STATUS, 0)] with safety := { State.reset.m.safety with segment := 17, segCrc := [(17, 1)] } }
    m.blockPosted Reg.CCHK_CTRL = false ∧ m.phase < 2 ∧ (image 2).phase = 2 ∧ m.rbit Reg.CCHK_STATUS 1 = true ∧ m.rbit Reg.CCHK_STATUS 2 = false ∧
      (up [(Reg.CCHK_STATUS, 4)]).rbit Reg.CCHK_STATUS 2 = true ∧ (up []).rbit Reg.CCHK_STATUS 1 = false ∧
      m.segMismatch 0 = false ∧ m.segMismatch 18 = false ∧ bad.safety.segment = 17 ∧ bad.segMismatch 17 = true := by
  decide +kernel

theorem cal_block (s j : Nat) (hs : s < 256) (hj : j < 64) : blockOf (0x1C0000 + 0x100 * s + 4 * j) = some (.cal, 0x100 * s + 4 * j) := by
  have h : ∀ n, n ≤ 0x1C0000 → ¬ 0x1C0000 + 0x100 * s + 4 * j < n := fun n hn => by omega
  have h' : 0x1C0000 + 0x100 * s + 4 * j < 0x200000 := by omega
  have e : 0x1C0000 + 0x100 * s + 4 * j - 0x1C0000 = 0x100 * s + 4 * j := by omega
  rw [blockOf, if_neg (h 0x10000 (by decide)), if_neg (h 0x20000 (by decide)), if_neg (h 0x30000 (by decide)), if_neg (h 0x40000 (by decide)), if_neg (h 0x50000 (by decide)), if_neg (h 0x60000 (by decide)), if_neg (h 0x70000 (by decide)), if_neg (h 0x80000 (by decide)), if_neg (h 0x100000 (by decide)), if_neg (h 0x140000 (by decide)), if_neg (h 0x180000 (by decide)), if_neg (h 0x1C0000 (by decide)), if_pos h', e]
theorem entry_reset (s j : Nat) (hs : s < 256) (hj : j < 64) : regReset (Reg.CAL_ACTIVE s j) = defaultEntryWord j := by
  have hi : ∀ r : Row, r.off = 0 → r.s1 = 0x100 → r.n1 = 256 → r.s2 = 4 → r.n2 = 64 → r.index (0x100 * s + 4 * j) = some (s, j) := by
    intro r h1 h2 h3 h4 h5
    unfold Row.index
    have a : (0x100 * s + 4 * j) / 256 = s := by omega
    have b : (0x100 * s + 4 * j) % 256 = 4 * j := by omega
    have c : 4 * j / 4 = j := by omega
    simp [h1, h2, h3, h4, h5, a, b, c, hs, hj]
  have hr : rowAt (Reg.CAL_ACTIVE s j) = findRow calRows (0x100 * s + 4 * j) := by
    unfold rowAt Reg.CAL_ACTIVE
    rw [cal_block s j hs hj]
    rfl
  have hf : findRow calRows (0x100 * s + 4 * j) = some (calRows.head (by decide), j) := by
    unfold findRow calRows
    rw [List.findSome?_cons, hi _ rfl rfl rfl rfl rfl]
    rfl
  rw [regReset, hr, hf]
  rfl

/-- The last segment of a pass, with every calibration entry the default one of R459. -/
theorem witness_ConfigurationCheck_last :
    let m : Mach := { up [(Reg.CCHK_STATUS, 2)] with safety := { State.reset.m.safety with segment := 18 } }
    m.segMismatch 18 = false ∧ m.badEntries = [] := by
  intro m
  refine ⟨by decide +kernel, ?_⟩
  let f : Nat → Word := fun j => if j = 4 ∨ j = 9 ∨ j = 14 then 0x3F800000 else if j = 63 then 0x799FCE13 else 0
  have hf : ∀ j, defaultEntryWord j = f j := by
    intro j
    have hb : crc32c defaultEntryBody = 0x799FCE13 := by rw [crc32c_eq]; decide +kernel
    rw [defaultEntryWord, hb]
  let e : List Byte := (List.range 64).flatMap fun j => wordBytes (f j)
  have hc : crc32c (e.take 252) = w32 e 252 := by rw [crc32c_eq]; decide +kernel
  have he : ∀ s < 256, m.calEntry false s = e := by
    intro s hs
    simp only [Mach.calEntry, e, List.flatMap]
    congr 1
    refine List.map_congr_left fun j hj => ?_
    have hr : m.reg (Reg.CAL_ACTIVE s j) = regReset (Reg.CAL_ACTIVE s j) := by
      show (State.reset.m.setReg Reg.CCHK_STATUS 2).reg (Reg.CAL_ACTIVE s j) = _
      rw [Mach.reg_setReg_ne _ (by simp only [Reg.CAL_ACTIVE, Reg.CCHK_STATUS]; omega)]
      rfl
    rw [← hf, ← entry_reset s j hs (List.mem_range.mp hj), ← hr]
    rfl
  rw [Mach.badEntries, List.filter_eq_nil_iff]
  intro s hs
  simp only [he s (List.mem_range.mp hs), hc, bne_self_eq_false, Bool.false_eq_true, not_false_eq_true]

def detection (unit : UnitKind) (n : Nat) (cause : Byte) : Detection :=
  { cause := cause, unit := unit, number := n, detail := 0, jetFails := false, again := false, addr := 0, reloadFails := false }

theorem witness_FaultsDetected :
    let m := up [(Reg.CLU_CORE_STATE 0, 1)]
    let staged : Mach := { image 3 with fpl := { (image 3).fpl with stagedAt := some 0x1000, staged := some (List.replicate 64 0) } }
    let recovering : Mach := { m with safety := { m.safety with
      recoveries := [{ det := detection .core 0 3, at_ := 4998000000, logIndex := 0, permanent := false, key := 0 }] } }
    m.rbit Reg.DBG_TRIG_CFG 0 = false ∧ m.rbit Reg.DBG_TRIG_CFG 1 = false ∧ m.frozen = false ∧ m.phase = 0 ∧ (image 1).phase = 1 ∧
      (detection .core 0 3).corrected = none ∧ ({ detection .core 0 7 with corrected := some .hbm } : Detection).corrected = some .hbm ∧
      staged.imageError { detection .core 0 8 with addr := 0x1020 } = true ∧ staged.imageError (detection .core 0 8) = false ∧
      m.coreRecovery = false ∧ recovering.coreRecovery = true ∧ (m.selfTestOf 0).leaving = false ∧
      dieFatal (detection .dieUnit 150 3) true = true ∧ dieFatal (detection .dieUnit 165 3) true = false ∧  2 ≤ (image 2).phase ∧
      m.hold 1 = false ∧ (m.setReg Reg.SAFE_HOLD 2).hold 1 = true ∧ m.inService 0 = true ∧ (up [(Reg.CLU_CORE_STATE 0, 0)]).inService 0 = false ∧
      m.isPermanent (detection .core 0 3) = false ∧ m.isPermanent (detection .core 0 6) = true ∧
      (detection .core 0 3).cause ≠ 8 ∧ (detection .supervisor 145 0x0F).cause = 0x0F ∧
      ({ detection .config 18 0x0C with reloadFails := true } : Detection).reloadFails = true ∧
      (detection .config 18 0x0C).unit = .config := by
  decide +kernel

theorem witness_SafetyMonitors :
    let m := up [(Reg.CLU_CORE_STATE 0, 1), (Reg.SAFE_HOLD, 0), (Reg.FUS_CTRL 0, 0x400000)]
    let jet : Mach := { m with fpl := { m.fpl with plan := { m.fpl.plan with
      golden := [{ core := 0, tensor := 0, vector := 0, cmd := 0 }],
      fallback := [{ core := 0, core2 := 0, reload := 0, recs := [.move 3 1 0x4000] }] } } }
    let aged := m.setGroup 0 { open_ := [{ k := 0, tk := 1000, ageRule := true }] }
    let waits := m.setGroup 0 { sched := [{ k := 0, tk := 1000 }] }
    let late : Mach := { jet with time := { m.time with count := 3400000000000 } }
    let back : Mach := { late with safety := { late.safety with selfTest := [(0, { rehomed := true, done := 8 })] } }
    let inFlight : Mach := late.setCmdq 0 { started := [{ num := 0, bytes := List.replicate 64 0 }] }
    let running : Mach := { m with safety := { m.safety with selfTest := [(0, { running := true })] } }
    m.safety.recoveries = [] ∧ m.hold 1 = false ∧ m.still = false ∧ m.ageOn 0 = true ∧ m.ageOn 1 = false ∧
      (aged.group 0).open_.find? Live.watched = some { k := 0, tk := 1000, ageRule := true } ∧ aged.overAge 0 1000 = true ∧
      aged.overAge 0 4999999999 = false ∧ (waits.group 0).open_.find? Live.watched = none ∧
      ((waits.group 0).sched.find? fun i => !i.aged) = some { k := 0, tk := 1000 } ∧ waits.ageOn 0 = true ∧
      m.safety.outValid = false ∧ m.reg Reg.SAFE_HOLD = 0 ∧ 10000 ≤ (m.time.count - m.safety.lowAt).toNat ∧
      m.writeCause Reg.SAFE_CTRL 1 = none ∧ m.coreGroups 0 = 0 ∧
      50000000 ≤ (m.time.count - sget (fun _ => 0) m.safety.jetAt 0).toNat ∧ m.jetReady 0 = true ∧
      jet.golden 0 = some { core := 0, tensor := 0, vector := 0, cmd := 0 } ∧
      m.inService 0 = true ∧ (m.selfTestOf 0).running = false ∧ m.ccRecovering 0 = false ∧ m.coreInFlight 0 = 0 ∧
      m.slotsFree 0 = true ∧ m.windowBlocks 0 = false ∧ (running.selfTestOf 0).running = true ∧ m.frozen = false ∧
      (late.selfTestOf 0).rehomed = false ∧ late.roundLate 0 = true ∧ m.roundLate 0 = false ∧
      late.fallbackOf 0 = some { core := 0, core2 := 0, reload := 0, recs := [.move 3 1 0x4000] } ∧ late.inService 0 = true ∧
      late.coreInFlight 0 = 0 ∧ inFlight.coreInFlight 0 ≠ 0 ∧ inFlight.roundLate 0 = true ∧
      (back.selfTestOf 0).running = false ∧
      (back.selfTestOf 0).rehomed = true ∧ 8 ≤ (back.selfTestOf 0).done ∧ (back.selfTestOf 0).rings = [] := by
  decide +kernel

/-- A recovery of 2 ms. -/
theorem witness_SafetyMonitors_late :
    let m : Mach := { up [] with safety := { State.reset.m.safety with
      recoveries := [{ det := detection .core 0 3, at_ := 4998000000, logIndex := 0, permanent := false, key := 0 }] } }
    (m.safety.recoveries.filter fun r => decide (1000000 ≤ (m.time.count - r.at_).toNat) && m.fld (Reg.SAFE_LOG1 r.logIndex) 0 8 != 6) ≠ [] ∧ m.still = false := by
  decide +kernel

/-! ## Supply, boot, power, counters -/

theorem witness_SupplyAndReset :
    let m := (up [])
    let off : Mach := { m with pins := { m.pins with powered := false } }
    let cut : Mach := { m with pins := { m.pins with powered := false, disconnected := true } }
    m.pins.powered = true ∧ m.supplied = true ∧ off.pins.powered = false ∧ off.pins.disconnected = false ∧ off.supplied = false ∧
      off.live = false ∧ cut.pins.disconnected = true ∧ m.live = true ∧ m.pins.supplyOut = false ∧ m.vinOut = false ∧ m.tooHot = false ∧
      m.time.refOk = true ∧ { m with pins := { m.pins with vin := 17500 } }.vinOut = true ∧
      (m.pins.powered && { m.pins with inReset := true }.inReset && !m.pins.ejectLow) = true := by
  decide +kernel

/-- Inputs on each side of the thresholds, whatever this module's are. -/
theorem witness_SupplyAndReset_inputs :
    vuvr < 48000 ∧ 48000 ≤ vov ∧ vuvr < 59999 ∧ 16000 ≤ vuvr ∧ vuvf ≤ 48000 ∧ 15999 < vuvf ∧ vov < 65000 ∧ 60000 ≤ vov ∧
      vuvf ≤ 17500 ∧ 60500 ≤ vov := by
  unfold vuvr vuvf vov; omega

/-- Whether a firmware copy or Show Home verifies is not known of any (log entry 10): one clause of each pair applies. -/
theorem witness_BootRuns :
    let m := State.reset.m
    m.live = true ∧ m.pins.booted = false ∧ m.hold 6 = false ∧ m.sec.eraseOwed = false ∧ (up []).pins.booted = true ∧
      m.rbit Reg.GCTL_STATUS 2 = false ∧ (m.setReg Reg.SAFE_HOLD 0x41).hold 6 = true ∧ m.lifeState ≠ 4 ∧
      (m.setReg Reg.SEC_STATUS 0x10).lifeState = 4 ∧ m.rbit Reg.FPL_BOOTSLOT 3 = false ∧ m.still = false ∧
      m.obs.mgmtHalted = false ∧ m.obs.mgmtDebug = false ∧ m.fpl.deferred = [] := by
  decide +kernel

theorem witness_PowerStates :
    let m := up [(Reg.GCTL_PWR_CAP, 100)]
    let going : Mach := { m with pins := { m.pins with entering := some 1, softArm := some 4999500000 } }
    let held := m.setReg Reg.SAFE_HOLD 1
    let stopped : Mach := { m with obs := { m.obs with mgmtDebug := true } }
    m.blockPosted Reg.GCTL_CTRL = false ∧ going.blockPosted Reg.GCTL_CTRL = false ∧ m.mgmtRuns = true ∧ m.frozen = false ∧
      stopped.mgmtRuns = false ∧ m.powerState ≠ 2 ∧ (up [(Reg.GCTL_STATUS, 0x200)]).powerState = 2 ∧ m.writeCause Reg.GCTL_PWR_STATE 1 = none ∧
      m.pins.entering = none ∧ m.phase < 2 ∧ m.lifeState ≠ 4 ∧ m.still = false ∧ m.hold 0 = false ∧ held.hold 0 = true ∧
      (1 : Word).field 0 2 ≠ m.powerState ∧ (0 : Word).field 0 2 = m.powerState ∧ going.pins.entering = some 1 ∧
      m.fld Reg.GCTL_PWR_CAP 0 8 * 1000 = 100000 ∧ m.pins.belowCap + 10000 < 1000000 ∧
      going.pins.softArm = some 4999500000 ∧ (going.time.count - 4999500000).toNat ≤ 1000000 ∧
      1000000 < (going.time.count - 4000000000).toNat ∧ m.pins.softArm = none ∧ (1761 : BitVec 16).toInt = 1761 ∧
      ((100000 * [200000].length < [200000].sum) ∧ ¬ (98000 * [50000].length < [50000].sum) ∧ ¬ (100000 * [99000].length < [99000].sum) ∧
        98000 * [99000].length < [99000].sum) ∧ (m.setReg Reg.GCTL_PWR_CAP 180).fld Reg.GCTL_PWR_CAP 0 8 * 1000 = 180000 ∧
      (∀ q, q < 256 → m.hasHead q = false) := by
  decide +kernel

theorem witness_CounterRequests :
    let m := up [(Reg.CNT_SNAP_AT, 705032704 + 10000)]
    let armed : Mach := { up [(Reg.CNT_SNAP_AT, 705032704), (Reg.FPL_STATUS, 0x14), (Reg.DBG_TRIG_CFG, 1)] with
      obs := { State.reset.m.obs with armed := some true } }
    m.blockPosted Reg.CNT_CTRL = false ∧ (detection .core 0 3).corrected = none ∧ armed.frozen = false ∧
      (m.traceOn && m.rbit Reg.DBG_TRACE_KINDS 7) = false ∧ m.rbit Reg.CNT_STATUS 1 = false ∧ m.frozen = false ∧
      (up [(Reg.CNT_STATUS, 2)]).rbit Reg.CNT_STATUS 1 = true ∧ (up [(Reg.CNT_STATUS, 8)]).frozen = true ∧
      m.aheadWithin (m.reg Reg.CNT_SNAP_AT) 10000 2000000000 = true ∧
      armed.aheadWithin (armed.reg Reg.CNT_SNAP_AT) 10000 2000000000 = false ∧ m.obs.armed = none ∧
      armed.obs.armed = some true ∧ reached armed.now (armed.reg Reg.CNT_SNAP_AT) = true ∧
      reached m.now (m.reg Reg.CNT_SNAP_AT) = false ∧ 1 ≤ armed.phase ∧ armed.rbit Reg.DBG_TRIG_CFG 0 = true ∧
      armed.now = armed.reg Reg.CNT_SNAP_AT := by
  decide +kernel

/-! ## The host port, debug, security -/

/-- A READ of one word of GCTL_ID with CRC; a READ of an address of no register; a WRITE to NET of a booted module. -/
theorem witness_HostReads :
    let x : Txn := { op := 1, addr := 0, n := 0, crc := true, compOk := true, words := 1 }
    let bad : Txn := { x with addr := 0x10000000 }
    let m := up []
    let u := m.accept.onPort fun p => { p with perr := false }
    m.immediate bad = some 1 ∧ m.immediate { x with op := 5, crc := false, words := 0 } = none ∧ m.immediate { x with op := 6, words := 0 } = some 9 ∧ m.immediate x = none ∧
      m.lateness x = (none, m) ∧ m.decodeCause false (x.wordAddr 0) = none ∧ (u.regRead (x.wordAddr 0)).2 = u ∧
      (u.regRead (x.wordAddr 0)).1 = 0x53563332 ∧ codeFor 1 = 0 ∧
      (∀ e ∈ x.hbm, e.1 = 0 → e.2 = .clean) := by
  decide +kernel

/-- A READ of the HBM window of a booted module with a slow enough clock. -/
theorem witness_HostReads_window :
    let m := up [(Reg.GCTL_STATUS, 0xE), (Reg.HIF_LAT, 0x3FF00FF)]
    let x : Txn := { op := 1, addr := 0x40000000, n := 0, crc := true, compOk := true, words := 1, hbm := [(0, .corrected)] }
    m.immediate x = none ∧ m.lateness x = (none, m) ∧ m.immediate { x with hbm := [(0, .uncorrectable)] } = none ∧
      m.lateness { x with hbm := [(0, .uncorrectable)] } = (none, m) ∧ blockOf 0x40000000 = some (.window, 0) ∧
      m.port.posted = [] := by
  decide +kernel

theorem witness_HostWrites :
    let m := (up [(Reg.GCTL_STATUS, 0xE)])
    let x : Txn := { op := 3, addr := 0x2C0000, n := 0, crc := true, compOk := true, words := 1 }
    let posted : Posted := { block := .net, opcode := 0, whole := false, words := [(0, 0x2C0000, 5)], winBase := 0 }
    let queued : Mach := { m with port := { m.port with posted := [posted] } }
    m.immediate x = none ∧ crc16 (x.addrBytes ++ wordBytes 5) ≠ crc16 (x.addrBytes ++ wordBytes 4) ∧
      blockOf 0x2C0000 = some (.net, 0) ∧ m.decodeCause true (x.wordAddr 0) = none ∧ m.dataCause (x.wordAddr 0) 5 = none ∧
      m.immediate { x with words := 0 } = none ∧ blockOf 0x10000000 = none ∧ blockOf 0x40000000 = some (.window, 0) ∧
      m.windowAddr 0x40000000 < m.hbmSize ∧ (rowAt Reg.GCTL_PWR_STATE).isSome = true ∧
      m.writeCause Reg.GCTL_PWR_STATE 3 = some 4 ∧ ((rowAt Reg.NET_MODULE).map fun r => r.1.acc) = some .rw ∧
      m.writeCause Reg.NET_MODULE 3 = none ∧ m.sluiceBusy .window = false ∧ m.sluiceBusy .gctl = false ∧
      queued.sluiceBusy .net = true ∧ (rowAt Reg.NET_MODULE).isSome = true ∧ m.blockPosted Reg.HIF_EVENT = false ∧ isEventReg Reg.HIF_EVENT = true ∧
      (0 : Word).field 16 16 = m.fld Reg.HIF_EVENT 16 16 ∧ isEventReg Reg.NET_MODULE = false ∧ ownRule Reg.NET_MODULE = false ∧
      ownRule (Reg.STR_MATCH 0) = false ∧ ownRule (Reg.CQ_CTRL 0) = true := by
  decide +kernel

theorem witness_DebugBlock :
    let m := up [(Reg.DBG_STATUS, 2)]
    let full := up [(Reg.DBG_TRACE_CTRL, 0xC0000000), (Reg.DBG_STATUS, 8), (Reg.DBG_CELLAR_SIZE, 2), (Reg.DBG_TRACE_KINDS, 8),
      (Reg.DBG_TRACE_CC_LO, 1), (Reg.DBG_STILL_CFG, 0x60000000)]
    let waits : Mach := { m with obs := { m.obs with stillPending := some 1 } }
    let queued := full.setReg (Reg.CQ_CTRL 0) 0x80000000 |>.setReg (Reg.CQ_TAIL 0) 1
    m.blockPosted Reg.DBG_STILL_CTRL = false ∧ full.tracesCore 0 3 = true ∧ m.tracesCore 0 3 = false ∧ full.writeCause Reg.DBG_CELLAR_WR 0x40000 = none ∧
      full.rbit Reg.DBG_TRACE_CTRL 30 = true ∧ full.cellarFull = true ∧ 0x40000 < full.cellarSize ∧
      m.still = false ∧ m.phase < 2 ∧ m.obs.stillPending = none ∧ m.hold 0 = false ∧ (m.setReg Reg.SAFE_HOLD 1).hold 0 = true ∧
      waits.obs.stillPending.isSome = true ∧ (up [(Reg.DBG_STATUS, 0x20)]).rbit Reg.DBG_STATUS 5 = true ∧
      full.rbit Reg.DBG_STILL_CFG 30 = true ∧ full.msReg Reg.DBG_STILL_WDOG ≤ (full.time.count - full.obs.kickAt).toNat ∧
      full.rbit Reg.DBG_STILL_CFG 29 = true ∧ queued.anyQueued = true ∧
      full.msReg Reg.DBG_STILL_STALL ≤ (full.time.count - full.obs.progressAt).toNat ∧ m.debugAccess = true ∧
      (up []).debugAccess = false ∧ (∀ q, q < 256 → m.hasHead q = false) := by
  decide +kernel

/-- Nothing signs, so of no signed request is it known whether it passes (log entry 10). The unsigned ENROLL_KEY of slot 0
in DEVELOP is read and passes; with another nonce it is refused with cause 0x04. -/
def enroll (nonce : Byte) : Mach :=
  headed [] ([(0, 0x53), (1, 0x56), (2, 0x52), (3, 0x51), (4, 1), (6, 4)] ++ (if nonce = 0 then [] else [(0x10, nonce)]) ++
    [(0x18, 0xFE), (0x19, 0xFF), (0x1A, 0xFF), (0x1B, 0xFF)])

theorem witness_SignedRequests :
    (enroll 0).blockPosted Reg.SEC_CTRL = false ∧ (enroll 1).blockPosted Reg.SEC_CTRL = false ∧
    ((enroll 0).readRequest.map fun r => (r.code, (((enroll 0).checkRequest r).toBool))) = some (4, true) ∧
      ((enroll 1).readRequest.map fun r => (r.code, ((enroll 1).checkRequest r).toBool)) = some (4, false) := by
  decide +kernel

theorem witness_SecurityIsland :
    let m := up []
    let attesting : Mach := { m with sec := { m.sec with attesting := true } }
    let granted : Mach := { up [(Reg.DBG_STATUS, 2)] with sec := { m.sec with debugUntil := some 1 } }
    m.blockPosted Reg.SEC_CTRL = false ∧ m.mgmtRuns = true ∧ { m with obs := { m.obs with mgmtHalted := true } }.mgmtRuns = false ∧
      m.sec.attesting = false ∧ (m.reg Reg.SEC_ATT_INDEX).toNat < 2 ^ 20 ∧
      2 ^ 20 ≤ ((up [(Reg.SEC_ATT_INDEX, 0x100000)]).reg Reg.SEC_ATT_INDEX).toNat ∧ attesting.sec.attesting = true ∧
      attesting.mgmtRuns = true ∧ m.rbit Reg.SEC_PRIV 4 = false ∧ (up [(Reg.SEC_PRIV, 16)]).rbit Reg.SEC_PRIV 4 = true ∧
      (up [(Reg.SEC_STATUS, 4), (Reg.GCTL_STATUS, 4)]).lifeState = 1 ∧
      (up [(Reg.SEC_STATUS, 4), (Reg.GCTL_STATUS, 4)]).rbit Reg.GCTL_STATUS 2 = true ∧ (up [(Reg.SEC_STATUS, 8)]).lifeState ≠ 1 ∧
      m.debugAccess = false ∧ granted.debugAccess = true ∧ granted.sec.debugUntil = some 1 ∧
      (1 : BitVec 64) ≤ granted.time.count ∧ m.sec.debugUntil = none ∧
      (up [(Reg.SEC_PRIV, 16)]).writeCause Reg.SEC_PRIV 0 = none ∧ (up [(Reg.SEC_PRIV, 16)]).sluiceBusy .sec = false ∧
      (∀ q, q < 256 → m.hasHead q = false) := by
  decide +kernel

/-! ## Control cores -/

/-- Control core 0 runs inside a basic block that a checkpoint has opened, with g1 = 64, g2 = 0xFFFC_0000. -/
def ctl (x : Core) : Mach :=
  { up [(Reg.CLU_CORE_STATE 0, 1)] with
    core := [(0, { x with regs := [(1, 64), (2, 0xFFFC0000)], sigNeed := false })] }

def running : Mach := ctl { state := .running }

/-- A Bool of `issues`. -/
def issuing (m : Mach) (c : Nat) (w : Word) : Bool := m.ccReady c && (sigIssue (m.cc c) w).isSome && !(m.cc c).stepping

theorem issues_of {m : Mach} {c : Nat} {w : Word} (h : issuing m c w = true) : m.issues c w := by
  simp only [issuing, Bool.and_eq_true, Bool.not_eq_true'] at h
  exact ⟨h.1.1, h.1.2, h.2⟩

theorem witness_ControlArithmetic :
    running.issues 0 (encR 0x0 3 1 2) ∧ running.issues 0 (encI 0x01 3 1 0xFFFF) ∧ running.issues 0 (encI 0x0A 3 0 1) ∧
      running.issues 0 (encI 0x34 31 0 0) :=
  ⟨issues_of (by decide +kernel), issues_of (by decide +kernel), issues_of (by decide +kernel), issues_of (by decide +kernel)⟩

theorem witness_ControlLoads :
    running.issues 0 (encI 0x10 3 1 (-4)) ∧ (running.greg 0 1 + (-4 : BitVec 16).signExtend 32).toNat = 60 ∧ 60 % 4 = 0 ∧
      60 < 0x40000 :=
  ⟨issues_of (by decide +kernel), by decide +kernel⟩

theorem witness_ControlStores :
    running.issues 0 (encI 0x1A 3 1 (-4)) ∧ (running.greg 0 1 + (-4 : BitVec 16).signExtend 32).toNat = 60 :=
  ⟨issues_of (by decide +kernel), by decide +kernel⟩

/-- Every transfer issues; g1 is above g2 as a signed number and below it as an unsigned one; the Cellar is sound. -/
theorem witness_ControlTransfers :
    (running.issues 0 (encI 0x20 1 2 (-1)) ∧ running.issues 0 (encI 0x21 1 2 (-1)) ∧ running.issues 0 (encI 0x22 2 1 3) ∧
      running.issues 0 (encI 0x23 1 2 3) ∧ running.issues 0 (encI 0x24 1 2 3) ∧ running.issues 0 (encI 0x25 2 1 3) ∧
      running.issues 0 (encJ 1) ∧ running.issues 0 (encI 0x27 31 1 2)) ∧
      ((running.greg 0 1 + (2 : BitVec 16).signExtend 32) &&& 0xFFFFFFFC).toNat = 64 ∧
      (running.setReg Reg.DBG_CELLAR_SIZE 1).cellarSound ∧ running.tracesCore 0 1 = false :=
  ⟨⟨issues_of (by decide +kernel), issues_of (by decide +kernel), issues_of (by decide +kernel), issues_of (by decide +kernel),
    issues_of (by decide +kernel), issues_of (by decide +kernel), issues_of (by decide +kernel), issues_of (by decide +kernel)⟩,
    by decide +kernel, ⟨by decide +kernel, .inr (by decide +kernel)⟩, by decide +kernel⟩

/-- Each halt's premise: alignment, the end of sequencer memory, an illegal operand, a queue that the core does not
produce, a mask without the core, a mask that differs from that of a core which waits. -/
theorem witness_ControlHalts :
    let m := running
    let met : Mach := m.onCc 1 fun x => { x with state := .barrier, barNum := 1, barMask := 3 }
    (m.issues 0 (encI 0x35 0 0 0xFFFB) ∧ m.issues 0 (encI 0x30 1 1 0) ∧ m.issues 0 (encI 0x33 0 0 2) ∧
      m.issues 0 (encI 0x30 1 2 0) ∧ met.issues 0 (encI 0x33 0 0 0x101)) ∧
      (m.greg 0 1 + (2 : BitVec 16).signExtend 32).toNat % 4 ≠ 0 ∧
      0x40000 ≤ (m.greg 0 2 + (0 : BitVec 16).signExtend 32).toNat ∧ (m.greg 0 2 + (0 : BitVec 16).signExtend 32).toNat % 64 = 0 ∧
      m.produces 0 64 = false ∧ waitObjOk 0 64 = false ∧ (2 : Nat).testBit (ccIndex 0) = false ∧
      (0x101 % 32).testBit (ccIndex 0) = true ∧ atBarrier (met.cc (ccOf (ccCluster 0) 1)) (0x101 / 256 % 8) = true ∧
      (met.cc (ccOf (ccCluster 0) 1)).barMask ≠ 0x101 % 32 :=
  ⟨⟨issues_of (by decide +kernel), issues_of (by decide +kernel), issues_of (by decide +kernel), issues_of (by decide +kernel),
    issues_of (by decide +kernel)⟩, by decide +kernel⟩

theorem witness_ControlSignal :
    running.issues 0 (encSignal 1 0 63) ∧ running.issues 0 (encSignal 1 1 0) ∧ running.issues 0 (encSignal 1 2 16) :=
  ⟨issues_of (by decide +kernel), issues_of (by decide +kernel), issues_of (by decide +kernel)⟩

/-- A WAIT that holds, one whose deadline has come, and one that stands; and the same once it waits. -/
theorem witness_ControlWaits :
    let m := ctl { state := .wait, waitKind := 0, waitObj := 3, waitVal := 5, waitDeadline := some 705032704 }
    (running.issues 0 (encWait 3 0 0 0 3) ∧ running.waitHolds 0 0 3 0 = true ∧ running.waitHolds 0 0 3 64 = false ∧
      reached (running.time.count.setWidth 32) (running.greg 0 1) = true ∧
      reached (running.time.count.setWidth 32) (running.greg 0 2) = true ∧ waitObjOk 0 3 = true) ∧
      (m.cc 0).state = .wait ∧ (m.cc 0).stepping = false ∧ m.ccAwake 0 = true ∧ m.waitHolds 0 0 3 5 = false ∧
      reached (m.time.count.setWidth 32) 705032704 = true ∧ reached (m.time.count.setWidth 32) 705032705 = false :=
  ⟨⟨issues_of (by decide +kernel), by decide +kernel⟩, by decide +kernel⟩

/-- Sequencer 0 at barrier 1 alone, and the others of its cluster out of service or not named. -/
theorem witness_ControlBarrier :
    let m := ctl { state := .barrier, barNum := 1, barMask := 1 }
    (running.issues 0 (encI 0x33 0 0 0x101) ∧ (0x101 % 32).testBit (ccIndex 0) = true ∧
      ∀ i, i < 5 → atBarrier (running.cc (ccOf (ccCluster 0) i)) 1 = false) ∧
      (∀ i, i < 5 → atBarrier (m.cc (ccOf 0 i)) 1 = true → (m.cc (ccOf 0 i)).barMask = 1 ∧ (m.cc (ccOf 0 i)).stepping = false ∧
        m.ccAwake (ccOf 0 i) = true) ∧
      atBarrier (m.cc (ccOf 0 0)) 1 = true ∧ ∀ i, i < 5 → (1 : Nat).testBit i = true → atBarrier (m.cc (ccOf 0 i)) 1 = true :=
  ⟨⟨issues_of (by decide +kernel), by decide +kernel⟩, by decide +kernel⟩

/-- Core 0 produces queue 64, whose ring has room, then none. -/
theorem witness_ControlIssue :
    let m := running.setReg (Reg.CQ_CFG 64) 0x80000000
    let full := m.setReg (Reg.CQ_TAIL 64) 1
    let waits := (ctl { state := .issue, issueQ := 64, issueAddr := 64 }).setReg (Reg.CQ_CFG 64) 0x80000000
    (m.issues 0 (encI 0x30 1 1 0) ∧ (m.greg 0 1 + (0 : BitVec 16).signExtend 32).toNat = 64 ∧ m.produces 0 64 = true ∧
      (m.reg (Reg.CQ_TAIL 64) - m.reg (Reg.CQ_DONE 64)).toNat < 2 ^ m.ringLog 64 ∧
      ¬ (full.reg (Reg.CQ_TAIL 64) - full.reg (Reg.CQ_DONE 64)).toNat < 2 ^ full.ringLog 64) ∧
      (waits.cc 0).state = .issue ∧ waits.ccAwake 0 = true ∧
      (waits.reg (Reg.CQ_TAIL 64) - waits.reg (Reg.CQ_DONE 64)).toNat < 2 ^ waits.ringLog 64 ∧ (waits.cc 0).stepping = false ∧ (waits.cc 0).issueQ = 64 :=
  ⟨⟨issues_of (by decide +kernel), by decide +kernel⟩, by decide +kernel⟩

theorem witness_ControlDebug :
    let m := running.setReg Reg.DBG_STATUS 2
    m.blockPosted (ccCtrlReg 0) = false ∧ m.debugAccess = true ∧ (m.cc 0).debugHalt = none ∧
      ((ctl { state := .halted, debugHalt := some .running }).cc 0).debugHalt = some .running ∧ running.debugAccess = false := by
  decide +kernel

/-- ADD g3, g1, g2 at the pc of a core that the debug port halted. -/
theorem witness_ControlStepDecodes :
    let m := (ctl { state := .halted, debugHalt := some .running }).setReg Reg.DBG_STATUS 2
    let m := { m with mem := (m.setWord (seqBase 0) (encR 0x0 3 1 2)).mem }
    m.debugAccess = true ∧ m.writeCause Reg.DBG_CC_STEP 0 = none ∧ (0 : Word).toNat % 64 = 0 ∧ (m.cc 0).debugHalt = some .running ∧
      m.word (seqBase 0 + (m.cc 0).pc.toNat) = encR 0x0 3 1 2 ∧ ctlWord (.ccAdd 0 3 1 2) = some (0, encR 0x0 3 1 2) := by
  decide +kernel

/-! ## The spec's worked examples -/

/-- 08, the outflow example: 12,345, bias −345, mult 9,000, shift 20, zp −3 give 100. -/
theorem test_requant : requant 12345 (-345) 9000 20 (-3) (-128) 127 = 100 := by decide +kernel

/-- 09: position 113 goes to 547 under the transpose, to 572 under the quarter turn. -/
theorem test_cascade :
    cascade [0x50, 0x61, 0x72, 0x83, 0x94, 0xFF, 0xFF, 0xFF, 0xFF, 0xFF] 113 = 547 ∧
      cascade [0x50, 0x61, 0x72, 0x83, 0x94, 0x00, 0x11, 0x22, 0x33, 0x44] 113 = 572 := by
  decide +kernel

/-- 09: tile (9, 2) of 40 by 3 has index 29. -/
theorem test_tileIndex : tileIndex 40 3 9 2 = 29 := by decide +kernel

/-- 07: the key of cell (86, 20, 4) in epoch 3, and its distance measure. -/
theorem test_packKey : packKey 3 86 20 4 = 0x0300040001400056 ∧ distOf 55 153 51 = 11883 := by decide +kernel

/-- 02: a stamp is extended to the nearest time, before and after the reference. -/
theorem test_extend : extend 0x4FFFF0000 0x186A0 = 21474936480 ∧ extend 21474936480 0xFFFE7960 = 21474736480 := by decide +kernel

/-- 03: a sensor time through a map of +25 ppm. -/
theorem test_sensorMap :
    Coef.conv { s0 := 812400000000, m0 := 1000000000, skew := 107374 } 812440000000 = 1040000999 := by decide +kernel

/-- 11: occ 300 decays to 280, rises to 880 under the scanner and falls to 430 under the camera, in conflict; its class stays. -/
theorem test_gridCell :
    let old : GridCell := { occ := 300, cls := 7, flags := 0, height := 0, age := 3 }
    let begun := old.decayed 20
    let scan := begun.apply 0x18 3000 400 { delta := 400, cls := 0, height := 0, scanner := true }
    let cam := scan.apply 0x10 3000 400 { delta := -450, cls := 3, height := 0, scanner := false }
    begun.occ = 280 ∧ scan.occ = 880 ∧ scan.age = 0 ∧ cam.occ = 430 ∧ cam.flags % 8 = 7 ∧ (cam.close 256).cls = 7 := by
  decide +kernel

/-- 12: the words of WAIT g0, g1, 1, g0, 5 and of ISSUE g7, g0, 0x1000. -/
theorem test_controlWords :
    ctlWord (.ccWait 13 0 1 1 0 5) = some (13, 0xC4014005) ∧ ctlWord (.ccIssue 13 7 0 0x1000) = some (13, 0xC0E01000) := by
  decide +kernel

/-- 15: the opcode bytes of READ of 4 bytes and READ_FIXED of 256 with CRC, and of WRITE of 4 without. -/
theorem test_opcodes :
    let x : Txn := { op := 1, addr := 0, n := 0, crc := true, compOk := true, words := 1 }
    x.opcode = 0x30 ∧ ({ x with op := 2, n := 6, words := 64 } : Txn).opcode = 0x56 ∧
      ({ x with op := 3, crc := false } : Txn).opcode = 0x60 := by
  decide +kernel

/-- What the host sees after a command of a module: the bytes of the last answer. -/
def answerOf (c : Instr) (s : State) : List Byte :=
  match exec c s with
  | .next t => t.m.port.answer.data
  | _ => []

/-- 15, steps 1 and 2 of the bring-up: the first STATUS is 0x05, and READ of address 0 gives GCTL_ID. -/
theorem test_bringUp :
    (match exec (.xspiStatus .status 0 0 false true) State.reset with
      | .next t => t.m.port.answer.status
      | _ => 0) = 0x05 ∧
      answerOf (.xspiRead 0 0 true ⟨true, []⟩) State.reset = [0x32, 0x33, 0x56, 0x53] := by
  decide +kernel

/-! ## Well-formed commands -/

/-- A term that each check of Instr.wf refuses, and one that passes it. -/
theorem test_wellFormed :
    ([ .sluiceTransfer 0 1 0 [] [] false, .sluiceTransfer 0 1 0 [5] [] false, .i3cTransferDone 0 (List.replicate 33 0) false, .spiReadDone 0 (List.replicate 65 0), .neighbourRefresh 0 [1] none,
       .ptpMessageRx 0 { ptpMsg .sync 9 with gmNs := 1000000000 },
       .datagramRx 0 { dgram [] with srcIp := [] }, .messageDatagramRx 0 { dgram [] with dstIp := List.replicate 16 0 },
       .netRequestRx 0 (.arp []), .canFrameRx 0 { canFrame with ident := 2048 }, .canFrameRx 0 { canFrame with data := List.replicate 9 0 },
       .faultDetected (detection .core 0 0), .faultDetected (detection .core 32 3), .xspiWrite 0 1 [0] none true,
       .xspiWriteFixed 0 0 [] none true, .transactionAbandon (.read 0 false false 1025 []) ] : List Instr).all (fun i => !i.wf) = true ∧
    ([ .sluiceTransfer 0 1 0 [5] [evenParity 5] false, .csiLongPacket 0 0 0x2A [1] .clean true, .i3cTransferDone 0 [1] false,
       .spiReadDone 0 [1], .neighbourRefresh 0 [10, 0, 0, 2] none, .datagramRx 0 (dgram cgpf), .canFrameRx 0 canFrame,
       .faultDetected (detection .core 31 3), .xspiWrite 0 1 [0, 0] none true, .transactionAbandon (.early true), .boot ]
         : List Instr).all Instr.wf = true := by
  decide +kernel

theorem test_wellFormed_line :
    (Instr.csiLongPacket 0 0 0x2A (List.replicate 65536 0) .clean true).wf = false := by
  simp only [Instr.wf, List.length_replicate]; decide

/-! ## Words of the table -/

/-- The table gives its rows no bits, so no word spells a command. -/
theorem test_decodeTableWord : decodeTableWord 32 0 = none ∧ State.reset.withFetchWord 32 0 = State.reset := ⟨rfl, rfl⟩

/-! ## Steps -/

/-- One nanosecond of a module without a correction. -/
theorem test_tick :
    (match step { State.reset with pending := [.nsCountTick] } with
      | .next t => (t.m.time.count, t.pending)
      | _ => (0, [.boot])) = (1, []) := by
  decide +kernel

/-- ADD wraps, and g0 stays 0. -/
theorem test_ccAdd :
    (match exec (.ccAdd 0 3 2 2) (st running), exec (.ccAdd 0 0 1 1) (st running) with
      | .next t, .next u => (t.m.greg 0 3, (t.m.cc 0).pc, u.m.greg 0 0)
      | _, _ => (0, 0, 1)) = (0xFFF80000, 4, 0) := by
  decide +kernel

/-- A halted core has state halted and code 0xFFFF after a load above sequencer memory. -/
theorem test_ccLw_halts :
    (match exec (.ccLw 0 3 2 0) (st running) with
      | .next t => ((t.m.cc 0).state, (t.m.cc 0).code)
      | _ => (.idle, 0)) = (.halted, 0xFFFF) := by
  decide +kernel

/-- COPY moves its second row too, and completes into DONE. -/
theorem test_moveCopy :
    let m := { copy1 with mem := copy1.mem ++ [(0x1010, 7), (0x1013, 9)] }
    (match exec (.moveCopy 0) (st m) with
      | .next t => (match exec (.commandComplete 0 0) t with
        | .next u => (u.m.bytes 0x2010 4, u.m.reg (Reg.CQ_HEAD 0), u.m.reg (Reg.CQ_DONE 0))
        | _ => ([], 0, 0))
      | _ => ([], 0, 0)) = ([7, 0, 0, 9], 1, 1) := by
  decide +kernel

/-- The fixed-value command writes pass the range rules of their registers. -/
theorem test_fixedWrites :
    ([Reg.FPL_CTRL, Reg.CCHK_CTRL, Reg.CNT_CTRL, Reg.DBG_STILL_CTRL, Reg.SEC_CTRL, Reg.GCTL_CTRL, Reg.Q_CMD Reg.HRQ, Reg.CQ_CMD 0,
      Reg.TIME_CTRL, Reg.CAL_CTRL].all fun a => (up []).writeCause a 1 == none) = true := by
  decide +kernel

end Sys2Proof.Tests
end

section
/-! The state after reset: the reset values that the register map gives the registers of the time line, of the host
port, of the safety supervisor, of the command queues and of the clusters, the control cores cleared, and the
invariants of OUT_VALID (R348) and of the memory (R389), which begin here. -/

namespace Sys2Proof.Machine

/-! ## Reset values of the register map (R18) -/

/-- Tables 14-1 and 14-8: hold 11, boot, begins with any reset. -/
theorem regReset_safeHold : regReset Reg.SAFE_HOLD = 0x800#32 := by decide

theorem regReset_safeStatus : regReset Reg.SAFE_STATUS = 0 := by decide

theorem regReset_timeStatus : regReset Reg.TIME_STATUS = 0 := by decide

/-- Table 2-6: 37 s of UTC offset. -/
theorem regReset_timeUtcOffset : regReset Reg.TIME_UTC_OFFSET = 0x25 := by decide

/-- Tables 2-6 and 2-14: every PTP port is DISABLED. -/
theorem regReset_timePtpStat : ∀ p < 4, regReset (Reg.TIME_PTP_STAT p) = 3 := by decide

theorem regReset_hifErrCause : regReset Reg.HIF_ERR_CAUSE = 0 := by decide

theorem regReset_cqHead : ∀ q < 256, regReset (Reg.CQ_HEAD q) = 0 := by decide +kernel

theorem regReset_cluSem : ∀ k < 8, ∀ n < 64, regReset (Reg.CLU_SEM k n) = 0 := by decide +kernel

/-! ## The module at reset -/

/-- Nothing has been written, so a register holds what the register map gives it (R18). -/
@[simp] theorem reset_reg (a : Nat) : State.reset.m.reg a = regReset a := rfl

@[simp] theorem reset_cc (c : Nat) : State.reset.m.cc c = {} := rfl

/-- g0 reads 0 always, and the other registers of a core because nothing has been written. -/
@[simp] theorem reset_greg (c n : Nat) : State.reset.m.greg c n = 0 := by
  rw [Mach.greg_eq]
  split
  · rfl
  · rw [reset_cc]
    rfl

/-- The supply is good and the module out of reset (log entries 4 and 91). -/
theorem reset_live : State.reset.m.live = true := rfl

@[simp] theorem reset_outValid : State.reset.m.safety.outValid = false := rfl

/-- With hold 11 in effect R348 holds because OUT_VALID is low. -/
theorem reset_outSafe : State.reset.m.outSafe := fun high => by simp at high

theorem reset_outGuarded : State.reset.m.outGuarded := ⟨reset_outSafe, List.forall_mem_nil _⟩

/-- A memory of which nothing has been written is in its canonical form. -/
theorem reset_memWf : State.reset.memWf := rfl

/-- Settles O7, from the register map's reset values and the defaults of the state. -/
theorem resetValues : Obligations.ResetValues := by
  refine ⟨rfl, rfl, reset_memWf, reset_outGuarded, reset_live, reset_outValid, rfl, rfl, rfl, ?_, reset_greg 39 31, ?_⟩
  · simp only [List.forall_mem_cons, reset_reg]
    exact ⟨regReset_safeHold, regReset_safeStatus, regReset_timeStatus, regReset_timeUtcOffset,
      regReset_timePtpStat 2 (by decide), regReset_hifErrCause, regReset_cqHead 255 (by decide),
      regReset_cluSem 7 (by decide) 63 (by decide), List.forall_mem_nil _⟩
  · rw [reset_cc]

end Sys2Proof.Machine
end

section
/-! Clock islands (R33 to R39) and sluice channels (R40 to R42): what one island's change leaves alone, what a restart
order does once no case of R39 holds, and the three outcomes of a handshake. -/

namespace Sys2Proof.Machine

section
variable (m : Mach)

/-! ## One island changed -/

@[simp] theorem Mach.island_setIsland_same (i : Nat) (x : Island) : (m.setIsland i x).island i = x := by
  simp [Mach.island, Mach.setIsland]

theorem Mach.island_setIsland_ne {i j : Nat} (h : j ≠ i) (x : Island) : (m.setIsland i x).island j = m.island j := by
  simp [Mach.island, Mach.setIsland, sget_sput_ne _ h]

/-- From m to t nothing but island i has changed. -/
def Mach.onlyIsland (m t : Mach) (i : Nat) : Prop :=
  (∀ j, j ≠ i → t.island j = m.island j) ∧ { t with islands := m.islands } = m

theorem Mach.onlyIsland_refl (i : Nat) : m.onlyIsland m i := ⟨fun _ _ => rfl, rfl⟩

theorem Mach.onlyIsland_setIsland (i : Nat) (x : Island) : m.onlyIsland (m.setIsland i x) i :=
  ⟨fun _ hj => m.island_setIsland_ne hj x, rfl⟩

/-! ## Stretching (R34, R35) -/

/-- A request, applied or recorded, is the island's alone. -/
theorem Mach.onlyIsland_stretch (i : Nat) (src : StretchSrc) (p : Nat) : m.onlyIsland (m.stretch i src p) i := by
  unfold Mach.stretch
  dsimp only
  split
  · split
    · exact m.onlyIsland_setIsland i _
    · exact m.onlyIsland_refl i
  · exact m.onlyIsland_setIsland i _

theorem Mach.stretch_island (i : Nat) (src : StretchSrc) (p : Nat) :
    (m.stretch i src p).island i = if fixedIsland i then
        (if m.mgmtRuns then { m.island i with refused := (m.island i).refused + 1 } else m.island i)
      else (m.island i).request src (some p) := by
  unfold Mach.stretch
  dsimp only
  split
  · split <;> simp
  · simp

/-- The islands of R35 are the timebase, the safety supervisor and the ports but the hub and the debug island. -/
theorem fixedIsland_iff (i : Nat) : fixedIsland i = true ↔ i = 144 ∨ i = 145 ∨ 152 ≤ i ∧ i ≤ 163 := by
  simp [fixedIsland, or_assoc]

theorem Mach.islandPeriod_fixed {i : Nat} (h : i = 144 ∨ i = 145 ∨ 152 ≤ i ∧ i ≤ 163) : m.islandPeriod i = 256 :=
  if_pos ((fixedIsland_iff i).mpr h)

/-- R34: the longest of the plan and the requests, each request cut to its limit. -/
theorem Mach.islandPeriod_free {i : Nat} (h : ¬(i = 144 ∨ i = 145 ∨ 152 ≤ i ∧ i ≤ 163)) :
    m.islandPeriod i = max (m.islandPlan i).1 (max (min 512 ((m.island i).droop.getD 256))
      (max (min (m.islandPlan i).2 ((m.island i).thermal.getD 256)) (min (m.islandPlan i).2 ((m.island i).cap.getD 256)))) :=
  if_neg fun hf => h ((fixedIsland_iff i).mp hf)

/-! ## Stops and restarts (R37, R39) -/

/-- A stop for a cause is the island's alone; the island stands and the cause is among its causes. -/
theorem Mach.stopFor_spec (i : Nat) (why : StopCause) :
    m.onlyIsland (m.stopFor i why) i ∧ (m.stopFor i why).runs i = false ∧ why ∈ ((m.stopFor i why).island i).stopped := by
  unfold Mach.stopFor
  dsimp only
  split
  · rename_i hmem
    have hin : why ∈ (m.island i).stopped := by simpa using hmem
    exact ⟨m.onlyIsland_refl i, List.isEmpty_eq_false_iff.mpr (List.ne_nil_of_mem hin), hin⟩
  · exact ⟨m.onlyIsland_setIsland i _, by simp [Mach.runs], by simp⟩

/-- No case of R39 stops the timebase or the safety supervisor. -/
theorem Mach.stopCase_timebase_supervisor {i : Nat} (h : i = 144 ∨ i = 145) (why : StopCause) : m.stopCase i why = false := by
  cases why <;> rcases h with rfl | rfl <;> simp [Mach.stopCase]

/-- What an island consumes at its restart changes sluice channels alone. -/
theorem Mach.consume_eq (b : Nat) : { m.consume b with sluices := m.sluices } = m := by
  have fold : ∀ (l : Sparse Sluice) (t : Mach), { t with sluices := m.sluices } = m →
      { l.foldl (fun m p => if p.1 / 256 % 166 = b then m.setSluice p.1 p.2.consumed else m) t with sluices := m.sluices } = m := by
    intro l
    induction l with
    | nil => exact fun _ h => h
    | cons p l ih =>
      intro t h
      rw [List.foldl_cons]
      split
      · exact ih _ h
      · exact ih _ h
  exact fold m.sluices m rfl

theorem Mach.consume_island (b j : Nat) : (m.consume b).island j = m.island j := by
  have h := congrArg Mach.islands (m.consume_eq b)
  rw [Mach.island, show (m.consume b).islands = m.islands from h]
  rfl

/-- Only the sequencer island of a core has a start stage that looks again. -/
theorem Mach.lookAgain_other {i : Nat} (h : ¬(i < 128 ∧ i % 4 = 3)) : m.lookAgain i = m := if_neg h

/-- The module in which island i has no cause to stand any more and has consumed what waited for it. -/
def Mach.restarted (m : Mach) (i : Nat) : Mach := (m.setIsland i { m.island i with stopped := [] }).consume i

theorem Mach.restarted_runs (i : Nat) : (m.restarted i).runs i = true := by
  simp [Mach.restarted, Mach.runs, Mach.consume_island]

theorem Mach.restarted_frame (i : Nat) : (∀ j, j ≠ i → (m.restarted i).island j = m.island j) ∧
    { m.restarted i with islands := m.islands, sluices := m.sluices } = m :=
  ⟨fun j hj => by rw [Mach.restarted, Mach.consume_island, m.island_setIsland_ne hj],
    congrArg (fun x : Mach => { x with islands := m.islands }) (Mach.consume_eq (m.setIsland i _) i)⟩

/-- A restart order where no case of R39 holds. -/
theorem Mach.restartIsland_eq {i : Nat} (h : ∀ why, m.stopCase i why = false) :
    m.restartIsland i = if (m.island i).stopped.isEmpty then m.restarted i else (m.restarted i).lookAgain i := by
  unfold Mach.restartIsland
  simp [h, Mach.runs, Mach.restarted]

end

section
variable {s : State} (live : s.m.live = true) (i : Fin 166)
include live

theorem exec_stretchRequest (src : StretchSrc) (p : Nat) :
    exec (.stretchRequest i src p) s = .next { s with m := s.m.stretch i src p } :=
  act_live live (·.stretch i src p)

theorem exec_stretchWithdraw (src : StretchSrc) : exec (.stretchWithdraw i src) s = .next { s with m := s.m.unstretch i src } :=
  act_live live (·.unstretch i src)

theorem exec_islandStop (why : StopCause) : exec (.islandStop i why) s = .next { s with m := s.m.stopOrder i why } :=
  act_live live (·.stopOrder i why)

theorem exec_islandRestart : exec (.islandRestart i) s = .next { s with m := s.m.restartIsland i } :=
  act_live live (·.restartIsland i)

end

/-- Settles O8, from what each order does to its island and R34's formula for the period. -/
theorem islandRules : Obligations.IslandRules := by
  refine ⟨fun s i live => ?_, fun m i _ => ⟨m.islandPeriod_fixed, fun hfree h1 h2 => ?_, m.stopCase_timebase_supervisor⟩⟩
  · refine ⟨fun src p => ⟨_, exec_stretchRequest live i src p, s.m.onlyIsland_stretch i src p, ?_⟩,
      fun src => ⟨_, exec_stretchWithdraw live i src, s.m.onlyIsland_setIsland i _, ?_⟩, fun why => ?_, fun hno => ?_⟩
    · rw [Mach.stretch_island]
      cases src <;> rfl
    · rw [Mach.unstretch, Mach.island_setIsland_same]
      cases src <;> rfl
    · obtain ⟨honly, hstands, hmem⟩ := s.m.stopFor_spec i why
      cases hcase : s.m.stopCase i why
      · exact ⟨s.m, (exec_islandStop live i why).trans (by simp [Mach.stopOrder, hcase]), s.m.onlyIsland_refl i, nofun, fun _ => rfl⟩
      · exact ⟨_, (exec_islandStop live i why).trans (by rw [Mach.stopOrder, if_pos hcase]), honly,
          fun _ => ⟨hstands, hmem⟩, nofun⟩
    · exact ⟨_, (exec_islandRestart live i).trans (by rw [s.m.restartIsland_eq hno]), s.m.restarted_runs i,
        Mach.lookAgain_other _, s.m.restarted_frame i⟩
  · rw [m.islandPeriod_free hfree]
    refine ⟨by omega, by omega, fun hd ht hc h3 h4 => ?_⟩
    simp only [hd, ht, hc, Option.getD_none]
    omega

/-! ## Sluices (R41, R42) -/

section
variable (m : Mach)

@[simp] theorem Mach.sluice_setSluice_same (k : Nat) (x : Sluice) : (m.setSluice k x).sluice k = x := by
  simp [Mach.sluice, Mach.setSluice]

theorem Mach.sluice_setSluice_ne {j k : Nat} (h : j ≠ k) (x : Sluice) : (m.setSluice k x).sluice j = m.sluice j := by
  simp [Mach.sluice, Mach.setSluice, sget_sput_ne _ h]

/-- A channel written: it alone has changed. -/
theorem Mach.setSluice_only (k : Nat) (x : Sluice) :
    (∀ j, j ≠ k → (m.setSluice k x).sluice j = m.sluice j) ∧ { m.setSluice k x with sluices := m.sluices } = m :=
  ⟨fun _ hj => m.sluice_setSluice_ne hj x, rfl⟩

/-- The receiver's check fails on the sequence bit of the transfer before or on a parity bit (R41). -/
theorem Sluice.bad_iff (x : Sluice) (bundle : List Word) (par : List Bool) (b : Bool) :
    x.bad bundle par b = true ↔ b = x.seqBit ∨ par ≠ bundle.map evenParity := by
  rw [Sluice.bad, Bool.or_eq_true, bne_iff_ne, beq_iff_eq, ne_comm, or_comm]

section
variable {a b : Nat} (ch : Nat) (bundle : List Word) (par : List Bool) (seqBit : Bool) (hab : a ≠ b) (hrun : m.runs a = true)
include hab hrun

theorem Mach.transfer_waits (hc : (m.sluice (sluiceKey a b ch)).credit = 0) :
    m.transfer a b ch bundle par seqBit = m.setSluice (sluiceKey a b ch) { m.sluice (sluiceKey a b ch) with waiting := true } := by
  simp [Mach.transfer, hab, hrun, hc]

theorem Mach.transfer_discards (hc : (m.sluice (sluiceKey a b ch)).credit ≠ 0)
    (hbad : (m.sluice (sluiceKey a b ch)).bad bundle par seqBit = true) : m.transfer a b ch bundle par seqBit =
      (m.setSluice (sluiceKey a b ch) { m.sluice (sluiceKey a b ch) with seqBit := seqBit, waiting := false }).sluiceFault b := by
  simp [Mach.transfer, hab, hrun, hc, hbad]

theorem Mach.transfer_delivers (hc : (m.sluice (sluiceKey a b ch)).credit ≠ 0)
    (hgood : (m.sluice (sluiceKey a b ch)).bad bundle par seqBit = false) : m.transfer a b ch bundle par seqBit =
      m.setSluice (sluiceKey a b ch) (if m.runs b then { m.sluice (sluiceKey a b ch) with seqBit := seqBit, waiting := false }
        else { m.sluice (sluiceKey a b ch) with
          seqBit := seqBit, waiting := false, credit := (m.sluice (sluiceKey a b ch)).credit - 1,
          buffer := (m.sluice (sluiceKey a b ch)).buffer ++ [bundle] }) := by
  simp only [Mach.transfer, hab, hrun, hc, hgood]
  cases m.runs b <;> rfl

end
end

theorem exec_sluiceTransfer {s : State} (live : s.m.live = true) (a b : Fin 166) (ch : Fin 256) (bundle : List Word)
    (par : List Bool) (seqBit : Bool) : exec (.sluiceTransfer a b ch bundle par seqBit) s =
      .next { s with m := s.m.transfer a b ch bundle par seqBit } :=
  act_live live (·.transfer a b ch bundle par seqBit)

/-- Settles O9, from the three outcomes of a handshake: no credit, delivered, discarded. -/
theorem sluiceTransfers : Obligations.SluiceTransfers := by
  intro s a b ch bundle seqBit live hab hrun
  have hne : a.val ≠ b.val := fun h => hab (Fin.ext h)
  refine ⟨fun par hc => ⟨_, (exec_sluiceTransfer live a b ch bundle _ seqBit).trans
      (by rw [s.m.transfer_waits ch _ _ _ hne hrun hc]), s.m.setSluice_only _ _, s.m.sluice_setSluice_same _ _⟩, fun hc hseq => ?_, fun par hc hbad => ?_⟩
  · have hgood : (s.m.sluice (sluiceKey a b ch)).bad bundle (bundle.map evenParity) seqBit = false := by
      rw [Bool.eq_false_iff, Ne, Sluice.bad_iff, hseq]
      simp
    exact ⟨_, (exec_sluiceTransfer live a b ch bundle _ seqBit).trans
      (by rw [s.m.transfer_delivers ch _ _ _ hne hrun hc hgood]), s.m.setSluice_only _ _, s.m.sluice_setSluice_same _ _⟩
  · exact (exec_sluiceTransfer live a b ch bundle par seqBit).trans
      (by rw [s.m.transfer_discards ch _ _ _ hne hrun hc ((Sluice.bad_iff _ _ _ _).mpr hbad)])

end Sys2Proof.Machine
end

section
/-! Fields and bits of registers after a write of another field, and event bits that stay (R386). -/

namespace Sys2Proof.Machine

/-! ## Fields of a word -/

/-- Every bit of a word after a field has been replaced. -/
theorem Word.bit_setField (w : Word) (lo n v k : Nat) (hk : k < 32) :
    (w.setField lo n v).bit k = if lo ≤ k ∧ k < lo + n then v.testBit (k - lo) else w.bit k := by
  have hin : decide (lo ≤ k ∧ k < lo + n) = (decide (lo ≤ k) && decide (k - lo < n)) := by
    rw [Bool.eq_iff_iff, Bool.and_eq_true, decide_eq_true_iff, decide_eq_true_iff, decide_eq_true_iff]
    omega
  have hmask : ((2 ^ n - 1) * 2 ^ lo).testBit k = decide (lo ≤ k ∧ k < lo + n) := by
    rw [Nat.testBit_mul_two_pow, Nat.testBit_two_pow_sub_one, hin]
  have hval : (v % 2 ^ n * 2 ^ lo).testBit k = (decide (lo ≤ k ∧ k < lo + n) && v.testBit (k - lo)) := by
    rw [Nat.testBit_mul_two_pow, Nat.testBit_mod_two_pow, hin, Bool.and_assoc]
  rw [Word.bit, Word.bit, Word.setField]
  simp only [BitVec.getLsbD_or, BitVec.getLsbD_and, BitVec.getLsbD_not, BitVec.getLsbD_ofNat, hmask, hval, hk]
  by_cases h : lo ≤ k ∧ k < lo + n
  · simp [h]
  · simp only [h]
    simp

/-- A bit outside the field that is replaced. -/
theorem Word.bit_setField_out (w : Word) {lo n k : Nat} (v : Nat) (h : k < lo ∨ lo + n ≤ k) :
    (w.setField lo n v).bit k = w.bit k := by
  by_cases hk : k < 32
  · rw [Word.bit_setField _ _ _ _ _ hk, if_neg (by omega)]
  · rw [Word.bit, Word.bit, BitVec.getLsbD_of_ge _ _ (by omega), BitVec.getLsbD_of_ge _ _ (by omega)]

theorem Word.testBit_field (w : Word) (lo n i : Nat) : (w.field lo n).testBit i = (decide (i < n) && w.bit (lo + i)) := by
  rw [Word.field, Nat.testBit_mod_two_pow, Nat.testBit_div_two_pow, Nat.add_comm]
  rfl

/-- A field that has just been replaced. -/
theorem Word.field_setField_same (w : Word) {lo n : Nat} (h : lo + n ≤ 32) (v : Nat) : (w.setField lo n v).field lo n = v % 2 ^ n := by
  refine Nat.eq_of_testBit_eq fun i => ?_
  rw [Word.testBit_field, Nat.testBit_mod_two_pow]
  by_cases hi : i < n
  · rw [Word.bit_setField _ _ _ _ _ (by omega), if_pos (by omega), Nat.add_sub_cancel_left]
  · simp [hi]

/-- A field that does not meet the one replaced. -/
theorem Word.field_setField_apart (w : Word) {lo n lo' n' : Nat} (v : Nat) (h : lo' + n' ≤ lo ∨ lo + n ≤ lo') :
    (w.setField lo n v).field lo' n' = w.field lo' n' := by
  refine Nat.eq_of_testBit_eq fun i => ?_
  rw [Word.testBit_field, Word.testBit_field]
  by_cases hi : i < n'
  · rw [Word.bit_setField_out _ _ (by omega)]
  · simp [hi]

/-! ## Event bits stay (R386) -/

variable (m : Mach)

theorem Mach.raise_bit_or (a bits n : Nat) (hn : n < 16) : (m.raise a bits).rbit a n = (m.rbit a n || bits.testBit n) := by
  rw [Mach.rbit, Mach.raise_reg, if_pos rfl, Word.bit, BitVec.getLsbD_or, BitVec.getLsbD_ofNat, Nat.testBit_mod_two_pow]
  congr 1
  · exact Word.bit_setField_out _ _ (by omega)
  · simp [hn, show n < 32 by omega]

/-- An event that stands goes on standing when others come. -/
theorem Mach.raise_bit_stays {a n : Nat} (hn : n < 16) (bits : Nat) (h : m.rbit a n = true) : (m.raise a bits).rbit a n = true := by
  rw [Mach.raise_bit_or _ _ _ _ hn, h, Bool.true_or]

theorem Mach.rbit_congr {m t : Mach} {a : Nat} (h : t.reg a = m.reg a) (n : Nat) : t.rbit a n = m.rbit a n := by
  rw [Mach.rbit, h]; rfl

/-- One clock of an event register changes its number alone besides what happens in it. -/
theorem Mach.oneClock_reg (a b : Nat) (f : Mach → Mach) (h : b ≠ a) : (m.oneClock a f).reg b = (f m).reg b := by
  unfold Mach.oneClock
  dsimp only
  split
  · rfl
  · rw [Mach.setFld_reg, if_neg h]

theorem Mach.oneClock_bit (a n : Nat) (f : Mach → Mach) (hn : n < 16) : (m.oneClock a f).rbit a n = (f m).rbit a n := by
  unfold Mach.oneClock
  dsimp only
  split
  · rfl
  · rw [Mach.rbit, Mach.setFld_reg, if_pos rfl]
    exact Word.bit_setField_out _ _ (by omega)

theorem Mach.oneClock_rest (a : Nat) (f : Mach → Mach) : { m.oneClock a f with regs := (f m).regs } = f m := by
  unfold Mach.oneClock
  dsimp only
  split <;> rfl

end Sys2Proof.Machine
end

section
/-! What happens beside the supervisor: the changes that leave the SAFE, FPL and TIME blocks, the supervisor, the floorplan and
the time line as they are, and of the DBG block touch only what a record in the Cellar touches. Trace and watch records,
the start stage, completion, discarded commands and instants and most reactions to a data fault are of this kind. -/

namespace Sys2Proof.Machine

/-- The counts of the DBG block that a trace or watch record moves. -/
def tapCounts : List Nat := [Reg.DBG_TRACE_DROPS, Reg.DBG_WATCH_DROPS, Reg.DBG_CELLAR_WR, Reg.DBG_CELLAR_WRAPS]

/-- The registers of the DBG block that a trace or watch record can change. -/
def tapRegs : List Nat := Reg.DBG_STATUS :: Reg.DBG_EVENT :: tapCounts

/-- From m to t the supervisor, the floorplan, the time line and every register below the CQ block are as they were, except that
the tap's counts may have moved, the ring may have stopped (DBG_STATUS bit 3) and events of the DBG block may have come. -/
structure Mach.Outside (m t : Mach) : Prop where
  safety : t.safety = m.safety
  fpl : t.fpl = m.fpl
  time : t.time = m.time
  reg : ∀ a < 0x80000, a ∉ tapRegs → t.reg a = m.reg a
  status : ∀ n, n ≠ 3 → t.rbit Reg.DBG_STATUS n = m.rbit Reg.DBG_STATUS n
  event : ∀ n < 16, m.rbit Reg.DBG_EVENT n = true → t.rbit Reg.DBG_EVENT n = true

theorem Mach.Outside.refl (m : Mach) : m.Outside m := ⟨rfl, rfl, rfl, fun _ _ _ => rfl, fun _ _ => rfl, fun _ _ h => h⟩

theorem Mach.Outside.trans {m t u : Mach} (h : m.Outside t) (k : t.Outside u) : m.Outside u :=
  ⟨k.safety.trans h.safety, k.fpl.trans h.fpl, k.time.trans h.time, fun a ha hn => (k.reg a ha hn).trans (h.reg a ha hn),
    fun n hn => (k.status n hn).trans (h.status n hn), fun n hn hb => k.event n hn (h.event n hn hb)⟩

/-- A step that touches neither registers nor the three parts. -/
theorem Mach.Outside.of_regs {m t : Mach} (regs : t.regs = m.regs) (safety : t.safety = m.safety) (fpl : t.fpl = m.fpl)
    (time : t.time = m.time) : m.Outside t := by
  have hreg : ∀ a, t.reg a = m.reg a := fun a => by rw [Mach.reg, regs]; rfl
  exact ⟨safety, fpl, time, fun a _ _ => hreg a, fun n _ => Mach.rbit_congr (hreg _) n,
    fun n _ hb => (Mach.rbit_congr (hreg _) n).trans hb⟩

section
variable {m t : Mach} (h : m.Outside t)
include h

/-! ## Single updates -/

theorem Mach.Outside.setReg (a : Nat) (v : Word) (ha : 0x80000 ≤ a ∨ a ∈ tapCounts) : m.Outside (t.setReg a v) := by
  have hne : ∀ b < 0x80000, b ∉ tapCounts → b ≠ a := by
    rintro b hb hn rfl
    exact ha.elim (by omega) hn
  refine h.trans ⟨rfl, rfl, rfl, fun b hb hn => t.reg_setReg_ne (hne b hb fun hc => hn ?_) v, fun n _ => ?_, fun n _ hb => ?_⟩
  · exact List.mem_cons_of_mem _ (List.mem_cons_of_mem _ hc)
  · exact Mach.rbit_congr (t.reg_setReg_ne (hne _ (by decide) (by decide)) v) n
  · exact (Mach.rbit_congr (t.reg_setReg_ne (hne _ (by decide) (by decide)) v) n).trans hb

theorem Mach.Outside.raise (a bits : Nat) (ha : 0x80000 ≤ a) : m.Outside (t.raise a bits) := h.setReg a _ (.inl ha)

theorem Mach.Outside.raiseDbg (bits : Nat) : m.Outside (t.raise Reg.DBG_EVENT bits) :=
  h.trans ⟨rfl, rfl, rfl,
    fun b _ hn => t.reg_setReg_ne (by rintro rfl; exact hn (by decide)) _,
    fun n _ => Mach.rbit_congr (t.reg_setReg_ne (by decide) _) n, fun _ hn hb => t.raise_bit_stays hn bits hb⟩

/-- The ring stops. -/
theorem Mach.Outside.cellarFull : m.Outside (t.setRBit Reg.DBG_STATUS 3 true) :=
  h.trans ⟨rfl, rfl, rfl,
    fun b _ hn => t.reg_setReg_ne (by rintro rfl; exact hn (by decide)) _,
    fun n hn => by rw [Mach.rbit, Mach.setRBit_reg, if_pos rfl, Word.bit_setBit_ne _ hn]; rfl,
    fun n _ hb => (Mach.rbit_congr (t.reg_setReg_ne (by decide) _) n).trans hb⟩

theorem Mach.Outside.onObs (f : Observe → Observe) : m.Outside (t.onObs f) := h.trans (.of_regs rfl rfl rfl rfl)
theorem Mach.Outside.setCmdq (q : Nat) (x : CmdQ) : m.Outside (t.setCmdq q x) := h.trans (.of_regs rfl rfl rfl rfl)
theorem Mach.Outside.onCmdq (q : Nat) (f : CmdQ → CmdQ) : m.Outside (t.onCmdq q f) := h.setCmdq q _
theorem Mach.Outside.setGroup (g : Nat) (x : Group) : m.Outside (t.setGroup g x) := h.trans (.of_regs rfl rfl rfl rfl)
theorem Mach.Outside.setStage (n : Nat) (q : Tbq) : m.Outside (t.setStage n q) := h.trans (.of_regs rfl rfl rfl rfl)
theorem Mach.Outside.onEgr (f : Egress → Egress) : m.Outside (t.onEgr f) := h.trans (.of_regs rfl rfl rfl rfl)
theorem Mach.Outside.setByte (a : Nat) (b : Byte) : m.Outside (t.setByte a b) := h.trans (.of_regs rfl rfl rfl rfl)
theorem Mach.Outside.wipe (a n : Nat) : m.Outside (t.wipe a n) := h.trans (.of_regs rfl rfl rfl rfl)
theorem Mach.Outside.setContext (n : Nat) (x : VContext) : m.Outside (t.setContext n x) := h.trans (.of_regs rfl rfl rfl rfl)

theorem Mach.Outside.setBytes (a : Nat) (l : List Byte) : m.Outside (t.setBytes a l) :=
  h.trans (by rw [t.setBytes_eq]; exact .of_regs rfl rfl rfl rfl)

theorem Mach.Outside.freeBytes (a n : Nat) : m.Outside (t.freeBytes a n) :=
  (h.trans (.of_regs (t := { t with freeCtr := t.freeCtr + n }) rfl rfl rfl rfl)).setBytes a _

theorem Mach.Outside.bump (i n : Nat) : m.Outside (t.bump i n) := by
  unfold Mach.bump
  split
  · exact h
  · exact h.onObs _

/-- A run over a list each step of which is outside. -/
theorem Mach.Outside.foldl {α : Type} {f : Mach → α → Mach} (hf : ∀ (u : Mach) x, u.Outside (f u x)) (l : List α) :
    m.Outside (l.foldl f t) := by
  induction l generalizing t with
  | nil => exact h
  | cons x l ih => exact ih (h.trans (hf t x))

/-! ## Trace and watch records (R403 to R411) -/

theorem Mach.Outside.cellarWrap : m.Outside t.cellarWrap :=
  ((h.setReg _ _ (.inr (by decide))).setReg _ _ (.inr (by decide))).raiseDbg _

theorem Mach.Outside.cellarStop : m.Outside t.cellarStop := h.cellarFull.raiseDbg _

theorem Mach.Outside.cellarWrite (rec : List Byte) : m.Outside (t.cellarWrite rec) := by
  unfold Mach.cellarWrite
  dsimp only
  split
  · exact (h.setBytes _ _).setReg _ _ (.inr (by decide))
  · split
    · exact ((h.setBytes _ _).setReg _ _ (.inr (by decide))).cellarStop
    · exact (h.setBytes _ _).cellarWrap

theorem Mach.Outside.loseRecords (watch : Bool) (n : Nat) : m.Outside (t.loseRecords watch n) :=
  ((h.onObs _).setReg _ _ (.inr (by cases watch <;> decide))).bump _ _

theorem Mach.Outside.makeRecord (source kind flags : Nat) (w : Word) (payload : List Byte) :
    m.Outside (t.makeRecord source kind flags w payload).2 := h.trans (.of_regs rfl rfl rfl rfl)

theorem Mach.Outside.offer (watch : Bool) (recs : List (List Byte)) : m.Outside (t.offer watch recs) := by
  have hrefill : m.Outside t.refill := h.trans (.of_regs rfl rfl rfl rfl)
  unfold Mach.offer
  extract_lets u n k need w x
  split
  · exact hrefill.loseRecords _ _
  split
  · exact (hrefill.loseRecords _ _).raiseDbg _
  split
  · exact hrefill.cellarStop.loseRecords _ _
  · have hpaid : m.Outside w := hrefill.onObs _
    refine Mach.Outside.foldl ?_ (fun v r => (Mach.Outside.refl v).cellarWrite r) _
    unfold x
    split
    · exact hpaid
    · exact ((hpaid.makeRecord 0xFF 0x3F 0 w.now (leBytes 4 w.obs.lost.toNat ++ leBytes 4 w.obs.lostAt.toNat)).onObs _).cellarWrite _

theorem Mach.Outside.trace (source kind flags : Nat) (payload : List Byte) : m.Outside (t.trace source kind flags payload) :=
  (h.makeRecord source kind flags t.now payload).offer false _

theorem Mach.Outside.traceDone (q : Nat) (num : Word) (b : List Byte) (outcome : Nat) (redo : Bool) :
    m.Outside (t.traceDone q num b outcome redo) := by
  unfold Mach.traceDone
  split
  · exact h.trace _ _ _ _
  · exact h

end

/-- A run over a list that carries something beside the module. -/
theorem Mach.outside_foldl_snd {α β : Type} {f : β × Mach → α → β × Mach}
    (hf : ∀ (acc : β × Mach) x, acc.2.Outside (f acc x).2) (l : List α)
    (acc : β × Mach) : acc.2.Outside (l.foldl f acc).2 := by
  induction l generalizing acc with
  | nil => exact .refl _
  | cons x l ih => exact (hf acc x).trans (ih _)

section
variable {m t : Mach} (h : m.Outside t)
include h

theorem Mach.Outside.watchEmit (w : Nat) : m.Outside (t.watchEmit w) := by
  unfold Mach.watchEmit
  dsimp only
  split
  · refine Mach.Outside.offer (Mach.Outside.onObs (h.trans ?_) _) _ _
    refine Mach.outside_foldl_snd (acc := ([], t)) (fun _ _ => ?_) _
    exact .of_regs rfl rfl rfl rfl
  · exact h

theorem Mach.Outside.watchFlush (q : Nat) : m.Outside (t.watchFlush q) := by
  refine h.foldl (fun u w => ?_) _
  dsimp only
  split
  · exact (Mach.Outside.refl u).watchEmit w
  · exact .refl u

/-! ## The start stage and completion (R293 to R295) -/

theorem Mach.Outside.cmdError (q : Nat) (e : CmdErr) : m.Outside (t.cmdError q e) := by
  unfold Mach.cmdError
  dsimp only
  refine Mach.Outside.traceDone (Mach.Outside.raise (Mach.Outside.setReg (Mach.Outside.setReg (Mach.Outside.setCmdq ?_ _ _)
    _ _ (.inl ?_)) _ _ (.inl ?_)) _ _ ?_) _ _ _ _ _
  · split
    · exact h
    · exact h.setReg _ _ (.inl (by simp only [Reg.CQ_HEAD]; omega))
  · simp only [Reg.CQ_ERR]; omega
  · simp only [Reg.CQ_ERRPOS]; omega
  · simp only [Reg.CQ_EVENT]; omega

theorem Mach.Outside.checkHead (q : Nat) : m.Outside (t.checkHead q) := by
  unfold Mach.checkHead
  dsimp only
  split
  · split
    · exact h.cmdError q _
    · split
      · exact (h.onCmdq q _).raise _ _ (by simp only [Reg.CQ_EVENT]; omega)
      · exact h
  · exact h

theorem Mach.Outside.advanceDone (q fuel : Nat) : m.Outside (t.advanceDone q fuel) := by
  induction fuel generalizing t with
  | zero => exact h
  | succ fuel ih =>
    unfold Mach.advanceDone
    dsimp only
    split
    · exact ih ((h.onCmdq q _).setReg _ _ (.inl (by simp only [Reg.CQ_DONE]; omega)))
    · exact h

theorem Mach.Outside.countDone (q : Nat) (n : Word) : m.Outside (t.countDone q n) := by
  unfold Mach.countDone
  dsimp only
  refine Mach.Outside.onObs (Mach.Outside.onCmdq (Mach.Outside.advanceDone ?_ _ _) _ _) _
  split
  · exact h
  · exact h.onCmdq q _

theorem Mach.Outside.drainCheck (q : Nat) : m.Outside (t.drainCheck q) := by
  unfold Mach.drainCheck
  dsimp only
  split
  · exact ((h.setCmdq q _).raise _ _ (by simp only [Reg.CQ_EVENT]; omega)).watchFlush q
  · exact h

end

end Sys2Proof.Machine
end

section
/-! The small happenings of the debug block: SYNC records, the restart of a trace ring that stands full (R404, R406), the kick
of the Still watchdog (R414) and the management core held in debug (R24). -/

namespace Sys2Proof.Machine

/-! ## Bus errors and write-1 registers -/

section
variable (m : Mach)

/-- A refused write: counted, its events raised, captured where capture is armed, and PERR set. -/
theorem Mach.refuse_eq (a : Nat) : m.refuse a =
    (if m.rbit Reg.HIF_ERR_CAUSE 31 then (m.incReg Reg.HIF_ERR_COUNT).raise Reg.HIF_EVENT 0x3
      else (((m.incReg Reg.HIF_ERR_COUNT).raise Reg.HIF_EVENT 0x3).setReg Reg.HIF_ERR_ADDR (BitVec.ofNat 32 a)).setReg
        Reg.HIF_ERR_CAUSE 0xC0006004).onPort fun p => { p with perr := true } := by
  have harm : ((m.incReg Reg.HIF_ERR_COUNT).raise Reg.HIF_EVENT 0x3).rbit Reg.HIF_ERR_CAUSE 31 = m.rbit Reg.HIF_ERR_CAUSE 31 :=
    Mach.rbit_congr (by rw [Mach.raise_reg, if_neg (by decide), Mach.incReg_reg, if_neg (by decide)]) 31
  rw [← harm]
  rfl

/-- A posted write that its register's own rule refuses meets bus error 0x04 and has no other effect (R382). -/
theorem Mach.refuse_busErr (a : Nat) : m.busErr (m.refuse a) a 4 := by
  obtain ⟨hrest, hport⟩ := m.busError_rest true a 0x04 0x60 0
  have hkept : ∀ r, r ≠ Reg.HIF_ERR_ADDR → r ≠ Reg.HIF_ERR_CAUSE →
      (m.refuse a).reg r = ((m.incReg Reg.HIF_ERR_COUNT).raise Reg.HIF_EVENT 0x3).reg r := fun r h1 h2 => by
    rw [Mach.refuse_eq, Mach.onPort_reg]
    split
    · rfl
    · rw [Mach.reg_setReg_ne _ h2, Mach.reg_setReg_ne _ h1]
  have hevent : ∀ n < 16, (0x3 : Nat).testBit n = true → (m.refuse a).rbit Reg.HIF_EVENT n = true := fun n hn hb =>
    (Mach.rbit_congr (hkept _ (by decide) (by decide)) n).trans (Mach.raise_bit _ _ _ n hn hb)
  refine ⟨hport, ?_, fun harm => ?_, hevent 0 (by decide) (by decide), hevent 1 (by decide) (by decide),
    fun r hr => m.busError_regs true a 0x04 0x60 0 r hr, hrest⟩
  · rw [hkept _ (by decide) (by decide), Mach.raise_reg, if_neg (by decide), Mach.incReg_reg, if_pos rfl]
    rfl
  · rw [Mach.fld, Mach.rbit, Mach.refuse_eq, harm, Mach.onPort_reg, Mach.onPort_reg, if_neg Bool.false_ne_true,
      Mach.reg_setReg_same, Mach.reg_setReg_ne _ (by decide), Mach.reg_setReg_same]
    exact ⟨rfl, by decide, by decide⟩

/-- DBG_STILL_CTRL is a register of write-1 bits, so a write of it is refused only while a posted write to its block waits. -/
theorem Mach.writeCause_stillCtrl (h : m.blockPosted Reg.DBG_STILL_CTRL = false) (v : Word) : m.writeCause Reg.DBG_STILL_CTRL v = none := by
  have hrow : ((rowAt Reg.DBG_STILL_CTRL).map fun x => x.1.acc) = some .w1p := by decide
  obtain ⟨⟨r, j⟩, hr, hacc⟩ := Option.map_eq_some_iff.mp hrow
  simp only at hacc
  simp [Mach.writeCause, hr, h, hacc]

/-! ## SYNC records and the ring (R404, R406) -/

theorem Mach.traceSync_traced {c : Nat} (h : m.tracesCore c 3 = true) : m.traceSync c =
    (m.trace c 0x04 0 (leBytes 4 (m.cc c).pc.toNat ++ leBytes 1 (m.ccStateCode c))).onCc c fun x => { x with sinceTrace := 0 } := by
  simp [Mach.traceSync, Mach.traceCc, h]

theorem Mach.traceSync_untraced {c : Nat} (h : m.tracesCore c 3 = false) : m.traceSync c = m := by
  simp [Mach.traceSync, Mach.traceCc, h]

/-- The write of DBG_CELLAR_WR has its effect on a ring that stands full with stop 1, at an offset inside the ring. -/
def Mach.mayRestart (m : Mach) (o : Nat) : Prop :=
  m.rbit Reg.DBG_TRACE_CTRL 30 = true ∧ m.cellarFull = true ∧ 0x40000 ≤ o ∧ o < m.cellarSize

theorem Mach.mayRestart_iff (o : Nat) : m.mayRestart o ↔
    ¬ ((!(m.rbit Reg.DBG_TRACE_CTRL 30 && m.cellarFull) || o < 0x40000 || m.cellarSize ≤ o) = true) := by
  simp only [Mach.mayRestart, Bool.or_eq_true, Bool.not_eq_true', decide_eq_true_eq, not_or, Nat.not_lt, Nat.not_le,
    Bool.not_eq_false, Bool.and_eq_true, and_assoc]

section
variable {m : Mach} {v : Word} (h : m.writeCause Reg.DBG_CELLAR_WR v = none)
include h

theorem Mach.dbgArrive_cellarWr : m.dbgArrive Reg.DBG_CELLAR_WR v =
    if (m.cellarRestart v).1 then m.refuse Reg.DBG_CELLAR_WR else (m.cellarRestart v).2 := by
  rw [Mach.dbgArrive, Mach.arriveWith_eq, h, Mach.dbgWrite, if_pos rfl]

theorem Mach.dbgArrive_restarts (hmay : m.mayRestart (v &&& 0x7FFFFFE0).toNat) : m.dbgArrive Reg.DBG_CELLAR_WR v =
    (m.setReg Reg.DBG_CELLAR_WR (v &&& 0x7FFFFFE0)).setRBit Reg.DBG_STATUS 3 false := by
  rw [Mach.dbgArrive_cellarWr h, Mach.cellarRestart]
  rw [if_neg ((m.mayRestart_iff _).mp hmay), BitVec.ofNat_toNat, BitVec.setWidth_eq]
  exact if_neg Bool.false_ne_true

theorem Mach.dbgArrive_refuses (hno : ¬ m.mayRestart (v &&& 0x7FFFFFE0).toNat) :
    m.dbgArrive Reg.DBG_CELLAR_WR v = m.refuse Reg.DBG_CELLAR_WR := by
  rw [Mach.dbgArrive_cellarWr h, Mach.cellarRestart]
  rw [if_pos (not_not.mp fun hc => hno ((m.mayRestart_iff _).mpr hc))]
  rfl

end

/-! ## The management core held in debug (R24) -/

theorem Mach.servoCheck_frame : { m.servoCheck with regs := m.regs } = m ∧ m.regsBut m.servoCheck [Reg.TIME_STATUS] :=
  ⟨rfl, fun r hr => by
    have h : r ≠ Reg.TIME_STATUS := fun e => hr (List.mem_singleton.mpr e)
    simp [Mach.servoCheck, Mach.setRBit_reg, h]⟩

theorem Mach.telemetry_frame : { m.telemetry with regs := m.regs } = m ∧ m.regsBut m.telemetry [Reg.GCTL_VIN, Reg.GCTL_TEMP] := by
  unfold Mach.telemetry
  split
  · exact ⟨rfl, fun r hr => by
      simp only [List.mem_cons, List.not_mem_nil, or_false, not_or] at hr
      rw [Mach.reg_setReg_ne _ hr.2, Mach.reg_setReg_ne _ hr.1]⟩
  · exact ⟨rfl, fun _ _ => rfl⟩

/-- The debug port's hold on the management core: with debug access it is as asked, and nothing but the servo's status and
the telemetry follows. -/
theorem Mach.mgmtHold_granted (h : m.debugAccess = true) (on : Bool) :
    (m.mgmtHold on).obs = { m.obs with mgmtDebug := on } ∧
      m.regsBut (m.mgmtHold on) [Reg.TIME_STATUS, Reg.GCTL_VIN, Reg.GCTL_TEMP] ∧
      { m.mgmtHold on with regs := m.regs, obs := m.obs } = m := by
  obtain ⟨hs, hsreg⟩ := (m.onObs fun o => { o with mgmtDebug := on }).servoCheck_frame
  obtain ⟨ht, htreg⟩ := (m.onObs fun o => { o with mgmtDebug := on }).servoCheck.telemetry_frame
  rw [Mach.mgmtHold, if_pos h]
  have hrest := (congrArg (fun x : Mach => { x with regs := m.regs }) ht).trans hs
  refine ⟨(congrArg Mach.obs hrest :), fun r hr => ?_, congrArg (fun x : Mach => { x with obs := m.obs }) hrest⟩
  simp only [List.mem_cons, List.not_mem_nil, or_false, not_or] at hr
  rw [htreg r (by simp [hr]), hsreg r (by simp [hr])]
  rfl

theorem Mach.mgmtHold_denied (h : m.debugAccess = false) (on : Bool) : m.mgmtHold on = m := by simp [Mach.mgmtHold, h]

theorem Mach.mgmtHold_runs (h : m.debugAccess = true) (on : Bool) :
    (m.mgmtHold on).mgmtRuns = (m.pins.booted && !m.obs.mgmtHalted && !on) := by
  obtain ⟨hobs, -, hrest⟩ := m.mgmtHold_granted h on
  have hpins : (m.mgmtHold on).pins = m.pins := (congrArg Mach.pins hrest :)
  rw [Mach.mgmtRuns, hobs, hpins]

end

end Sys2Proof.Machine
end

section
/-! The Still snapshot (R414, R415): the islands that stop and run again, what lies in the Cellar, and what a trigger does. -/

namespace Sys2Proof.Machine

/-! ## Bytes of a structure -/

@[simp] theorem length_leBytes (n v : Nat) : (leBytes n v).length = n := by
  induction n generalizing v with
  | zero => rfl
  | succ n ih => simp [leBytes, ih]

@[simp] theorem length_wordBytes (w : Word) : (wordBytes w).length = 4 := length_leBytes 4 _

@[simp] theorem length_padTo (n : Nat) (l : List Byte) : (padTo n l).length = n := by simp [padTo]

/-- A slice of a padded list that lies within the list. -/
theorem padTo_slice {n k j : Nat} {l : List Byte} (hn : k + j ≤ n) (hl : k + j ≤ l.length) :
    ((padTo n l).drop k).take j = (l.drop k).take j := by
  rw [padTo, List.take_drop, List.take_drop, List.take_take, Nat.min_eq_left hn, List.take_append_of_le_length hl]

theorem ofLe_leBytes (n v : Nat) : ofLe (leBytes n v) = v % 256 ^ n := by
  induction n generalizing v with
  | zero => simp [leBytes, ofLe, Nat.mod_one]
  | succ n ih =>
    rw [leBytes, ofLe, ih, Nat.pow_succ', Nat.mod_mul]
    rfl

theorem ofLe_wordBytes (w : Word) : ofLe (wordBytes w) = w.toNat := by
  rw [wordBytes, ofLe_leBytes]
  exact Nat.mod_eq_of_lt w.isLt

theorem length_flatMap_const {α : Type} {k : Nat} {f : α → List Byte} (hf : ∀ x, (f x).length = k) (l : List α) :
    (l.flatMap f).length = l.length * k := by
  rw [List.length_flatMap, List.map_congr_left (fun x _ => hf x), List.map_const', List.sum_replicate, smul_eq_mul]

/-- The same number of bytes at each of n places. -/
theorem length_flatMap_range {k : Nat} {f : Nat → List Byte} (hf : ∀ x, (f x).length = k) (n : Nat) :
    ((List.range n).flatMap f).length = n * k := by
  rw [length_flatMap_const hf, List.length_range]

theorem Mach.bytes_congr {m t : Mach} {a n : Nat} (h : ∀ i < n, t.byte (a + i) = m.byte (a + i)) : t.bytes a n = m.bytes a n := by
  induction n generalizing a with
  | zero => rfl
  | succ n ih =>
    have hhead : t.byte a = m.byte a := h 0 (by omega)
    rw [Mach.bytes, Mach.bytes, hhead, ih fun i hi => ?_]
    rw [Nat.add_assoc, Nat.add_comm 1 i]
    exact h (i + 1) (by omega)

/-- A read among bytes just written. -/
theorem Mach.bytes_setBytes (m : Mach) {l : List Byte} {k n : Nat} (h : k + n ≤ l.length) (a : Nat) :
    (m.setBytes a l).bytes (a + k) n = (l.drop k).take n := by
  induction n generalizing k with
  | zero => rfl
  | succ n ih =>
    rw [Mach.bytes, m.setBytes_byte_in l a k (by omega), Nat.add_assoc, ih (by omega), List.drop_eq_getElem_cons (i := k) (by omega),
      List.take_succ_cons]

section
variable (m : Mach)

/-! ## What lies in the Cellar (Tables 16-8, 16-9) -/

theorem Mach.length_stillQueue (q : Nat) : (m.stillQueue q).length = 32 := by simp [Mach.stillQueue]
theorem Mach.length_stillCc (c : Nat) : (m.stillCc c).length = 192 := by
  rw [Mach.stillCc, List.length_append, length_padTo, length_flatMap_range fun _ => length_wordBytes _]
theorem Mach.length_stillCore (c : Nat) : (m.stillCore c).length = 32 := length_padTo _ _
theorem Mach.length_stillStage (n : Nat) : (m.stillStage n).length = 32 := length_padTo _ _
theorem Mach.length_stillPoint (k : Nat) : (m.stillPoint k).length = 32 := length_padTo _ _
theorem Mach.length_stillContext (n c : Nat) : (m.stillContext n c).length = 16 := length_padTo _ _
theorem Mach.length_stillSluice (k : Nat) : (m.stillSluice k).length = 4 := by simp [Mach.stillSluice]

/-- The bytes that a snapshot takes. -/
def Mach.stillLength (m : Mach) : Nat := 0x16800 + 4 * m.stillChannels.length

/-- Every piece of the body lies within the snapshot. -/
theorem Mach.stillBody_fits : ∀ p ∈ m.stillBody, p.1 + p.2.length ≤ m.stillLength := by
  simp only [Mach.stillBody, Mach.stillLength, List.forall_mem_cons, List.not_mem_nil, false_imp_iff, implies_true, and_true,
    length_flatMap_range m.length_stillQueue, length_flatMap_range m.length_stillCc, length_flatMap_range m.length_stillCore,
    length_flatMap_range m.length_stillStage, length_flatMap_range m.length_stillPoint,
    length_flatMap_range fun _ => length_leBytes 2 _, length_flatMap_range fun n => m.length_stillContext n _,
    length_flatMap_range fun n => m.length_stillContext (4096 + n) _, length_flatMap_const m.length_stillSluice]
  omega

theorem Mach.length_stillHeader (x : Nat) : (m.stillHeader x).length = 0xFC := length_padTo _ _

end

/-- Bytes written at an extent inside a larger one leave what lies outside that. -/
theorem Mach.onlyBytes_setBytes (m : Mach) {t : Mach} {a n : Nat} (h : m.onlyBytes t a n) {b : Nat} {l : List Byte}
    (hb : a ≤ b ∧ b + l.length ≤ a + n) : m.onlyBytes (t.setBytes b l) a n :=
  fun x hx => (t.setBytes_byte_out l b x (by omega)).trans (h x hx)

/-- A key whose entries a filter lets through reads as before. -/
theorem sget_filter {β : Type} (d : Nat → β) {p : Nat × β → Bool} {k : Nat} (h : ∀ v, p (k, v) = true) (t : Sparse β) :
    sget d (t.filter p) k = sget d t k := by
  induction t with
  | nil => rfl
  | cons e t ih =>
    obtain ⟨j, v⟩ := e
    by_cases hj : j = k
    · subst hj
      simp [h, sget]
    · by_cases hp : p (j, v) = true <;> simp [hp, sget, hj, ih]

theorem Mach.byte_wipe_out (m : Mach) (a n x : Nat) (hx : x < a ∨ a + n ≤ x) : (m.wipe a n).byte x = m.byte x :=
  sget_filter memZero (fun _ => by simpa using hx) m.mem

section
variable (m : Mach) (x : Nat)

/-- A snapshot is written into memory alone. -/
theorem Mach.stillWrite_rest : { m.stillWrite x with mem := m.mem } = m := by
  have put : ∀ (t : Mach) (a : Nat) (l : List Byte), { t with mem := m.mem } = m → { t.setBytes a l with mem := m.mem } = m :=
    fun t a l h => by rw [t.setBytes_eq]; exact h
  have fold : ∀ (l : List (Nat × List Byte)) (t : Mach), { t with mem := m.mem } = m →
      { l.foldl (fun m' p => m'.setBytes (m.cellarBase + p.1) p.2) t with mem := m.mem } = m := by
    intro l
    induction l with
    | nil => exact fun _ h => h
    | cons p l ih => exact fun t h => ih _ (put t _ _ h)
  exact put _ _ _ (put _ _ _ (fold m.stillBody (m.wipe m.cellarBase m.stillLength) rfl))

theorem Mach.stillWrite_onlyBytes : m.onlyBytes (m.stillWrite x) m.cellarBase m.stillLength := by
  have fold : ∀ (l : List (Nat × List Byte)) (t : Mach), (∀ p ∈ l, p.1 + p.2.length ≤ m.stillLength) →
      m.onlyBytes t m.cellarBase m.stillLength →
      m.onlyBytes (l.foldl (fun m' p => m'.setBytes (m.cellarBase + p.1) p.2) t) m.cellarBase m.stillLength := by
    intro l
    induction l with
    | nil => exact fun _ _ h => h
    | cons p l ih =>
      intro t hl h
      obtain ⟨hp, hl⟩ := List.forall_mem_cons.mp hl
      exact ih _ hl (m.onlyBytes_setBytes h (by omega))
  have hsize : 0x100 ≤ m.stillLength := by rw [Mach.stillLength]; omega
  refine m.onlyBytes_setBytes (m.onlyBytes_setBytes (fold _ _ m.stillBody_fits (m.byte_wipe_out _ _)) ?_) ?_
  · rw [Mach.length_stillHeader]; omega
  · rw [length_wordBytes]; omega

/-- The first bytes of a snapshot are its header's. -/
theorem Mach.stillWrite_header {k n : Nat} (h : k + n ≤ 0xFC) :
    (m.stillWrite x).bytes (m.cellarBase + k) n = ((m.stillHeader x).drop k).take n := by
  have hlen : k + n ≤ (m.stillHeader x).length := by rwa [Mach.length_stillHeader]
  unfold Mach.stillWrite
  dsimp only
  rw [Mach.bytes_congr fun i hi => Mach.setBytes_byte_out _ _ _ _ (.inl (by omega)), Mach.bytes_setBytes _ hlen]

/-- The header begins with its magic number. -/
theorem Mach.stillWrite_magic : (m.stillWrite x).bytes m.cellarBase 4 = [0x53, 0x56, 0x53, 0x54] := by
  have h := m.stillWrite_header x (k := 0) (n := 4) (by decide)
  rw [Mach.stillHeader, padTo_slice (by decide) (by simp)] at h
  simpa using h

/-- The snapshot's number stands at offset 8. -/
theorem Mach.stillWrite_number : (m.stillWrite x).word (m.cellarBase + 8) = m.reg Reg.DBG_STILL_SEQ := by
  have hbytes : (m.stillWrite x).bytes (m.cellarBase + 8) 4 = wordBytes (m.reg Reg.DBG_STILL_SEQ) := by
    rw [m.stillWrite_header x (k := 8) (n := 4) (by decide), Mach.stillHeader, padTo_slice (by decide) (by simp)]
    simp [List.drop_append, leBytes]
  rw [Mach.word, Mach.le, hbytes, ofLe_wordBytes, BitVec.ofNat_toNat, BitVec.setWidth_eq]

end

end Sys2Proof.Machine
end

section
/-! Islands restarted (R39, R416), with the start stages that look again (R295): what they leave of cores, registers and queues. -/

namespace Sys2Proof.Machine

/-! ## A start stage that looks again changes no control core and no island -/

section
variable (m : Mach)

/-- From m to t no control core and no island has changed. -/
def Mach.sameCores (m t : Mach) : Prop := t.core = m.core ∧ t.islands = m.islands

theorem Mach.sameCores_trans {m t u : Mach} (h : m.sameCores t) (k : t.sameCores u) : m.sameCores u :=
  ⟨k.1.trans h.1, k.2.trans h.2⟩

theorem Mach.sameCores_traceDone (q : Nat) (num : Word) (b : List Byte) (outcome : Nat) (redo : Bool) :
    m.sameCores (m.traceDone q num b outcome redo) := by
  unfold Mach.traceDone
  split
  · have hrest := (m.traceFrame_trace (0x80 + m.queueCore q) 0x11 redo.toNat
      (startPayload q num b ++ [BitVec.ofNat 8 outcome])).rest
    exact ⟨(congrArg Mach.core hrest :), (congrArg Mach.islands hrest :)⟩
  · exact ⟨rfl, rfl⟩

theorem Mach.sameCores_cmdError (q : Nat) (e : CmdErr) : m.sameCores (m.cmdError q e) := by
  have hhead : ∀ (c : Bool) (v : Word), m.sameCores (if c then m else m.setReg (Reg.CQ_HEAD q) v) := fun c v => by
    cases c <;> exact ⟨rfl, rfl⟩
  have hset : ∀ (t : Mach) (x : CmdQ) (v w : Word), m.sameCores t → m.sameCores
      ((((t.setCmdq q x).setReg (Reg.CQ_ERR q) v).setReg (Reg.CQ_ERRPOS q) w).raise (Reg.CQ_EVENT q) 0x1) := fun _ _ _ _ h => h
  unfold Mach.cmdError
  exact Mach.sameCores_trans (hset _ _ _ _ (hhead _ _)) (Mach.sameCores_traceDone _ _ _ _ _ _)

theorem Mach.sameCores_checkHead (q : Nat) : m.sameCores (m.checkHead q) := by
  unfold Mach.checkHead
  dsimp only
  split
  · split
    · exact m.sameCores_cmdError q _
    · split <;> exact ⟨rfl, rfl⟩
  · exact ⟨rfl, rfl⟩

theorem Mach.sameCores_lookAgain (i : Nat) : m.sameCores (m.lookAgain i) := by
  have fold : ∀ (l : List Nat) (t : Mach), m.sameCores t → m.sameCores (l.foldl Mach.checkHead t) := by
    intro l
    induction l with
    | nil => exact fun _ h => h
    | cons q l ih => exact fun t h => ih _ (Mach.sameCores_trans h (t.sameCores_checkHead q))
  unfold Mach.lookAgain
  split
  · exact fold _ m ⟨rfl, rfl⟩
  · exact ⟨rfl, rfl⟩

theorem Mach.Outside.lookAgain {m t : Mach} (h : m.Outside t) (i : Nat) : m.Outside (t.lookAgain i) := by
  unfold Mach.lookAgain
  split
  · exact h.foldl (fun u q => (Mach.Outside.refl u).checkHead q) _
  · exact h

/-- With nothing that a start stage could turn away or make wait, looking again does nothing. -/
theorem Mach.lookAgain_settled (h : m.headsSettled) (i : Nat) : m.lookAgain i = m := by
  have one : ∀ q < 256, m.checkHead q = m := fun q hq => by
    have hmay : m.mayStart q = false := by rcases h q hq with hno | herr <;> simp [Mach.mayStart, *]
    rw [Mach.checkHead, hmay]
    exact if_neg Bool.false_ne_true
  have fold : ∀ l : List Nat, (∀ q ∈ l, q < 256) → l.foldl Mach.checkHead m = m := by
    intro l
    induction l with
    | nil => exact fun _ => rfl
    | cons q l ih =>
      intro hl
      obtain ⟨hq, hl⟩ := List.forall_mem_cons.mp hl
      rw [List.foldl_cons, one q hq, ih hl]
  unfold Mach.lookAgain
  split
  · exact fold _ fun q hq => List.mem_range.mp (List.mem_of_mem_filter hq)
  · rfl

/-! ## A restart order, whatever cases of R39 still hold -/

/-- What a restart order leaves of the causes for which island i stands. -/
def Mach.causesLeft (m : Mach) (i : Nat) : Island :=
  { m.island i with stopped := (m.island i).stopped.filter fun c => m.stopCase i c }

theorem Mach.restartIsland_cases (i : Nat) : m.restartIsland i = m.setIsland i (m.causesLeft i) ∨
    m.restartIsland i = (m.setIsland i (m.causesLeft i)).consume i ∨
    m.restartIsland i = ((m.setIsland i (m.causesLeft i)).consume i).lookAgain i := by
  unfold Mach.restartIsland
  dsimp only
  split
  · split
    · exact .inr (.inl rfl)
    · exact .inr (.inr rfl)
  · exact .inl rfl

theorem Mach.Outside.restartIsland {m t : Mach} (h : m.Outside t) (i : Nat) : m.Outside (t.restartIsland i) := by
  have hset : m.Outside (t.setIsland i (t.causesLeft i)) := h.trans (.of_regs rfl rfl rfl rfl)
  have hcons : m.Outside ((t.setIsland i (t.causesLeft i)).consume i) := by
    have hrest := (t.setIsland i (t.causesLeft i)).consume_eq i
    exact hset.trans (.of_regs (congrArg Mach.regs hrest :) (congrArg Mach.safety hrest :) (congrArg Mach.fpl hrest :)
      (congrArg Mach.time hrest :))
  rcases t.restartIsland_cases i with e | e | e
  · rwa [e]
  · rwa [e]
  · rw [e]
    exact hcons.lookAgain i

theorem Mach.restartIsland_core (i : Nat) : (m.restartIsland i).core = m.core := by
  have hcons : ((m.setIsland i (m.causesLeft i)).consume i).core = m.core :=
    (congrArg Mach.core ((m.setIsland i (m.causesLeft i)).consume_eq i) :)
  rcases m.restartIsland_cases i with e | e | e
  · rw [e]; rfl
  · rw [e, hcons]
  · rw [e]
    exact (Mach.sameCores_lookAgain _ i).1.trans hcons

theorem Mach.restartIsland_island (i j : Nat) :
    (m.restartIsland i).island j = if j = i then m.causesLeft i else m.island j := by
  have hset : (m.setIsland i (m.causesLeft i)).island j = if j = i then m.causesLeft i else m.island j := by
    split
    · subst_vars; exact m.island_setIsland_same _ _
    · exact m.island_setIsland_ne ‹_› _
  rcases m.restartIsland_cases i with e | e | e
  · rw [e, hset]
  · rw [e, Mach.consume_island, hset]
  · rw [e, Mach.island, (Mach.sameCores_lookAgain _ i).2]
    exact (Mach.consume_island _ i j).trans hset

/-- A restart order adds no cause. -/
theorem Mach.restartIsland_stopped {i j : Nat} {c : StopCause} (h : c ∈ ((m.restartIsland i).island j).stopped) :
    c ∈ (m.island j).stopped := by
  rw [Mach.restartIsland_island] at h
  split at h
  · subst_vars
    exact List.mem_of_mem_filter h
  · exact h

/-- Registers, memory and command queues stay where every head is settled. -/
theorem Mach.restartIsland_settled (h : m.headsSettled) (i : Nat) :
    (m.restartIsland i).regs = m.regs ∧ (m.restartIsland i).mem = m.mem ∧ (m.restartIsland i).cq = m.cq := by
  have hrest := (m.setIsland i (m.causesLeft i)).consume_eq i
  have hregs : ((m.setIsland i (m.causesLeft i)).consume i).regs = m.regs := (congrArg Mach.regs hrest :)
  have hmem : ((m.setIsland i (m.causesLeft i)).consume i).mem = m.mem := (congrArg Mach.mem hrest :)
  have hcq : ((m.setIsland i (m.causesLeft i)).consume i).cq = m.cq := (congrArg Mach.cq hrest :)
  rcases m.restartIsland_cases i with e | e | e
  · rw [e]; exact ⟨rfl, rfl, rfl⟩
  · rw [e]; exact ⟨hregs, hmem, hcq⟩
  · have hs : ((m.setIsland i (m.causesLeft i)).consume i).headsSettled := fun q hq => by
      have hq := h q hq
      simp only [Mach.hasHead, Mach.cmdq, Mach.reg, hregs, hcq] at hq ⊢
      exact hq
    rw [e, Mach.lookAgain_settled _ hs]
    exact ⟨hregs, hmem, hcq⟩

end

/-! ## Several islands -/

section
variable (m : Mach) (l : List Nat)

theorem Mach.Outside.restartIslands {m t : Mach} (h : m.Outside t) (l : List Nat) : m.Outside (l.foldl Mach.restartIsland t) :=
  h.foldl (fun u i => (Mach.Outside.refl u).restartIsland i) l

theorem Mach.restartIslands_core : (l.foldl Mach.restartIsland m).core = m.core := by
  induction l generalizing m with
  | nil => rfl
  | cons i l ih => rw [List.foldl_cons, ih, Mach.restartIsland_core]

theorem Mach.restartIslands_stopped {j : Nat} {c : StopCause} (h : c ∈ ((l.foldl Mach.restartIsland m).island j).stopped) :
    c ∈ (m.island j).stopped := by
  induction l generalizing m with
  | nil => exact h
  | cons i l ih => exact m.restartIsland_stopped (ih _ h)

/-- Islands restarted after a snapshot has let them go do not stand for it. -/
theorem Mach.restartIslands_loose (h4 : m.rbit Reg.DBG_STATUS 4 = false) (h5 : m.rbit Reg.DBG_STATUS 5 = false) :
    ∀ i ∈ l, StopCause.still ∉ ((l.foldl Mach.restartIsland m).island i).stopped := by
  induction l generalizing m with
  | nil => exact fun i hi => absurd hi List.not_mem_nil
  | cons j l ih =>
    have hout := (Mach.Outside.refl m).restartIsland j
    intro i hi hstill
    rcases List.mem_cons.mp hi with rfl | hi
    · have hleft := Mach.restartIslands_stopped _ l hstill
      rw [Mach.restartIsland_island, if_pos rfl] at hleft
      have hcase := (List.mem_filter.mp hleft).2
      simp [Mach.stopCase, h4, h5] at hcase
    · exact ih (m.restartIsland j) ((hout.status 4 (by decide)).trans h4) ((hout.status 5 (by decide)).trans h5) i hi hstill

/-- Whether the heads are settled is a matter of the command queues and the CQ registers alone. -/
theorem Mach.headsSettled_of {m t : Mach} (h : m.headsSettled) (hcq : t.cq = m.cq) (hreg : ∀ a, 0x80000 ≤ a → t.reg a = m.reg a) :
    t.headsSettled := fun q hq => by
  have hq' := h q hq
  have hhead := hreg (Reg.CQ_HEAD q) (by simp only [Reg.CQ_HEAD]; omega)
  have htail := hreg (Reg.CQ_TAIL q) (by simp only [Reg.CQ_TAIL]; omega)
  simp only [Mach.hasHead, Mach.cmdq, hcq, hhead, htail] at hq' ⊢
  exact hq'

theorem Mach.restartIslands_settled (h : m.headsSettled) : (l.foldl Mach.restartIsland m).regs = m.regs ∧
    (l.foldl Mach.restartIsland m).mem = m.mem ∧ (l.foldl Mach.restartIsland m).cq = m.cq := by
  induction l generalizing m with
  | nil => exact ⟨rfl, rfl, rfl⟩
  | cons i l ih =>
    obtain ⟨hregs, hmem, hcq⟩ := m.restartIsland_settled h i
    have hs : (m.restartIsland i).headsSettled := Mach.headsSettled_of h hcq fun a _ => by
      rw [Mach.reg, hregs]; rfl
    obtain ⟨hregs', hmem', hcq'⟩ := ih (m.restartIsland i) hs
    exact ⟨hregs'.trans hregs, hmem'.trans hmem, hcq'.trans hcq⟩

end

end Sys2Proof.Machine
end

section
/-! A Still snapshot whole (R414 to R416): the islands stand, the snapshot is numbered, dated and written, and the islands are held
or go on; what a trigger does; and the statement about the debug block. -/

namespace Sys2Proof.Machine

section
variable (m : Mach)

/-! ## Letting the islands go -/

/-- No snapshot is in progress or holding, and no island stands for one. -/
def Mach.stillLoose (t : Mach) : Prop := t.rbit Reg.DBG_STATUS 4 = false ∧ t.rbit Reg.DBG_STATUS 5 = false ∧
  ∀ i ∈ stillIslands, StopCause.still ∉ (t.island i).stopped

/-- The module whose DBG_STATUS shows no snapshot any more. -/
def Mach.unstilled (m : Mach) : Mach := (m.setRBit Reg.DBG_STATUS 5 false).setRBit Reg.DBG_STATUS 4 false

theorem Mach.unstilled_reg {a : Nat} (h : a ≠ Reg.DBG_STATUS) : m.unstilled.reg a = m.reg a := by
  rw [Mach.unstilled, Mach.setRBit_reg, if_neg h, Mach.setRBit_reg, if_neg h]

theorem Mach.unstilled_status : m.unstilled.rbit Reg.DBG_STATUS 4 = false ∧ m.unstilled.rbit Reg.DBG_STATUS 5 = false := by
  rw [Mach.unstilled, Mach.rbit, Mach.rbit, Mach.setRBit_reg, if_pos rfl, Mach.setRBit_reg, if_pos rfl,
    Word.bit_setBit_same _ (by decide), Word.bit_setBit_ne _ (by decide), Word.bit_setBit_same _ (by decide)]
  exact ⟨rfl, rfl⟩

@[simp] theorem Mach.onSafety_island (f : Safety → Safety) (i : Nat) : (m.onSafety f).island i = m.island i := rfl

/-- The module whose islands have been let go. -/
@[irreducible] def Mach.letGo (m : Mach) : Mach := stillIslands.foldl Mach.restartIsland m.unstilled

theorem Mach.outside_letGo : m.unstilled.Outside m.letGo := by
  unfold Mach.letGo
  exact (Mach.Outside.refl _).restartIslands _

/-- Recoveries run anew once the islands have been let go, and nothing else follows (R416). -/
theorem Mach.stillRestart_eq : ∃ f, m.stillRestart = m.letGo.onSafety f := by
  unfold Mach.stillRestart Mach.letGo Mach.unstilled
  exact ⟨_, rfl⟩

theorem Mach.stillRestart_loose : m.stillRestart.stillLoose := by
  obtain ⟨h4, h5⟩ := m.unstilled_status
  obtain ⟨f, e⟩ := m.stillRestart_eq
  rw [e]
  refine ⟨(m.outside_letGo.status 4 (by decide)).trans h4, (m.outside_letGo.status 5 (by decide)).trans h5, fun i hi => ?_⟩
  rw [Mach.onSafety_island]
  unfold Mach.letGo
  exact m.unstilled.restartIslands_loose stillIslands h4 h5 i hi

theorem Mach.stillRestart_core : m.stillRestart.core = m.core := by
  obtain ⟨f, e⟩ := m.stillRestart_eq
  rw [e, Mach.onSafety_core]
  unfold Mach.letGo
  exact m.unstilled.restartIslands_core _

theorem Mach.stillRestart_reg {a : Nat} (ha : a < 0x80000) (hn : a ∉ tapRegs) : m.stillRestart.reg a = m.reg a := by
  obtain ⟨f, e⟩ := m.stillRestart_eq
  rw [e, Mach.onSafety_reg, m.outside_letGo.reg a ha hn, m.unstilled_reg (by rintro rfl; exact hn (by decide))]

theorem Mach.stillRestart_event {n : Nat} (hn : n < 16) (h : m.rbit Reg.DBG_EVENT n = true) :
    m.stillRestart.rbit Reg.DBG_EVENT n = true := by
  obtain ⟨f, e⟩ := m.stillRestart_eq
  rw [e]
  exact m.outside_letGo.event n hn ((Mach.rbit_congr (m.unstilled_reg (by decide)) n).trans h)

/-- Where every head is settled, letting the islands go touches no register but DBG_STATUS, no memory and no command queue. -/
theorem Mach.stillRestart_settled (h : m.headsSettled) :
    m.regsBut m.stillRestart [Reg.DBG_STATUS] ∧ m.stillRestart.mem = m.mem ∧ m.stillRestart.cq = m.cq := by
  have hs : m.unstilled.headsSettled := Mach.headsSettled_of h rfl fun a ha =>
    m.unstilled_reg (by rintro rfl; exact absurd ha (by decide))
  obtain ⟨hregs, hmem, hcq⟩ := m.unstilled.restartIslands_settled stillIslands hs
  obtain ⟨f, e⟩ := m.stillRestart_eq
  rw [e]
  rw [Mach.onSafety_mem, Mach.onSafety_cq]
  unfold Mach.letGo
  refine ⟨fun r hr => ?_, hmem, hcq⟩
  rw [Mach.onSafety_reg, Mach.reg, hregs]
  exact m.unstilled_reg fun he => hr (List.mem_singleton.mpr he)

/-! ## Stopping the islands -/

/-- The module whose islands have stopped for a snapshot. -/
@[irreducible] def Mach.stillStopped (m : Mach) : Mach :=
  stillIslands.foldl (fun m i => m.stopFor i .still) (m.setRBit Reg.DBG_STATUS 4 true)

theorem Mach.stopAll_rest (l : List Nat) (why : StopCause) :
    { l.foldl (fun m i => m.stopFor i why) m with islands := m.islands } = m := by
  induction l generalizing m with
  | nil => rfl
  | cons i l ih =>
    have hone := (m.stopFor_spec i why).1.2
    exact (congrArg (fun x : Mach => { x with islands := m.islands }) (ih (m.stopFor i why))).trans hone

theorem Mach.stopFor_stands {i : Nat} (h : m.runs i = false) (j : Nat) (why : StopCause) : (m.stopFor j why).runs i = false := by
  obtain ⟨⟨hother, -⟩, hstands, -⟩ := m.stopFor_spec j why
  by_cases hij : i = j
  · rwa [hij]
  · rwa [Mach.runs, hother i hij]

theorem Mach.stopAll_stand (l : List Nat) (why : StopCause) {i : Nat} (h : i ∈ l ∨ m.runs i = false) :
    (l.foldl (fun m i => m.stopFor i why) m).runs i = false := by
  induction l generalizing m with
  | nil => exact h.resolve_left List.not_mem_nil
  | cons j l ih =>
    refine ih _ ?_
    rcases h with h | h
    · rcases List.mem_cons.mp h with rfl | h
      · exact .inr (m.stopFor_spec i why).2.1
      · exact .inl h
    · exact .inr (m.stopFor_stands h j why)

theorem Mach.stillStopped_rest : { m.stillStopped with islands := m.islands } = m.setRBit Reg.DBG_STATUS 4 true := by
  unfold Mach.stillStopped
  exact Mach.stopAll_rest (m.setRBit Reg.DBG_STATUS 4 true) stillIslands .still

theorem Mach.stillStopped_reg {a : Nat} (h : a ≠ Reg.DBG_STATUS) : m.stillStopped.reg a = m.reg a := by
  have hregs : m.stillStopped.regs = (m.setRBit Reg.DBG_STATUS 4 true).regs := (congrArg Mach.regs m.stillStopped_rest :)
  rw [Mach.reg, hregs]
  exact (m.setRBit_reg _ _ a true).trans (if_neg h)

/-! ## The snapshot -/

/-- The module whose snapshot has its number and its time. -/
def Mach.stillNumbered (m : Mach) : Mach :=
  (m.stillStopped.setReg Reg.DBG_STILL_TIME m.stillStopped.now).incReg Reg.DBG_STILL_SEQ

/-- The module whose snapshot lies in the Cellar, before its islands are held or go on. -/
def Mach.stillTaken (m : Mach) (x : Nat) : Mach := (m.stillNumbered.stillWrite x).raise Reg.DBG_EVENT 0x8

theorem Mach.stillTakeNow_eq (x : Nat) : m.stillTakeNow x = if (m.stillTaken x).rbit Reg.DBG_STILL_CFG 31 then
    ((m.stillTaken x).setRBit Reg.DBG_STATUS 4 false).setRBit Reg.DBG_STATUS 5 true else (m.stillTaken x).stillRestart := by
  unfold Mach.stillTaken Mach.stillNumbered Mach.stillStopped
  rfl

theorem Mach.stillNumbered_reg {a : Nat} (h : a ∉ [Reg.DBG_STATUS, Reg.DBG_STILL_TIME, Reg.DBG_STILL_SEQ]) :
    m.stillNumbered.reg a = m.reg a := by
  simp only [List.mem_cons, List.not_mem_nil, or_false, not_or] at h
  rw [Mach.stillNumbered, Mach.incReg_reg, if_neg h.2.2, Mach.reg_setReg_ne _ h.2.1, Mach.stillStopped_reg _ h.1]

theorem Mach.stillNumbered_seq : m.stillNumbered.reg Reg.DBG_STILL_SEQ = m.reg Reg.DBG_STILL_SEQ + 1 := by
  rw [Mach.stillNumbered, Mach.incReg_reg, if_pos rfl, Mach.reg_setReg_ne _ (by decide), Mach.stillStopped_reg _ (by decide)]
  rfl

theorem Mach.stillNumbered_time : m.stillNumbered.reg Reg.DBG_STILL_TIME = m.now := by
  have htime : m.stillStopped.time = m.time := (congrArg Mach.time m.stillStopped_rest :)
  rw [Mach.stillNumbered, Mach.incReg_reg, if_neg (by decide), Mach.reg_setReg_same, Mach.now, htime]
  rfl

/-- What the stop and the number leave: memory, cores, command queues and channels. -/
theorem Mach.stillNumbered_rest : m.stillNumbered.mem = m.mem ∧ m.stillNumbered.core = m.core ∧ m.stillNumbered.cq = m.cq ∧
    m.stillNumbered.sluices = m.sluices :=
  ⟨(congrArg Mach.mem m.stillStopped_rest :), (congrArg Mach.core m.stillStopped_rest :),
    (congrArg Mach.cq m.stillStopped_rest :), (congrArg Mach.sluices m.stillStopped_rest :)⟩

/-- What a change of memory alone leaves. -/
theorem Mach.kept_of_mem {m t : Mach} (h : { t with mem := m.mem } = m) :
    t.regs = m.regs ∧ t.core = m.core ∧ t.cq = m.cq ∧ t.islands = m.islands :=
  ⟨(congrArg Mach.regs h :), (congrArg Mach.core h :), (congrArg Mach.cq h :), (congrArg Mach.islands h :)⟩

section
variable (x : Nat)

theorem Mach.stillTaken_reg {a : Nat} (h : a ≠ Reg.DBG_EVENT) : (m.stillTaken x).reg a = m.stillNumbered.reg a := by
  rw [Mach.stillTaken, Mach.raise_reg, if_neg h, Mach.reg, (Mach.kept_of_mem (m.stillNumbered.stillWrite_rest x)).1]
  rfl

theorem Mach.stillTaken_event : (m.stillTaken x).rbit Reg.DBG_EVENT 3 = true := Mach.raise_bit _ _ _ 3 (by decide) (by decide)

/-- What the whole snapshot leaves: cores and command queues; and the islands are those that stopped. -/
theorem Mach.stillTaken_rest : (m.stillTaken x).core = m.core ∧ (m.stillTaken x).cq = m.cq ∧
    (m.stillTaken x).islands = m.stillStopped.islands := by
  obtain ⟨-, hcore, hcq, hislands⟩ := Mach.kept_of_mem (m.stillNumbered.stillWrite_rest x)
  obtain ⟨-, hcore', hcq', -⟩ := m.stillNumbered_rest
  rw [Mach.stillTaken, Mach.raise, Mach.setReg_core, Mach.setReg_cq, Mach.setReg_islands]
  exact ⟨hcore.trans hcore', hcq.trans hcq', hislands⟩

theorem Mach.stillTaken_stand : ∀ i ∈ stillIslands, (m.stillTaken x).runs i = false := fun i hi => by
  have hruns : (m.stillTaken x).runs i = m.stillStopped.runs i := by
    rw [Mach.runs, Mach.island, (m.stillTaken_rest x).2.2]
    rfl
  rw [hruns]
  unfold Mach.stillStopped
  exact Mach.stopAll_stand _ stillIslands .still (.inl hi)

theorem Mach.stillTaken_byte (a : Nat) : (m.stillTaken x).byte a = (m.stillNumbered.stillWrite x).byte a := by
  rw [Mach.stillTaken, Mach.raise, Mach.setReg_byte]

theorem Mach.stillNumbered_cellarBase : m.stillNumbered.cellarBase = m.cellarBase := by
  simp only [Mach.cellarBase, Mach.addr36, Mach.fld, m.stillNumbered_reg (a := Reg.DBG_CELLAR_BASE_LO) (by decide),
    m.stillNumbered_reg (a := Reg.DBG_CELLAR_BASE_HI) (by decide)]

theorem Mach.stillNumbered_length : m.stillNumbered.stillLength = 0x16800 + 4 * m.stillChannels.length := by
  simp only [Mach.stillLength, Mach.stillChannels, m.stillNumbered_rest.2.2.2]

/-- The snapshot lies at the base of the Cellar and begins with its magic number. -/
theorem Mach.stillTaken_magic : (m.stillTaken x).bytes m.cellarBase 4 = [0x53, 0x56, 0x53, 0x54] := by
  rw [Mach.bytes_congr fun i _ => m.stillTaken_byte x _, ← m.stillNumbered_cellarBase]
  exact m.stillNumbered.stillWrite_magic x

/-- Its number is the one that DBG_STILL_SEQ then shows. -/
theorem Mach.stillTaken_number : (m.stillTaken x).word (m.cellarBase + 8) = m.reg Reg.DBG_STILL_SEQ + 1 := by
  rw [Mach.word, Mach.le, Mach.bytes_congr fun i _ => m.stillTaken_byte x _, ← m.stillNumbered_cellarBase, ← m.stillNumbered_seq]
  exact m.stillNumbered.stillWrite_number x

/-- No byte beyond the snapshot has changed. -/
theorem Mach.stillTaken_onlyBytes : m.onlyBytes (m.stillTaken x) m.cellarBase (0x16800 + 4 * m.stillChannels.length) := by
  intro a ha
  rw [← m.stillNumbered_length, ← m.stillNumbered_cellarBase] at ha
  have hkept : m.stillNumbered.byte a = m.byte a := by
    rw [Mach.byte, m.stillNumbered_rest.1]
    rfl
  rw [m.stillTaken_byte, m.stillNumbered.stillWrite_onlyBytes x a ha, hkept]

end

/-! ## A snapshot, whole -/

/-- From m to t a Still snapshot has been taken. -/
def Mach.snapshotTaken (m t : Mach) : Prop := t.reg Reg.DBG_STILL_SEQ = m.reg Reg.DBG_STILL_SEQ + 1 ∧
  t.reg Reg.DBG_STILL_TIME = m.now ∧ t.rbit Reg.DBG_EVENT 3 = true ∧
  (m.rbit Reg.DBG_STILL_CFG 31 = true → t.rbit Reg.DBG_STATUS 5 = true ∧ ∀ i ∈ stillIslands, t.runs i = false) ∧
  (m.rbit Reg.DBG_STILL_CFG 31 = false → t.stillLoose) ∧ t.core = m.core ∧
  (m.rbit Reg.DBG_STILL_CFG 31 = true ∨ m.headsSettled →
    t.bytes m.cellarBase 4 = [0x53, 0x56, 0x53, 0x54] ∧ t.word (m.cellarBase + 8) = m.reg Reg.DBG_STILL_SEQ + 1 ∧
    m.onlyBytes t m.cellarBase (0x16800 + 4 * m.stillChannels.length) ∧ t.cq = m.cq)

/-- What holds of the module w once the snapshot lies in the Cellar, before its islands are held or go on. -/
structure Mach.SnapshotLies (m w : Mach) : Prop where
  cfg : w.rbit Reg.DBG_STILL_CFG 31 = m.rbit Reg.DBG_STILL_CFG 31
  seq : w.reg Reg.DBG_STILL_SEQ = m.reg Reg.DBG_STILL_SEQ + 1
  time : w.reg Reg.DBG_STILL_TIME = m.now
  high : ∀ a, 0x80000 ≤ a → w.reg a = m.reg a
  event : w.rbit Reg.DBG_EVENT 3 = true
  stand : ∀ i ∈ stillIslands, w.runs i = false
  magic : w.bytes m.cellarBase 4 = [0x53, 0x56, 0x53, 0x54]
  number : w.word (m.cellarBase + 8) = m.reg Reg.DBG_STILL_SEQ + 1
  only : m.onlyBytes w m.cellarBase (0x16800 + 4 * m.stillChannels.length)
  core : w.core = m.core
  cq : w.cq = m.cq

theorem Mach.stillTaken_lies (x : Nat) : m.SnapshotLies (m.stillTaken x) where
  cfg := Mach.rbit_congr ((m.stillTaken_reg x (by decide)).trans (m.stillNumbered_reg (by decide))) 31
  seq := (m.stillTaken_reg x (by decide)).trans m.stillNumbered_seq
  time := (m.stillTaken_reg x (by decide)).trans m.stillNumbered_time
  high a ha := by
    have hlow : ∀ b ∈ [Reg.DBG_STATUS, Reg.DBG_STILL_TIME, Reg.DBG_STILL_SEQ], ¬ 0x80000 ≤ b := by decide
    rw [m.stillTaken_reg x (by rintro rfl; exact absurd ha (by decide)), m.stillNumbered_reg fun hin => hlow a hin ha]
  event := m.stillTaken_event x
  stand := m.stillTaken_stand x
  magic := m.stillTaken_magic x
  number := m.stillTaken_number x
  only := m.stillTaken_onlyBytes x
  core := (m.stillTaken_rest x).1
  cq := (m.stillTaken_rest x).2.1

section
variable {m} {w : Mach} (lies : m.SnapshotLies w)
include lies

/-- The islands are held behind the snapshot where DBG_STILL_CFG says so. -/
theorem Mach.SnapshotLies.held (hhold : m.rbit Reg.DBG_STILL_CFG 31 = true) :
    m.snapshotTaken ((w.setRBit Reg.DBG_STATUS 4 false).setRBit Reg.DBG_STATUS 5 true) := by
  have hreg : ∀ a, a ≠ Reg.DBG_STATUS →
      ((w.setRBit Reg.DBG_STATUS 4 false).setRBit Reg.DBG_STATUS 5 true).reg a = w.reg a := fun a ha => by
    rw [Mach.setRBit_reg, if_neg ha, Mach.setRBit_reg, if_neg ha]
  have hstatus : ((w.setRBit Reg.DBG_STATUS 4 false).setRBit Reg.DBG_STATUS 5 true).rbit Reg.DBG_STATUS 5 = true := by
    rw [Mach.rbit, Mach.setRBit_reg, if_pos rfl, Word.bit_setBit_same _ (by decide)]
  exact ⟨(hreg _ (by decide)).trans lies.seq, (hreg _ (by decide)).trans lies.time,
    (Mach.rbit_congr (hreg _ (by decide)) 3).trans lies.event, fun _ => ⟨hstatus, lies.stand⟩,
    fun h => absurd (hhold.symm.trans h) (by decide), lies.core, fun _ => ⟨lies.magic, lies.number, lies.only, lies.cq⟩⟩

/-- Else they go on behind it. -/
theorem Mach.SnapshotLies.goOn (hhold : m.rbit Reg.DBG_STILL_CFG 31 = false) : m.snapshotTaken w.stillRestart := by
  refine ⟨(w.stillRestart_reg (by decide) (by decide)).trans lies.seq, (w.stillRestart_reg (by decide) (by decide)).trans lies.time,
    w.stillRestart_event (by decide) lies.event, fun h => absurd (hhold.symm.trans h) (by decide), fun _ => w.stillRestart_loose,
    w.stillRestart_core.trans lies.core, fun h => ?_⟩
  have hsettled : w.headsSettled :=
    Mach.headsSettled_of (h.resolve_left fun h => absurd (hhold.symm.trans h) (by decide)) lies.cq lies.high
  obtain ⟨-, hmem, hcq'⟩ := w.stillRestart_settled hsettled
  have hbyte : ∀ a, w.stillRestart.byte a = w.byte a := fun a => congrArg (fun t => sget memZero t a) hmem
  refine ⟨(Mach.bytes_congr fun i _ => hbyte _).trans lies.magic, ?_, fun a ha => (hbyte a).trans (lies.only a ha),
    hcq'.trans lies.cq⟩
  rw [← lies.number, Mach.word, Mach.word, Mach.le, Mach.le, Mach.bytes_congr fun i _ => hbyte _]

end

theorem Mach.stillTakeNow_taken (x : Nat) : m.snapshotTaken (m.stillTakeNow x) := by
  have lies := m.stillTaken_lies x
  rw [Mach.stillTakeNow_eq, lies.cfg]
  cases hhold : m.rbit Reg.DBG_STILL_CFG 31
  case true => exact lies.held hhold
  case false => exact lies.goOn hhold

/-! ## Triggers (R414) -/

theorem Mach.stillTrigger_missed (x : Nat) (h : m.still = true ∨ 2 ≤ m.phase ∨ m.obs.stillPending.isSome = true) :
    m.stillTrigger x = m.incReg Reg.DBG_STILL_MISSED := by
  refine if_pos ?_
  simp only [Bool.or_eq_true, decide_eq_true_eq, or_assoc]
  exact h

theorem Mach.stillTrigger_free {x : Nat} (h1 : m.still = false) (h2 : m.phase < 2) (h3 : m.obs.stillPending = none) :
    m.stillTrigger x = if m.hold 0 then { m with obs := { m.obs with stillPending := some x } } else m.stillTakeNow x := by
  refine if_neg ?_
  rw [h1, h3, decide_eq_false (Nat.not_le.mpr h2)]
  decide

/-- What a write of DBG_STILL_CTRL does once no posted write to the DBG block waits. -/
theorem Mach.dbgArrive_stillCtrl (h : m.blockPosted Reg.DBG_STILL_CTRL = false) (v : Word) :
    m.dbgArrive Reg.DBG_STILL_CTRL v = m.stillCtrl v := by
  rw [Mach.dbgArrive, Mach.arriveWith_eq, m.writeCause_stillCtrl h v]
  rfl

theorem Mach.stillCtrl_resume : m.stillCtrl 2 = if m.rbit Reg.DBG_STATUS 5 then m.stillRestart else m := rfl

/-- The watchdog's event, with its time begun anew. -/
def Mach.watchdogRaised (m : Mach) : Mach := (m.onObs fun o => { o with kickAt := m.time.count }).raise Reg.DBG_EVENT 0x10

theorem Mach.watchdogExpiry_late (h : m.rbit Reg.DBG_STILL_CFG 30 = true)
    (hlate : m.msReg Reg.DBG_STILL_WDOG ≤ (m.time.count - m.obs.kickAt).toNat) : m.watchdogExpiry = m.watchdogRaised.stillTrigger 2 :=
  if_pos (by rw [h, decide_eq_true hlate]; rfl)

theorem Mach.watchdogExpiry_off (h : m.rbit Reg.DBG_STILL_CFG 30 = false) : m.watchdogExpiry = m := if_neg (by simp [h])

theorem Mach.stallExpiry_late (h : m.rbit Reg.DBG_STILL_CFG 29 = true) (hq : m.anyQueued = true)
    (hlate : m.msReg Reg.DBG_STILL_STALL ≤ (m.time.count - m.obs.progressAt).toNat) :
    m.stallExpiry = Mach.stillTrigger { m with obs := { m.obs with progressAt := m.time.count } } 3 :=
  if_pos (by rw [h, hq, decide_eq_true hlate]; rfl)

theorem Mach.stallExpiry_off (h : m.rbit Reg.DBG_STILL_CFG 29 = false ∨ m.anyQueued = false) : m.stallExpiry = m :=
  if_neg (by rcases h with h | h <;> simp [h])

end

/-! ## The commands -/

section
variable {s : State} (live : s.m.live = true)
include live

theorem exec_traceSyncRecord (c : Fin 40) : exec (.traceSyncRecord c) s = .next { s with m := s.m.traceSync c } :=
  act_live live (·.traceSync c)

theorem exec_cellarRestart (v : Word) : exec (.cellarRestart v) s = .next { s with m := s.m.dbgArrive Reg.DBG_CELLAR_WR v } :=
  act_live live (·.dbgArrive Reg.DBG_CELLAR_WR v)

theorem exec_stillTake (h : s.m.blockPosted Reg.DBG_STILL_CTRL = false) :
    exec .stillTake s = .next { s with m := s.m.stillTrigger 1 } := by
  have harrive := s.m.dbgArrive_stillCtrl h 1
  exact (act_live live (·.dbgArrive Reg.DBG_STILL_CTRL 1)).trans (by rw [harrive]; rfl)

theorem exec_stillResume (h : s.m.blockPosted Reg.DBG_STILL_CTRL = false) :
    exec .stillResume s = .next { s with m := if s.m.rbit Reg.DBG_STATUS 5 then s.m.stillRestart else s.m } := by
  have harrive := s.m.dbgArrive_stillCtrl h 2
  exact (act_live live (·.dbgArrive Reg.DBG_STILL_CTRL 2)).trans (by rw [harrive, Mach.stillCtrl_resume])

theorem exec_watchdogKick (h : s.m.blockPosted Reg.DBG_STILL_CTRL = false) :
    exec .watchdogKick s = .next { s with m := { s.m with obs := { s.m.obs with kickAt := s.m.time.count } } } := by
  have harrive := s.m.dbgArrive_stillCtrl h 4
  exact (act_live live (·.dbgArrive Reg.DBG_STILL_CTRL 4)).trans (by rw [harrive]; rfl)

theorem exec_stillWatchdogExpiry : exec .stillWatchdogExpiry s = .next { s with m := s.m.watchdogExpiry } :=
  act_live live (·.watchdogExpiry)

theorem exec_stillStallExpiry : exec .stillStallExpiry s = .next { s with m := s.m.stallExpiry } := act_live live (·.stallExpiry)

theorem exec_mgmtDebugHalt : exec .mgmtDebugHalt s = .next { s with m := s.m.mgmtHold true } := act_live live (·.mgmtHold true)

theorem exec_mgmtDebugResume : exec .mgmtDebugResume s = .next { s with m := s.m.mgmtHold false } := act_live live (·.mgmtHold false)

end

/-- Settles O47, from what each happening of the debug block does to the module. -/
theorem debugBlock : Obligations.DebugBlock := by
  intro s live m does stays loose triggers
  have htrig : ∀ (c : Instr) (u : Mach) (x : Nat), exec c s = .next { s with m := u.stillTrigger x } → triggers c u x := by
    intro c u x hexec
    refine ⟨fun hmiss => ⟨_, hexec, ?_⟩, fun h1 h2 h3 => ⟨fun hhold => ⟨_, hexec, ?_⟩, fun hhold => ⟨_, hexec, ?_⟩⟩⟩
    · rw [u.stillTrigger_missed x hmiss]
      refine ⟨?_, fun r hr => ?_, rfl⟩
      · rw [Mach.incReg_reg, if_pos rfl]; rfl
      · rw [Mach.incReg_reg, if_neg fun e => hr (List.mem_singleton.mpr e)]
    · rw [u.stillTrigger_free h1 h2 h3, if_pos hhold]
    · rw [u.stillTrigger_free h1 h2 h3, if_neg (by simp [hhold])]
      exact u.stillTakeNow_taken x
  refine ⟨fun c => ⟨fun ht => ?_, fun ht => ?_⟩, fun v hw => ⟨fun hmay => ⟨_, exec_cellarRestart live v, ?_⟩,
    fun hno => ⟨_, exec_cellarRestart live v, ?_⟩⟩, fun hp => htrig _ _ _ (exec_stillTake live hp), fun hp h5 => ?_, fun hp h5 => ?_,
    exec_watchdogKick live, fun hon hlate => ⟨m.watchdogRaised, htrig _ _ _ ?_, rfl, Mach.raise_bit _ _ _ 4 (by decide) (by decide),
      fun r hr => ?_, rfl⟩, fun hoff => ?_, fun hon hq hlate => htrig _ _ _ ?_, fun hoff => ?_, fun hdbg => ⟨?_, ?_⟩,
    fun hdbg => ⟨?_, ?_⟩⟩
  · rw [exec_traceSyncRecord live, Mach.traceSync_traced _ ht]
  · exact (exec_traceSyncRecord live c).trans (by rw [Mach.traceSync_untraced _ ht])
  · obtain ⟨hwr, hstatus⟩ : Reg.DBG_CELLAR_WR ≠ Reg.DBG_STATUS ∧ Reg.DBG_STATUS ≠ Reg.DBG_CELLAR_WR := by decide
    rw [Mach.dbgArrive_restarts hw hmay]
    refine ⟨?_, ?_, fun r hr => ?_, rfl⟩
    · rw [Mach.setRBit_reg, if_neg hwr, Mach.reg_setReg_same]
    · rw [Mach.cellarFull, Mach.rbit, Mach.setRBit_reg, if_pos rfl, Word.bit_setBit_same _ (by decide)]
    · simp only [List.mem_cons, List.not_mem_nil, or_false, not_or] at hr
      rw [Mach.setRBit_reg, if_neg hr.2, Mach.reg_setReg_ne _ hr.1]
  · rw [Mach.dbgArrive_refuses hw hno]
    exact Mach.refuse_busErr _ _
  · have hexec := exec_stillResume live hp
    rw [if_pos h5] at hexec
    exact ⟨_, hexec, s.m.stillRestart_loose, s.m.stillRestart_core, s.m.stillRestart_settled⟩
  · exact (exec_stillResume live hp).trans (by rw [if_neg (by simp only [m] at h5; simp [h5])])
  · rw [exec_stillWatchdogExpiry live, Mach.watchdogExpiry_late _ hon hlate]
  · exact (Mach.raise_reg _ _ _ r).trans (if_neg fun e => hr (List.mem_singleton.mpr e))
  · exact (exec_stillWatchdogExpiry live).trans (by rw [Mach.watchdogExpiry_off _ hoff])
  · rw [exec_stillStallExpiry live, Mach.stallExpiry_late _ hon hq hlate]
  · exact (exec_stillStallExpiry live).trans (by rw [Mach.stallExpiry_off _ hoff])
  · exact ⟨_, exec_mgmtDebugHalt live, (s.m.mgmtHold_runs hdbg true).trans (Bool.and_false _), s.m.mgmtHold_granted hdbg true⟩
  · exact ⟨_, exec_mgmtDebugResume live, (s.m.mgmtHold_runs hdbg false).trans (Bool.and_true _), s.m.mgmtHold_granted hdbg false⟩
  · exact (exec_mgmtDebugHalt live).trans (by rw [Mach.mgmtHold_denied _ hdbg])
  · exact (exec_mgmtDebugResume live).trans (by rw [Mach.mgmtHold_denied _ hdbg])

end Sys2Proof.Machine
end

section
/-! What a fault discards, damages and moves, beside the supervisor (R350, R353, R355, R356): all of it is of the kind `Mach.Outside`. -/

namespace Sys2Proof.Machine

section
variable {m t : Mach} (h : m.Outside t)
include h

theorem Mach.Outside.incReg (a : Nat) (ha : 0x80000 ≤ a) : m.Outside (t.incReg a) := h.setReg a _ (.inl ha)
theorem Mach.Outside.setRBit (a n : Nat) (b : Bool) (ha : 0x80000 ≤ a) : m.Outside (t.setRBit a n b) := h.setReg a _ (.inl ha)
theorem Mach.Outside.setCc (c : Nat) (x : Core) : m.Outside (t.setCc c x) := h.trans (.of_regs rfl rfl rfl rfl)
theorem Mach.Outside.setIsland (i : Nat) (x : Island) : m.Outside (t.setIsland i x) := h.trans (.of_regs rfl rfl rfl rfl)
theorem Mach.Outside.onPose (f : Pose → Pose) : m.Outside (t.onPose f) := h.trans (.of_regs rfl rfl rfl rfl)
theorem Mach.Outside.onStream (s : Nat) (f : Stream → Stream) : m.Outside (t.onStream s f) := h.trans (.of_regs rfl rfl rfl rfl)

/-! ## Commands and instants discarded (R350, R355) -/

theorem Mach.Outside.dropWrites (q : Nat) (c : Started) : m.Outside (t.dropWrites q c) :=
  h.foldl (fun u (e : Nat × Nat) => (Mach.Outside.refl u).freeBytes e.1 e.2) _

theorem Mach.Outside.unhold (q : Nat) (n : Word) : m.Outside (t.unhold q n) := by
  refine h.foldl (fun u g => ?_) _
  split
  · exact (Mach.Outside.refl u).onEgr _
  · exact .refl u

theorem Mach.Outside.undo (q : Nat) (c : Started) : m.Outside (t.undo q c) := by
  unfold Mach.undo
  dsimp only
  refine Mach.Outside.traceDone ?_ _ _ _ _ _
  have hget : m.Outside (if isStageGet c.bytes then (t.dropWrites q c).setStage (u8 c.bytes 0x12)
      ((t.dropWrites q c).stage (u8 c.bytes 0x12)).rewind else t.dropWrites q c) := by
    split
    · exact (h.dropWrites q c).setStage _ _
    · exact h.dropWrites q c
  split
  · exact hget.unhold q _
  · exact hget

theorem Mach.Outside.discardInstant (g : Nat) (k : Word) : m.Outside (t.discardInstant g k) := h.setGroup g _

theorem Mach.Outside.discardThese (l : List (Nat × Word)) : m.Outside (t.discardThese l) :=
  h.foldl (fun u (x : Nat × Word) => (Mach.Outside.refl u).discardInstant x.1 x.2) l

theorem Mach.Outside.discardOf (q : Nat) (n : Word) : m.Outside (t.discardOf q n) := by
  unfold Mach.discardOf
  split
  · exact h.discardInstant _ _
  · exact h

theorem Mach.Outside.discardAll : m.Outside t.discardAll := h.foldl (fun u g => (Mach.Outside.refl u).setGroup g _) _

theorem Mach.Outside.discardTables (k : Nat) : m.Outside (t.discardTables k) :=
  h.foldl (fun u _ => (Mach.Outside.refl u).discardInstant _ _) _

theorem Mach.Outside.dropSlot (c n : Nat) : m.Outside (t.dropSlot c n) := (h.wipe (slotBase c n) 4096).trans (.of_regs rfl rfl rfl rfl)

theorem Mach.Outside.dropSlots (q : Nat) (golden : Bool) : m.Outside (t.dropSlots q golden) := by
  unfold Mach.dropSlots
  dsimp only
  split
  · exact h.dropSlot _ _
  · refine h.foldl (fun u n => ?_) _
    split
    · exact (Mach.Outside.refl u).dropSlot _ _
    · exact .refl u

theorem Mach.Outside.onContexts (p : Nat → VContext → Bool) (f : VContext → VContext) : m.Outside (t.onContexts p f) := by
  refine h.foldl (fun u x => ?_) _
  split
  · exact (Mach.Outside.refl u).setContext _ _
  · exact .refl u

theorem Mach.Outside.pointDone (q : Nat) (b : List Byte) : m.Outside (t.pointDone q b) := by
  unfold Mach.pointDone
  split
  · exact h.incReg _ (by simp only [Reg.PNT_UCMDS]; omega)
  · exact h

theorem Mach.Outside.stopCommand (q : Nat) (c : Started) : m.Outside (t.stopCommand q c) := by
  unfold Mach.stopCommand
  split
  · exact h.dropSlots q _
  · exact h.onContexts _ _
  · split
    · exact h.pointDone q _
    · exact h
  · exact h

theorem Mach.Outside.restartFrom (q : Nat) (oldest : Word) : m.Outside (t.restartFrom q oldest).2 := by
  unfold Mach.restartFrom
  split
  · split
    · exact h.discardInstant _ _
    · exact h
  · exact h

theorem Mach.Outside.stopQueue (q : Nat) : m.Outside (t.stopQueue q) := by
  unfold Mach.stopQueue
  dsimp only
  split
  · exact h.onCmdq q _
  · exact Mach.Outside.setCmdq ((h.restartFrom q _).foldl (fun u d => ((Mach.Outside.refl u).undo q d).stopCommand q d) _) q _

theorem Mach.Outside.stopCore (c : Nat) : m.Outside (t.stopCore c) := h.foldl (fun u q => (Mach.Outside.refl u).stopQueue q) _

theorem Mach.Outside.dropCommands (p : Nat → Started → Bool) : m.Outside (t.dropCommands p) :=
  h.foldl (fun u q => (Mach.Outside.refl u).foldl (fun u c =>
    (((((Mach.Outside.refl u).undo q c).discardOf q c.num).onCmdq q _).countDone q c.num |>.drainCheck q).checkHead q) _) _

/-! ## Data faults (R353) -/

theorem Mach.Outside.rewrite (a : Nat) : m.Outside (t.rewrite a) :=
  h.foldl (fun u _ => ((Mach.Outside.refl u).trans (.of_regs (t := { u with freeCtr := u.freeCtr + 1 }) rfl rfl rfl rfl)).setBytes _ _) _

theorem Mach.Outside.bumpStream (st lo n : Nat) : m.Outside (t.bumpStream st lo n) := by
  unfold Mach.bumpStream
  split
  · exact h
  · exact h.onObs _

theorem Mach.Outside.strDrop (s : Nat) : m.Outside (t.strDrop s) :=
  (h.incReg _ (by simp only [Reg.STR_DROPS]; omega)).bumpStream _ _ _

theorem Mach.Outside.damageRecord (a : Nat) : m.Outside (t.damageRecord a) := by
  refine h.foldl (fun u s => ?_) _
  dsimp only
  split
  · exact (((Mach.Outside.refl u).setByte _ _).strDrop s).onStream s _
  · exact .refl u

theorem Mach.Outside.mapCells (g base : Nat) (f : Nat → GridCell) : m.Outside (t.mapCells g base f) :=
  h.foldl (fun u _ => (Mach.Outside.refl u).setBytes _ _) _

theorem Mach.Outside.gridUnknown (g : Nat) : m.Outside (t.gridUnknown g) := (h.mapCells _ _ _).mapCells _ _ _

theorem Mach.Outside.tracksFree (g : Nat) : m.Outside (t.tracksFree g) := by
  unfold Mach.tracksFree
  dsimp only
  exact (h.foldl (fun u _ => (Mach.Outside.refl u).foldl (fun u _ => (Mach.Outside.refl u).setBytes _ _) _) _).setReg _ _ (.inl (by decide))

theorem Mach.Outside.corruptRing (a : Nat) : m.Outside (t.corruptRing a) := by
  refine h.foldl (fun u q => ?_) _
  dsimp only
  split
  · split
    · exact ((((Mach.Outside.refl u).onCmdq q _).setReg _ _ (.inl (by simp only [Reg.CQ_ERR]; omega))).setReg _ _
        (.inl (by simp only [Reg.CQ_ERRPOS]; omega))).raise _ _ (by simp only [Reg.CQ_EVENT]; omega)
    · exact .refl u
  · exact .refl u

theorem Mach.Outside.restoreLayer (a : Nat) : m.Outside (t.restoreLayer a) := by
  unfold Mach.restoreLayer
  split
  · exact (h.setBytes _ _).foldl (fun u _ => (Mach.Outside.refl u).setBytes _ _) _
  · exact h

theorem Mach.Outside.pointPurge (v : Nat) : m.Outside (t.pointPurge v 0xFFFF) := by
  unfold Mach.pointPurge
  rw [if_pos rfl]
  exact ((((h.wipe _ _).setReg _ _ (.inl (by simp only [Reg.PNT_VT_OCC]; omega))).setReg _ _
    (.inl (by simp only [Reg.PNT_VT_TOMB]; omega))).setReg _ _ (.inl (by simp only [Reg.PNT_VT_SWEEP]; omega)))

/-- A data fault outside the configuration copy: whatever instants its reading unit computes. -/
theorem Mach.Outside.dataFault (a : Nat) {point : Mach → Mach} (hpoint : ∀ u : Mach, u.Outside (point u))
    (ha : (t.regionOf a).map Region.purpose ≠ some 12) : m.Outside (t.dataFault a point) := by
  have hrw := h.rewrite a
  have hp := hrw.trans (hpoint (t.rewrite a))
  have hregion : (t.rewrite a).regionOf a = t.regionOf a := by
    rw [Mach.regionOf, ((Mach.Outside.refl t).rewrite a).fpl]
    rfl
  unfold Mach.dataFault
  dsimp only
  split
  · exact hrw.damageRecord a
  · exact hp
  · exact hp
  · exact hp
  · split
    · split
      · exact hrw.pointPurge _
      · exact hp
    · exact hp
  · split
    · exact hrw.gridUnknown _
    · exact hrw
  · split
    · exact hrw.tracksFree _
    · exact hrw
  · exact hrw.onPose _
  · exact hrw.restoreLayer a
  · exact hp.corruptRing a
  · exact hrw.loseRecords _ _
  · rename_i hpurpose
    exact absurd (hregion ▸ hpurpose) ha
  · exact hrw

/-! ## Streams, placements and programs (R356, R358) -/

theorem Mach.Outside.makeAbsent (s : Nat) : m.Outside (t.makeAbsent s) := by
  unfold Mach.makeAbsent
  split
  · exact h
  · refine Mach.Outside.foldl ((h.setRBit _ _ _ (by simp only [Reg.STR_STATUS]; omega)).raise _ _
      (by simp only [Reg.STR_EVENT]; omega)) (fun u g => ?_) _
    split
    · exact (Mach.Outside.refl u).raise _ _ (by simp only [Reg.FUS_EVENT]; omega)
    · exact .refl u

theorem Mach.Outside.moveRing (q ring : Nat) : m.Outside (t.moveRing q ring) :=
  ((h.setReg _ _ (.inl (by simp only [Reg.CQ_BASE_LO]; omega))).setReg _ _ (.inl (by simp only [Reg.CQ_BASE_HI]; omega))).setBytes _ _

theorem Mach.Outside.bindQueue (q c : Nat) (again : Bool) : m.Outside (t.bindQueue q c again) :=
  ((h.setReg _ _ (.inl (by simp only [Reg.CQ_CORE]; omega))).raise _ _ (by simp only [Reg.CQ_EVENT]; omega)).raise _ _
    (by simp only [Reg.CLU_EVENT]; omega)

theorem Mach.Outside.placeRec (r : PlaceRec) : m.Outside (t.placeRec r) := by
  unfold Mach.placeRec
  split
  · refine Mach.Outside.bindQueue ?_ _ _ _
    split
    · exact h
    · exact h.moveRing _ _
  · split
    · exact h.setBytes _ _
    · exact h
  · refine (h.setReg _ _ (.inl ?_)).setCc _ _
    split <;> simp only [Reg.CLU_CC_ENTRY] <;> omega

theorem Mach.Outside.copyWords : m.Outside t.copyWords := by
  unfold Mach.copyWords
  split
  · exact h
  · split
    · exact h.setBytes _ _
    · refine Mach.Outside.foldl (h.foldl (fun u w => ?_) _) (fun u _ => (Mach.Outside.refl u).setBytes _ _) _
      split
      · split
        · exact .refl u
        · exact (Mach.Outside.refl u).setBytes _ _
      · exact .refl u

theorem Mach.Outside.reloadLayers (p : WeightDest → Bool) : m.Outside (t.reloadLayers p) :=
  h.foldl (fun u _ => (Mach.Outside.refl u).foldl (fun u _ => (Mach.Outside.refl u).setBytes _ _) _) _

theorem Mach.Outside.stopIslands (c : Nat) : m.Outside (t.stopIslands c) := by
  refine h.foldl (fun u i => ?_) _
  dsimp only
  split
  · exact .refl u
  · exact (Mach.Outside.refl u).setIsland _ _

end

end Sys2Proof.Machine
end

section
/-! What the safety supervisor's reactions keep (R355 to R358): no reaction takes back a hold, an event, a fatal fault or a recovery, and
none touches a log entry but through `logReaction`. -/

namespace Sys2Proof.Machine

/-- The registers below the CQ block that a reaction can change. -/
def reactionRegs : List Nat := tapRegs ++ [Reg.SAFE_STATUS, Reg.SAFE_EVENT, Reg.SAFE_HOLD, Reg.FPL_STATUS, Reg.FPL_EVENT,
  Reg.FPL_CORES_OUT, Reg.TIME_STATUS]

/-- The bits that stay set through a reaction. -/
def stays (a n : Nat) : Prop := n < 32 ∧
  (a = Reg.SAFE_EVENT ∧ n < 16 ∨ a = Reg.SAFE_HOLD ∨ a = Reg.FPL_CORES_OUT ∨ a = Reg.SAFE_STATUS ∧ n = 2)

/-- From m to t the supervisor has reacted: of the registers below the CQ block only those of a reaction and those of l may have
changed, with holds, events, faults and recoveries kept. -/
structure Mach.Upholds (l : List Nat) (m t : Mach) : Prop where
  time : t.time = m.time
  plan : t.fpl.plan = m.fpl.plan
  deferred : t.fpl.deferred = m.fpl.deferred
  recoveries : ∀ r ∈ m.safety.recoveries, r ∈ t.safety.recoveries
  low : m.safety.outValid = false → t.safety.outValid = false
  fault : m.safety.faultN = true → t.safety.faultN = true
  reg : ∀ a < 0x80000, a ∉ reactionRegs → a ∉ l → t.reg a = m.reg a
  bit : ∀ a n, stays a n → m.rbit a n = true → t.rbit a n = true

/-- The bits that stay are bits of reaction registers that no record of the tap changes. -/
theorem stays_reg {a n : Nat} (hs : stays a n) : a < 0x80000 ∧ a ∉ tapRegs ∧ a ∈ reactionRegs := by
  rcases hs.2 with ⟨rfl, -⟩ | rfl | rfl | ⟨rfl, -⟩ <;> decide

/-- A log entry is no register with a bit that stays. -/
theorem stays_ne_log {a n : Nat} (hs : stays a n) (i : Nat) : a ≠ Reg.SAFE_LOG1 i := by
  rcases hs.2 with ⟨rfl, -⟩ | rfl | rfl | ⟨rfl, -⟩ <;> simp only [Reg.SAFE_LOG1, Reg.SAFE_EVENT, Reg.SAFE_HOLD, Reg.FPL_CORES_OUT,
    Reg.SAFE_STATUS] <;> omega

/-- Of SAFE_EVENT the events stay, not the number. -/
theorem stays_event {n : Nat} (hs : stays Reg.SAFE_EVENT n) : n < 16 := by
  rcases hs.2 with ⟨-, hn⟩ | e | e | ⟨e, -⟩
  · exact hn
  all_goals exact absurd e (by decide)

theorem not_stays_fpl {a : Nat} (ha : a = Reg.FPL_EVENT ∨ a = Reg.FPL_STATUS ∨ a = Reg.TIME_STATUS) (n : Nat) : ¬ stays a n := by
  rintro ⟨-, ⟨e, -⟩ | e | e | ⟨e, -⟩⟩ <;> rcases ha with rfl | rfl | rfl <;> exact absurd e (by decide)

section
variable {l : List Nat}

theorem Mach.Upholds.refl (m : Mach) : Mach.Upholds l m m :=
  ⟨rfl, rfl, rfl, fun _ h => h, id, id, fun _ _ _ _ => rfl, fun _ _ _ h => h⟩

theorem Mach.Upholds.trans {m t u : Mach} (h : Mach.Upholds l m t) (k : Mach.Upholds l t u) : Mach.Upholds l m u where
  time := k.time.trans h.time
  plan := k.plan.trans h.plan
  deferred := k.deferred.trans h.deferred
  recoveries r hr := k.recoveries r (h.recoveries r hr)
  low hlow := k.low (h.low hlow)
  fault hf := k.fault (h.fault hf)
  reg a ha hn hl := (k.reg a ha hn hl).trans (h.reg a ha hn hl)
  bit a n hs hb := k.bit a n hs (h.bit a n hs hb)

theorem Mach.Upholds.mono {m t : Mach} (h : Mach.Upholds [] m t) : Mach.Upholds l m t :=
  { h with reg := fun a ha hn _ => h.reg a ha hn List.not_mem_nil }

theorem Mach.Outside.upholds {m t : Mach} (h : m.Outside t) : Mach.Upholds l m t where
  time := h.time
  plan := by rw [h.fpl]
  deferred := by rw [h.fpl]
  recoveries r hr := by rwa [h.safety]
  low hlow := by rwa [h.safety]
  fault hf := by rwa [h.safety]
  reg a ha hn _ := h.reg a ha fun hin => hn (List.mem_append_left _ hin)
  bit a n hs hb := by
    obtain ⟨ha, hn, -⟩ := stays_reg hs
    exact (Mach.rbit_congr (h.reg a ha hn) n).trans hb

/-! ## Single updates -/

/-- The clock in which something happens adds nothing but the event register's number. -/
theorem Mach.oneClock_upholds (t : Mach) (f : Mach → Mach) : Mach.Upholds l (f t) (t.oneClock Reg.SAFE_EVENT f) := by
  have hrest := Mach.oneClock_rest Reg.SAFE_EVENT f (m := t)
  have hsafety : (t.oneClock Reg.SAFE_EVENT f).safety = (f t).safety := (congrArg Mach.safety hrest :)
  have hfpl : (t.oneClock Reg.SAFE_EVENT f).fpl = (f t).fpl := (congrArg Mach.fpl hrest :)
  refine ⟨(congrArg Mach.time hrest :), by rw [hfpl], by rw [hfpl], fun r hr => by rwa [hsafety], fun hlow => by rwa [hsafety],
    fun hfault => by rwa [hsafety], fun a _ hn _ => Mach.oneClock_reg _ _ _ _ (by rintro rfl; exact hn (by decide)), fun a n hs hb => ?_⟩
  by_cases ha : a = Reg.SAFE_EVENT
  · subst ha
    rw [Mach.oneClock_bit _ _ _ _ (stays_event hs), hb]
  · exact (Mach.rbit_congr (Mach.oneClock_reg _ _ _ _ ha) n).trans hb

section
variable {m t : Mach} (h : Mach.Upholds l m t)
include h

/-- A step outside what the supervisor keeps. -/
theorem Mach.Upholds.outside {u : Mach} (k : t.Outside u) : Mach.Upholds l m u := h.trans k.upholds

/-- A reaction register, or one of l, takes a value that keeps its bits. -/
theorem Mach.Upholds.setReg (a : Nat) (v : Word) (ha : a ∈ reactionRegs ∨ a ∈ l)
    (hv : ∀ n, stays a n → t.rbit a n = true → v.bit n = true) :
    Mach.Upholds l m (t.setReg a v) := by
  refine h.trans ⟨rfl, rfl, rfl, fun _ hr => hr, id, id, fun b _ hn hl => t.reg_setReg_ne ?_ v, fun b n hs hb => ?_⟩
  · rintro rfl
    exact ha.elim hn hl
  · rw [Mach.rbit, Mach.reg_setReg]
    split
    · subst_vars
      exact hv n hs hb
    · exact hb

theorem Mach.Upholds.raise (a bits : Nat) (ha : a = Reg.SAFE_EVENT ∨ a = Reg.FPL_EVENT) : Mach.Upholds l m (t.raise a bits) := by
  refine h.setReg a _ (.inl ?_) fun n hs hb => ?_
  · rcases ha with rfl | rfl <;> decide
  · have hn : n < 16 := by
      rcases ha with rfl | rfl
      · exact stays_event hs
      · exact absurd hs (not_stays_fpl (.inl rfl) n)
    have hbit := t.raise_bit_stays hn bits hb
    rw [Mach.rbit, Mach.raise_reg, if_pos rfl] at hbit
    exact hbit

/-- A bit is set, or one that need not stay is cleared. -/
theorem Mach.Upholds.setRBit (a n : Nat) (on : Bool) (ha : a ∈ reactionRegs) (hon : on = true ∨ ¬ stays a n) :
    Mach.Upholds l m (t.setRBit a n on) := by
  refine h.setReg a _ (.inl ha) fun k hs hb => ?_
  by_cases hk : k = n
  · subst hk
    rcases hon with rfl | hno
    · exact Word.bit_setBit_same _ hs.1 true
    · exact absurd hs hno
  · exact (Word.bit_setBit_ne _ hk on).trans hb

theorem Mach.Upholds.setFld (a lo n v : Nat) (ha : a ∈ reactionRegs ∨ a ∈ l) (hno : ∀ k, ¬ stays a k) :
    Mach.Upholds l m (t.setFld a lo n v) :=
  h.setReg a _ ha fun k hs _ => absurd hs (hno k)

theorem Mach.Upholds.onSafety (f : Safety → Safety) (hrec : ∀ r ∈ t.safety.recoveries, r ∈ (f t.safety).recoveries)
    (hlow : t.safety.outValid = false → (f t.safety).outValid = false) (hfault : t.safety.faultN = true → (f t.safety).faultN = true) :
    Mach.Upholds l m (t.onSafety f) :=
  h.trans ⟨rfl, rfl, rfl, hrec, hlow, hfault, fun _ _ _ _ => rfl, fun _ _ _ hb => hb⟩

theorem Mach.Upholds.onFpl (f : Fpl → Fpl) (hplan : (f t.fpl).plan = t.fpl.plan) (hdef : (f t.fpl).deferred = t.fpl.deferred) :
    Mach.Upholds l m (t.onFpl f) :=
  h.trans ⟨rfl, hplan, hdef, fun _ hr => hr, id, id, fun _ _ _ _ => rfl, fun _ _ _ hb => hb⟩

/-- A run over a list each step of which upholds. -/
theorem Mach.Upholds.foldl {α : Type} {f : Mach → α → Mach} (hf : ∀ (u : Mach) x, Mach.Upholds l u (f u x)) (xs : List α) :
    Mach.Upholds l m (xs.foldl f t) := by
  induction xs generalizing t with
  | nil => exact h
  | cons x xs ih => exact ih (h.trans (hf t x))

/-! ## Holds, fatal faults and recoveries (R355, R357) -/

theorem Mach.Upholds.outFall : Mach.Upholds l m t.outFall := by
  unfold Mach.outFall
  split
  · refine Mach.Upholds.outside (Mach.Upholds.setRBit (h.onSafety _ (fun _ hr => hr) (fun _ => rfl) id) _ _ _ (by decide) (.inr ?_))
      ((Mach.Outside.refl _).bump _ _)
    rintro ⟨-, ⟨e, -⟩ | e | e | ⟨-, e⟩⟩ <;> exact absurd e (by decide)
  · exact h

theorem Mach.Upholds.beginHold (n : Nat) : Mach.Upholds l m (t.beginHold n) := by
  have hfall := h.outFall
  have hbegun := (hfall.setRBit Reg.SAFE_HOLD n true (by decide) (.inl rfl)).raise _ 0x1 (.inl rfl)
  unfold Mach.beginHold
  dsimp only
  split
  · exact hfall
  · split
    · exact Mach.Upholds.setRBit (hbegun.onSafety _ (fun _ hr => hr) id id) _ _ _ (by decide) (.inl rfl)
    · exact hbegun

theorem Mach.Upholds.fatal : Mach.Upholds l m t.fatal :=
  Mach.Upholds.setRBit (Mach.Upholds.onSafety ((h.beginHold 1).raise _ 0x10 (.inl rfl)) _ (fun _ hr => hr) id fun _ => rfl) _ _ _ (by decide)
    (.inl rfl)

theorem Mach.Upholds.openRecovery (d : Detection) (i : Nat) (permanent : Bool) : Mach.Upholds l m (t.openRecovery d i permanent) := by
  have hkey : m.Upholds l { t with freeCtr := t.freeCtr + 1 } := h.outside (.of_regs rfl rfl rfl rfl)
  unfold Mach.openRecovery
  exact (hkey.beginHold 0).onSafety _ (fun _ hr => List.mem_append_left _ hr) id id

/-! ## Placements (R356, R364) -/

theorem Mach.Upholds.retakeSegments (ns : List Nat) : Mach.Upholds l m (t.retakeSegments ns) :=
  h.trans ⟨rfl, rfl, rfl, fun _ hr => hr, id, id, fun _ _ _ _ => rfl, fun _ _ _ hb => hb⟩

theorem Mach.Upholds.place (p : Placement) : Mach.Upholds l m (t.place p) :=
  ((h.foldl (fun u r => ((Mach.Outside.refl u).placeRec r).upholds) p.recs).retakeSegments _).outside (Mach.Outside.refl _).copyWords

theorem Mach.Upholds.coreOut (c : Nat) : Mach.Upholds l m (t.coreOut c) := by
  have hstate : m.Upholds l (t.setRBit (Reg.CLU_CORE_STATE (c / 4)) (c % 4) false) :=
    h.outside ((Mach.Outside.refl t).setRBit _ _ _ (by simp only [Reg.CLU_CORE_STATE]; omega))
  unfold Mach.coreOut
  exact (hstate.setRBit Reg.FPL_CORES_OUT c true (by decide) (.inl rfl)).onFpl _ rfl rfl

theorem Mach.Upholds.setSelfTest (c : Nat) (x : SelfTest) : Mach.Upholds l m (t.setSelfTest c x) := h.onSafety _ (fun _ hr => hr) id id

theorem Mach.Upholds.rehomeAway (c : Nat) : Mach.Upholds l m (t.rehomeAway c) := by
  unfold Mach.rehomeAway
  split
  · exact (h.place _).setSelfTest _ _
  · exact h

theorem Mach.Upholds.rehomeBack (c : Nat) : Mach.Upholds l m (t.rehomeBack c) := by
  unfold Mach.rehomeBack
  dsimp only
  refine Mach.Upholds.setSelfTest (Mach.Upholds.outside (Mach.Upholds.retakeSegments ?_ _) (Mach.Outside.refl _).copyWords) _ _
  refine h.outside (((((Mach.Outside.refl t).foldl (fun u r => ?_) _).reloadLayers _).foldl (fun u e => (Mach.Outside.refl u).placeRec _) _))
  refine Mach.Outside.bindQueue ?_ _ _ _
  split
  · exact .refl u
  · exact (Mach.Outside.refl u).moveRing _ _

theorem Mach.Upholds.rehomeStopped (c : Nat) : Mach.Upholds l m (t.rehomeStopped c) := by
  unfold Mach.rehomeStopped
  split
  · exact h.rehomeBack c
  · exact h.rehomeAway c

end

/-! ## Log entries and data faults -/

theorem Mach.Upholds.logReaction (m : Mach) (i r : Nat) : Mach.Upholds [Reg.SAFE_LOG1 i] m (m.logReaction i r) :=
  (Mach.Upholds.refl m).setFld _ _ _ _ (.inr (List.mem_singleton.mpr rfl)) fun _ hs => stays_ne_log hs i rfl

theorem Mach.Upholds.dataFault (m : Mach) (a : Nat) {point : Mach → Mach} (hpoint : ∀ u : Mach, u.Outside (point u)) :
    Mach.Upholds l m (m.dataFault a point) := by
  by_cases ha : (m.regionOf a).map Region.purpose = some 12
  · have hrw := (Mach.Outside.refl m).rewrite a
    have hregion : ((m.rewrite a).regionOf a).map Region.purpose = some 12 := by
      rw [Mach.regionOf, hrw.fpl]
      exact ha
    have heq : m.dataFault a point = (m.rewrite a).fatal := by simp only [Mach.dataFault, hregion]
    rw [heq]
    exact (hrw.upholds).fatal
  · exact ((Mach.Outside.refl m).dataFault a hpoint ha).upholds

theorem Mach.Upholds.again (m : Mach) (d : Detection) (i : Nat) {point : Mach → Mach} (hpoint : ∀ u : Mach, u.Outside (point u)) :
    Mach.Upholds [Reg.SAFE_LOG1 i] m (m.again d i point) := by
  unfold Mach.again
  split
  · split
    · exact (Mach.Upholds.logReaction m i 6).trans (.dataFault _ _ hpoint)
    · exact (Mach.Upholds.logReaction m i 8).trans (.dataFault _ _ hpoint)
  · exact .refl m

/-- A detection that has not come again leaves all as it was. -/
theorem Mach.again_once {m : Mach} {d : Detection} (h : d.cause ≠ 8) (i : Nat) (point : Mach → Mach) : m.again d i point = m :=
  if_neg fun hc => h hc.1

end

end Sys2Proof.Machine
end

section
/-! A detection recorded (R351, R354, Table 14-8): what the record shows, what it leaves, and how the log entry, a fatal fault and a
recovery last through what follows. -/

namespace Sys2Proof.Machine

/-! ## What the supervisor shows -/

/-- The count that a detection of this class moves. -/
def classCount (permanent : Bool) : Nat := if permanent then Reg.SAFE_PERMANENT else Reg.SAFE_TRANSIENT

/-- The entry of the event log that is written next. -/
def Mach.nextEntry (m : Mach) : Nat := (m.reg Reg.SAFE_LOG_COUNT).toNat % 64

/-- From m to t a detection has been counted as this class and entered in the log, with reaction r. -/
def Mach.loggedAs (m : Mach) (d : Detection) (permanent : Bool) (t : Mach) (r : Nat) : Prop :=
  t.reg (classCount permanent) = m.reg (classCount permanent) + 1 ∧ t.rbit Reg.SAFE_EVENT 1 = true ∧
    t.reg Reg.SAFE_LOG_COUNT = m.reg Reg.SAFE_LOG_COUNT + 1 ∧ t.reg (Reg.SAFE_LOG0 m.nextEntry) = m.now ∧
    t.fld (Reg.SAFE_LOG1 m.nextEntry) 24 8 = d.cause.toNat ∧ t.fld (Reg.SAFE_LOG1 m.nextEntry) 0 8 = r ∧
    t.reg (Reg.SAFE_LOG2 m.nextEntry) = d.detail

/-- A fatal fault stands. -/
def Mach.isFatal (t : Mach) : Prop := t.hold 1 = true ∧ t.safety.outValid = false ∧ t.safety.faultN = true ∧
  t.rbit Reg.SAFE_STATUS 2 = true ∧ t.rbit Reg.SAFE_EVENT 4 = true

/-- A recovery of this detection, begun at m's time, is in progress. -/
def Mach.recoversFrom (m : Mach) (d : Detection) (t : Mach) (lasting : Bool) : Prop := t.hold 0 = true ∧ t.safety.outValid = false ∧
  ∃ r ∈ t.safety.recoveries, r.det = d ∧ r.at_ = m.time.count ∧ r.permanent = lasting

/-- The reaction that the log shows where r was the first: data cleared, or a fatal fault of the configuration copy, where the
word has failed again. -/
def Mach.shownReaction (m : Mach) (d : Detection) (r : Nat) : Nat := if d.cause = 8 ∧ d.again = true then
  (if (m.regionOf d.addr).map Region.purpose = some 12 then 6 else 8) else r

theorem Mach.nextEntry_lt (m : Mach) : m.nextEntry < 64 := Nat.mod_lt _ (by decide)

/-- The log entries are no reaction registers. -/
theorem log_not_reaction {a : Nat} (h : 0x30400 ≤ a ∧ a < 0x31000) : a < 0x80000 ∧ a ∉ reactionRegs := by
  have hnone : ∀ b ∈ reactionRegs, ¬ (0x30400 ≤ b ∧ b < 0x31000) := by decide
  exact ⟨by omega, fun hin => hnone a hin h⟩

section
variable {m t u : Mach} {d : Detection} {permanent : Bool} {r : Nat}

theorem Mach.loggedAs.upholds (h : m.loggedAs d permanent t r) (k : Mach.Upholds [] t u) : m.loggedAs d permanent u r := by
  obtain ⟨hcount, hevent, hentries, htime, hcause, hreaction, hdetail⟩ := h
  have hi := m.nextEntry_lt
  have hlog : ∀ a, 0x30400 ≤ a ∧ a < 0x31000 → u.reg a = t.reg a := fun a ha =>
    k.reg a (log_not_reaction ha).1 (log_not_reaction ha).2 List.not_mem_nil
  have h0 := hlog (Reg.SAFE_LOG0 m.nextEntry) (by simp only [Reg.SAFE_LOG0]; omega)
  have h1 := hlog (Reg.SAFE_LOG1 m.nextEntry) (by simp only [Reg.SAFE_LOG1]; omega)
  have h2 := hlog (Reg.SAFE_LOG2 m.nextEntry) (by simp only [Reg.SAFE_LOG2]; omega)
  have hclass := k.reg (classCount permanent) (by cases permanent <;> decide) (by cases permanent <;> decide) List.not_mem_nil
  refine ⟨hclass.trans hcount, k.bit _ _ ⟨by decide, .inl ⟨rfl, by decide⟩⟩ hevent,
    (k.reg _ (by decide) (by decide) List.not_mem_nil).trans hentries, h0.trans htime, ?_, ?_, h2.trans hdetail⟩
  · rwa [Mach.fld, h1]
  · rwa [Mach.fld, h1]

theorem Mach.isFatal.upholds {l : List Nat} (h : t.isFatal) (k : Mach.Upholds l t u) : u.isFatal := by
  obtain ⟨hhold, hlow, hfault, hstatus, hevent⟩ := h
  exact ⟨k.bit _ _ ⟨by decide, .inr (.inl rfl)⟩ hhold, k.low hlow, k.fault hfault,
    k.bit _ _ ⟨by decide, .inr (.inr (.inr ⟨rfl, rfl⟩))⟩ hstatus, k.bit _ _ ⟨by decide, .inl ⟨rfl, by decide⟩⟩ hevent⟩

theorem Mach.recoversFrom.upholds {l : List Nat} (h : m.recoversFrom d t permanent) (k : Mach.Upholds l t u) :
    m.recoversFrom d u permanent := by
  obtain ⟨hhold, hlow, o, ho, hrec⟩ := h
  exact ⟨k.bit _ _ ⟨by decide, .inr (.inl rfl)⟩ hhold, k.low hlow, o, k.recoveries o ho, hrec⟩

/-- The class's count is no log entry. -/
theorem classCount_upholds {l : List Nat} (k : Mach.Upholds l t u) (hl : classCount permanent ∉ l) :
    u.reg (classCount permanent) = t.reg (classCount permanent) :=
  k.reg _ (by cases permanent <;> decide) (by cases permanent <;> decide) hl

theorem classCount_ne_log (i : Nat) : classCount permanent ∉ [Reg.SAFE_LOG1 i] := by
  rw [List.mem_singleton]
  cases permanent <;> simp only [classCount, Reg.SAFE_LOG1, Reg.SAFE_PERMANENT, Reg.SAFE_TRANSIENT] <;> simp <;> omega

/-! ## Another reaction in the entry -/

theorem Mach.loggedAs.logReaction (h : m.loggedAs d permanent t r) {r' : Nat} (hr : r' < 256) :
    m.loggedAs d permanent (t.logReaction m.nextEntry r') r' := by
  obtain ⟨hcount, hevent, hentries, htime, hcause, -, hdetail⟩ := h
  have hkept : ∀ a, a ≠ Reg.SAFE_LOG1 m.nextEntry → (t.logReaction m.nextEntry r').reg a = t.reg a := fun a ha =>
    (t.setFld_reg _ 0 8 r' a).trans (if_neg ha)
  have hentry : (t.logReaction m.nextEntry r').reg (Reg.SAFE_LOG1 m.nextEntry) =
      (t.reg (Reg.SAFE_LOG1 m.nextEntry)).setField 0 8 r' := (t.setFld_reg _ 0 8 r' _).trans (if_pos rfl)
  have hclass : classCount permanent ≠ Reg.SAFE_LOG1 m.nextEntry := fun e => classCount_ne_log _ (List.mem_singleton.mpr e)
  refine ⟨(hkept _ hclass).trans hcount, (Mach.rbit_congr (hkept _ ?_) 1).trans hevent, (hkept _ ?_).trans hentries,
    (hkept _ ?_).trans htime, ?_, ?_, (hkept _ ?_).trans hdetail⟩
  · simp only [Reg.SAFE_EVENT, Reg.SAFE_LOG1]; omega
  · simp only [Reg.SAFE_LOG_COUNT, Reg.SAFE_LOG1]; omega
  · simp only [Reg.SAFE_LOG0, Reg.SAFE_LOG1]; omega
  · rw [Mach.fld, hentry, Word.field_setField_apart _ _ (.inr (by decide))]
    exact hcause
  · rw [Mach.fld, hentry, Word.field_setField_same _ (by decide)]
    exact Nat.mod_eq_of_lt hr
  · simp only [Reg.SAFE_LOG2, Reg.SAFE_LOG1]; omega

/-- The same word has failed again: the entry shows it. -/
theorem Mach.loggedAs.again (h : m.loggedAs d permanent t r) (hplan : t.fpl.plan = m.fpl.plan) {point : Mach → Mach}
    (hpoint : ∀ u : Mach, u.Outside (point u)) :
    m.loggedAs d permanent (t.again d m.nextEntry point) (m.shownReaction d r) := by
  have hregion : t.regionOf d.addr = m.regionOf d.addr := by rw [Mach.regionOf, hplan]; rfl
  unfold Mach.again Mach.shownReaction
  rw [hregion]
  split
  · split
    · exact (h.logReaction (by decide)).upholds (.dataFault _ _ hpoint)
    · exact (h.logReaction (by decide)).upholds (.dataFault _ _ hpoint)
  · exact h

end

/-! ## Fatal faults and recoveries begin -/

theorem Mach.fatal_isFatal (m : Mach) : m.fatal.isFatal := by
  obtain ⟨hhold, hlow, -⟩ := m.beginHold_frame 1 (by decide)
  have hraised : ((m.beginHold 1).raise Reg.SAFE_EVENT 0x10).hold 1 = true :=
    (Mach.rbit_congr (Mach.raise_reg _ _ _ _) 1).trans hhold
  have hkept : ∀ a, a ≠ Reg.SAFE_STATUS → m.fatal.reg a = ((m.beginHold 1).raise Reg.SAFE_EVENT 0x10).reg a := fun a ha =>
    (Mach.setRBit_reg _ _ _ _ _).trans (if_neg ha)
  refine ⟨(Mach.rbit_congr (hkept _ (by decide)) 1).trans hraised, hlow, rfl, ?_,
    (Mach.rbit_congr (hkept _ (by decide)) 4).trans (Mach.raise_bit _ _ _ 4 (by decide) (by decide))⟩
  unfold Mach.fatal
  rw [Mach.rbit, Mach.setRBit_reg, if_pos rfl]
  exact Word.bit_setBit_same _ (by decide) true

/-- The module about to begin a recovery, which has taken its key. -/
def Mach.keyTaken (m : Mach) : Mach := { m with freeCtr := m.freeCtr + 1 }

theorem Mach.openRecovery_recovers (m : Mach) (d : Detection) (i : Nat) (permanent : Bool) :
    m.recoversFrom d (m.openRecovery d i permanent) permanent := by
  obtain ⟨hhold, hlow, -⟩ := m.keyTaken.beginHold_frame 0 (by decide)
  exact ⟨hhold, hlow, _, List.mem_append_right _ (List.mem_singleton_self _), rfl, rfl, rfl⟩

end Sys2Proof.Machine
end

section
/-! The record of a detection (R351, R354): its class, its count and its entry in the event log, and what it leaves. -/

namespace Sys2Proof.Machine

section
variable (m : Mach) (d : Detection)

/-! ## Counted -/

/-- The registers of MEM that show an uncorrectable word. -/
def memErrorRegs : List Nat := [Reg.MEM_UNCORR, Reg.MEM_ERR_ADDR_LO, Reg.MEM_ERR_ADDR_HI, Reg.MEM_EVENT]

theorem Mach.memError_reg (addr : Nat) {a : Nat} (ha : a ∉ memErrorRegs) : (m.memError addr).reg a = m.reg a := by
  simp only [memErrorRegs, List.mem_cons, List.not_mem_nil, or_false, not_or] at ha
  obtain ⟨h1, h2, h3, h4⟩ := ha
  rw [Mach.memError, Mach.raise_reg, if_neg h4, Mach.reg_setReg_ne _ h3, Mach.reg_setReg_ne _ h2, Mach.incReg_reg, if_neg h1]

theorem Mach.countWord_reg {a : Nat} (ha : a ∉ memErrorRegs) : (m.countWord d).reg a = m.reg a := by
  unfold Mach.countWord
  split
  · exact m.bump_reg _ _ a
  · split
    · exact (Mach.memError_reg _ _ ha).trans (m.bump_reg _ _ a)
    · split
      · exact m.bump_reg _ _ a
      · rfl

/-- The class's count on the module and in the counters. -/
def Mach.classed (m : Mach) (permanent : Bool) : Mach :=
  if permanent then (m.incReg Reg.SAFE_PERMANENT).bump 426 1 else (m.incReg Reg.SAFE_TRANSIENT).bump 425 1

theorem Mach.classed_reg (permanent : Bool) (a : Nat) : (m.classed permanent).reg a =
    if a = classCount permanent then m.reg (classCount permanent) + 1 else m.reg a := by
  cases permanent
  · exact (Mach.bump_reg _ _ _ a).trans (m.incReg_reg _ a)
  · exact (Mach.bump_reg _ _ _ a).trans (m.incReg_reg _ a)

/-- The past detections with one more. -/
def Mach.withPast (m : Mach) (d : Detection) : Mach := m.onSafety fun x =>
  { x with past := x.past ++ [{ unit := d.unit, number := d.number, at_ := m.time.count }] }

/-- The module whose detection has been classed and counted, before it is logged. -/
def Mach.counted (m : Mach) (d : Detection) : Mach :=
  (((m.raise Reg.SAFE_EVENT (detectBits d (m.isPermanent d))).countWord d).classed (m.isPermanent d)).withPast d

theorem Mach.record_eq : m.record d =
    ((((m.counted d).logFault d ((m.counted d).firstReaction d (m.isPermanent d))).1, m.isPermanent d),
      ((m.counted d).logFault d ((m.counted d).firstReaction d (m.isPermanent d))).2) := rfl

theorem Mach.counted_reg {a : Nat} (ha : a ∉ [Reg.SAFE_EVENT, Reg.SAFE_PERMANENT, Reg.SAFE_TRANSIENT] ++ memErrorRegs) :
    (m.counted d).reg a = m.reg a := by
  rw [List.mem_append, not_or] at ha
  obtain ⟨hcounts, hmem⟩ := ha
  simp only [List.mem_cons, List.not_mem_nil, or_false, not_or] at hcounts
  obtain ⟨hevent, hperm, htrans⟩ := hcounts
  have hclass : a ≠ classCount (m.isPermanent d) := by
    cases m.isPermanent d
    · exact htrans
    · exact hperm
  rw [Mach.counted, Mach.withPast, Mach.onSafety_reg, Mach.classed_reg, if_neg hclass, Mach.countWord_reg _ _ hmem, Mach.raise_reg,
    if_neg hevent]

theorem Mach.counted_count : (m.counted d).reg (classCount (m.isPermanent d)) = m.reg (classCount (m.isPermanent d)) + 1 := by
  have hmem : classCount (m.isPermanent d) ∉ memErrorRegs := by cases m.isPermanent d <;> decide
  have hne : classCount (m.isPermanent d) ≠ Reg.SAFE_EVENT := by cases m.isPermanent d <;> decide
  rw [Mach.counted, Mach.withPast, Mach.onSafety_reg, Mach.classed_reg, if_pos rfl, Mach.countWord_reg _ _ hmem, Mach.raise_reg,
    if_neg hne]

theorem detectBits_one (permanent : Bool) : (detectBits d permanent).testBit 1 = true := by
  unfold detectBits
  cases permanent <;> split <;> split <;> split <;> split <;> decide

theorem Mach.counted_event : (m.counted d).rbit Reg.SAFE_EVENT 1 = true := by
  have hmem : Reg.SAFE_EVENT ∉ memErrorRegs := by decide
  have hne : Reg.SAFE_EVENT ≠ classCount (m.isPermanent d) := by cases m.isPermanent d <;> decide
  rw [Mach.counted, Mach.withPast, Mach.rbit, Mach.onSafety_reg, Mach.classed_reg, if_neg hne, Mach.countWord_reg _ _ hmem]
  exact m.raise_bit _ _ 1 (by decide) (detectBits_one d _)

/-! ## Logged -/

variable (r : Nat)

/-- The registers that entry i and the counts of the logs take. -/
def entryRegs (i : Nat) : List Nat := [Reg.SAFE_LOG0 i, Reg.SAFE_LOG1 i, Reg.SAFE_LOG2 i, Reg.SAFE_LOG3 i, Reg.SAFE_LOG_COUNT, Reg.SEC_LOG_COUNT]

/-- Word 1 of an entry: cause, unit, number and reaction. -/
def entryWord (d : Detection) (r : Nat) : Word :=
  BitVec.ofNat 32 (d.cause.toNat * 2 ^ 24 + unitCode d.unit * 2 ^ 16 + unitNumber d % 256 * 2 ^ 8 + r)

/-- The module with the entry written, before its counts move. -/
def Mach.entered (m : Mach) (d : Detection) (r : Nat) : Mach :=
  (((m.setReg (Reg.SAFE_LOG0 m.nextEntry) m.now).setReg (Reg.SAFE_LOG1 m.nextEntry) (entryWord d r)).setReg (Reg.SAFE_LOG2 m.nextEntry)
    d.detail).setReg (Reg.SAFE_LOG3 m.nextEntry) 0

theorem Mach.logFault_eq : m.logFault d r = (m.nextEntry,
    ((m.entered d r).incReg Reg.SAFE_LOG_COUNT).lcLog 7 (m.entered d r).lifeState (leBytes 4 (entryWord d r).toNat)) := rfl

theorem Mach.lcLog_eq (kind state : Nat) (detail : List Byte) :
    ∃ x, m.lcLog kind state detail = Mach.incReg { m with sec := x } Reg.SEC_LOG_COUNT := by
  unfold Mach.lcLog
  exact ⟨_, rfl⟩

theorem Mach.lcLog_reg (kind state : Nat) (detail : List Byte) (a : Nat) :
    (m.lcLog kind state detail).reg a = if a = Reg.SEC_LOG_COUNT then m.reg Reg.SEC_LOG_COUNT + 1 else m.reg a := by
  obtain ⟨x, e⟩ := m.lcLog_eq kind state detail
  rw [e, Mach.incReg_reg]
  rfl

theorem Mach.entered_reg (a : Nat) : (m.entered d r).reg a =
    if a = Reg.SAFE_LOG3 m.nextEntry then 0 else if a = Reg.SAFE_LOG2 m.nextEntry then d.detail
    else if a = Reg.SAFE_LOG1 m.nextEntry then entryWord d r else if a = Reg.SAFE_LOG0 m.nextEntry then m.now else m.reg a := by
  rw [Mach.entered, Mach.reg_setReg, Mach.reg_setReg, Mach.reg_setReg, Mach.reg_setReg]

theorem Mach.logFault_reg {a : Nat} (ha : a ≠ Reg.SEC_LOG_COUNT) (hc : a ≠ Reg.SAFE_LOG_COUNT) :
    (m.logFault d r).2.reg a = (m.entered d r).reg a := by
  rw [Mach.logFault_eq, Mach.lcLog_reg, if_neg ha, Mach.incReg_reg, if_neg hc]

theorem Mach.logFault_other {a : Nat} (ha : a ∉ entryRegs m.nextEntry) : (m.logFault d r).2.reg a = m.reg a := by
  simp only [entryRegs, List.mem_cons, List.not_mem_nil, or_false, not_or] at ha
  obtain ⟨h0, h1, h2, h3, hcount, hsec⟩ := ha
  rw [Mach.logFault_reg _ _ _ hsec hcount, Mach.entered_reg, if_neg h3, if_neg h2, if_neg h1, if_neg h0]

theorem Mach.logFault_count : (m.logFault d r).2.reg Reg.SAFE_LOG_COUNT = m.reg Reg.SAFE_LOG_COUNT + 1 := by
  have hi := m.nextEntry_lt
  rw [Mach.logFault_eq, Mach.lcLog_reg, if_neg (by decide), Mach.incReg_reg, if_pos rfl, Mach.entered_reg, if_neg, if_neg, if_neg, if_neg]
  · rfl
  all_goals simp only [Reg.SAFE_LOG_COUNT, Reg.SAFE_LOG0, Reg.SAFE_LOG1, Reg.SAFE_LOG2, Reg.SAFE_LOG3]; omega

theorem Mach.logFault_entry : (m.logFault d r).2.reg (Reg.SAFE_LOG0 m.nextEntry) = m.now ∧
    (m.logFault d r).2.reg (Reg.SAFE_LOG1 m.nextEntry) = entryWord d r ∧ (m.logFault d r).2.reg (Reg.SAFE_LOG2 m.nextEntry) = d.detail := by
  have hi := m.nextEntry_lt
  refine ⟨?_, ?_, ?_⟩
  · rw [Mach.logFault_reg, Mach.entered_reg, if_neg, if_neg, if_neg, if_pos rfl]
    all_goals simp only [Reg.SAFE_LOG_COUNT, Reg.SEC_LOG_COUNT, Reg.SAFE_LOG0, Reg.SAFE_LOG1, Reg.SAFE_LOG2, Reg.SAFE_LOG3]; omega
  · rw [Mach.logFault_reg, Mach.entered_reg, if_neg, if_neg, if_pos rfl]
    all_goals simp only [Reg.SAFE_LOG_COUNT, Reg.SEC_LOG_COUNT, Reg.SAFE_LOG1, Reg.SAFE_LOG2, Reg.SAFE_LOG3]; omega
  · rw [Mach.logFault_reg, Mach.entered_reg, if_neg, if_pos rfl]
    all_goals simp only [Reg.SAFE_LOG_COUNT, Reg.SEC_LOG_COUNT, Reg.SAFE_LOG2, Reg.SAFE_LOG3]; omega

theorem entryWord_fields {r : Nat} (hr : r < 256) : (entryWord d r).field 24 8 = d.cause.toNat ∧ (entryWord d r).field 0 8 = r := by
  have hcause : d.cause.toNat < 256 := d.cause.isLt
  have hunit : unitCode d.unit ≤ 4 := by cases d.unit <;> decide
  have hnumber : unitNumber d % 256 < 256 := Nat.mod_lt _ (by decide)
  rw [entryWord, Word.field, Word.field, BitVec.toNat_ofNat]
  omega

end

/-! ## What a record leaves -/

/-- From m to t nothing but registers, the supervisor, the live counters and the life-cycle log has changed. -/
def Mach.onlyRecord (m t : Mach) : Prop :=
  { t with regs := m.regs, safety := m.safety, obs := { t.obs with live := m.obs.live }, sec := m.sec } = m

section
variable {m t : Mach} (h : m.onlyRecord t)
include h

theorem Mach.onlyRecord.setReg (a : Nat) (v : Word) : m.onlyRecord (t.setReg a v) := h

theorem Mach.onlyRecord.bump (i n : Nat) : m.onlyRecord (t.bump i n) := by
  unfold Mach.bump
  split <;> exact h

theorem Mach.onlyRecord.lcLog (kind state : Nat) (detail : List Byte) : m.onlyRecord (t.lcLog kind state detail) := by
  obtain ⟨x, e⟩ := t.lcLog_eq kind state detail
  have hsec : m.onlyRecord { t with sec := x } := h
  rw [e]
  exact hsec.setReg _ _

theorem Mach.onlyRecord.memError (addr : Nat) : m.onlyRecord (t.memError addr) := (((h.setReg _ _).setReg _ _).setReg _ _).setReg _ _

theorem Mach.onlyRecord.countWord (d : Detection) : m.onlyRecord (t.countWord d) := by
  unfold Mach.countWord
  split
  · exact h.bump _ _
  · split
    · exact (h.bump _ _).memError _
    · split
      · exact h.bump _ _
      · exact h

theorem Mach.onlyRecord.classed (permanent : Bool) : m.onlyRecord (t.classed permanent) := by
  cases permanent
  · exact Mach.onlyRecord.bump (h.setReg Reg.SAFE_TRANSIENT _) 425 1
  · exact Mach.onlyRecord.bump (h.setReg Reg.SAFE_PERMANENT _) 426 1

theorem Mach.onlyRecord.withPast (d : Detection) : m.onlyRecord (t.withPast d) := h

theorem Mach.onlyRecord.entered (d : Detection) (r : Nat) : m.onlyRecord (t.entered d r) :=
  (((h.setReg _ _).setReg _ _).setReg _ _).setReg _ _

theorem Mach.onlyRecord.logFault (d : Detection) (r : Nat) : m.onlyRecord (t.logFault d r).2 := by
  rw [Mach.logFault_eq]
  exact Mach.onlyRecord.lcLog ((h.entered d r).setReg _ _) _ _ _

end

section
variable (m : Mach) (d : Detection)

theorem Mach.onlyRecord_refl : m.onlyRecord m := rfl

theorem Mach.counted_onlyRecord : m.onlyRecord (m.counted d) :=
  ((((Mach.onlyRecord_refl m).setReg Reg.SAFE_EVENT _).countWord d).classed _).withPast d

theorem Mach.memError_safety (addr : Nat) : (m.memError addr).safety = m.safety := by
  rw [Mach.memError, Mach.raise, Mach.setReg_safety, Mach.setReg_safety, Mach.setReg_safety, Mach.incReg, Mach.addReg, Mach.setReg_safety]

theorem Mach.countWord_safety : (m.countWord d).safety = m.safety := by
  unfold Mach.countWord
  split
  · exact m.bump_safety _ _
  · split
    · exact (Mach.memError_safety _ _).trans (m.bump_safety _ _)
    · split
      · exact m.bump_safety _ _
      · rfl

theorem Mach.classed_safety (permanent : Bool) : (m.classed permanent).safety = m.safety := by
  cases permanent
  · exact Mach.bump_safety _ 425 1
  · exact Mach.bump_safety _ 426 1

theorem Mach.counted_safety : (m.counted d).safety =
    { m.safety with past := m.safety.past ++ [{ unit := d.unit, number := d.number, at_ := m.time.count }] } := by
  have hbefore := ((((Mach.onlyRecord_refl m).setReg Reg.SAFE_EVENT _).countWord d).classed (m.isPermanent d) :
    m.onlyRecord (((m.raise Reg.SAFE_EVENT (detectBits d (m.isPermanent d))).countWord d).classed (m.isPermanent d)))
  have htime : (((m.raise Reg.SAFE_EVENT (detectBits d (m.isPermanent d))).countWord d).classed (m.isPermanent d)).time = m.time :=
    (congrArg Mach.time hbefore :)
  rw [Mach.counted, Mach.withPast, Mach.onSafety_safety, Mach.classed_safety, Mach.countWord_safety, htime]
  rfl

theorem Mach.lcLog_safety (kind state : Nat) (detail : List Byte) : (m.lcLog kind state detail).safety = m.safety := by
  obtain ⟨x, e⟩ := m.lcLog_eq kind state detail
  rw [e]
  rfl

theorem Mach.entered_safety (r : Nat) : (m.entered d r).safety = m.safety := by
  rw [Mach.entered, Mach.setReg_safety, Mach.setReg_safety, Mach.setReg_safety, Mach.setReg_safety]

theorem Mach.logFault_safety (r : Nat) : (m.logFault d r).2.safety = m.safety := by
  rw [Mach.logFault_eq]
  dsimp only
  rw [Mach.lcLog_safety, Mach.incReg, Mach.addReg, Mach.setReg_safety, Mach.entered_safety]

end

/-! ## Recorded -/

section
variable (m : Mach) (d : Detection)

theorem Mach.counted_nextEntry : (m.counted d).nextEntry = m.nextEntry := by
  rw [Mach.nextEntry, m.counted_reg d (by decide)]
  rfl

theorem Mach.record_entry : (m.record d).1 = (m.nextEntry, m.isPermanent d) := by
  rw [Mach.record_eq, Mach.logFault_eq, Mach.counted_nextEntry]

theorem Mach.firstReaction_lt (permanent : Bool) : m.firstReaction d permanent < 256 := by
  unfold Mach.firstReaction
  split
  · decide
  · split <;> (repeat' split) <;> decide

theorem Mach.counted_firstReaction (permanent : Bool) : (m.counted d).firstReaction d permanent = m.firstReaction d permanent := by
  have hservice : (m.counted d).inService (d.number % 32) = m.inService (d.number % 32) := by
    have hreg : (m.counted d).reg (Reg.CLU_CORE_STATE (d.number % 32 / 4)) = m.reg (Reg.CLU_CORE_STATE (d.number % 32 / 4)) := by
      have hnone : ∀ b ∈ [Reg.SAFE_EVENT, Reg.SAFE_PERMANENT, Reg.SAFE_TRANSIENT] ++ memErrorRegs, b < 0x400000 := by decide
      refine m.counted_reg d fun hin => absurd (hnone _ hin) ?_
      simp only [Reg.CLU_CORE_STATE]
      omega
    exact Mach.rbit_congr hreg _
  unfold Mach.firstReaction
  rw [hservice]

/-- What the record of a detection shows. -/
theorem Mach.record_logged : m.loggedAs d (m.isPermanent d) (m.record d).2 (m.firstReaction d (m.isPermanent d)) := by
  rw [Mach.record_eq, m.counted_firstReaction]
  have hfields := entryWord_fields d (m.firstReaction_lt d (m.isPermanent d))
  generalize m.firstReaction d (m.isPermanent d) = r at hfields ⊢
  have hcount := (m.counted d).logFault_count d r
  have hentry := (m.counted d).logFault_entry d r
  rw [m.counted_nextEntry] at hentry
  obtain ⟨h0, h1, h2⟩ := hentry
  have hi := m.nextEntry_lt
  have hnow : (m.counted d).now = m.now := by
    have htime : (m.counted d).time = m.time := (congrArg Mach.time (m.counted_onlyRecord d) :)
    rw [Mach.now, htime]
    rfl
  have hclass := (m.counted d).logFault_other d r (a := classCount (m.isPermanent d)) (by
    rw [m.counted_nextEntry]
    simp only [entryRegs, List.mem_cons, List.not_mem_nil, or_false, not_or]
    cases m.isPermanent d <;> simp only [classCount] <;> (refine ⟨?_, ?_, ?_, ?_, ?_, ?_⟩) <;>
      simp [Reg.SAFE_LOG0, Reg.SAFE_LOG1, Reg.SAFE_LOG2, Reg.SAFE_LOG3, Reg.SAFE_TRANSIENT, Reg.SAFE_PERMANENT, Reg.SAFE_LOG_COUNT,
        Reg.SEC_LOG_COUNT] <;> omega)
  have hevent := (m.counted d).logFault_other d r (a := Reg.SAFE_EVENT) (by
    simp only [entryRegs, List.mem_cons, List.not_mem_nil, or_false, not_or, Reg.SAFE_LOG0, Reg.SAFE_LOG1, Reg.SAFE_LOG2, Reg.SAFE_LOG3,
      Reg.SAFE_EVENT, Reg.SAFE_LOG_COUNT, Reg.SEC_LOG_COUNT]
    omega)
  refine ⟨hclass.trans (m.counted_count d), (Mach.rbit_congr hevent 1).trans (m.counted_event d),
    hcount.trans ?_, h0.trans hnow, ?_, ?_, h2⟩
  · rw [m.counted_reg d (by decide)]
  · rw [Mach.fld, h1]
    exact hfields.1
  · rw [Mach.fld, h1]
    exact hfields.2

/-- The registers below the CQ block that the record of a detection leaves. -/
theorem Mach.record_reg {a : Nat} (ha : a ∉ [Reg.SAFE_EVENT, Reg.SAFE_PERMANENT, Reg.SAFE_TRANSIENT] ++ memErrorRegs)
    (hlog : a ∉ entryRegs m.nextEntry) : (m.record d).2.reg a = m.reg a := by
  rw [Mach.record_eq]
  exact ((m.counted d).logFault_other d _ (by rwa [m.counted_nextEntry])).trans (m.counted_reg d ha)

theorem Mach.record_onlyRecord : m.onlyRecord (m.record d).2 := by
  rw [Mach.record_eq]
  exact (m.counted_onlyRecord d).logFault d _

theorem Mach.record_safety : (m.record d).2.safety =
    { m.safety with past := m.safety.past ++ [{ unit := d.unit, number := d.number, at_ := m.time.count }] } := by
  rw [Mach.record_eq, Mach.logFault_safety]
  exact m.counted_safety d

end

end Sys2Proof.Machine
end

section
/-! The reactions of the units (Table 14-3): each keeps what the supervisor has shown, begins a recovery or is fatal, and marks its log
entry where data was cleared. -/

namespace Sys2Proof.Machine

/-! ## Every reaction upholds -/

section
variable (t : Mach) (d : Detection) (i : Nat) (permanent : Bool)

/-- The recovery of a unit that is no core, as far as its marked log entry. -/
def Mach.portMarked (t : Mach) (d : Detection) (i : Nat) (permanent : Bool) : Mach := (t.openRecovery d i permanent).again d i id

theorem Mach.portFault_upholds : Mach.Upholds [] (t.portMarked d i permanent) (t.portFault d i permanent) := by
  have hdamage : Mach.Upholds [] (t.portMarked d i permanent)
      { t.portMarked d i permanent with ports := (t.portMarked d i permanent).ports.damage d.number } :=
    (Mach.Upholds.refl _).outside (.of_regs rfl rfl rfl rfl)
  unfold Mach.portFault
  dsimp only
  split
  · refine Mach.Upholds.foldl ?_ (fun u s => ((Mach.Outside.refl u).makeAbsent s).upholds) _
    have hout := hdamage.onSafety (fun y => { y with pointOut := y.pointOut ++ [d.number] }) (fun _ hr => hr) id id
    split
    · exact hout
    · exact hout.outside ((Mach.Outside.refl _).setIsland _ _)
  · exact hdamage

/-- The recovery of a die unit, as far as its dropped commands. -/
def Mach.dieDropped (t : Mach) (d : Detection) (i : Nat) (permanent : Bool) : Mach :=
  (t.openRecovery d i permanent).dropCommands fun _ c => inDieUnit d.number c.bytes

theorem Mach.dieFault_eq : t.dieFault d i permanent = if dieFatal d permanent then ((t.dieDropped d i permanent).again d i id).fatal
    else (t.dieDropped d i permanent).again d i id := rfl

/-- The cores of cluster k. -/
def coresOf (k : Nat) : List Nat := (List.range 4).map fun j => 4 * k + j

/-- The recovery of a cluster, as far as its stopped cores. -/
def Mach.clusterStopped (t : Mach) (d : Detection) (i : Nat) (permanent : Bool) : Mach :=
  (coresOf (d.number % 8)).foldl Mach.stopCore (t.openRecovery d i permanent)

/-- The recovery of a cluster, as far as its marked log entry. -/
def Mach.clusterMarked (t : Mach) (d : Detection) (i : Nat) (permanent : Bool) : Mach :=
  (t.clusterStopped d i permanent).again d i fun m => m.discardThese ((coresOf (d.number % 8)).flatMap t.instantsOf)

theorem Mach.clusterFault_eq : t.clusterFault d i permanent =
    if permanent then (t.clusterMarked d i permanent).fatal else t.clusterMarked d i permanent := rfl

theorem Mach.discardThese_outside (l : List (Nat × Word)) (u : Mach) : u.Outside (u.discardThese l) := (Mach.Outside.refl u).discardThese l

theorem Mach.clusterStopped_upholds : Mach.Upholds [] (t.openRecovery d i permanent) (t.clusterStopped d i permanent) :=
  (Mach.Upholds.refl _).foldl (fun u c => ((Mach.Outside.refl u).stopCore c).upholds) _

theorem Mach.dieDropped_upholds : Mach.Upholds [] (t.openRecovery d i permanent) (t.dieDropped d i permanent) :=
  ((Mach.Outside.refl _).dropCommands _).upholds

/-- The recovery of a point unit, as far as its marked log entry. -/
def Mach.pointMarked (t : Mach) (d : Detection) (i : Nat) (permanent : Bool) : Mach :=
  (((t.openRecovery d i permanent).dropCommands (t.onPointUnit (d.number % 8))).discardTables (d.number % 8)).again d i
    fun m => m.discardTables (d.number % 8)

theorem Mach.pointMarked_upholds : Mach.Upholds [Reg.SAFE_LOG1 i] (t.openRecovery d i permanent) (t.pointMarked d i permanent) :=
  (((Mach.Outside.refl _).dropCommands _).discardTables _).upholds.trans
    (Mach.Upholds.again _ d i fun u => (Mach.Outside.refl u).discardTables _)

theorem Mach.pointFault_upholds : Mach.Upholds [Reg.SAFE_LOG1 i] (t.openRecovery d i permanent) (t.pointFault d i permanent) := by
  have hmarked := t.pointMarked_upholds d i permanent
  unfold Mach.pointFault
  extract_lets k marked owned purged
  have hpurged : Mach.Upholds [Reg.SAFE_LOG1 i] (t.openRecovery d i permanent) purged :=
    hmarked.foldl (fun u v => ((Mach.Outside.refl u).pointPurge v).upholds) owned
  split
  · split
    · exact hpurged.onSafety _ (fun _ hr => hr) id id
    · exact (hpurged.trans (.logReaction _ i 6)).fatal
  · exact hpurged

theorem Mach.configFault_upholds : Mach.Upholds [] (t.openRecovery d i false) (t.configFault d i) := by
  unfold Mach.configFault
  dsimp only
  split
  · exact (Mach.Upholds.refl _).onSafety _ (fun _ hr => hr) id id
  · exact ((Mach.Outside.refl _).discardAll).upholds

/-! ## Cores (R356, R370) -/

theorem Mach.corePermanent_upholds (c : Nat) : Mach.Upholds [Reg.SAFE_LOG1 i] t (t.corePermanent c i) := by
  unfold Mach.corePermanent
  split
  · rename_i p r _
    have hplaced : Mach.Upholds [Reg.SAFE_LOG1 i] t ((((t.logReaction i r).coreOut c).place p).stopIslands c) :=
      (((Mach.Upholds.logReaction t i r).coreOut c).place p).outside ((Mach.Outside.refl _).stopIslands c)
    dsimp only
    split
    · exact hplaced.raise _ _ (.inr rfl)
    · exact (hplaced.setRBit Reg.FPL_STATUS 5 true (by decide) (.inl rfl)).raise _ _ (.inr rfl)
  · exact (((Mach.Upholds.logReaction t i 6).coreOut c).outside ((Mach.Outside.refl _).stopIslands c)).fatal

theorem Mach.coreOut_bit {c : Nat} (hc : c < 32) : (t.coreOut c).rbit Reg.FPL_CORES_OUT c = true := by
  unfold Mach.coreOut
  dsimp only
  rw [Mach.rbit, Mach.onFpl_reg, Mach.setRBit_reg, if_pos rfl]
  exact Word.bit_setBit_same _ hc true

/-- A core found permanently faulty is out of service. -/
theorem Mach.corePermanent_out {c : Nat} (hc : c < 32) : (t.corePermanent c i).rbit Reg.FPL_CORES_OUT c = true := by
  have hstays : stays Reg.FPL_CORES_OUT c := ⟨hc, .inr (.inr (.inl rfl))⟩
  have hkept : ∀ u v : Mach, Mach.Upholds [] (u.coreOut c) v → v.rbit Reg.FPL_CORES_OUT c = true := fun u v h =>
    h.bit _ _ hstays (u.coreOut_bit hc)
  unfold Mach.corePermanent
  split
  · rename_i p r _
    have hplaced : Mach.Upholds [] ((t.logReaction i r).coreOut c) ((((t.logReaction i r).coreOut c).place p).stopIslands c) :=
      ((Mach.Upholds.refl _).place p).outside ((Mach.Outside.refl _).stopIslands c)
    dsimp only
    split
    · exact hkept _ _ (hplaced.raise _ _ (.inr rfl))
    · exact hkept _ _ ((hplaced.setRBit Reg.FPL_STATUS 5 true (by decide) (.inl rfl)).raise _ _ (.inr rfl))
  · exact hkept _ _ (((Mach.Upholds.refl _).outside ((Mach.Outside.refl _).stopIslands c)).fatal)

/-- The recovery of core c, as far as its marked log entry. -/
def Mach.coreMarked (t : Mach) (d : Detection) (i : Nat) (permanent : Bool) : Mach :=
  ((t.openRecovery d i permanent).stopCore (d.number % 32)).again d i fun m => m.discardThese (t.instantsOf (d.number % 32))

/-- The recovery of core c, with a planned re-homing that waited brought to its move. -/
def Mach.coreLeft (t : Mach) (d : Detection) (i : Nat) (permanent : Bool) : Mach :=
  if ((t.coreMarked d i permanent).selfTestOf (d.number % 32)).leaving then (t.coreMarked d i permanent).rehomeStopped (d.number % 32)
  else t.coreMarked d i permanent

theorem Mach.coreFault_served (h : t.inService (d.number % 32) = true) : t.coreFault d i permanent =
    if permanent then (t.coreLeft d i permanent).corePermanent (d.number % 32) i else t.coreLeft d i permanent :=
  if_neg (by rw [h]; decide)

theorem Mach.coreFault_unserved (h : t.inService (d.number % 32) = false) : t.coreFault d i permanent = t :=
  if_pos (by rw [h]; rfl)

theorem Mach.coreLeft_upholds : Mach.Upholds [Reg.SAFE_LOG1 i] (t.openRecovery d i permanent) (t.coreLeft d i permanent) := by
  have hmarked : Mach.Upholds [Reg.SAFE_LOG1 i] (t.openRecovery d i permanent) (t.coreMarked d i permanent) :=
    ((Mach.Outside.refl _).stopCore _).upholds.trans (Mach.Upholds.again _ d i (Mach.discardThese_outside _))
  unfold Mach.coreLeft
  split
  · exact hmarked.rehomeStopped _
  · exact hmarked

theorem Mach.coreFault_upholds : Mach.Upholds [Reg.SAFE_LOG1 i] t (t.coreFault d i permanent) := by
  cases hserved : t.inService (d.number % 32)
  case false =>
    rw [t.coreFault_unserved d i permanent hserved]
    exact .refl t
  case true =>
    have hleft := ((Mach.Upholds.refl t).openRecovery d i permanent).trans (t.coreLeft_upholds d i permanent)
    rw [t.coreFault_served d i permanent hserved]
    split
    · exact hleft.trans (Mach.corePermanent_upholds _ i _)
    · exact hleft

/-! ## The management core and the security island (R24, R26) -/

theorem Mach.Upholds.loadFailed {l : List Nat} {m t : Mach} (h : Mach.Upholds l m t) : Mach.Upholds l m t.loadFailed :=
  ((h.setFld Reg.FPL_STATUS 1 3 2 (.inl (by decide)) (not_stays_fpl (.inr (.inl rfl)))).raise _ _ (.inr rfl)).onFpl _ rfl rfl

theorem Mach.Upholds.abandonMoveIn {l : List Nat} {m t : Mach} (h : Mach.Upholds l m t) : Mach.Upholds l m t.abandonMoveIn := by
  unfold Mach.abandonMoveIn
  split
  · exact h
  · split
    · exact ((h.setFld Reg.FPL_STATUS 1 3 0 (.inl (by decide)) (not_stays_fpl (.inr (.inl rfl)))).raise _ _ (.inr rfl)).onFpl _ rfl rfl
    · exact h.loadFailed

theorem Mach.Upholds.servoCheck {l : List Nat} {m t : Mach} (h : Mach.Upholds l m t) : Mach.Upholds l m t.servoCheck := by
  unfold Mach.servoCheck
  exact (h.setRBit Reg.TIME_STATUS 2 _ (by decide) (.inr (not_stays_fpl (.inr (.inr rfl)) _))).setRBit Reg.TIME_STATUS 1 _ (by decide)
    (.inr (not_stays_fpl (.inr (.inr rfl)) _))

theorem Mach.managementFault_upholds : Mach.Upholds [] t (t.managementFault d) := by
  have hmove := (Mach.Upholds.refl (l := []) t).abandonMoveIn
  unfold Mach.managementFault
  dsimp only
  split
  · exact (hmove.outside ((Mach.Outside.refl _).onObs _)).servoCheck
  · exact hmove

/-! ## Every unit -/

theorem Mach.handle_upholds : Mach.Upholds [Reg.SAFE_LOG1 i] t (t.handle d i permanent) := by
  have hopen := fun p => (Mach.Upholds.refl (l := [Reg.SAFE_LOG1 i]) t).openRecovery d i p
  unfold Mach.handle
  split
  · exact (Mach.Upholds.refl t).beginHold 10
  · split
    · exact t.coreFault_upholds d i permanent
    · exact (hopen _).trans (t.pointFault_upholds d i permanent)
    · have hmarked := ((hopen permanent).trans (t.clusterStopped_upholds d i permanent).mono).trans
        (Mach.Upholds.again _ d i (Mach.discardThese_outside ((coresOf (d.number % 8)).flatMap t.instantsOf)))
      rw [Mach.clusterFault_eq]
      split
      · exact Mach.Upholds.fatal hmarked
      · exact hmarked
    · have hmarked := ((hopen permanent).trans (t.dieDropped_upholds d i permanent).mono).trans (Mach.Upholds.again _ d i Mach.Outside.refl)
      rw [Mach.dieFault_eq]
      split
      · exact hmarked.fatal
      · exact hmarked
    · exact ((hopen permanent).trans (Mach.Upholds.again _ d i Mach.Outside.refl)).trans (t.portFault_upholds d i permanent).mono
    · exact (hopen false).trans (t.configFault_upholds d i).mono
    · exact (Mach.Upholds.refl t).fatal
    · exact (Mach.Upholds.refl t).fatal
    · exact (t.managementFault_upholds d).mono
    · exact (t.managementFault_upholds d).mono

end

end Sys2Proof.Machine
end

section
/-! What each reaction shows (Table 14-3): the log entry, the recovery, and what becomes of instants, command queues and a move-in. -/

namespace Sys2Proof.Machine

/-! ## Recoveries that are shown -/

section
variable {m t : Mach} {d : Detection} {permanent : Bool} {r : Nat} (logs : m.loggedAs d permanent t r)
  (plan : t.fpl.plan = m.fpl.plan) (time : t.time = m.time)

include time in
theorem Mach.recoversFrom_open (lasting : Bool) : m.recoversFrom d (t.openRecovery d m.nextEntry lasting) lasting := by
  obtain ⟨hhold, hlow, o, ho, hdet, hat, hlasting⟩ := t.openRecovery_recovers d m.nextEntry lasting
  exact ⟨hhold, hlow, o, ho, hdet, hat.trans (congrArg TimeLine.count time), hlasting⟩

include logs plan time in
/-- A recovery with its log entry, whatever was kept in between. -/
theorem Mach.loggedAs.recovery {lasting : Bool} {w : Mach} (k : Mach.Upholds [] (t.openRecovery d m.nextEntry lasting) w)
    {point : Mach → Mach} (hpoint : ∀ u : Mach, u.Outside (point u)) :
    m.loggedAs d permanent (w.again d m.nextEntry point) (m.shownReaction d r) ∧
      m.recoversFrom d (w.again d m.nextEntry point) lasting := by
  have hopen := (Mach.Upholds.refl (l := []) t).openRecovery d m.nextEntry lasting
  have hw := hopen.trans k
  exact ⟨(logs.upholds hw).again (hw.plan.trans plan) hpoint,
    ((Mach.recoversFrom_open time lasting).upholds k).upholds (Mach.Upholds.again w d m.nextEntry hpoint)⟩

include logs plan time

theorem Mach.portFault_shows : m.loggedAs d permanent (t.portFault d m.nextEntry permanent) (m.shownReaction d r) ∧
    m.recoversFrom d (t.portFault d m.nextEntry permanent) permanent := by
  obtain ⟨hlog, hrec⟩ := logs.recovery plan time (.refl _) Mach.Outside.refl (lasting := permanent)
  have hkept := t.portFault_upholds d m.nextEntry permanent
  exact ⟨hlog.upholds hkept, hrec.upholds hkept⟩

theorem Mach.clusterFault_shows : m.loggedAs d permanent (t.clusterFault d m.nextEntry permanent) (m.shownReaction d r) ∧
    m.recoversFrom d (t.clusterFault d m.nextEntry permanent) permanent ∧
    (permanent = true → (t.clusterFault d m.nextEntry permanent).isFatal) := by
  obtain ⟨hlog, hrec⟩ := logs.recovery plan time (t.clusterStopped_upholds d m.nextEntry permanent)
    (Mach.discardThese_outside ((coresOf (d.number % 8)).flatMap t.instantsOf))
  rw [Mach.clusterFault_eq]
  split
  · exact ⟨hlog.upholds (Mach.Upholds.refl _).fatal, hrec.upholds (l := []) (Mach.Upholds.refl _).fatal, fun _ => Mach.fatal_isFatal _⟩
  · exact ⟨hlog, hrec, fun h => absurd h ‹_›⟩

theorem Mach.dieFault_shows : m.loggedAs d permanent (t.dieFault d m.nextEntry permanent) (m.shownReaction d r) ∧
    m.recoversFrom d (t.dieFault d m.nextEntry permanent) permanent ∧
    (dieFatal d permanent = true → (t.dieFault d m.nextEntry permanent).isFatal) := by
  obtain ⟨hlog, hrec⟩ := logs.recovery plan time (t.dieDropped_upholds d m.nextEntry permanent) Mach.Outside.refl
  rw [Mach.dieFault_eq]
  split
  · exact ⟨hlog.upholds (Mach.Upholds.refl _).fatal, hrec.upholds (l := []) (Mach.Upholds.refl _).fatal, fun _ => Mach.fatal_isFatal _⟩
  · exact ⟨hlog, hrec, fun h => absurd h ‹_›⟩

omit plan in
theorem Mach.pointFault_shows : (t.pointFault d m.nextEntry permanent).reg (classCount permanent) = m.reg (classCount permanent) + 1 ∧
    m.recoversFrom d (t.pointFault d m.nextEntry permanent) permanent := by
  have hkept := t.pointFault_upholds d m.nextEntry permanent
  have hall := ((Mach.Upholds.refl t).openRecovery d m.nextEntry permanent).trans hkept
  exact ⟨(classCount_upholds hall (classCount_ne_log _)).trans logs.1, (Mach.recoversFrom_open time permanent).upholds hkept⟩

omit plan in
theorem Mach.configFault_shows : m.loggedAs d permanent (t.configFault d m.nextEntry) r ∧
    m.recoversFrom d (t.configFault d m.nextEntry) false := by
  have hkept := t.configFault_upholds d m.nextEntry
  exact ⟨logs.upholds (((Mach.Upholds.refl t).openRecovery d m.nextEntry false).trans hkept),
    (Mach.recoversFrom_open time false).upholds hkept⟩

end

/-! ## What a hold leaves of the supervisor -/

section
variable (m : Mach)

/-- From x to y nothing but OUT_VALID and the times of hold 0 has changed of the supervisor. -/
def Safety.sameButValid (x y : Safety) : Prop := { y with outValid := x.outValid, lowAt := x.lowAt, hold0At := x.hold0At } = x

theorem Mach.beginHold_safety (n : Nat) : m.safety.sameButValid (m.beginHold n).safety := by
  have hfall : m.safety.sameButValid m.outFall.safety := by
    unfold Mach.outFall
    split
    · rw [Mach.bump_safety]
      rfl
    · rfl
  unfold Mach.beginHold
  dsimp only
  split
  · exact hfall
  · split <;> exact hfall

theorem Mach.openRecovery_rest (d : Detection) (i : Nat) (permanent : Bool) : (m.openRecovery d i permanent).cq = m.cq ∧
    (m.openRecovery d i permanent).groups = m.groups ∧
    (m.openRecovery d i permanent).safety.configWaiting = m.safety.configWaiting ∧
    (m.openRecovery d i permanent).safety.selfTest = m.safety.selfTest := by
  have hrest := (m.keyTaken.beginHold_frame 0 (by decide)).2.2.2.2
  have hsafety := m.keyTaken.beginHold_safety 0
  exact ⟨(congrArg Mach.cq hrest :), (congrArg Mach.groups hrest :), (congrArg Safety.configWaiting hsafety :),
    (congrArg Safety.selfTest hsafety :)⟩

theorem Mach.openRecovery_reg (d : Detection) (i : Nat) (permanent : Bool) {a : Nat} (ha : a ∉ holdRegs) :
    (m.openRecovery d i permanent).reg a = m.reg a :=
  (m.keyTaken.beginHold_frame 0 (by decide)).2.2.2.1 a ha

/-! ## A configuration fault (R358) -/

/-- Every instant of group g that is not yet wholly framed is discarded. -/
def Mach.discardGroup (m : Mach) (g : Nat) : Mach := m.setGroup g { m.group g with
  open_ := discardLive (fun _ => true) (m.group g).open_
  sched := (m.group g).sched.map fun i => if i.due then { i with discarded := true } else i }

theorem Mach.discardGroup_discards (g : Nat) : ∀ x ∈ ((m.discardGroup g).group g).open_, x.discarded = true := by
  intro x hx
  rw [Mach.group, Mach.discardGroup, Mach.setGroup, sget_sput_same] at hx
  obtain ⟨y, -, rfl⟩ := List.mem_map.mp hx
  rfl

theorem Mach.discardGroup_other {g a : Nat} (h : g ≠ a) : (m.discardGroup a).group g = m.group g := by
  rw [Mach.group, Mach.discardGroup, Mach.setGroup, sget_sput_ne _ h]
  rfl

theorem Mach.discardAll_discards : ∀ g < 16, ∀ x ∈ (m.discardAll.group g).open_, x.discarded = true := by
  have fold : ∀ (l : List Nat) (t : Mach), (∀ g < 16, g ∈ l ∨ ∀ x ∈ (t.group g).open_, x.discarded = true) →
      ∀ g < 16, ∀ x ∈ ((l.foldl Mach.discardGroup t).group g).open_, x.discarded = true := by
    intro l
    induction l with
    | nil => exact fun t h g hg => (h g hg).resolve_left List.not_mem_nil
    | cons a l ih =>
      refine fun t h => ih _ fun g hg => ?_
      by_cases hga : g = a
      · subst hga
        exact .inr (t.discardGroup_discards g)
      · rw [t.discardGroup_other hga]
        exact (h g hg).imp_left fun hin => (List.mem_cons.mp hin).resolve_left hga
  exact fold (List.range 16) m fun g hg => .inl (List.mem_range.mpr hg)

theorem Mach.configFault_discards (d : Detection) (i : Nat) (h : m.coreRecovery = false) :
    ∀ g < 16, ∀ x ∈ ((m.configFault d i).group g).open_, x.discarded = true := by
  have heq : m.configFault d i = (m.openRecovery d i false).discardAll := if_neg (by rw [h]; decide)
  rw [heq]
  exact (m.openRecovery d i false).discardAll_discards

theorem Mach.configFault_waits (d : Detection) (i : Nat) (h : m.coreRecovery = true) :
    (m.configFault d i).safety.configWaiting = m.safety.configWaiting ++ [d] ∧ (m.configFault d i).groups = m.groups := by
  obtain ⟨-, hgroups, hwaiting, -⟩ := m.openRecovery_rest d i false
  have heq : m.configFault d i = (m.openRecovery d i false).onSafety fun x => { x with configWaiting := x.configWaiting ++ [d] } :=
    if_pos h
  rw [heq, Mach.onSafety_safety, Mach.onSafety_groups]
  exact ⟨congrArg (· ++ [d]) hwaiting, hgroups⟩

/-! ## A core's queues (R355) -/

theorem Mach.setBytes_cq (a : Nat) (l : List Byte) : (m.setBytes a l).cq = m.cq := by rw [m.setBytes_eq]

/-- A run over a list no step of which touches the command queues. -/
theorem Mach.foldl_cq {α : Type} {f : Mach → α → Mach} (hf : ∀ (u : Mach) x, (f u x).cq = u.cq) (l : List α) :
    (l.foldl f m).cq = m.cq := by
  induction l generalizing m with
  | nil => rfl
  | cons x l ih => exact (ih _).trans (hf m x)

theorem Mach.dropWrites_cq (q : Nat) (c : Started) : (m.dropWrites q c).cq = m.cq :=
  m.foldl_cq (fun u (e : Nat × Nat) => (Mach.setBytes_cq _ _ _ : (u.freeBytes e.1 e.2).cq = u.cq)) _

theorem Mach.unhold_cq (q : Nat) (n : Word) : (m.unhold q n).cq = m.cq := by
  refine m.foldl_cq (fun u g => ?_) _
  split <;> rfl

theorem Mach.traceDone_cq (q : Nat) (num : Word) (b : List Byte) (outcome : Nat) (redo : Bool) :
    (m.traceDone q num b outcome redo).cq = m.cq := by
  unfold Mach.traceDone
  split
  · exact (congrArg Mach.cq (m.traceFrame_trace _ _ _ _).rest :)
  · rfl

theorem Mach.undo_cq (q : Nat) (c : Started) : (m.undo q c).cq = m.cq := by
  have hget : (if isStageGet c.bytes then (m.dropWrites q c).setStage (u8 c.bytes 0x12)
      ((m.dropWrites q c).stage (u8 c.bytes 0x12)).rewind else m.dropWrites q c).cq = m.cq := by
    split <;> exact m.dropWrites_cq q c
  unfold Mach.undo
  dsimp only
  rw [Mach.traceDone_cq]
  split
  · rw [Mach.unhold_cq, hget]
  · exact hget

theorem Mach.dropSlots_cq (q : Nat) (golden : Bool) : (m.dropSlots q golden).cq = m.cq := by
  unfold Mach.dropSlots
  dsimp only
  split
  · rfl
  · refine m.foldl_cq (fun u n => ?_) _
    split <;> rfl

theorem Mach.onContexts_cq (p : Nat → VContext → Bool) (f : VContext → VContext) : (m.onContexts p f).cq = m.cq := by
  refine m.foldl_cq (fun u x => ?_) _
  split <;> rfl

theorem Mach.pointDone_cq (q : Nat) (b : List Byte) : (m.pointDone q b).cq = m.cq := by
  unfold Mach.pointDone
  split <;> rfl

theorem Mach.stopCommand_cq (q : Nat) (c : Started) : (m.stopCommand q c).cq = m.cq := by
  unfold Mach.stopCommand
  split
  · exact m.dropSlots_cq q _
  · exact m.onContexts_cq _ _
  · split
    · exact m.pointDone_cq q _
    · rfl
  · rfl

theorem Mach.restartFrom_cq (q : Nat) (oldest : Word) : (m.restartFrom q oldest).2.cq = m.cq := by
  unfold Mach.restartFrom
  split
  · split <;> rfl
  · rfl

/-- Queue q has no started command and waits to be bound again. -/
def Mach.queueStopped (t : Mach) (q : Nat) : Prop := (t.cmdq q).started = [] ∧ (t.cmdq q).rehoming = true

theorem Mach.cmdq_setCmdq_same (q : Nat) (x : CmdQ) : (m.setCmdq q x).cmdq q = x := by simp [Mach.cmdq, Mach.setCmdq]

theorem Mach.cmdq_setCmdq_ne {p q : Nat} (h : p ≠ q) (x : CmdQ) : (m.setCmdq q x).cmdq p = m.cmdq p := by
  simp [Mach.cmdq, Mach.setCmdq, sget_sput_ne _ h]

/-- A queue stops, and it alone. -/
theorem Mach.stopQueue_spec (q : Nat) : (m.stopQueue q).queueStopped q ∧ ∀ p, p ≠ q → (m.stopQueue q).cmdq p = m.cmdq p := by
  unfold Mach.stopQueue
  dsimp only
  split
  · rename_i hnone
    rw [Mach.onCmdq, Mach.queueStopped, Mach.cmdq_setCmdq_same]
    exact ⟨⟨hnone, rfl⟩, fun p hp => m.cmdq_setCmdq_ne hp _⟩
  · rename_i c cs _
    have fold : ∀ (l : List Started) (t : Mach), (l.foldl (fun m d => (m.undo q d).stopCommand q d) t).cq = t.cq := fun l t =>
      t.foldl_cq (fun u d => (Mach.stopCommand_cq _ q d).trans (u.undo_cq q d)) l
    rw [Mach.queueStopped, Mach.cmdq_setCmdq_same]
    refine ⟨⟨rfl, rfl⟩, fun p hp => ?_⟩
    rw [Mach.cmdq_setCmdq_ne _ hp, Mach.cmdq, fold, Mach.restartFrom_cq]
    rfl

theorem Mach.stopCore_spec (c : Nat) : (∀ q < 256, m.queueCore q = c → (m.stopCore c).queueStopped q) ∧
    ∀ q, (q < 256 → m.queueCore q ≠ c) → (m.stopCore c).cmdq q = m.cmdq q := by
  have stops : ∀ (l : List Nat) (t : Mach) (q : Nat), q ∈ l ∨ t.queueStopped q → (l.foldl Mach.stopQueue t).queueStopped q := by
    intro l
    induction l with
    | nil => exact fun t q h => h.resolve_left List.not_mem_nil
    | cons a l ih =>
      refine fun t q h => ih _ q ?_
      by_cases hqa : q = a
      · subst hqa
        exact .inr (t.stopQueue_spec q).1
      · refine h.imp (fun hin => (List.mem_cons.mp hin).resolve_left hqa) fun hstopped => ?_
        rwa [Mach.queueStopped, (t.stopQueue_spec a).2 q hqa]
  have keeps : ∀ (l : List Nat) (t : Mach) (q : Nat), q ∉ l → (l.foldl Mach.stopQueue t).cmdq q = t.cmdq q := by
    intro l
    induction l with
    | nil => exact fun _ _ _ => rfl
    | cons a l ih =>
      intro t q h
      obtain ⟨hne, hl⟩ := not_or.mp (fun hin => h (List.mem_cons.mpr hin))
      exact (ih _ q hl).trans ((t.stopQueue_spec a).2 q hne)
  refine ⟨fun q hq hcore => stops _ m q (.inl ?_), fun q hcore => keeps _ m q fun hin => ?_⟩
  · exact List.mem_filter.mpr ⟨List.mem_range.mpr hq, by rw [hcore]; exact beq_self_eq_true c⟩
  · obtain ⟨hq, hbound⟩ := List.mem_filter.mp hin
    exact hcore (List.mem_range.mp hq) (beq_iff_eq.mp hbound)

end

end Sys2Proof.Machine
end

section
/-! The reactions of a core, of the management core and of a reload that does not verify, and a detection as the supervisor meets it. -/

namespace Sys2Proof.Machine

section
variable (m : Mach) (d : Detection)

/-! ## A move-in abandoned (R26, R334) -/

theorem Mach.loadFailed_spec : m.loadFailed.phase = 2 ∧ m.loadFailed.rbit Reg.FPL_EVENT 2 = true ∧
    m.loadFailed.fpl = { m.fpl with staged := some [] } := by
  have hevent : m.loadFailed.rbit Reg.FPL_EVENT 2 = true := by
    rw [Mach.loadFailed, Mach.rbit, Mach.onFpl_reg]
    exact Mach.raise_bit _ Reg.FPL_EVENT 0x4 2 (by decide) (by decide)
  refine ⟨?_, hevent, rfl⟩
  have hreg : m.loadFailed.reg Reg.FPL_STATUS = (m.reg Reg.FPL_STATUS).setField 1 3 2 := by
    rw [Mach.loadFailed, Mach.onFpl_reg, Mach.raise_reg, if_neg (by decide), Mach.setFld_reg, if_pos rfl]
  rw [Mach.phase, Mach.fld, hreg, Word.field_setField_same _ (by decide)]
  rfl

/-- A move-in that ends in phase A. -/
def Mach.unstaged (m : Mach) : Mach :=
  ((m.setFld Reg.FPL_STATUS 1 3 0).raise Reg.FPL_EVENT 0x4).onFpl fun f => { f with staged := none, stagedAt := none }

theorem Mach.unstaged_phase : m.unstaged.phase = 0 := by
  have hreg : m.unstaged.reg Reg.FPL_STATUS = (m.reg Reg.FPL_STATUS).setField 1 3 0 := by
    rw [Mach.unstaged, Mach.onFpl_reg, Mach.raise_reg, if_neg (by decide), Mach.setFld_reg, if_pos rfl]
  rw [Mach.phase, Mach.fld, hreg, Word.field_setField_same _ (by decide)]
  rfl

theorem Mach.abandonMoveIn_eq : m.abandonMoveIn = if m.phase = 0 then m else if m.phase = 1 then m.unstaged else m.loadFailed := rfl

/-- What becomes of a move-in that is abandoned, from m to t. -/
def Mach.moveInEnds (m t : Mach) : Prop := (m.phase = 0 → t.fpl = m.fpl) ∧
  (m.phase = 1 → t.phase = 0 ∧ t.fpl = { m.fpl with staged := none, stagedAt := none }) ∧
  (2 ≤ m.phase → t.phase = 2 ∧ t.fpl = { m.fpl with staged := some [] })

theorem Mach.abandonMoveIn_ends : m.moveInEnds m.abandonMoveIn := by
  obtain ⟨hphase, -, hfpl⟩ := m.loadFailed_spec
  rw [Mach.abandonMoveIn_eq]
  refine ⟨fun h0 => ?_, fun h1 => ?_, fun h2 => ?_⟩
  · rw [if_pos h0]
  · rw [if_neg (by omega), if_pos h1]
    exact ⟨m.unstaged_phase, rfl⟩
  · rw [if_neg (by omega), if_neg (by omega)]
    exact ⟨hphase, hfpl⟩

theorem Mach.abandonMoveIn_obs : m.abandonMoveIn.obs = m.obs := by
  rw [Mach.abandonMoveIn_eq]
  split
  · rfl
  · split <;> rfl

/-- The floorplan and the phase are all that the end of a move-in speaks of. -/
theorem Mach.moveInEnds_congr {m m' t t' : Mach} (h : m.moveInEnds t) (hfpl : t'.fpl = t.fpl) (hphase : t'.phase = t.phase)
    (hfpl' : m'.fpl = m.fpl) (hphase' : m'.phase = m.phase) : m'.moveInEnds t' := by
  rw [Mach.moveInEnds, hfpl, hphase, hfpl', hphase']
  exact h

/-- The firmware halts with a fault of the management core. -/
theorem Mach.managementFault_spec (own : d.unit = .management ∨ d.unit = .security) : m.moveInEnds (m.managementFault d) ∧
    (m.managementFault d).obs.mgmtHalted = (m.obs.mgmtHalted || d.unit == .management) := by
  unfold Mach.managementFault
  dsimp only
  rcases own with hunit | hunit
  · obtain ⟨hservo, hregs⟩ := (m.abandonMoveIn.onObs fun o => { o with mgmtHalted := true }).servoCheck_frame
    rw [if_pos hunit, hunit, show (UnitKind.management == UnitKind.management) = true from rfl, Bool.or_true]
    refine ⟨Mach.moveInEnds_congr m.abandonMoveIn_ends (congrArg Mach.fpl hservo :) ?_ rfl rfl, ?_⟩
    · rw [Mach.phase, Mach.fld, hregs _ (by decide)]
      rfl
    · have hobs := (congrArg Mach.obs hservo :)
      rw [hobs]
      rfl
  · rw [if_neg (by rw [hunit]; decide), hunit, show (UnitKind.security == UnitKind.management) = false from rfl, Bool.or_false]
    exact ⟨m.abandonMoveIn_ends, by rw [m.abandonMoveIn_obs]⟩

/-! ## A reload that does not verify (R358) -/

/-- The end of hold 0 keeps a fatal fault. -/
theorem Mach.isFatal.endHold (h : m.isFatal) : (m.endHold 0).isFatal := by
  obtain ⟨hhold, hlow, hfault, hstatus, hevent⟩ := h
  have hmax : ∀ (u : Mach) (v : Word), u.isFatal → (u.setReg Reg.SAFE_MAX_OUT v).isFatal := by
    rintro u v ⟨h1, h2, h3, h4, h5⟩
    exact ⟨(Mach.rbit_congr (u.reg_setReg_ne (by decide) v) 1).trans h1, h2, h3,
      (Mach.rbit_congr (u.reg_setReg_ne (by decide) v) 2).trans h4, (Mach.rbit_congr (u.reg_setReg_ne (by decide) v) 4).trans h5⟩
  have hended : ((m.setRBit Reg.SAFE_HOLD 0 false).raise Reg.SAFE_EVENT 0x1).isFatal := by
    have hkept : ∀ a, a ≠ Reg.SAFE_HOLD → (m.setRBit Reg.SAFE_HOLD 0 false).reg a = m.reg a := fun a ha =>
      (m.setRBit_reg _ _ _ _).trans (if_neg ha)
    refine ⟨?_, hlow, hfault, ?_, Mach.raise_bit_stays _ (by decide) _ ((Mach.rbit_congr (hkept _ (by decide)) 4).trans hevent)⟩
    · rw [Mach.hold, Mach.rbit, Mach.raise_reg, if_neg (by decide), Mach.setRBit_reg, if_pos rfl, Word.bit_setBit_ne _ (by decide)]
      exact hhold
    · rw [Mach.rbit, Mach.raise_reg, if_neg (by decide), hkept _ (by decide)]
      exact hstatus
  have hcleared : ∀ u : Mach, u.isFatal → ((u.onSafety fun x => { x with hold0At := none }).setRBit Reg.SAFE_STATUS 3 false).isFatal := by
    rintro u ⟨h1, h2, h3, h4, h5⟩
    have hkept : ∀ a, a ≠ Reg.SAFE_STATUS →
        ((u.onSafety fun x => { x with hold0At := none }).setRBit Reg.SAFE_STATUS 3 false).reg a = u.reg a := fun a ha =>
      (Mach.setRBit_reg _ _ _ _ _).trans (if_neg ha)
    refine ⟨(Mach.rbit_congr (hkept _ (by decide)) 1).trans h1, h2, h3, ?_, (Mach.rbit_congr (hkept _ (by decide)) 4).trans h5⟩
    rw [Mach.rbit, Mach.setRBit_reg, if_pos rfl, Word.bit_setBit_ne _ (by decide)]
    exact h4
  unfold Mach.endHold
  dsimp only
  split
  · rw [if_pos rfl]
    refine hcleared _ ?_
    split
    · split
      · exact hmax _ _ hended
      · exact hended
    · exact hended
  · exact ⟨hhold, hlow, hfault, hstatus, hevent⟩

theorem Mach.endHold_reg {a : Nat} (ha : a ∉ holdRegs) : (m.endHold 0).reg a = m.reg a := by
  simp only [holdRegs, List.mem_cons, List.not_mem_nil, or_false, not_or] at ha
  obtain ⟨hstatus, hhold, hevent, hmax⟩ := ha
  have hended : ((m.setRBit Reg.SAFE_HOLD 0 false).raise Reg.SAFE_EVENT 0x1).reg a = m.reg a := by
    rw [Mach.raise_reg, if_neg hevent, Mach.setRBit_reg, if_neg hhold]
  unfold Mach.endHold
  dsimp only
  split
  · rw [if_pos rfl, Mach.setRBit_reg, if_neg hstatus, Mach.onSafety_reg]
    split
    · split
      · rw [Mach.reg_setReg_ne _ hmax, hended]
      · exact hended
    · exact hended
  · rfl

/-- A fatal fault with its entry's reaction. -/
def Mach.fatalAt (t : Mach) (i : Nat) : Prop := t.isFatal ∧ t.fld (Reg.SAFE_LOG1 i) 0 8 = 6

theorem Mach.verifyReload_fatal {r : Recovery} (hunit : r.det.unit = .config) (hfails : r.det.reloadFails = true) (hi : r.logIndex < 64) :
    (m.verifyReload r).fatalAt r.logIndex := by
  have heq : m.verifyReload r = m.oneClock Reg.SAFE_EVENT fun m => (m.logReaction r.logIndex 6).fatal :=
    if_pos ⟨hunit, by rw [Mach.reloadVerifies, hfails]; rfl⟩
  have hclock := Mach.oneClock_upholds (l := []) m fun m => (m.logReaction r.logIndex 6).fatal
  have hall := ((Mach.Upholds.refl (l := []) (m.logReaction r.logIndex 6)).fatal).trans hclock
  obtain ⟨hbelow, hnot⟩ := log_not_reaction (a := Reg.SAFE_LOG1 r.logIndex) (by simp only [Reg.SAFE_LOG1]; omega)
  rw [heq]
  refine ⟨(Mach.fatal_isFatal _).upholds hclock, ?_⟩
  rw [Mach.fld, hall.reg _ hbelow hnot List.not_mem_nil, Mach.logReaction, Mach.setFld_reg, if_pos rfl,
    Word.field_setField_same _ (by decide)]
  rfl

theorem Mach.fatalAt.endHold {i : Nat} (hi : i < 64) (h : m.fatalAt i) : (m.endHold 0).fatalAt i := by
  obtain ⟨hfatal, hentry⟩ := h
  refine ⟨hfatal.endHold, ?_⟩
  rw [Mach.fld, m.endHold_reg]
  · exact hentry
  · simp only [holdRegs, List.mem_cons, List.not_mem_nil, or_false, not_or, Reg.SAFE_LOG1, Reg.SAFE_STATUS, Reg.SAFE_HOLD, Reg.SAFE_EVENT,
      Reg.SAFE_MAX_OUT]
    omega

/-- The last of a recovery is what its reload's check finds, and the end of hold 0 with no other recovery in progress. -/
theorem Mach.recoverEnd_last (r : Recovery) : ∃ (w : Mach) (jet : Bool), m.recoverEnd r =
    if (w.verifyReload { r with permanent := jet }).safety.recoveries.isEmpty then (w.verifyReload { r with permanent := jet }).endHold 0
    else w.verifyReload { r with permanent := jet } := by
  unfold Mach.recoverEnd
  exact ⟨_, _, rfl⟩

/-- R358 step 5: a reload that does not verify is fatal. -/
theorem Mach.recoverEnd_fatal {r : Recovery} (hunit : r.det.unit = .config) (hfails : r.det.reloadFails = true) (hi : r.logIndex < 64) :
    (m.recoverEnd r).fatalAt r.logIndex := by
  obtain ⟨w, jet, heq⟩ := m.recoverEnd_last r
  have hfatal := w.verifyReload_fatal (r := { r with permanent := jet }) hunit hfails hi
  rw [heq]
  split
  · exact Mach.fatalAt.endHold _ hi hfatal
  · exact hfatal

end

/-! ## A core's reaction (R355, R356) -/

section
variable {m t : Mach} {d : Detection} {permanent : Bool} {r : Nat} (logs : m.loggedAs d permanent t r) (time : t.time = m.time)
  (served : t.inService (d.number % 32) = true)

/-- A core's recovery with no word that failed again and no planned re-homing under way: its queues stop. -/
theorem Mach.coreLeft_once (once : d.cause ≠ 8) (stays : (t.selfTestOf (d.number % 32)).leaving = false) (i : Nat) (lasting : Bool) :
    t.coreLeft d i lasting = (t.openRecovery d i lasting).stopCore (d.number % 32) := by
  have hmarked : t.coreMarked d i lasting = (t.openRecovery d i lasting).stopCore (d.number % 32) := Mach.again_once once _ _
  have htest : (((t.openRecovery d i lasting).stopCore (d.number % 32)).selfTestOf (d.number % 32)) = t.selfTestOf (d.number % 32) := by
    rw [Mach.selfTestOf, ((Mach.Outside.refl (t.openRecovery d i lasting)).stopCore _).safety, (t.openRecovery_rest d i lasting).2.2.2]
    rfl
  rw [Mach.coreLeft, hmarked, htest, stays]
  exact if_neg Bool.false_ne_true

/-- Which queues a core's recovery stops, from m to t. -/
def Mach.stopsCore (m t : Mach) (c : Nat) : Prop :=
  (∀ q < 256, m.queueCore q = c → t.queueStopped q) ∧ ∀ q, (q < 256 → m.queueCore q ≠ c) → t.cmdq q = m.cmdq q

include logs time served

theorem Mach.coreFault_transient (once : d.cause ≠ 8) (stays : (t.selfTestOf (d.number % 32)).leaving = false) :
    m.loggedAs d permanent (t.coreFault d m.nextEntry false) r ∧ m.recoversFrom d (t.coreFault d m.nextEntry false) false ∧
      t.stopsCore (t.coreFault d m.nextEntry false) (d.number % 32) := by
  have hstop := ((Mach.Outside.refl (t.openRecovery d m.nextEntry false)).stopCore (d.number % 32)).upholds (l := [])
  have hcore : ∀ q, (t.openRecovery d m.nextEntry false).queueCore q = t.queueCore q := fun q => by
    have hnone : ∀ b ∈ holdRegs, b < 0x80000 := by decide
    rw [Mach.queueCore, Mach.fld, t.openRecovery_reg d _ false fun hin => absurd (hnone _ hin) (by simp only [Reg.CQ_CORE]; omega)]
    rfl
  have hcq : ∀ q, (t.openRecovery d m.nextEntry false).cmdq q = t.cmdq q := fun q => by
    rw [Mach.cmdq, (t.openRecovery_rest d _ false).1]
    rfl
  obtain ⟨hstopped, hother⟩ := (t.openRecovery d m.nextEntry false).stopCore_spec (d.number % 32)
  rw [t.coreFault_served d _ false served, if_neg Bool.false_ne_true, Mach.coreLeft_once once stays]
  refine ⟨logs.upholds (((Mach.Upholds.refl t).openRecovery d _ false).trans hstop),
    (Mach.recoversFrom_open time false).upholds hstop, fun q hq h => hstopped q hq ((hcore q).trans h), fun q h => ?_⟩
  rw [hother q fun hq => by rw [hcore]; exact h hq, hcq]

omit time in
theorem Mach.coreFault_lasting : (t.coreFault d m.nextEntry true).reg (classCount permanent) = m.reg (classCount permanent) + 1 ∧
    (t.coreFault d m.nextEntry true).rbit Reg.FPL_CORES_OUT (d.number % 32) = true := by
  refine ⟨(classCount_upholds (t.coreFault_upholds d m.nextEntry true) (classCount_ne_log _)).trans logs.1, ?_⟩
  rw [t.coreFault_served d _ true served, if_pos rfl]
  exact Mach.corePermanent_out _ _ (Nat.mod_lt _ (by decide))

end

end Sys2Proof.Machine
end

section
/-! A detection met in one clock of the supervisor (R386): recorded, and answered by its unit. -/

namespace Sys2Proof.Machine

section
variable (m : Mach) (d : Detection)

/-! ## The trigger configuration stays -/

/-- No reaction changes what a detection triggers in the debug block, whatever its log entry. -/
theorem Mach.handle_trig (i : Nat) (permanent : Bool) : (m.handle d i permanent).reg Reg.DBG_TRIG_CFG = m.reg Reg.DBG_TRIG_CFG := by
  refine (m.handle_upholds d i permanent).reg _ (by decide) (by decide) fun hin => ?_
  have he := List.mem_singleton.mp hin
  simp only [Reg.DBG_TRIG_CFG, Reg.SAFE_LOG1] at he
  omega

theorem Mach.handleLate_trig : m.handleLate.reg Reg.DBG_TRIG_CFG = m.reg Reg.DBG_TRIG_CFG := by
  have fold : ∀ (l : List (Detection × Nat × Bool)) (t : Mach),
      (l.foldl (fun m x => m.oneClock Reg.SAFE_EVENT fun m => m.handle x.1 x.2.1 x.2.2) t).reg Reg.DBG_TRIG_CFG =
        t.reg Reg.DBG_TRIG_CFG := by
    intro l
    induction l with
    | nil => exact fun _ => rfl
    | cons x l ih => exact fun t => (ih _).trans ((Mach.oneClock_reg _ _ _ _ (by decide)).trans (t.handle_trig _ _ _))
  unfold Mach.handleLate
  split
  · exact fold _ _
  · rfl

/-- Nothing that waited is handled where nothing waited. -/
theorem Mach.handleLate_none (h : m.fpl.deferred = []) : m.handleLate = m := by
  have hsame : (m.onFpl fun f => { f with deferred := [] }) = m := by rw [← h]; rfl
  unfold Mach.handleLate
  split
  · rw [h, List.foldl_nil, hsame]
  · rfl

theorem Mach.freezeOnFault_off (h : m.rbit Reg.DBG_TRIG_CFG 0 = false) : m.freezeOnFault = m := if_neg (by simp [h])

theorem Mach.stillOnFault_off (h : m.rbit Reg.DBG_TRIG_CFG 1 = false) : m.stillOnFault = m := if_neg (by simp [h])

/-! ## The record leaves most -/

theorem Mach.record_above {a : Nat} (h : 0x60000 ≤ a) (hmem : a < 0x300000 ∨ 0x400000 ≤ a) : (m.record d).2.reg a = m.reg a := by
  have hcount : ∀ b ∈ [Reg.SAFE_EVENT, Reg.SAFE_PERMANENT, Reg.SAFE_TRANSIENT] ++ memErrorRegs,
      ¬ (0x60000 ≤ b ∧ (b < 0x300000 ∨ 0x400000 ≤ b)) := by decide
  have hi := m.nextEntry_lt
  refine m.record_reg d (fun hin => hcount a hin ⟨h, hmem⟩) ?_
  simp only [entryRegs, List.mem_cons, List.not_mem_nil, or_false, not_or, Reg.SAFE_LOG0, Reg.SAFE_LOG1, Reg.SAFE_LOG2, Reg.SAFE_LOG3,
    Reg.SAFE_LOG_COUNT, Reg.SEC_LOG_COUNT]
  omega

theorem Mach.onlyRecord.kept {m t : Mach} (h : m.onlyRecord t) : t.fpl = m.fpl ∧ t.time = m.time ∧ t.cq = m.cq ∧ t.groups = m.groups :=
  ⟨(congrArg Mach.fpl h :), (congrArg Mach.time h :), (congrArg Mach.cq h :), (congrArg Mach.groups h :)⟩

theorem Mach.onlyRecord.halted {m t : Mach} (h : m.onlyRecord t) : t.obs.mgmtHalted = m.obs.mgmtHalted := by
  have hobs : { t.obs with live := m.obs.live } = m.obs := (congrArg Mach.obs h :)
  exact (congrArg Observe.mgmtHalted hobs :)

theorem Mach.record_fpl : (m.record d).2.fpl = m.fpl := (m.record_onlyRecord d).kept.1
theorem Mach.record_plan : (m.record d).2.fpl.plan = m.fpl.plan := congrArg Fpl.plan (m.record_fpl d)
theorem Mach.record_time : (m.record d).2.time = m.time := (m.record_onlyRecord d).kept.2.1
theorem Mach.record_cq : (m.record d).2.cq = m.cq := (m.record_onlyRecord d).kept.2.2.1
theorem Mach.record_groups : (m.record d).2.groups = m.groups := (m.record_onlyRecord d).kept.2.2.2
theorem Mach.record_halted : (m.record d).2.obs.mgmtHalted = m.obs.mgmtHalted := (m.record_onlyRecord d).halted

theorem Mach.record_phase : (m.record d).2.phase = m.phase := by
  rw [Mach.phase, Mach.fld, m.record_above d (by decide) (.inl (by decide))]
  rfl

theorem Mach.record_inService (c : Nat) : (m.record d).2.inService c = m.inService c :=
  Mach.rbit_congr (m.record_above d (by simp only [Reg.CLU_CORE_STATE]; omega) (.inr (by simp only [Reg.CLU_CORE_STATE]; omega))) _

theorem Mach.record_queueCore (q : Nat) (hq : q < 256) : (m.record d).2.queueCore q = m.queueCore q := by
  rw [Mach.queueCore, Mach.fld, m.record_above d (by simp only [Reg.CQ_CORE]; omega) (.inl (by simp only [Reg.CQ_CORE]; omega))]
  rfl

/-! ## Recorded and answered -/

/-- A detection recorded and answered, before the clock's number. -/
def Mach.answered (m : Mach) (d : Detection) : Mach := (m.record d).2.handle d m.nextEntry (m.isPermanent d)

theorem Mach.react_eq : m.react d = m.oneClock Reg.SAFE_EVENT fun m => m.answered d := by
  have hfun : (fun m : Mach => (m.record d).2.handle d (m.record d).1.1 (m.record d).1.2) = fun m => m.answered d :=
    funext fun m => by rw [Mach.answered, m.record_entry]
  exact congrArg (m.oneClock Reg.SAFE_EVENT) hfun

theorem Mach.react_upholds {l : List Nat} : Mach.Upholds l (m.answered d) (m.react d) := by
  rw [Mach.react_eq]
  exact Mach.oneClock_upholds m fun m => m.answered d

theorem Mach.react_rest : { m.react d with regs := (m.answered d).regs } = m.answered d := by
  rw [Mach.react_eq]
  exact m.oneClock_rest _ fun m => m.answered d

theorem Mach.react_reg {a : Nat} (h : a ≠ Reg.SAFE_EVENT) : (m.react d).reg a = (m.answered d).reg a := by
  rw [Mach.react_eq]
  exact Mach.oneClock_reg _ _ _ _ h

theorem Mach.react_trig : (m.react d).reg Reg.DBG_TRIG_CFG = m.reg Reg.DBG_TRIG_CFG := by
  rw [m.react_reg d (by decide), Mach.answered, Mach.handle_trig, m.record_above d (by decide) (.inl (by decide))]

/-- A detection recorded that waits for the end of the move-in. -/
def Mach.putOff (m : Mach) (d : Detection) : Mach :=
  (m.record d).2.onFpl fun f => { f with deferred := f.deferred ++ [(d, m.nextEntry, m.isPermanent d)] }

/-- Without triggers a detection during a move-in is recorded and waits. -/
theorem Mach.fault_waits (h0 : m.rbit Reg.DBG_TRIG_CFG 0 = false) (h1 : m.rbit Reg.DBG_TRIG_CFG 1 = false) (hp : 1 ≤ m.phase)
    (hown : ¬ (d.unit = .management ∨ d.unit = .security)) : m.fault d =
      if (m.bump 424 1).imageError d then ((m.bump 424 1).putOff d).loadFailed else (m.bump 424 1).putOff d := by
  have hfreeze : (m.bump 424 1).freezeOnFault = m.bump 424 1 :=
    Mach.freezeOnFault_off _ ((Mach.rbit_congr (m.bump_reg _ _ _) 0).trans h0)
  have hphase : (m.bump 424 1).phase = m.phase := by
    rw [Mach.phase, Mach.fld, m.bump_reg]
    rfl
  have htrig : ∀ (f : Fpl → Fpl), (((m.bump 424 1).record d).2.onFpl f).rbit Reg.DBG_TRIG_CFG 1 = false := fun f =>
by
    rw [Mach.rbit, Mach.onFpl_reg, Mach.record_above _ d (by decide) (.inl (by decide)), m.bump_reg]
    exact h1
  have hfailed : ∀ t : Mach, t.rbit Reg.DBG_TRIG_CFG 1 = false → t.loadFailed.rbit Reg.DBG_TRIG_CFG 1 = false := fun t ht =>
    (Mach.rbit_congr ((Mach.Upholds.refl (l := []) t).loadFailed.reg _ (by decide) (by decide) List.not_mem_nil) 1).trans ht
  have hentry := (m.bump 424 1).record_entry d
  unfold Mach.fault Mach.putOff
  dsimp only
  have hwaits : 1 ≤ (m.bump 424 1).phase ∧ d.unit ≠ .management ∧ d.unit ≠ .security := ⟨by rwa [hphase], not_or.mp hown⟩
  rw [hfreeze, if_pos hwaits, hentry]
  split
  · exact Mach.stillOnFault_off _ (hfailed _ (htrig _))
  · exact Mach.stillOnFault_off _ (htrig _)

/-- Without triggers any other detection is met at once, before those that waited. -/
theorem Mach.fault_met (h0 : m.rbit Reg.DBG_TRIG_CFG 0 = false) (h1 : m.rbit Reg.DBG_TRIG_CFG 1 = false)
    (h : m.phase = 0 ∨ d.unit = .management ∨ d.unit = .security) : m.fault d = ((m.bump 424 1).react d).handleLate := by
  have hfreeze : (m.bump 424 1).freezeOnFault = m.bump 424 1 :=
    Mach.freezeOnFault_off _ ((Mach.rbit_congr (m.bump_reg _ _ _) 0).trans h0)
  have hphase : (m.bump 424 1).phase = m.phase := by
    rw [Mach.phase, Mach.fld, m.bump_reg]
    rfl
  have htrig : ((m.bump 424 1).react d).handleLate.rbit Reg.DBG_TRIG_CFG 1 = false :=
    (Mach.rbit_congr ((Mach.handleLate_trig _).trans ((Mach.react_trig _ d).trans (m.bump_reg _ _ _))) 1).trans h1
  have hnow : ¬ (1 ≤ (m.bump 424 1).phase ∧ d.unit ≠ .management ∧ d.unit ≠ .security) := by
    rw [hphase]
    rintro ⟨hp, hm, hs⟩
    rcases h with h | h | h
    · omega
    · exact hm h
    · exact hs h
  unfold Mach.fault
  dsimp only
  rw [hfreeze, if_neg hnow]
  exact Mach.stillOnFault_off _ htrig

end

/-! ## What each unit's detection shows -/

section
variable {m : Mach} {d : Detection}

/-- A reaction after which the entry stands as recorded. -/
theorem Mach.react_logged {r : Nat} (hr : m.firstReaction d (m.isPermanent d) = r) (k : Mach.Upholds [] (m.record d).2 (m.answered d)) :
    m.loggedAs d (m.isPermanent d) (m.react d) r :=
  ((hr ▸ m.record_logged d).upholds k).upholds (m.react_upholds d)

theorem Mach.supplyEvent_shows (hcause : d.cause = 0x0F) : m.loggedAs d (m.isPermanent d) (m.react d) 0 ∧ (m.react d).hold 10 = true ∧
    (m.react d).safety.outValid = false := by
  have heq : m.answered d = (m.record d).2.beginHold 10 := if_pos hcause
  have hupholds := m.react_upholds d (l := [])
  obtain ⟨hhold, hlow, -⟩ := (m.record d).2.beginHold_frame 10 (by decide)
  refine ⟨Mach.react_logged (if_pos hcause) (heq ▸ (Mach.Upholds.refl _).beginHold 10), ?_, hupholds.low (heq ▸ hlow)⟩
  exact hupholds.bit _ _ ⟨by decide, .inr (.inl rfl)⟩ (heq ▸ hhold)

section
variable (hcause : d.cause ≠ 0x0F)
include hcause

theorem Mach.timebase_shows (hunit : d.unit = .timebase ∨ d.unit = .supervisor) : m.loggedAs d (m.isPermanent d) (m.react d) 6 ∧
    (m.react d).isFatal := by
  have heq : m.answered d = (m.record d).2.fatal := by
    rcases hunit with hunit | hunit <;> simp only [Mach.answered, Mach.handle, if_neg hcause, hunit]
  have hr : m.firstReaction d (m.isPermanent d) = 6 := by
    rcases hunit with hunit | hunit <;> simp only [Mach.firstReaction, if_neg hcause, hunit]
  exact ⟨Mach.react_logged hr (heq ▸ (Mach.Upholds.refl _).fatal), (heq ▸ Mach.fatal_isFatal _ : (m.answered d).isFatal).upholds
    (m.react_upholds d (l := []))⟩

theorem Mach.management_shows (own : d.unit = .management ∨ d.unit = .security) : m.loggedAs d (m.isPermanent d) (m.react d) 5 ∧
    (m.react d).obs.mgmtHalted = (m.obs.mgmtHalted || d.unit == .management) ∧ m.moveInEnds (m.react d) := by
  have heq : m.answered d = (m.record d).2.managementFault d := by
    rcases own with hunit | hunit <;> simp only [Mach.answered, Mach.handle, if_neg hcause, hunit]
  have hr : m.firstReaction d (m.isPermanent d) = 5 := by
    rcases own with hunit | hunit <;> simp only [Mach.firstReaction, if_neg hcause, hunit]
  obtain ⟨hends, hhalted⟩ := (m.record d).2.managementFault_spec d own
  have hrest := m.react_rest d
  have hobs : (m.react d).obs = (m.answered d).obs := (congrArg Mach.obs hrest :)
  refine ⟨Mach.react_logged hr (heq ▸ Mach.managementFault_upholds _ d), ?_, ?_⟩
  · rw [hobs, heq, hhalted, m.record_halted]
  · have hphase : (m.react d).phase = (m.answered d).phase := by
      rw [Mach.phase, Mach.fld, m.react_reg d (by decide)]
      rfl
    rw [heq] at hrest hphase
    exact Mach.moveInEnds_congr hends (congrArg Mach.fpl hrest :) hphase (m.record_fpl d).symm (m.record_phase d).symm

theorem Mach.port_shows (hunit : d.unit = .port) :
    m.loggedAs d (m.isPermanent d) (m.react d) (m.shownReaction d (if m.isPermanent d then 7 else 0)) ∧
      m.recoversFrom d (m.react d) (m.isPermanent d) := by
  have heq : m.answered d = (m.record d).2.portFault d m.nextEntry (m.isPermanent d) := by
    simp only [Mach.answered, Mach.handle, if_neg hcause, hunit]
  have hr : m.firstReaction d (m.isPermanent d) = if m.isPermanent d then 7 else 0 := by
    simp only [Mach.firstReaction, if_neg hcause, hunit]
  obtain ⟨hlog, hrec⟩ := Mach.portFault_shows (m.record_logged d) (m.record_plan d) (m.record_time d)
  rw [← heq, hr] at hlog
  rw [← heq] at hrec
  exact ⟨hlog.upholds (m.react_upholds d), hrec.upholds (m.react_upholds d (l := []))⟩

theorem Mach.pointUnit_shows (hunit : d.unit = .pointUnit) :
    (m.react d).reg (classCount (m.isPermanent d)) = m.reg (classCount (m.isPermanent d)) + 1 ∧
      m.recoversFrom d (m.react d) (m.isPermanent d) := by
  have heq : m.answered d = (m.record d).2.pointFault d m.nextEntry (m.isPermanent d) := by
    simp only [Mach.answered, Mach.handle, if_neg hcause, hunit]
  obtain ⟨hcount, hrec⟩ := Mach.pointFault_shows (m.record_logged d) (m.record_time d)
  rw [← heq] at hcount hrec
  exact ⟨(classCount_upholds (m.react_upholds d) List.not_mem_nil).trans hcount, hrec.upholds (m.react_upholds d (l := []))⟩

theorem Mach.cluster_shows (hunit : d.unit = .cluster) :
    m.loggedAs d (m.isPermanent d) (m.react d) (m.shownReaction d (if m.isPermanent d then 6 else 1)) ∧
      m.recoversFrom d (m.react d) (m.isPermanent d) ∧ (m.isPermanent d = true → (m.react d).isFatal) := by
  have heq : m.answered d = (m.record d).2.clusterFault d m.nextEntry (m.isPermanent d) := by
    simp only [Mach.answered, Mach.handle, if_neg hcause, hunit]
  have hr : m.firstReaction d (m.isPermanent d) = if m.isPermanent d then 6 else 1 := by
    simp only [Mach.firstReaction, if_neg hcause, hunit]
  obtain ⟨hlog, hrec, hfatal⟩ := Mach.clusterFault_shows (m.record_logged d) (m.record_plan d) (m.record_time d)
  rw [← heq, hr] at hlog
  rw [← heq] at hrec hfatal
  exact ⟨hlog.upholds (m.react_upholds d), hrec.upholds (m.react_upholds d (l := [])),
    fun h => (hfatal h).upholds (m.react_upholds d (l := []))⟩

theorem Mach.dieUnit_shows (hunit : d.unit = .dieUnit) :
    m.loggedAs d (m.isPermanent d) (m.react d) (m.shownReaction d (if dieFatal d (m.isPermanent d) then 6 else 5)) ∧
      m.recoversFrom d (m.react d) (m.isPermanent d) ∧ (dieFatal d (m.isPermanent d) = true → (m.react d).isFatal) := by
  have heq : m.answered d = (m.record d).2.dieFault d m.nextEntry (m.isPermanent d) := by
    simp only [Mach.answered, Mach.handle, if_neg hcause, hunit]
  have hr : m.firstReaction d (m.isPermanent d) = if dieFatal d (m.isPermanent d) then 6 else 5 := by
    simp only [Mach.firstReaction, if_neg hcause, hunit]
  obtain ⟨hlog, hrec, hfatal⟩ := Mach.dieFault_shows (m.record_logged d) (m.record_plan d) (m.record_time d)
  rw [← heq, hr] at hlog
  rw [← heq] at hrec hfatal
  exact ⟨hlog.upholds (m.react_upholds d), hrec.upholds (m.react_upholds d (l := [])),
    fun h => (hfatal h).upholds (m.react_upholds d (l := []))⟩

theorem Mach.config_shows (hunit : d.unit = .config) : m.loggedAs d (m.isPermanent d) (m.react d) 4 ∧ m.recoversFrom d (m.react d) false ∧
    (m.coreRecovery = false → ∀ g < 16, ∀ x ∈ ((m.react d).group g).open_, x.discarded = true) ∧
    (m.coreRecovery = true → (m.react d).safety.configWaiting = m.safety.configWaiting ++ [d] ∧ (m.react d).groups = m.groups) := by
  have heq : m.answered d = (m.record d).2.configFault d m.nextEntry := by
    simp only [Mach.answered, Mach.handle, if_neg hcause, hunit]
  have hr : m.firstReaction d (m.isPermanent d) = 4 := by
    simp only [Mach.firstReaction, if_neg hcause, hunit]
  have hcore : (m.record d).2.coreRecovery = m.coreRecovery := by
    rw [Mach.coreRecovery, m.record_safety]
    rfl
  have hrest := m.react_rest d
  have hsafety : (m.react d).safety = (m.answered d).safety := (congrArg Mach.safety hrest :)
  have hgroups : (m.react d).groups = (m.answered d).groups := (congrArg Mach.groups hrest :)
  obtain ⟨hlog, hrec⟩ := Mach.configFault_shows (m.record_logged d) (m.record_time d)
  rw [← heq, hr] at hlog
  rw [← heq] at hrec
  refine ⟨hlog.upholds (m.react_upholds d), hrec.upholds (m.react_upholds d (l := [])), fun h g hg => ?_, fun h => ?_⟩
  · rw [Mach.group, hgroups, heq]
    exact (m.record d).2.configFault_discards d m.nextEntry (hcore.trans h) g hg
  · obtain ⟨hwaiting, hkept⟩ := (m.record d).2.configFault_waits d m.nextEntry (hcore.trans h)
    rw [hsafety, hgroups, heq, hwaiting, hkept, m.record_safety, m.record_groups]
    exact ⟨rfl, rfl⟩

theorem Mach.coreUnserved_shows (hunit : d.unit = .core) (hserved : m.inService (d.number % 32) = false) :
    m.loggedAs d (m.isPermanent d) (m.react d) 0 ∧ (m.react d).cq = m.cq ∧ (m.react d).safety.outValid = m.safety.outValid := by
  have heq : m.answered d = (m.record d).2 := by
    have hfault := (m.record d).2.coreFault_unserved d m.nextEntry (m.isPermanent d) ((m.record_inService d _).trans hserved)
    simp only [Mach.answered, Mach.handle, if_neg hcause, hunit, hfault]
  have hr : m.firstReaction d (m.isPermanent d) = 0 := by
    simp only [Mach.firstReaction, if_neg hcause, hunit, hserved, Bool.not_false, if_true]
  have hrest := m.react_rest d
  have hsafety : (m.react d).safety = (m.answered d).safety := (congrArg Mach.safety hrest :)
  have hcq : (m.react d).cq = (m.answered d).cq := (congrArg Mach.cq hrest :)
  refine ⟨Mach.react_logged hr (heq ▸ .refl _), ?_, ?_⟩
  · rw [hcq, heq, m.record_cq]
  · rw [hsafety, heq, m.record_safety]

section
variable (hunit : d.unit = .core) (hserved : m.inService (d.number % 32) = true)
include hunit

omit hcause in
theorem Mach.answered_core (hcause : d.cause ≠ 0x0F) : m.answered d = (m.record d).2.coreFault d m.nextEntry (m.isPermanent d) := by
  simp only [Mach.answered, Mach.handle, if_neg hcause, hunit]

include hserved

theorem Mach.coreTransient_shows (once : d.cause ≠ 8) (stays : (m.selfTestOf (d.number % 32)).leaving = false)
    (hperm : m.isPermanent d = false) : m.loggedAs d (m.isPermanent d) (m.react d) 1 ∧ m.recoversFrom d (m.react d) false ∧
      (∀ q < 256, m.queueCore q = d.number % 32 → (m.react d).queueStopped q) ∧
      ∀ q, m.queueCore q ≠ d.number % 32 → (m.react d).cmdq q = m.cmdq q := by
  have heq : m.answered d = (m.record d).2.coreFault d m.nextEntry false := hperm ▸ Mach.answered_core hunit hcause
  have hr : m.firstReaction d (m.isPermanent d) = 1 := by
    simp only [Mach.firstReaction, if_neg hcause, hunit, hserved, hperm, Bool.not_true, Bool.false_eq_true, if_false]
  have hstays : ((m.record d).2.selfTestOf (d.number % 32)).leaving = false := by
    rw [Mach.selfTestOf, m.record_safety]
    exact stays
  obtain ⟨hlog, hrec, hstopped, hother⟩ := Mach.coreFault_transient (m.record_logged d) (m.record_time d)
    ((m.record_inService d _).trans hserved) once hstays
  rw [← heq, hr] at hlog
  rw [← heq] at hrec hstopped hother
  have hcq : ∀ q, (m.react d).cmdq q = (m.answered d).cmdq q := fun q => by
    rw [Mach.cmdq, (congrArg Mach.cq (m.react_rest d) :)]
    rfl
  refine ⟨hlog.upholds (m.react_upholds d), hrec.upholds (m.react_upholds d (l := [])), fun q hq h => ?_, fun q h => ?_⟩
  · rw [Mach.queueStopped, hcq]
    exact hstopped q hq ((m.record_queueCore d q hq).trans h)
  · rw [hcq, hother q fun hq => by rwa [m.record_queueCore d q hq], Mach.cmdq, m.record_cq]
    rfl

theorem Mach.coreLasting_shows (hperm : m.isPermanent d = true) :
    (m.react d).reg (classCount (m.isPermanent d)) = m.reg (classCount (m.isPermanent d)) + 1 ∧
      (m.react d).rbit Reg.FPL_CORES_OUT (d.number % 32) = true := by
  have heq : m.answered d = (m.record d).2.coreFault d m.nextEntry true := hperm ▸ Mach.answered_core hunit hcause
  obtain ⟨hcount, hout⟩ := Mach.coreFault_lasting (m.record_logged d) ((m.record_inService d _).trans hserved)
  rw [← heq] at hcount hout
  refine ⟨(classCount_upholds (m.react_upholds d) List.not_mem_nil).trans hcount, ?_⟩
  exact (m.react_upholds d (l := [])).bit _ _ ⟨Nat.mod_lt _ (by decide), .inr (.inr (.inl rfl))⟩ hout

end

end

end

end Sys2Proof.Machine
end

section
/-! Corrected errors, detections during a move-in, and the statement about detections (R351 to R358). -/

namespace Sys2Proof.Machine

section
variable (m : Mach)

/-! ## Corrected errors (R351) -/

theorem Mach.bump_counter (h : m.frozen = false) (i : Nat) : (m.bump i 1).counter i = m.counter i + 1 := by
  have heq : m.bump i 1 = m.setCounter i (m.counter i + BitVec.ofNat 64 1) := if_neg (by rw [h]; decide)
  rw [heq, Mach.counter, Mach.setCounter, Mach.onObs, sget_sput_same]
  rfl

/-- A count moves the live counters and nothing else. -/
theorem Mach.bump_live (i n : Nat) : ∃ l, m.bump i n = { m with obs := { m.obs with live := l } } := by
  unfold Mach.bump
  split
  · exact ⟨m.obs.live, rfl⟩
  · exact ⟨_, rfl⟩

/-- The counter of a corrected error. -/
def correctedCounter : EccStore → Nat
  | .sram => 416
  | .hbm => 418
  | .sequencer => 420
  | .registerFile => 422

/-- An HBM word corrected, as MEM shows it. -/
def Mach.corrShown (m : Mach) : Mach := (m.incReg Reg.MEM_CORR).raise Reg.MEM_EVENT 0x2

theorem Mach.corrShown_reg {a : Nat} (ha : a ∉ [Reg.MEM_CORR, Reg.MEM_EVENT]) : m.corrShown.reg a = m.reg a := by
  simp only [List.mem_cons, List.not_mem_nil, or_false, not_or] at ha
  rw [Mach.corrShown, Mach.raise_reg, if_neg ha.2, Mach.incReg_reg, if_neg ha.1]

theorem Mach.corrShown_count : m.corrShown.reg Reg.MEM_CORR = m.reg Reg.MEM_CORR + 1 := by
  rw [Mach.corrShown, Mach.raise_reg, if_neg (by decide), Mach.incReg_reg, if_pos rfl]
  rfl

theorem Mach.corrected_eq (store : EccStore) : m.corrected store =
    if store = .hbm then (m.bump (correctedCounter store) 1).corrShown else m.bump (correctedCounter store) 1 := by
  cases store <;> rfl

theorem Mach.corrected_counter (h : m.frozen = false) (store : EccStore) :
    (m.corrected store).counter (correctedCounter store) = m.counter (correctedCounter store) + 1 := by
  rw [Mach.corrected_eq]
  split
  · exact m.bump_counter h _
  · exact m.bump_counter h _

theorem Mach.corrected_rest (store : EccStore) : { m.corrected store with regs := m.regs, obs := m.obs } = m := by
  have hbump := congrArg (fun x : Mach => { x with regs := m.regs }) (m.bump_eq (correctedCounter store) 1).2
  rw [Mach.corrected_eq]
  split
  · exact hbump
  · exact hbump

theorem Mach.corrected_regs {store : EccStore} (h : store ≠ .hbm) : (m.corrected store).regs = m.regs := by
  rw [Mach.corrected_eq, if_neg h, Mach.bump_regs]

theorem Mach.corrected_hbm : (m.corrected .hbm).reg Reg.MEM_CORR = m.reg Reg.MEM_CORR + 1 ∧ (m.corrected .hbm).rbit Reg.MEM_EVENT 1 = true := by
  rw [Mach.corrected_eq, if_pos rfl]
  refine ⟨?_, Mach.raise_bit _ _ _ 1 (by decide) (by decide)⟩
  rw [Mach.corrShown_count, Mach.bump_reg]

theorem Mach.corrected_regsBut (store : EccStore) : m.regsBut (m.corrected store) [Reg.MEM_CORR, Reg.MEM_EVENT] := fun a ha => by
  rw [Mach.corrected_eq]
  split
  · rw [Mach.corrShown_reg _ ha, Mach.bump_reg]
  · exact m.bump_reg _ _ a

/-! ## A detection during a move-in (R26, R334) -/

variable (d : Detection)

/-- From m to t a detection waits, and the image's load has failed where the error was a word of it. -/
def Mach.waitsIn (m : Mach) (d : Detection) (t : Mach) : Prop := m.loggedAs d (m.isPermanent d) t (m.firstReaction d (m.isPermanent d)) ∧
  (m.imageError d = false → t.fpl = { m.fpl with deferred := m.fpl.deferred ++ [(d, m.nextEntry, m.isPermanent d)] }) ∧
  (m.imageError d = true → t.phase = 2 ∧ t.rbit Reg.FPL_EVENT 2 = true ∧
    t.fpl = { m.fpl with deferred := m.fpl.deferred ++ [(d, m.nextEntry, m.isPermanent d)], staged := some [] }) ∧
  t.safety = { m.safety with past := m.safety.past ++ [{ unit := d.unit, number := d.number, at_ := m.time.count }] } ∧
  { t with regs := m.regs, safety := m.safety, fpl := m.fpl, obs := m.obs, sec := m.sec } = m

theorem Mach.putOff_fpl : (m.putOff d).fpl = { m.fpl with deferred := m.fpl.deferred ++ [(d, m.nextEntry, m.isPermanent d)] } := by
  rw [Mach.putOff, Mach.onFpl, m.record_fpl d]

theorem Mach.onlyRecord.onFpl_rest {m t : Mach} (h : m.onlyRecord t) (f : Fpl → Fpl) :
    { t.onFpl f with regs := m.regs, safety := m.safety, fpl := m.fpl, obs := m.obs, sec := m.sec } = m :=
  (congrArg (fun x : Mach => { x with fpl := m.fpl, obs := m.obs }) h :)

theorem Mach.loggedAs.onFpl {m t : Mach} {d : Detection} {permanent : Bool} {r : Nat} (h : m.loggedAs d permanent t r) (f : Fpl → Fpl) :
    m.loggedAs d permanent (t.onFpl f) r := h

theorem Mach.putOff_logged : m.loggedAs d (m.isPermanent d) (m.putOff d) (m.firstReaction d (m.isPermanent d)) :=
  (m.record_logged d).onFpl _

theorem Mach.putOff_safety : (m.putOff d).safety =
    { m.safety with past := m.safety.past ++ [{ unit := d.unit, number := d.number, at_ := m.time.count }] } := by
  rw [Mach.putOff, Mach.onFpl_safety, m.record_safety d]

theorem Mach.putOff_rest :
    { m.putOff d with regs := m.regs, safety := m.safety, fpl := m.fpl, obs := m.obs, sec := m.sec } = m :=
  (m.record_onlyRecord d).onFpl_rest _

variable {m d}

/-- The load fails where the error was a word of the image. -/
theorem Mach.waitsIn.loadFailed {u : Mach} (h : m.loggedAs d (m.isPermanent d) u (m.firstReaction d (m.isPermanent d)))
    (hfpl : u.fpl = { m.fpl with deferred := m.fpl.deferred ++ [(d, m.nextEntry, m.isPermanent d)] })
    (hsafety : u.safety = { m.safety with past := m.safety.past ++ [{ unit := d.unit, number := d.number, at_ := m.time.count }] })
    (hrest : { u with regs := m.regs, safety := m.safety, fpl := m.fpl, obs := m.obs, sec := m.sec } = m)
    (herror : m.imageError d = true) : m.waitsIn d u.loadFailed := by
  obtain ⟨hphase, hevent, hstaged⟩ := u.loadFailed_spec
  refine ⟨h.upholds (Mach.Upholds.refl _).loadFailed, fun h => absurd (herror.symm.trans h) (by decide),
    fun _ => ⟨hphase, hevent, ?_⟩, hsafety, hrest⟩
  rw [hstaged, hfpl]

variable (m d)

theorem Mach.waits_shows : m.waitsIn d (if m.imageError d then (m.putOff d).loadFailed else m.putOff d) := by
  cases herror : m.imageError d
  case false =>
    rw [if_neg Bool.false_ne_true]
    exact ⟨m.putOff_logged d, fun _ => m.putOff_fpl d, fun h => absurd (herror.symm.trans h) (by decide), m.putOff_safety d, m.putOff_rest d⟩
  case true =>
    rw [if_pos rfl]
    exact .loadFailed (m.putOff_logged d) (m.putOff_fpl d) (m.putOff_safety d) (m.putOff_rest d) herror

end

end Sys2Proof.Machine
end

section
/-! The statement about detections. -/

namespace Sys2Proof.Machine

section
variable {s : State} (live : s.m.live = true) {d : Detection}
include live

theorem exec_corrected {store : EccStore} (h : d.corrected = some store) :
    exec (.faultDetected d) s = .next { s with m := s.m.corrected store } := by
  have hdetect : s.m.detect d = s.m.corrected store := by rw [Mach.detect, h]
  exact (act_live live (·.detect d)).trans (by rw [hdetect])

theorem exec_fault (h : d.corrected = none) : exec (.faultDetected d) s = .next { s with m := s.m.fault d } := by
  have hdetect : s.m.detect d = s.m.fault d := by rw [Mach.detect, h]
  exact (act_live live (·.detect d)).trans (by rw [hdetect])

end

/-- Nothing that waits comes into being with the answer to a detection. -/
theorem Mach.react_deferred (m : Mach) (d : Detection) : (m.react d).fpl.deferred = m.fpl.deferred := by
  have hhandle : Mach.Upholds [Reg.SAFE_LOG1 m.nextEntry] (m.record d).2 (m.answered d) :=
    (m.record d).2.handle_upholds d m.nextEntry (m.isPermanent d)
  exact (m.react_upholds d (l := [])).deferred.trans (hhandle.deferred.trans (congrArg Fpl.deferred (m.record_fpl d)))

/-- Settles O39: a detection is recorded in one clock with its unit's reaction, and no reaction takes back what the record shows. -/
theorem faultsDetected : Obligations.FaultsDetected := by
  unfold Obligations.FaultsDetected
  intro s d live h0 h1 m perm i count does doesLate seen logged fatal recovers own waiting
  obtain ⟨l, hbump⟩ := s.m.bump_live 424 1
  have late : d.corrected = none → m.phase = 0 ∨ own → ∀ p : Mach → Prop,
      p (Mach.react { s.m with obs := { s.m.obs with live := l } } d) → doesLate p := fun hnone hnow p hp => by
    have hexec : exec (.faultDetected d) s = .next { s with m := ((s.m.bump 424 1).react d).handleLate } :=
      (exec_fault live hnone).trans (by rw [s.m.fault_met d h0 h1 hnow])
    have hnothing : s.m.fpl.deferred = [] → ((s.m.bump 424 1).react d).handleLate = (s.m.bump 424 1).react d := fun hempty =>
      Mach.handleLate_none _ ((Mach.react_deferred _ d).trans (by rw [hbump]; exact hempty))
    rw [hbump] at hexec hnothing
    exact ⟨_, hexec, hnothing, hp⟩
  refine ⟨fun store hstore => ⟨_, exec_corrected live hstore, s.m.corrected_regsBut store, fun h => ?_, fun h => s.m.corrected_regs h,
      fun h => ⟨correctedCounter store, by cases store <;> decide, s.m.corrected_counter h store⟩, s.m.corrected_rest store⟩,
    fun hnone hphase hown => ⟨_, (exec_fault live hnone).trans (by rw [s.m.fault_waits d h0 h1 hphase hown, hbump]), ?_⟩,
    fun hnone hnow => ⟨fun hcause => late hnone hnow _ (Mach.supplyEvent_shows hcause), fun hcause => ⟨fun hunit => late hnone hnow _ ?_,
      fun hunit => late hnone hnow _ ?_, fun hunit => late hnone hnow _ ?_, fun hunit => late hnone hnow _ ?_,
      fun hunit => late hnone hnow _ ?_, fun hunit => late hnone hnow _ ?_, fun hunit => late hnone hnow _ ?_,
      fun hunit hserved => late hnone hnow _ ?_, fun hunit hserved once hstays => ⟨fun hperm => late hnone hnow _ ?_,
        fun hperm => late hnone hnow _ ?_⟩⟩⟩,
    fun r hunit hfails hi => s.m.recoverEnd_fatal hunit hfails hi⟩
  · subst h
    exact s.m.corrected_hbm
  · obtain ⟨hlog, hput, hfailed, hsafety, hrest⟩ := Mach.waits_shows { s.m with obs := { s.m.obs with live := l } } d
    exact ⟨hlog, hput, hfailed, hsafety, congrArg (fun x : Mach => { x with obs := s.m.obs }) hrest⟩
  · exact Mach.timebase_shows hcause hunit
  · exact Mach.management_shows hcause hunit
  · exact Mach.port_shows hcause hunit
  · exact Mach.pointUnit_shows hcause hunit
  · exact Mach.cluster_shows hcause hunit
  · exact Mach.dieUnit_shows hcause hunit
  · exact Mach.config_shows hcause hunit
  · exact Mach.coreUnserved_shows hcause hunit hserved
  · exact Mach.coreTransient_shows hcause hunit hserved once hstays hperm
  · exact Mach.coreLasting_shows hcause hunit hserved hperm

end Sys2Proof.Machine
end

section
/-! The time line's own changes (R45 to R62): what a change that stays on the time line leaves, the bits of TIME_STATUS, the holds that
follow the time line, and a write of TIME_CTRL. -/

namespace Sys2Proof.Machine

/-! ## Changes of the time line -/

/-- From m to t nothing but registers of l and the time line has changed. -/
structure Mach.TimeOnly (l : List Nat) (m t : Mach) : Prop where
  reg : m.regsBut t l
  rest : { t with regs := m.regs, time := m.time } = m

theorem Mach.TimeOnly.refl (l : List Nat) (m : Mach) : Mach.TimeOnly l m m := ⟨fun _ _ => rfl, rfl⟩

theorem Mach.regsBut.setReg {l : List Nat} {m t : Mach} (h : m.regsBut t l) {a : Nat} (ha : a ∈ l) (v : Word) :
    m.regsBut (t.setReg a v) l := fun r hr => (t.reg_setReg_ne (by rintro rfl; exact hr ha) v).trans (h r hr)

/-- Changes of registers alone, one after the other. -/
theorem Mach.regs_rest_trans {m t u : Mach} (h : { t with regs := m.regs } = m) (k : { u with regs := t.regs } = t) :
    { u with regs := m.regs } = m := (congrArg (fun x : Mach => { x with regs := m.regs }) k).trans h

theorem Mach.regs_rest_setReg {m t : Mach} (h : { t with regs := m.regs } = m) (a : Nat) (v : Word) :
    { t.setReg a v with regs := m.regs } = m := h

/-- The end of a hold whose length is not measured. -/
theorem Mach.endHold_eq (m : Mach) {n : Nat} (hn : n ≠ 0) :
    m.endHold n = if m.hold n then (m.setRBit Reg.SAFE_HOLD n false).raise Reg.SAFE_EVENT 0x1 else m := by
  unfold Mach.endHold
  dsimp only
  rw [if_neg hn]

section
variable {l : List Nat} {m t : Mach} (h : Mach.TimeOnly l m t)
include h

theorem Mach.TimeOnly.setReg {a : Nat} (ha : a ∈ l) (v : Word) : Mach.TimeOnly l m (t.setReg a v) := ⟨h.reg.setReg ha v, h.rest⟩

theorem Mach.TimeOnly.onTime (f : TimeLine → TimeLine) : Mach.TimeOnly l m (t.onTime f) := ⟨h.reg, h.rest⟩

theorem Mach.TimeOnly.servoCheck (ha : Reg.TIME_STATUS ∈ l) : Mach.TimeOnly l m t.servoCheck := (h.setReg ha _).setReg ha _

theorem Mach.TimeOnly.endHold {n : Nat} (hn : n ≠ 0) (hhold : Reg.SAFE_HOLD ∈ l) (hevent : Reg.SAFE_EVENT ∈ l) :
    Mach.TimeOnly l m (t.endHold n) := by
  rw [t.endHold_eq hn]
  split
  · exact (h.setReg hhold _).setReg hevent _
  · exact h

end

section
variable (m : Mach)

/-! ## Bits and fields of a register -/

theorem Word.field_setBit (w : Word) {n lo k : Nat} (h : lo + k ≤ n ∨ n + 1 ≤ lo) (on : Bool) :
    (w.setBit n on).field lo k = w.field lo k := Word.field_setField_apart _ _ h

theorem Mach.rbit_setRBit_same {n : Nat} (hn : n < 32) (a : Nat) (on : Bool) : (m.setRBit a n on).rbit a n = on := by
  rw [Mach.rbit, Mach.setRBit_reg, if_pos rfl, Word.bit_setBit_same _ hn]

theorem Mach.rbit_setRBit_ne {n k : Nat} (h : k ≠ n) (a : Nat) (on : Bool) : (m.setRBit a n on).rbit a k = m.rbit a k := by
  rw [Mach.rbit, Mach.setRBit_reg, if_pos rfl, Word.bit_setBit_ne _ h]
  rfl

/-! ## The servo's status (R58, R61) -/

theorem Mach.servoCheck_status : ∃ locked, m.servoCheck.reg Reg.TIME_STATUS =
    ((m.reg Reg.TIME_STATUS).setBit 2 (m.mgmtRuns && m.servoRef)).setBit 1 locked :=
  ⟨_, by rw [Mach.servoCheck, Mach.setRBit_reg, if_pos rfl, Mach.setRBit_reg, if_pos rfl]⟩

theorem Mach.servoCheck_running : m.servoCheck.rbit Reg.TIME_STATUS 2 = (m.mgmtRuns && m.servoRef) := by
  obtain ⟨locked, hreg⟩ := m.servoCheck_status
  rw [Mach.rbit, hreg, Word.bit_setBit_ne _ (by decide), Word.bit_setBit_same _ (by decide)]

/-- The servo's status is bits 1 and 2 of TIME_STATUS. -/
theorem Mach.servoCheck_rbit {n : Nat} (h : n ≠ 1 ∧ n ≠ 2) : m.servoCheck.rbit Reg.TIME_STATUS n = m.rbit Reg.TIME_STATUS n := by
  obtain ⟨locked, hreg⟩ := m.servoCheck_status
  rw [Mach.rbit, hreg, Word.bit_setBit_ne _ h.1, Word.bit_setBit_ne _ h.2]
  rfl

theorem Mach.servoCheck_epoch : m.servoCheck.fld Reg.TIME_STATUS 16 16 = m.fld Reg.TIME_STATUS 16 16 := by
  obtain ⟨locked, hreg⟩ := m.servoCheck_status
  rw [Mach.fld, hreg, Word.field_setBit _ (by decide), Word.field_setBit _ (by decide)]
  rfl

theorem Mach.servoCheck_reg {a : Nat} (h : a ≠ Reg.TIME_STATUS) : m.servoCheck.reg a = m.reg a :=
  m.servoCheck_frame.2 a fun hin => h (List.mem_singleton.mp hin)

/-! ## Holds that follow the time line (Table 14-1) -/

theorem Mach.endHold_frame {n : Nat} (hn : n ≠ 0) (hlt : n < 32) :
    (m.endHold n).hold n = false ∧ (∀ k, k ≠ n → (m.endHold n).hold k = m.hold k) ∧
      m.regsBut (m.endHold n) [Reg.SAFE_HOLD, Reg.SAFE_EVENT] ∧ { m.endHold n with regs := m.regs } = m := by
  have hkept : ((m.setRBit Reg.SAFE_HOLD n false).raise Reg.SAFE_EVENT 0x1).reg Reg.SAFE_HOLD =
      (m.setRBit Reg.SAFE_HOLD n false).reg Reg.SAFE_HOLD := (Mach.raise_reg _ _ _ _).trans (if_neg (by decide))
  have hreg := ((Mach.TimeOnly.refl [Reg.SAFE_HOLD, Reg.SAFE_EVENT] m).endHold hn (by decide) (by decide)).reg
  rw [m.endHold_eq hn] at hreg ⊢
  split
  · next hon =>
    rw [if_pos hon] at hreg
    exact ⟨(Mach.rbit_congr hkept n).trans (m.rbit_setRBit_same hlt _ _),
      fun k hk => (Mach.rbit_congr hkept k).trans (m.rbit_setRBit_ne hk _ _), hreg, rfl⟩
  · next hoff => exact ⟨Bool.eq_false_iff.mpr hoff, fun _ _ => rfl, fun _ _ => rfl, rfl⟩

/-- Hold 4 follows the anchor: no other hold changes, OUT_VALID does not rise, and nothing but the supervisor does. -/
theorem Mach.anchorHold_frame :
    (∀ k, k ≠ 4 → m.anchorHold.hold k = m.hold k) ∧ (m.safety.outValid = false → m.anchorHold.safety.outValid = false) ∧
      (∀ a, a ∉ holdRegs → m.anchorHold.reg a = m.reg a) ∧ m.safeOnly m.anchorHold := by
  unfold Mach.anchorHold
  split
  · obtain ⟨-, hlow, hholds, hregs, hrest⟩ := m.beginHold_frame 4 (by decide)
    exact ⟨hholds, fun _ => hlow, hregs, hrest⟩
  · obtain ⟨-, hholds, hregs, hrest⟩ := m.endHold_frame (n := 4) (by decide) (by decide)
    have hsafety : (m.endHold 4).safety = m.safety := (congrArg Mach.safety hrest :)
    refine ⟨hholds, fun hlow => by rw [hsafety, hlow], fun a ha => hregs a fun hin => ha ?_, ?_⟩
    · exact (by decide : [Reg.SAFE_HOLD, Reg.SAFE_EVENT] ⊆ holdRegs) hin
    · exact congrArg (fun x : Mach => { x with safety := m.safety, obs := m.obs }) hrest

theorem Mach.anchorHold_anchored (h : m.rbit Reg.TIME_STATUS 0 = true) : m.anchorHold = m.endHold 4 := by
  rw [Mach.anchorHold, h, Bool.not_true, Bool.and_false, if_neg Bool.false_ne_true]

/-! ## Writes that the TIME block lets in -/

theorem Mach.timeArrive_taken {a : Nat} {v : Word} (h : m.writeCause a v = none) :
    m.timeArrive a v = if (m.timeWrite a v).1 then m.refuse a else (m.timeWrite a v).2 := by
  rw [Mach.timeArrive, Mach.arriveWith_eq, h]

theorem Mach.timeWrite_ctrl (v : Word) : m.timeWrite Reg.TIME_CTRL v = m.timeCtrl v := by
  have hctrl : Reg.TIME_CTRL - 0x20000 = 0 := by decide
  rw [Mach.timeWrite]
  dsimp only
  rw [if_pos hctrl]

theorem Mach.writeCause_timeCtrl (hfree : m.blockPosted Reg.TIME_CTRL = false) {v : Word}
    (hlock : (m.reg Reg.TIME_CTRL ^^^ v) &&& 0x300#32 = 0#32) (hsrc : Word.field (v &&& 0x307#32) 8 2 ≠ 3) :
    m.writeCause Reg.TIME_CTRL v = none := by
  have hrow : rowAt Reg.TIME_CTRL =
      some ({ off := 0x0, acc := .rw, mask := 0x307, lmask := 0x300, bad := fun w => w.field 8 2 == 3 }, 0) := rfl
  simp [Mach.writeCause, hrow, hfree, hlock, hsrc]

/-- TIME_CTRL's word without its write-1 bits, and with one of them. -/
theorem ctrlWord_bits : ∀ src < 3, ∀ b < 3,
    let w : Word := BitVec.ofNat 32 (src * 256)
    let v : Word := Word.setBit w b true
    Word.field v 8 2 = src ∧ Word.field (v &&& 0x307#32) 8 2 ≠ 3 ∧ (w ^^^ v) &&& 0x300#32 = 0#32 ∧
      Word.bit v 0 = (b == 0) ∧ Word.bit v 1 = (b == 1) ∧ Word.bit v 2 = (b == 2) := by decide

/-- TIME_CTRL holds a source, and the servo's status follows it. -/
def Mach.sourceSet (m : Mach) (src : Nat) : Mach := (m.setReg Reg.TIME_CTRL (BitVec.ofNat 32 (src * 256))).servoCheck

theorem Mach.TimeOnly.sourceSet {l : List Nat} {m t : Mach} (h : Mach.TimeOnly l m t) (hctrl : Reg.TIME_CTRL ∈ l)
    (hstatus : Reg.TIME_STATUS ∈ l) (src : Nat) : Mach.TimeOnly l m (t.sourceSet src) := (h.setReg hctrl _).servoCheck hstatus

theorem Mach.sourceSet_frame (src : Nat) : { m.sourceSet src with regs := m.regs } = m ∧
    m.regsBut (m.sourceSet src) [Reg.TIME_CTRL, Reg.TIME_STATUS] :=
  ⟨rfl, ((Mach.TimeOnly.refl _ m).sourceSet (by decide) (by decide) src).reg⟩

theorem Mach.sourceSet_rbit (src : Nat) {n : Nat} (h : n ≠ 1 ∧ n ≠ 2) :
    (m.sourceSet src).rbit Reg.TIME_STATUS n = m.rbit Reg.TIME_STATUS n :=
  (Mach.servoCheck_rbit _ h).trans (Mach.rbit_congr (m.reg_setReg_ne (by decide) _) n)

theorem Mach.sourceSet_epoch (src : Nat) : (m.sourceSet src).fld Reg.TIME_STATUS 16 16 = m.fld Reg.TIME_STATUS 16 16 := by
  rw [Mach.sourceSet, Mach.servoCheck_epoch, Mach.fld, Mach.reg_setReg_ne _ (by decide)]
  rfl

theorem Mach.timeSource_lt (h : m.timeSource ≠ 3) : m.timeSource < 3 := by
  have hlt : m.timeSource < 4 := Nat.mod_lt _ (by decide)
  omega

section
variable {m}
variable (hfree : m.blockPosted Reg.TIME_CTRL = false) (hreg : m.reg Reg.TIME_CTRL = BitVec.ofNat 32 (m.timeSource * 256))
  (hsrc : m.timeSource ≠ 3)

include hreg in
/-- The source set once more changes the servo's status alone. -/
theorem Mach.sourceSet_same : m.regsBut (m.sourceSet m.timeSource) [Reg.TIME_STATUS] := fun r hr => by
  rw [Mach.sourceSet, Mach.servoCheck_reg _ fun e => hr (List.mem_singleton.mpr e), Mach.reg_setReg]
  split
  · subst_vars
    exact hreg.symm
  · rfl

include hfree hreg hsrc

theorem Mach.timeArrive_ctrl {b : Nat} (hb : b < 3) : m.timeArrive Reg.TIME_CTRL ((m.reg Reg.TIME_CTRL).setBit b true) =
    if (m.timeCtrl ((m.reg Reg.TIME_CTRL).setBit b true)).1 then m.refuse Reg.TIME_CTRL
    else (m.timeCtrl ((m.reg Reg.TIME_CTRL).setBit b true)).2 := by
  obtain ⟨-, hbad, hlock, -⟩ := ctrlWord_bits m.timeSource (m.timeSource_lt hsrc) b hb
  rw [← hreg] at hbad hlock
  rw [m.timeArrive_taken (m.writeCause_timeCtrl hfree hlock hbad), Mach.timeWrite_ctrl]

/-- TIME_CTRL.capture. -/
theorem Mach.timeArrive_capture :
    m.timeArrive Reg.TIME_CTRL ((m.reg Reg.TIME_CTRL).setBit 0 true) = (m.sourceSet m.timeSource).timeCapture := by
  obtain ⟨hfield, -, -, h0, h1, h2⟩ := ctrlWord_bits m.timeSource (m.timeSource_lt hsrc) 0 (by decide)
  rw [← hreg] at hfield h0 h1 h2
  rw [Mach.timeArrive_ctrl hfree hreg hsrc (by decide)]
  simp [Mach.timeCtrl, hfield, h0, h1, h2, Mach.sourceSet]

/-- TIME_CTRL.step_arm (R53). -/
theorem Mach.timeArrive_arm : m.timeArrive Reg.TIME_CTRL ((m.reg Reg.TIME_CTRL).setBit 1 true) =
    if m.rbit Reg.TIME_STATUS 0 || m.rbit Reg.TIME_STATUS 4 || m.timeSource == 1 || !m.stepAhead then m.refuse Reg.TIME_CTRL
    else (m.sourceSet m.timeSource).arm := by
  obtain ⟨hfield, -, -, h0, h1, h2⟩ := ctrlWord_bits m.timeSource (m.timeSource_lt hsrc) 1 (by decide)
  rw [← hreg] at hfield h0 h1 h2
  rw [Mach.timeArrive_ctrl hfree hreg hsrc (by decide)]
  have hctrl : m.timeCtrl ((m.reg Reg.TIME_CTRL).setBit 1 true) =
      if m.rbit Reg.TIME_STATUS 0 || m.rbit Reg.TIME_STATUS 4 || m.timeSource == 1 || !m.stepAhead then m.bad
      else (false, (m.sourceSet m.timeSource).arm) := by
    simp [Mach.timeCtrl, hfield, h0, h1, h2, Mach.sourceSet]
  rw [hctrl]
  split <;> rfl

/-- TIME_CTRL.epoch_reset (R57). -/
theorem Mach.timeArrive_epochReset :
    m.timeArrive Reg.TIME_CTRL ((m.reg Reg.TIME_CTRL).setBit 2 true) = (m.sourceSet m.timeSource).epochReset := by
  obtain ⟨hfield, -, -, h0, h1, h2⟩ := ctrlWord_bits m.timeSource (m.timeSource_lt hsrc) 2 (by decide)
  rw [← hreg] at hfield h0 h1 h2
  rw [Mach.timeArrive_ctrl hfree hreg hsrc (by decide)]
  simp [Mach.timeCtrl, hfield, h0, h1, h2, Mach.sourceSet]

end

end

end Sys2Proof.Machine
end

section
/-! The count (R45): one nanosecond and the rate correction at each tick, and the capture of one nanosecond (R51). -/

namespace Sys2Proof.Machine

/-! ## One tick of the count (R45, R55) -/

/-- A correction of k ppm is a whole number of steps of the fraction. -/
theorem rateStep_ppm (k : Int) : rateStep (1000000000 * k) = k * 2 ^ 32 := by
  have hstep : 1000000000 * k * 2 ^ 32 = k * 2 ^ 32 * 1000000000 := by ring
  unfold rateStep
  dsimp only
  rw [hstep, if_pos (Int.mul_emod_left _ _), Int.mul_ediv_cancel _ (by decide)]

section
variable {x : TimeLine} (hok : x.refOk = true)
include hok

/-- Count and fraction together advance by one nanosecond and the correction. -/
theorem TimeLine.tick_total {k : Int} (hrate : x.rate = 1000000000 * k) (hlow : -65 ≤ k) (hhigh : k ≤ 65) :
    (x.tick.count.toNat * 2 ^ 48 + x.tick.frac.toNat : Int) % 2 ^ 112 =
      (x.count.toNat * 2 ^ 48 + x.frac.toNat + 2 ^ 48 + k * 2 ^ 32) % 2 ^ 112 := by
  have hpos : 0 ≤ (2 : Int) ^ 48 + k * 2 ^ 32 := by omega
  obtain ⟨d, hd⟩ := Int.eq_ofNat_of_zero_le hpos
  have htick : x.tick = { x with
      count := x.count + BitVec.ofNat 64 ((x.frac.toNat + d) / 2 ^ 48), frac := BitVec.ofNat 48 (x.frac.toNat + d) } := by
    rw [TimeLine.tick, hrate, rateStep_ppm, if_pos hok, Int.add_zero, hd]
    rfl
  rw [htick]
  simp only [BitVec.toNat_add, BitVec.toNat_ofNat]
  omega

theorem TimeLine.tick_even (hrate : x.rate = 0) : x.tick.count = x.count + 1 ∧ x.tick.frac = x.frac := by
  have hzero : rateStep 0 = 0 := rateStep_ppm 0
  have hone : (x.frac.toNat + 2 ^ 48) / 2 ^ 48 = 1 := by
    have := x.frac.isLt
    omega
  have htick : x.tick = { x with
      count := x.count + BitVec.ofNat 64 ((x.frac.toNat + 2 ^ 48) / 2 ^ 48), frac := BitVec.ofNat 48 (x.frac.toNat + 2 ^ 48) } := by
    rw [TimeLine.tick, hrate, hzero, if_pos hok]
    rfl
  rw [htick, hone]
  refine ⟨rfl, BitVec.eq_of_toNat_eq ?_⟩
  rw [BitVec.toNat_ofNat, Nat.add_mod_right, Nat.mod_eq_of_lt x.frac.isLt]

end

section
variable (m : Mach)

/-! ## A tick with nothing due (R45, R348) -/

/-- Where nothing is due, nothing happens by itself. -/
theorem Mach.due_none (hposted : m.port.posted = []) (hrecoveries : m.safety.recoveries = []) (hstill : m.obs.stillPending = none)
    (hwanted : m.pins.wanted = none) (htrace : m.traceOn = false) : m.recoverDue.landPosted.stillDue.wantedDue.syncDue = m := by
  have hrecover : m.recoverDue = m := by
    rw [Mach.recoverDue, hrecoveries]
    exact ite_self _
  have hland : m.landPosted = m := by
    rw [Mach.landPosted, hposted, List.foldl_nil, ← hposted]
    rfl
  have hdue : m.stillDue = m := by rw [Mach.stillDue, hstill]
  have hstate : m.wantedDue = m := by rw [Mach.wantedDue, hwanted]
  rw [hrecover, hland, hdue, hstate, Mach.syncDue, htrace, Bool.false_and, Bool.false_and, if_neg Bool.false_ne_true]

/-- A tick before what is due happens. -/
def Mach.ticked (m : Mach) : Mach :=
  if m.safety.outValid then (m.onTime TimeLine.tick).countClocks else (m.onTime TimeLine.tick).countClocks.bump 428 1

theorem Mach.countClocks_eq : ∃ a b, m.countClocks = { m with obs := { m.obs with clocked := a, clockedAll := b } } := by
  unfold Mach.countClocks
  split
  · exact ⟨_, _, rfl⟩
  · exact ⟨_, _, rfl⟩

theorem Mach.ticked_eq : ∃ a b l, m.ticked =
    { m with time := m.time.tick, obs := { m.obs with clocked := a, clockedAll := b, live := l } } := by
  obtain ⟨a, b, hclocks⟩ := (m.onTime TimeLine.tick).countClocks_eq
  rw [Mach.ticked, hclocks]
  split
  · exact ⟨a, b, _, rfl⟩
  · obtain ⟨l, hbump⟩ := Mach.bump_live
      { m.onTime TimeLine.tick with obs := { m.obs with clocked := a, clockedAll := b } } 428 1
    exact ⟨a, b, l, hbump⟩

theorem Mach.tick_quiet (hposted : m.port.posted = []) (hrecoveries : m.safety.recoveries = []) (hstill : m.obs.stillPending = none)
    (hwanted : m.pins.wanted = none) (htrace : m.traceOn = false) : m.tick = m.ticked := by
  obtain ⟨a, b, hclocks⟩ := (m.onTime TimeLine.tick).countClocks_eq
  have htick : m.tick = m.ticked.recoverDue.landPosted.stillDue.wantedDue.syncDue := by
    unfold Mach.tick Mach.ticked
    rw [hclocks]
    rfl
  obtain ⟨a, b, l, hticked⟩ := m.ticked_eq
  rw [htick, hticked]
  exact Mach.due_none _ hposted hrecoveries hstill hwanted htrace

/-- A nanosecond without OUT_VALID is counted. -/
theorem Mach.ticked_counter (h : m.frozen = false) :
    m.ticked.counter 428 = if m.safety.outValid then m.counter 428 else m.counter 428 + 1 := by
  obtain ⟨a, b, hclocks⟩ := (m.onTime TimeLine.tick).countClocks_eq
  rw [Mach.ticked, hclocks]
  split
  · rfl
  · refine Mach.bump_counter _ ?_ 428
    exact h

/-! ## Capture (R51) -/

/-- The five registers of a capture. -/
def captureRegs : List Nat := [Reg.TIME_CAP_COUNT_LO, Reg.TIME_CAP_COUNT_HI, Reg.TIME_CAP_WSEC_LO, Reg.TIME_CAP_WSEC_HI, Reg.TIME_CAP_WNS]

theorem Mach.timeCapture_regs :
    m.timeCapture.reg Reg.TIME_CAP_COUNT_LO = m.time.count.setWidth 32 ∧
      m.timeCapture.reg Reg.TIME_CAP_COUNT_HI = BitVec.ofNat 32 (m.time.count.toNat / 2 ^ 32) ∧
      m.timeCapture.reg Reg.TIME_CAP_WSEC_LO = BitVec.ofNat 32 m.wide.sec ∧
      m.timeCapture.reg Reg.TIME_CAP_WSEC_HI = BitVec.ofNat 32 (m.wide.sec / 2 ^ 32) ∧
      m.timeCapture.reg Reg.TIME_CAP_WNS = BitVec.ofNat 32 m.wide.ns := by
  simp [Mach.timeCapture, Mach.reg_setReg]

theorem Mach.timeCapture_frame : m.regsBut m.timeCapture captureRegs ∧ { m.timeCapture with regs := m.regs } = m := by
  unfold Mach.timeCapture
  constructor
  · exact (((((Mach.TimeOnly.refl captureRegs m).setReg (by decide) _).setReg (by decide) _).setReg (by decide) _).setReg
      (by decide) _ |>.setReg (by decide) _).reg
  · iterate 5 refine Mach.regs_rest_setReg ?_ _ _
    rfl

end

section
variable {s : State} (live : s.m.live = true)
include live

theorem exec_nsCountTick : exec .nsCountTick s = .next { s with m := s.m.tick } := act_live live Mach.tick

theorem exec_timeCapture (hfree : s.m.blockPosted Reg.TIME_CTRL = false)
    (hreg : s.m.reg Reg.TIME_CTRL = BitVec.ofNat 32 (s.m.timeSource * 256)) (hsrc : s.m.timeSource ≠ 3) :
    exec .timeCapture s = .next { s with m := (s.m.sourceSet s.m.timeSource).timeCapture } := by
  rw [← Mach.timeArrive_capture hfree hreg hsrc]
  exact act_live live fun m => m.timeArrive Reg.TIME_CTRL ((m.reg Reg.TIME_CTRL).setBit 0 true)

end

/-- Settles O10: a tick with nothing due is the count's alone, and a capture latches the count and the wide time it stands at. -/
theorem countAndCapture : Obligations.CountAndCapture := by
  refine ⟨fun s live hposted hrecoveries hstill hwanted htrace => ⟨s.m.ticked, ?_, ?_⟩, fun s live hfree hreg hsrc =>
    ⟨_, exec_timeCapture live hfree hreg hsrc, ?_⟩⟩
  · rw [exec_nsCountTick live, s.m.tick_quiet hposted hrecoveries hstill hwanted htrace]
  · obtain ⟨a, b, l, hticked⟩ := s.m.ticked_eq
    have htime : s.m.ticked.time = s.m.time.tick := by rw [hticked]
    refine ⟨by rw [hticked], by rw [htime]; rfl, ?_, ?_, s.m.ticked_counter⟩
    · rw [htime]
      exact TimeLine.tick_even
    · rw [htime]
      exact fun hok k hrate => TimeLine.tick_total hok hrate
  · obtain ⟨hlo, hhi, hslo, hshi, hns⟩ := (s.m.sourceSet s.m.timeSource).timeCapture_regs
    obtain ⟨hregs, hrest⟩ := (s.m.sourceSet s.m.timeSource).timeCapture_frame
    have hwide : (s.m.sourceSet s.m.timeSource).wide = s.m.wide := rfl
    have hrule : s.m.wide = s.m.time.anchorWide.plus (s.m.time.count - s.m.time.anchorCount).toNat := by rw [Mach.wide, Mach.wideAt]
    rw [hwide] at hslo hshi hns
    refine ⟨Mach.regs_rest_trans (s.m.sourceSet_frame _).1 hrest, hlo, hhi, hslo, hshi, hns, hrule, fun r hr => ?_⟩
    obtain ⟨hstatus, hcap⟩ := not_or.mp fun hin => hr (List.mem_cons.mpr hin)
    exact (hregs r hcap).trans (Mach.sourceSet_same hreg r fun hin => hstatus (List.mem_singleton.mp hin))

end Sys2Proof.Machine
end

section
/-! Steps of an epoch (R53, R54): arming one, and the step as it applies. -/

namespace Sys2Proof.Machine

section
variable (m : Mach)

/-! ## Arming (R53) -/

theorem Mach.stepAhead_iff : m.stepAhead = true ↔ 1000000 ≤ (m.reg Reg.TIME_STEP_AT - m.time.count.setWidth 32).toInt ∧
    (m.reg Reg.TIME_STEP_AT - m.time.count.setWidth 32).toInt ≤ 2000000000 := by
  rw [Mach.stepAhead, Bool.and_eq_true, decide_eq_true_iff, decide_eq_true_iff]
  rfl

/-- A step may be armed: unanchored, none pending, a source other than PTP, and 1 ms to 2 s ahead. -/
def Mach.mayArm (m : Mach) : Prop :=
  m.rbit Reg.TIME_STATUS 0 = false ∧ m.rbit Reg.TIME_STATUS 4 = false ∧ m.timeSource ≠ 1 ∧
    1000000 ≤ (m.reg Reg.TIME_STEP_AT - m.time.count.setWidth 32).toInt ∧
    (m.reg Reg.TIME_STEP_AT - m.time.count.setWidth 32).toInt ≤ 2000000000

theorem Mach.mayArm_iff : m.mayArm ↔
    ¬ (m.rbit Reg.TIME_STATUS 0 || m.rbit Reg.TIME_STATUS 4 || m.timeSource == 1 || !m.stepAhead) = true := by
  simp only [Mach.mayArm, Bool.not_eq_true, Bool.or_eq_false_iff, Bool.not_eq_false', beq_eq_false_iff_ne, Mach.stepAhead_iff, and_assoc]

/-- The step armed after the source has been set once more. -/
theorem Mach.arm_sourceSet (src : Nat) : ((m.sourceSet src).arm).time =
      { m.time with step := some (m.stepTarget, m.reg Reg.TIME_STEP_AT) } ∧
    ((m.sourceSet src).arm).rbit Reg.TIME_STATUS 4 = true := by
  have hreg : ∀ a, a ∉ [Reg.TIME_CTRL, Reg.TIME_STATUS] → (m.sourceSet src).reg a = m.reg a := (m.sourceSet_frame src).2
  have htarget : (m.sourceSet src).stepTarget = m.stepTarget := by
    rw [Mach.stepTarget, Mach.stepTarget, Mach.fld, Mach.fld, hreg _ (by decide), hreg _ (by decide), hreg _ (by decide)]
  refine ⟨?_, Mach.rbit_setRBit_same _ (by decide) _ _⟩
  rw [Mach.arm, htarget, hreg Reg.TIME_STEP_AT (by decide)]
  rfl

theorem Mach.TimeOnly.arm {l : List Nat} {m t : Mach} (h : Mach.TimeOnly l m t) (hstatus : Reg.TIME_STATUS ∈ l) :
    Mach.TimeOnly l m t.arm := (h.onTime _).setReg hstatus _

/-! ## The step as it applies (R53, R54, R56, R57) -/

/-- The time line anchored at count c with wide time w. -/
def Mach.stepAnchored (m : Mach) (c : BitVec 64) (w : Wide) : Mach := m.onTime fun x => { x with
  anchorCount := c, anchorWide := w, step := none, ppsAfter := some c, stepAt := if m.hold 3 then some c else x.stepAt }

/-- TIME_STATUS after a step: anchored, no longer resetting, no step pending, and time_far clear where the epoch was unanchored. -/
def Mach.stepMarked (m : Mach) : Mach :=
  if m.rbit Reg.TIME_STATUS 0 then (m.setRBit Reg.TIME_STATUS 0 true).setFld Reg.TIME_STATUS 3 2 0
  else ((m.setRBit Reg.TIME_STATUS 0 true).setFld Reg.TIME_STATUS 3 2 0).setRBit Reg.TIME_STATUS 5 false

theorem Mach.stepMarked_status : m.stepMarked.reg Reg.TIME_STATUS =
    if m.rbit Reg.TIME_STATUS 0 then ((m.reg Reg.TIME_STATUS).setBit 0 true).setField 3 2 0
    else (((m.reg Reg.TIME_STATUS).setBit 0 true).setField 3 2 0).setBit 5 false := by
  unfold Mach.stepMarked
  split <;> simp only [Mach.setRBit_reg, Mach.setFld_reg, if_true]

theorem Mach.stepMarked_bits :
    m.stepMarked.rbit Reg.TIME_STATUS 0 = true ∧ m.stepMarked.rbit Reg.TIME_STATUS 3 = false ∧
      m.stepMarked.rbit Reg.TIME_STATUS 4 = false ∧
      (m.rbit Reg.TIME_STATUS 0 = false → m.stepMarked.rbit Reg.TIME_STATUS 5 = false) := by
  have hbit : ∀ n, n ≠ 5 →
      m.stepMarked.rbit Reg.TIME_STATUS n = (((m.reg Reg.TIME_STATUS).setBit 0 true).setField 3 2 0).bit n := fun n hn => by
    rw [Mach.rbit, Mach.stepMarked_status]
    split
    · rfl
    · exact Word.bit_setBit_ne _ hn false
  refine ⟨?_, ?_, ?_, fun hfar => ?_⟩
  · rw [hbit 0 (by decide), Word.bit_setField_out _ _ (by decide), Word.bit_setBit_same _ (by decide)]
  · rw [hbit 3 (by decide), Word.bit_setField _ _ _ _ _ (by decide), if_pos (by decide), Nat.zero_testBit]
  · rw [hbit 4 (by decide), Word.bit_setField _ _ _ _ _ (by decide), if_pos (by decide), Nat.zero_testBit]
  · rw [Mach.rbit, Mach.stepMarked_status, hfar, if_neg Bool.false_ne_true, Word.bit_setBit_same _ (by decide)]

theorem Mach.TimeOnly.stepMarked {l : List Nat} {m t : Mach} (h : Mach.TimeOnly l m t) (hstatus : Reg.TIME_STATUS ∈ l) :
    Mach.TimeOnly l m t.stepMarked := by
  unfold Mach.stepMarked
  split
  · exact (h.setReg hstatus _).setReg hstatus _
  · exact ((h.setReg hstatus _).setReg hstatus _).setReg hstatus _

theorem Mach.stepMarked_time : m.stepMarked.time = m.time := by
  unfold Mach.stepMarked
  split <;> rfl

variable (c : BitVec 64) (w : Wide)

/-- A step leaves the epoch anchored, so hold 4 ends. -/
theorem Mach.applyStep_eq :
    m.applyStep c w = ((m.stepAnchored c w).stepMarked.raise Reg.TIME_EVENT 0x4).endHold 4 := by
  rw [← Mach.anchorHold_anchored]
  · rfl
  · exact (Mach.rbit_congr ((Mach.raise_reg _ _ _ _).trans (if_neg (by decide))) 0).trans (Mach.stepMarked_bits _).1

theorem Mach.applyStep_reg {a : Nat} (ha : a ∉ [Reg.TIME_EVENT, Reg.SAFE_HOLD, Reg.SAFE_EVENT]) :
    (m.applyStep c w).reg a = (m.stepAnchored c w).stepMarked.reg a := by
  rw [List.mem_cons, not_or] at ha
  obtain ⟨-, -, hregs, -⟩ := Mach.endHold_frame ((m.stepAnchored c w).stepMarked.raise Reg.TIME_EVENT 0x4) (n := 4)
    (by decide) (by decide)
  rw [Mach.applyStep_eq, hregs a ha.2, Mach.raise_reg, if_neg ha.1]

theorem Mach.applyStep_status : (m.applyStep c w).rbit Reg.TIME_STATUS 0 = true ∧ (m.applyStep c w).rbit Reg.TIME_STATUS 3 = false ∧
    (m.applyStep c w).rbit Reg.TIME_STATUS 4 = false ∧
    (m.rbit Reg.TIME_STATUS 0 = false → (m.applyStep c w).rbit Reg.TIME_STATUS 5 = false) := by
  have hbit := fun n => Mach.rbit_congr (m.applyStep_reg c w (a := Reg.TIME_STATUS) (by decide)) n
  rw [hbit 0, hbit 3, hbit 4, hbit 5]
  exact (m.stepAnchored c w).stepMarked_bits

theorem Mach.applyStep_time : (m.applyStep c w).time = (m.stepAnchored c w).time := by
  obtain ⟨-, -, -, hrest⟩ := Mach.endHold_frame ((m.stepAnchored c w).stepMarked.raise Reg.TIME_EVENT 0x4) (n := 4)
    (by decide) (by decide)
  have htime := congrArg Mach.time hrest
  rw [Mach.applyStep_eq, ← (m.stepAnchored c w).stepMarked_time]
  exact htime

/-- step_applied rises, and hold 4 is not in effect. -/
theorem Mach.applyStep_events : (m.applyStep c w).rbit Reg.TIME_EVENT 2 = true ∧ (m.applyStep c w).rbit Reg.SAFE_HOLD 4 = false := by
  obtain ⟨hoff, -, hregs, -⟩ := Mach.endHold_frame ((m.stepAnchored c w).stepMarked.raise Reg.TIME_EVENT 0x4) (n := 4)
    (by decide) (by decide)
  rw [Mach.applyStep_eq]
  exact ⟨(Mach.rbit_congr (hregs _ (by decide)) 2).trans (Mach.raise_bit _ _ _ 2 (by decide) (by decide)), hoff⟩

theorem Mach.TimeOnly.applyStep {l : List Nat} {m t : Mach} (h : Mach.TimeOnly l m t) (hstatus : Reg.TIME_STATUS ∈ l)
    (hevent : Reg.TIME_EVENT ∈ l) (hhold : Reg.SAFE_HOLD ∈ l) (hsafe : Reg.SAFE_EVENT ∈ l) (c : BitVec 64) (w : Wide) :
    Mach.TimeOnly l m (t.applyStep c w) := by
  rw [Mach.applyStep_eq]
  exact (((h.onTime _).stepMarked hstatus).setReg hevent _).endHold (by decide) hhold hsafe

end

section
variable {s : State} (live : s.m.live = true)
include live

section
variable (hfree : s.m.blockPosted Reg.TIME_CTRL = false) (hreg : s.m.reg Reg.TIME_CTRL = BitVec.ofNat 32 (s.m.timeSource * 256))
  (hsrc : s.m.timeSource ≠ 3)
include hfree hreg hsrc

theorem exec_stepArm (hmay : s.m.mayArm) : exec .stepArm s = .next { s with m := (s.m.sourceSet s.m.timeSource).arm } := by
  have harrive := Mach.timeArrive_arm hfree hreg hsrc
  rw [if_neg (s.m.mayArm_iff.mp hmay)] at harrive
  rw [← harrive]
  exact act_live live fun m => m.timeArrive Reg.TIME_CTRL ((m.reg Reg.TIME_CTRL).setBit 1 true)

theorem exec_stepArm_refused (hmay : ¬ s.m.mayArm) : exec .stepArm s = .next { s with m := s.m.refuse Reg.TIME_CTRL } := by
  have harrive := Mach.timeArrive_arm hfree hreg hsrc
  rw [if_pos (not_not.mp (mt s.m.mayArm_iff.mpr hmay))] at harrive
  rw [← harrive]
  exact act_live live fun m => m.timeArrive Reg.TIME_CTRL ((m.reg Reg.TIME_CTRL).setBit 1 true)

end

theorem exec_stepApplied {w : Wide} {at_ : Word} (harmed : s.m.time.step = some (w, at_))
    (hreached : reached (s.m.time.count.setWidth 32) at_ = true) : exec .stepApplied s =
    .next { s with m := s.m.applyStep (s.m.time.count - ((s.m.time.count.setWidth 32 : Word) - at_).setWidth 64) w } := by
  have happlied : s.m.stepApplied = s.m.applyStep (s.m.time.count - ((s.m.time.count.setWidth 32 : Word) - at_).setWidth 64) w := by
    rw [Mach.stepApplied, harmed]
    exact if_pos hreached
  rw [← happlied]
  exact act_live live Mach.stepApplied

end

/-- Settles O11: a step is armed where R53 lets it be, and refused elsewhere; as it applies it anchors the epoch. -/
theorem timeSteps : Obligations.TimeSteps := by
  refine ⟨fun s live hfree hreg hsrc => ⟨fun hmay => ?_, fun hmay => ?_⟩, fun s w at_ live harmed hreached =>
    ⟨_, exec_stepApplied live harmed hreached, ?_⟩⟩
  · obtain ⟨htime, hpending⟩ := s.m.arm_sourceSet s.m.timeSource
    obtain ⟨-, hrest⟩ := ((Mach.TimeOnly.refl [Reg.TIME_CTRL, Reg.TIME_STATUS] s.m).sourceSet (by decide) (by decide)
      s.m.timeSource).arm (by decide)
    exact ⟨_, exec_stepArm live hfree hreg hsrc hmay, htime, hpending, (Mach.sourceSet_same hreg).setReg (by decide) _, hrest⟩
  · exact ⟨_, exec_stepArm_refused live hfree hreg hsrc hmay, s.m.refuse_busErr _⟩
  · obtain ⟨h0, h3, h4, h5⟩ := s.m.applyStep_status
      (s.m.time.count - ((s.m.time.count.setWidth 32 : Word) - at_).setWidth 64) w
    obtain ⟨hevent, hhold⟩ := s.m.applyStep_events
      (s.m.time.count - ((s.m.time.count.setWidth 32 : Word) - at_).setWidth 64) w
    obtain ⟨hregs, hrest⟩ := (Mach.TimeOnly.refl [Reg.TIME_STATUS, Reg.TIME_EVENT, Reg.SAFE_HOLD, Reg.SAFE_EVENT] s.m).applyStep
      (by decide) (by decide) (by decide) (by decide) (s.m.time.count - ((s.m.time.count.setWidth 32 : Word) - at_).setWidth 64) w
    rw [Mach.applyStep_time]
    exact ⟨rfl, rfl, rfl, rfl, rfl, h0, h3, h4, h5, hevent, hhold, hregs, hrest⟩

end Sys2Proof.Machine
end

section
/-! A time-epoch reset (R57, Table 2-2): the epoch that it begins, and a second one while it lasts. -/

namespace Sys2Proof.Machine

/-! ## TIME_STATUS as a new epoch begins -/

/-- The epoch number one on, and anchored, time_far and step_pending clear. -/
def epochStatus (w : Word) : Word :=
  (((w.setField 16 16 (w.field 16 16 + 1)).setBit 0 false).setBit 5 false).setBit 4 false

theorem epochStatus_epoch (w : Word) : (epochStatus w).field 16 16 = (w.field 16 16 + 1) % 2 ^ 16 := by
  rw [epochStatus, Word.field_setBit _ (by decide), Word.field_setBit _ (by decide), Word.field_setBit _ (by decide),
    Word.field_setField_same _ (by decide)]

theorem epochStatus_clear (w : Word) : (epochStatus w).bit 0 = false ∧ (epochStatus w).bit 4 = false ∧ (epochStatus w).bit 5 = false := by
  refine ⟨?_, Word.bit_setBit_same _ (by decide) _, ?_⟩
  · rw [epochStatus, Word.bit_setBit_ne _ (by decide), Word.bit_setBit_ne _ (by decide), Word.bit_setBit_same _ (by decide)]
  · rw [epochStatus, Word.bit_setBit_ne _ (by decide), Word.bit_setBit_same _ (by decide)]

theorem epochStatus_resetting (w : Word) : (epochStatus w).bit 3 = w.bit 3 := by
  rw [epochStatus, Word.bit_setBit_ne _ (by decide), Word.bit_setBit_ne _ (by decide), Word.bit_setBit_ne _ (by decide),
    Word.bit_setField_out _ _ (by decide)]

section
variable (m : Mach)

/-! ## Steps 1 to 3 of Table 2-2 -/

/-- Step 1: resetting and its event, and hold 3. -/
def Mach.epochBegun (m : Mach) : Mach := ((m.setRBit Reg.TIME_STATUS 3 true).raise Reg.TIME_EVENT 0x8).beginHold 3

/-- Step 2: the planned event in the life-cycle log. -/
def Mach.epochLogged (m : Mach) : Mach :=
  m.epochBegun.free.2.lcLog (m.epochBegun.free.1.toNat % 256) m.epochBegun.lifeState []

/-- Step 3: the new epoch's number and anchor. -/
def Mach.epochAnchored (m : Mach) : Mach :=
  (m.setReg Reg.TIME_STATUS (epochStatus (m.reg Reg.TIME_STATUS))).onTime fun x => { x with
    anchorCount := x.count, anchorWide := {}, step := none, ppsAfter := some x.count, stepAt := none, syncs := [] }

/-- The new epoch before its groups drain (step 4). -/
def Mach.newEpoch (m : Mach) : Mach := m.epochLogged.epochAnchored.anchorHold

theorem Mach.epochReset_begins (h : m.rbit Reg.TIME_STATUS 3 = false) : m.epochReset = m.newEpoch.epochDrainAll := by
  unfold Mach.epochReset
  rw [if_neg (by rw [h]; decide)]
  rfl

theorem Mach.epochReset_resetting (h : m.rbit Reg.TIME_STATUS 3 = true) : m.epochReset = m := if_pos h

/-! ## What the new epoch shows -/

/-- resetting stands with its event, hold 3 is in effect and OUT_VALID low. -/
theorem Mach.epochBegun_shows :
    m.epochBegun.reg Reg.TIME_STATUS = (m.reg Reg.TIME_STATUS).setBit 3 true ∧ m.epochBegun.rbit Reg.TIME_EVENT 3 = true ∧
      m.epochBegun.hold 3 = true ∧ m.epochBegun.safety.outValid = false := by
  obtain ⟨hhold, hlow, -, hregs, -⟩ := ((m.setRBit Reg.TIME_STATUS 3 true).raise Reg.TIME_EVENT 0x8).beginHold_frame 3 (by decide)
  refine ⟨?_, ?_, hhold, hlow⟩
  · rw [Mach.epochBegun, hregs _ (by decide), Mach.raise_reg, if_neg (by decide), Mach.setRBit_reg, if_pos rfl]
  · exact (Mach.rbit_congr (hregs _ (by decide)) 3).trans (Mach.raise_bit _ _ _ 3 (by decide) (by decide))

/-- It touches nothing but registers, the supervisor and the counters. -/
theorem Mach.epochBegun_rest : m.epochBegun.time = m.time ∧ m.epochBegun.mem = m.mem ∧ m.epochBegun.groups = m.groups := by
  obtain ⟨-, -, -, -, hrest⟩ := ((m.setRBit Reg.TIME_STATUS 3 true).raise Reg.TIME_EVENT 0x8).beginHold_frame 3 (by decide)
  exact ⟨(congrArg Mach.time hrest :), (congrArg Mach.mem hrest :), (congrArg Mach.groups hrest :)⟩

theorem Mach.epochLogged_eq : ∃ n x, m.epochLogged = Mach.incReg { m.epochBegun with freeCtr := n, sec := x } Reg.SEC_LOG_COUNT := by
  obtain ⟨x, hlog⟩ := m.epochBegun.free.2.lcLog_eq (m.epochBegun.free.1.toNat % 256) m.epochBegun.lifeState []
  exact ⟨_, x, hlog⟩

/-- The log moves no register of the time line or of the supervisor. -/
theorem Mach.epochLogged_reg {a : Nat} (h : a ≠ Reg.SEC_LOG_COUNT) : m.epochLogged.reg a = m.epochBegun.reg a := by
  obtain ⟨n, x, hlog⟩ := m.epochLogged_eq
  rw [hlog, Mach.incReg_reg, if_neg h]
  rfl

theorem Mach.epochLogged_rest : m.epochLogged.time = m.time ∧ m.epochLogged.mem = m.mem ∧ m.epochLogged.groups = m.groups ∧
    m.epochLogged.safety.outValid = false := by
  obtain ⟨n, x, hlog⟩ := m.epochLogged_eq
  obtain ⟨htime, hmem, hgroups⟩ := m.epochBegun_rest
  rw [hlog]
  exact ⟨htime, hmem, hgroups, m.epochBegun_shows.2.2.2⟩

theorem Mach.newEpoch_status : m.newEpoch.reg Reg.TIME_STATUS = epochStatus ((m.reg Reg.TIME_STATUS).setBit 3 true) := by
  rw [Mach.newEpoch, m.epochLogged.epochAnchored.anchorHold_frame.2.2.1 _ (by decide), Mach.epochAnchored, Mach.onTime_reg,
    Mach.reg_setReg_same, m.epochLogged_reg (by decide), m.epochBegun_shows.1]

/-- The epoch's number and flags. -/
theorem Mach.newEpoch_flags : m.newEpoch.fld Reg.TIME_STATUS 16 16 = (m.fld Reg.TIME_STATUS 16 16 + 1) % 2 ^ 16 ∧
    m.newEpoch.rbit Reg.TIME_STATUS 0 = false ∧ m.newEpoch.rbit Reg.TIME_STATUS 4 = false ∧
    m.newEpoch.rbit Reg.TIME_STATUS 5 = false ∧ m.newEpoch.rbit Reg.TIME_STATUS 3 = true := by
  obtain ⟨h0, h4, h5⟩ := epochStatus_clear ((m.reg Reg.TIME_STATUS).setBit 3 true)
  simp only [Mach.fld, Mach.rbit, Mach.newEpoch_status]
  refine ⟨?_, h0, h4, h5, ?_⟩
  · rw [epochStatus_epoch, Word.field_setBit _ (by decide)]
  · rw [epochStatus_resetting, Word.bit_setBit_same _ (by decide)]

/-- Its wide time 0 at the present count; count and rate as they were. -/
theorem Mach.newEpoch_time : m.newEpoch.time = { m.time with
    anchorCount := m.time.count, anchorWide := {}, step := none, ppsAfter := some m.time.count, stepAt := none, syncs := [] } := by
  have hhold : m.newEpoch.time = m.epochLogged.epochAnchored.time :=
    (congrArg Mach.time m.epochLogged.epochAnchored.anchorHold_frame.2.2.2 :)
  rw [hhold, ← m.epochLogged_rest.1]
  rfl

/-- Hold 3 in effect, OUT_VALID low, the event raised; memory and the groups as they were. -/
theorem Mach.newEpoch_safe : m.newEpoch.hold 3 = true ∧ m.newEpoch.safety.outValid = false ∧
    m.newEpoch.rbit Reg.TIME_EVENT 3 = true ∧ m.newEpoch.mem = m.mem ∧ m.newEpoch.groups = m.groups := by
  obtain ⟨hholds, hlow, hregs, hrest⟩ := m.epochLogged.epochAnchored.anchorHold_frame
  obtain ⟨-, hmem, hgroups, hvalid⟩ := m.epochLogged_rest
  obtain ⟨-, hevent, hhold, -⟩ := m.epochBegun_shows
  have hreg : ∀ a, a ≠ Reg.TIME_STATUS → a ≠ Reg.SEC_LOG_COUNT → m.epochLogged.epochAnchored.reg a = m.epochBegun.reg a :=
    fun a hs hl => by rw [Mach.epochAnchored, Mach.onTime_reg, Mach.reg_setReg_ne _ hs, m.epochLogged_reg hl]
  refine ⟨?_, hlow hvalid, ?_, (congrArg Mach.mem hrest :).trans hmem, (congrArg Mach.groups hrest :).trans hgroups⟩
  · rw [Mach.newEpoch, hholds 3 (by decide)]
    exact (Mach.rbit_congr (hreg _ (by decide) (by decide)) 3).trans hhold
  · exact (Mach.rbit_congr ((hregs _ (by decide)).trans (hreg _ (by decide) (by decide))) 3).trans hevent

end

theorem exec_timeEpochReset {s : State} (live : s.m.live = true) (hfree : s.m.blockPosted Reg.TIME_CTRL = false)
    (hreg : s.m.reg Reg.TIME_CTRL = BitVec.ofNat 32 (s.m.timeSource * 256)) (hsrc : s.m.timeSource ≠ 3) :
    exec .timeEpochReset s = .next { s with m := (s.m.sourceSet s.m.timeSource).epochReset } := by
  rw [← Mach.timeArrive_epochReset hfree hreg hsrc]
  exact act_live live fun m => m.timeArrive Reg.TIME_CTRL ((m.reg Reg.TIME_CTRL).setBit 2 true)

/-- Settles O12: the reset begins the new epoch and then drains the groups; while it lasts another write changes no time. -/
theorem epochReset : Obligations.EpochReset := by
  intro s live hfree hreg hsrc
  have hexec := exec_timeEpochReset live hfree hreg hsrc
  have hresetting := s.m.sourceSet_rbit s.m.timeSource (n := 3) (by decide)
  refine ⟨fun hoff => ⟨(s.m.sourceSet s.m.timeSource).newEpoch, ?_, ?_⟩, fun hon => ⟨s.m.sourceSet s.m.timeSource, ?_, rfl,
    Mach.sourceSet_same hreg, (s.m.sourceSet_frame _).1⟩⟩
  · rw [hexec, Mach.epochReset_begins _ (hresetting.trans hoff)]
  · obtain ⟨hepoch, h0, h4, h5, h3⟩ := (s.m.sourceSet s.m.timeSource).newEpoch_flags
    obtain ⟨hhold, hlow, hevent, hmem, hgroups⟩ := (s.m.sourceSet s.m.timeSource).newEpoch_safe
    rw [s.m.sourceSet_epoch] at hepoch
    rw [Mach.newEpoch_time]
    exact ⟨rfl, rfl, rfl, rfl, rfl, rfl, rfl, hepoch, h0, h4, h5, h3, hhold, hlow, hevent, hmem, hgroups⟩
  · rw [hexec, Mach.epochReset_resetting _ (hresetting.trans hon)]

end Sys2Proof.Machine
end

section
/-! The discipline of the time line (R53, R55, R56, R58): its source, its rate correction and the offsets reported to it. -/

namespace Sys2Proof.Machine

section
variable {m : Mach}

/-! ## The source (R53, R58) -/

/-- TIME_CTRL's word that names a source and sets no write-1 bit. -/
theorem sourceWord_bits : ∀ src < 4,
    let v : Word := BitVec.ofNat 32 (src * 256)
    Word.field v 8 2 = src ∧ Word.bit v 0 = false ∧ Word.bit v 1 = false ∧ Word.bit v 2 = false := by decide

/-- The time line under a source: a new one begins the count of Sync messages below 100 ns anew (R61, log entry 164). -/
def Mach.undersource (m : Mach) (src : Nat) : Mach := if src = m.timeSource then m else m.onTime fun x => { x with inLock := 0 }

theorem Mach.undersource_time (src : Nat) : (m.undersource src).time =
    { m.time with inLock := if src = m.timeSource then m.time.inLock else 0 } := by
  unfold Mach.undersource
  split <;> rfl

theorem Mach.TimeOnly.undersource {l : List Nat} {t : Mach} (h : Mach.TimeOnly l m t) (src : Nat) : Mach.TimeOnly l m (t.undersource src) := by
  unfold Mach.undersource
  split
  · exact h
  · exact h.onTime _

/-- A change of source is refused while a step pends. -/
theorem Mach.timeCtrl_source {src : Nat} (hsrc : src < 4) : m.timeCtrl (BitVec.ofNat 32 (src * 256)) =
    if m.rbit Reg.TIME_STATUS 4 && src != m.timeSource then m.bad else (false, (m.undersource src).sourceSet src) := by
  obtain ⟨hfield, h0, h1, h2⟩ := sourceWord_bits src hsrc
  simp [Mach.timeCtrl, hfield, h0, h1, h2, Mach.sourceSet, Mach.undersource]

/-- A write that its register's rule refuses, or that takes effect. -/
theorem Mach.refused_or (m u : Mach) (a : Nat) (p : Prop) [Decidable p] :
    (if (if p then m.bad else (false, u)).1 then m.refuse a else (if p then m.bad else (false, u)).2) =
      if p then m.refuse a else u := by
  split
  · rfl
  · rfl

theorem Mach.timeArrive_source {src : Nat} (hsrc : src < 4)
    (hlet : m.writeCause Reg.TIME_CTRL (BitVec.ofNat 32 (src * 256)) = none) :
    m.timeArrive Reg.TIME_CTRL (BitVec.ofNat 32 (src * 256)) =
      if m.rbit Reg.TIME_STATUS 4 && src != m.timeSource then m.refuse Reg.TIME_CTRL else (m.undersource src).sourceSet src := by
  rw [m.timeArrive_taken hlet, Mach.timeWrite_ctrl, Mach.timeCtrl_source hsrc, Mach.refused_or]

theorem Mach.sourceSet_ctrl (m : Mach) (src : Nat) : (m.sourceSet src).reg Reg.TIME_CTRL = BitVec.ofNat 32 (src * 256) := by
  rw [Mach.sourceSet, Mach.servoCheck_reg _ (by decide), Mach.reg_setReg_same]

/-! ## The rate correction (R55) -/

theorem Mach.timeWrite_rateHi (m : Mach) (v : Word) : m.timeWrite Reg.TIME_RATE_HI v = m.rateHi v := by
  have hctrl : ¬ Reg.TIME_RATE_HI - 0x20000 = 0 := by decide
  have hrate : Reg.TIME_RATE_HI - 0x20000 = 0x38 := by decide
  rw [Mach.timeWrite]
  dsimp only
  rw [if_neg hctrl, if_pos hrate]

/-- The two's complement reading of 40 bits. -/
theorem rateOf_eq (lo hi : Word) : rateOf lo (hi.field 0 8) = (BitVec.ofNat 40 (lo.toNat + hi.toNat % 256 * 2 ^ 32)).toInt := by
  have hlo := lo.isLt
  rw [rateOf, signed, BitVec.toInt_eq_toNat_cond, BitVec.toNat_ofNat, Word.field]
  split <;> split <;> omega

section
variable (hfree : m.blockPosted Reg.TIME_CTRL = false)
include hfree

theorem Mach.writeCause_rateHi (v : Word) : m.writeCause Reg.TIME_RATE_HI v = none := by
  have hrow : rowAt Reg.TIME_RATE_HI = some ({ off := 0x38, acc := .rw, mask := 0xFF }, 0) := rfl
  have hposted : m.blockPosted Reg.TIME_RATE_HI = false := hfree
  simp [Mach.writeCause, hrow, hposted]

theorem Mach.writeCause_offsetReport (v : Word) : m.writeCause Reg.TIME_OFFSET_REPORT v = none := by
  have hrow : rowAt Reg.TIME_OFFSET_REPORT = some ({ off := 0x3C, acc := .wo, mask := 0xFFFFFFFF }, 0) := rfl
  have hposted : m.blockPosted Reg.TIME_OFFSET_REPORT = false := hfree
  simp [Mach.writeCause, hrow, hposted]

/-- A rate that the two registers spell takes effect within 1 µs a second under source host, and is refused elsewhere. -/
theorem Mach.timeArrive_rateHi (v : Word) : m.timeArrive Reg.TIME_RATE_HI v =
    if rateOf (m.reg Reg.TIME_RATE_LO) (v.field 0 8) < -rateMax ∨ rateMax < rateOf (m.reg Reg.TIME_RATE_LO) (v.field 0 8) ∨
      m.timeSource ≠ 0 then m.refuse Reg.TIME_RATE_HI
    else (m.setReg Reg.TIME_RATE_HI (v &&& 0xFF)).onTime fun x => { x with rate := rateOf (m.reg Reg.TIME_RATE_LO) (v.field 0 8) } := by
  have hstore : m.storeReg Reg.TIME_RATE_HI v = m.setReg Reg.TIME_RATE_HI (v &&& 0xFF) := rfl
  rw [m.timeArrive_taken (Mach.writeCause_rateHi hfree v), Mach.timeWrite_rateHi, Mach.rateHi, hstore, Mach.refused_or]

theorem Mach.timeArrive_offset (v : Word) : m.timeArrive Reg.TIME_OFFSET_REPORT v =
    if m.timeSource ≠ 0 then m.refuse Reg.TIME_OFFSET_REPORT else m.report v := by
  have hwrite : m.timeWrite Reg.TIME_OFFSET_REPORT v = m.offsetWrite v := rfl
  rw [m.timeArrive_taken (Mach.writeCause_offsetReport hfree v), hwrite, Mach.offsetWrite, Mach.refused_or]

end

/-! ## Reported offsets (R56) -/

/-- An offset beyond what the slew limit makes good in the time that TIME_FAR_CFG allows. -/
def Mach.farOff (m : Mach) (off : Word) : Prop :=
  off = 0x80000000 ∨ m.fld Reg.TIME_FAR_CFG 0 10 * m.fld Reg.TIME_FAR_CFG 16 12 * 1000 < off.toInt.natAbs

/-- The offset last reported. -/
def Mach.offsetTaken (m : Mach) (off : Word) : Mach := m.onTime fun x => { x with offset := off }

theorem Mach.report_far {off : Word} (h : m.farOff off) :
    m.report off = ((m.offsetTaken off).setRBit Reg.TIME_STATUS 5 true).raise Reg.TIME_EVENT 0x10 := if_pos h

theorem Mach.report_near {off : Word} (h : ¬ m.farOff off) : m.report off = m.offsetTaken off := if_neg h

theorem Mach.TimeOnly.report {l : List Nat} {t : Mach} (h : Mach.TimeOnly l m t) (hstatus : Reg.TIME_STATUS ∈ l)
    (hevent : Reg.TIME_EVENT ∈ l) (off : Word) : Mach.TimeOnly l m (t.report off) := by
  by_cases hfar : t.farOff off
  · rw [Mach.report_far hfar]
    exact ((h.onTime _).setReg hstatus _).setReg hevent _
  · rw [Mach.report_near hfar]
    exact h.onTime _

theorem Mach.report_time (off : Word) : (m.report off).time = { m.time with offset := off } := by
  by_cases hfar : m.farOff off
  · rw [Mach.report_far hfar]
    rfl
  · rw [Mach.report_near hfar]
    rfl

/-- TIME_FAR stands with its event. -/
theorem Mach.report_shows {off : Word} (h : m.farOff off) :
    (m.report off).rbit Reg.TIME_STATUS 5 = true ∧ (m.report off).rbit Reg.TIME_EVENT 4 = true := by
  rw [Mach.report_far h]
  refine ⟨?_, Mach.raise_bit _ _ _ 4 (by decide) (by decide)⟩
  rw [Mach.rbit_congr ((Mach.raise_reg _ _ _ _).trans (if_neg (by decide))) 5]
  exact Mach.rbit_setRBit_same _ (by decide) _ _

end

section
variable {s : State} (live : s.m.live = true)
include live

section
variable {src : BitVec 2} (hlet : s.m.writeCause Reg.TIME_CTRL (BitVec.ofNat 32 (src.toNat * 256)) = none)
include hlet

theorem exec_timeSourceSelect (h : s.m.rbit Reg.TIME_STATUS 4 = false ∨ src.toNat = s.m.timeSource) :
    exec (.timeSourceSelect src) s = .next { s with m := (s.m.undersource src.toNat).sourceSet src.toNat } := by
  have hmay : ¬ (s.m.rbit Reg.TIME_STATUS 4 && src.toNat != s.m.timeSource) = true := by
    rw [Bool.and_eq_true, bne_iff_ne]
    rintro ⟨hpending, hne⟩
    exact h.elim (fun hidle => absurd hpending (by rw [hidle]; decide)) hne
  have harrive := Mach.timeArrive_source src.isLt hlet
  rw [if_neg hmay] at harrive
  rw [← harrive]
  exact act_live live fun m => m.timeArrive Reg.TIME_CTRL (BitVec.ofNat 32 (src.toNat * 256))

theorem exec_timeSourceSelect_refused (hpending : s.m.rbit Reg.TIME_STATUS 4 = true) (hne : src.toNat ≠ s.m.timeSource) :
    exec (.timeSourceSelect src) s = .next { s with m := s.m.refuse Reg.TIME_CTRL } := by
  have harrive := Mach.timeArrive_source src.isLt hlet
  rw [if_pos (Bool.and_eq_true_iff.mpr ⟨hpending, bne_iff_ne.mpr hne⟩)] at harrive
  rw [← harrive]
  exact act_live live fun m => m.timeArrive Reg.TIME_CTRL (BitVec.ofNat 32 (src.toNat * 256))

end

variable (hfree : s.m.blockPosted Reg.TIME_CTRL = false)
include hfree

theorem exec_rateCorrectionWrite (hi : Word) {r : Int}
    (hr : (BitVec.ofNat 40 ((s.m.reg Reg.TIME_RATE_LO).toNat + hi.toNat % 256 * 2 ^ 32)).toInt = r)
    (hmay : -65536000000 ≤ r ∧ r ≤ 65536000000 ∧ s.m.timeSource = 0) :
    exec (.rateCorrectionWrite hi) s =
      .next { s with m := (s.m.setReg Reg.TIME_RATE_HI (hi &&& 0xFF)).onTime fun x => { x with rate := r } } := by
  have harrive := Mach.timeArrive_rateHi hfree hi
  rw [rateOf_eq, hr, if_neg (by rw [rateMax]; omega)] at harrive
  rw [← harrive]
  exact act_live live fun m => m.timeArrive Reg.TIME_RATE_HI hi

theorem exec_rateCorrectionWrite_refused (hi : Word) {r : Int}
    (hr : (BitVec.ofNat 40 ((s.m.reg Reg.TIME_RATE_LO).toNat + hi.toNat % 256 * 2 ^ 32)).toInt = r)
    (hmay : ¬ (-65536000000 ≤ r ∧ r ≤ 65536000000 ∧ s.m.timeSource = 0)) :
    exec (.rateCorrectionWrite hi) s = .next { s with m := s.m.refuse Reg.TIME_RATE_HI } := by
  have harrive := Mach.timeArrive_rateHi hfree hi
  rw [rateOf_eq, hr, if_pos (by rw [rateMax]; omega)] at harrive
  rw [← harrive]
  exact act_live live fun m => m.timeArrive Reg.TIME_RATE_HI hi

theorem exec_timeOffsetReport (off : Word) (hhost : s.m.timeSource = 0) :
    exec (.timeOffsetReport off) s = .next { s with m := s.m.report off } := by
  have harrive := Mach.timeArrive_offset hfree off
  rw [if_neg (not_not.mpr hhost)] at harrive
  rw [← harrive]
  exact act_live live fun m => m.timeArrive Reg.TIME_OFFSET_REPORT off

theorem exec_timeOffsetReport_refused (off : Word) (hother : s.m.timeSource ≠ 0) :
    exec (.timeOffsetReport off) s = .next { s with m := s.m.refuse Reg.TIME_OFFSET_REPORT } := by
  have harrive := Mach.timeArrive_offset hfree off
  rw [if_pos hother] at harrive
  rw [← harrive]
  exact act_live live fun m => m.timeArrive Reg.TIME_OFFSET_REPORT off

end

/-- Settles O13: source, rate and offset follow the write where R53, R55 and R58 let it in; elsewhere it is a bus error alone. -/
theorem timeDiscipline : Obligations.TimeDiscipline := by
  intro s live hfree
  refine ⟨fun src hsrc hlet => ⟨fun hmay => ⟨_, exec_timeSourceSelect live hlet hmay, Mach.sourceSet_ctrl _ _, ?_, ?_, ?_⟩,
      fun hpending hne => ⟨_, exec_timeSourceSelect_refused live hlet hpending hne, s.m.refuse_busErr _⟩⟩,
    fun hi => ⟨fun hmay => ⟨_, exec_rateCorrectionWrite live hfree hi rfl hmay, rfl, ?_, ?_, ?_⟩,
      fun hmay => ⟨_, exec_rateCorrectionWrite_refused live hfree hi rfl hmay, s.m.refuse_busErr _⟩⟩,
    fun off => ⟨fun hhost hfar => ⟨_, exec_timeOffsetReport live hfree off hhost, ?_⟩,
      fun hhost hnear => ⟨_, exec_timeOffsetReport live hfree off hhost, Mach.report_near hnear⟩,
      fun hother => ⟨_, exec_timeOffsetReport_refused live hfree off hother, s.m.refuse_busErr _⟩⟩⟩
  · exact Mach.undersource_time _
  · exact (((Mach.TimeOnly.refl _ s.m).undersource _).sourceSet (by decide) (by decide) _).reg
  · exact (((Mach.TimeOnly.refl [Reg.TIME_CTRL, Reg.TIME_STATUS] s.m).undersource _).sourceSet (by decide) (by decide) _).rest
  · rw [Mach.onTime_reg, Mach.reg_setReg_same]
  · exact (((Mach.TimeOnly.refl _ s.m).setReg (by decide) _).onTime _).reg
  · exact (((Mach.TimeOnly.refl [Reg.TIME_RATE_HI] s.m).setReg (by decide) _).onTime _).rest
  · obtain ⟨hstatus, hevent⟩ := Mach.report_shows hfar
    obtain ⟨hregs, hrest⟩ := (Mach.TimeOnly.refl [Reg.TIME_STATUS, Reg.TIME_EVENT] s.m).report (by decide) (by decide) off
    exact ⟨hstatus, hevent, hregs, hrest⟩

end Sys2Proof.Machine
end

section
/-! The servo and the PTP ports (R56 to R62): the rate that the servo sets, the messages that a port hears and sends, and the states
that it takes. -/

namespace Sys2Proof.Machine

section
variable {m : Mach}

/-! ## The servo (R58, R59) -/

/-- The rate within the slew limit. -/
def Mach.slewed (m : Mach) (rate : BitVec 40) : Int := max (-m.slewMax) (min m.slewMax rate.toInt)

/-- The rate registers and the rate in force as the servo sets them. -/
def Mach.rateSet (m : Mach) (r : Int) : Mach :=
  ((m.setReg Reg.TIME_RATE_LO (BitVec.ofNat 32 (BitVec.ofInt 40 r).toNat)).setReg Reg.TIME_RATE_HI
    (BitVec.ofNat 32 ((BitVec.ofInt 40 r).toNat / 2 ^ 32))).onTime fun x => { x with rate := r }

theorem Mach.servoUpdate_eq (hruns : m.mgmtRuns = true) (href : m.servoRef = true) (rate : BitVec 40) (off : Word) :
    m.servoUpdate rate off = (m.rateSet (m.slewed rate)).report off := by
  have hrunning : m.servoCheck.rbit Reg.TIME_STATUS 2 = true := by rw [Mach.servoCheck_running, hruns, href, Bool.and_self]
  exact if_pos hrunning

/-! ## The state of a port (R39, R61) -/

/-- PTP_STAT shows a state; a change of it is an event. -/
def Mach.stateShown (m : Mach) (p : Nat) (st : BitVec 4) : Mach :=
  if m.fld (Reg.TIME_PTP_STAT p) 0 4 = st.toNat then m
  else (m.setReg (Reg.TIME_PTP_STAT p) (st.setWidth 32)).raise Reg.TIME_EVENT 0x80

/-- A port that leaves SLAVE gives no reference and counts no Sync messages. -/
def Mach.slaveLeft (m : Mach) (p : Nat) : Mach := m.onTime fun x => { x with
  syncs := sput (fun _ => 0) p 0 x.syncs
  ptpRef := if m.time.ptpRef == some p then none else x.ptpRef
  inLock := if m.time.ptpRef == some p then 0 else x.inLock }

theorem Mach.ptpState_eq (p : Nat) (st : BitVec 4) :
    m.ptpState p st = if st = 9 then m.stateShown p st else (m.stateShown p st).slaveLeft p := rfl

theorem ptpStat_ne_event (p : Nat) : Reg.TIME_PTP_STAT p ≠ Reg.TIME_EVENT := by
  simp only [Reg.TIME_PTP_STAT, Reg.TIME_EVENT]
  omega

theorem Mach.stateShown_fld (p : Nat) (st : BitVec 4) : (m.stateShown p st).fld (Reg.TIME_PTP_STAT p) 0 4 = st.toNat := by
  have hfield : Word.field (st.setWidth 32) 0 4 = st.toNat := by
    have hst := st.isLt
    rw [Word.field, BitVec.toNat_setWidth]
    omega
  unfold Mach.stateShown
  split
  · assumption
  · rw [Mach.fld, Mach.raise_reg, if_neg (ptpStat_ne_event p), Mach.reg_setReg_same, hfield]

theorem Mach.ptpState_fld (p : Nat) (st : BitVec 4) : (m.ptpState p st).fld (Reg.TIME_PTP_STAT p) 0 4 = st.toNat := by
  rw [Mach.ptpState_eq]
  split
  · exact Mach.stateShown_fld p st
  · exact Mach.stateShown_fld p st

theorem Mach.stateShown_time (p : Nat) (st : BitVec 4) : (m.stateShown p st).time = m.time := by
  unfold Mach.stateShown
  split <;> rfl

/-- A state moves nothing of the time line but the counts of Sync messages and the reference. -/
theorem Mach.ptpState_time (p : Nat) (st : BitVec 4) :
    ∃ a b c, (m.ptpState p st).time = { m.time with syncs := a, ptpRef := b, inLock := c } := by
  rw [Mach.ptpState_eq, ← m.stateShown_time p st]
  split
  · exact ⟨_, _, _, rfl⟩
  · exact ⟨_, _, _, rfl⟩

/-- A port that is SLAVE keeps them. -/
theorem Mach.ptpState_slave (p : Nat) : (m.ptpState p 9).time = m.time := by
  rw [Mach.ptpState_eq, if_pos rfl, Mach.stateShown_time]

section
variable {l : List Nat} {t : Mach} (h : Mach.TimeOnly l m t)
include h

theorem Mach.TimeOnly.ptpState {p : Nat} (hstat : Reg.TIME_PTP_STAT p ∈ l) (hevent : Reg.TIME_EVENT ∈ l) (st : BitVec 4) :
    Mach.TimeOnly l m (t.ptpState p st) := by
  have hshown : Mach.TimeOnly l m (t.stateShown p st) := by
    unfold Mach.stateShown
    split
    · exact h
    · exact (h.setReg hstat _).setReg hevent _
  rw [Mach.ptpState_eq]
  split
  · exact hshown
  · exact hshown.onTime _

theorem Mach.TimeOnly.rateSet (hlo : Reg.TIME_RATE_LO ∈ l) (hhi : Reg.TIME_RATE_HI ∈ l) (r : Int) :
    Mach.TimeOnly l m (t.rateSet r) := ((h.setReg hlo _).setReg hhi _).onTime _

end

/-! ## A message received (R60, R61, log entry 130) -/

/-- A message of the port's transport, domain and profile. -/
def Mach.ptpOurs (m : Mach) (p : Nat) (msg : PtpRx) : Prop :=
  msg.transport = m.ptpTransport p ∧ msg.domain.toNat = m.fld Reg.TIME_PTP_CLOCK 0 8 ∧ m.profileKnows p msg.kind = true

/-- The ingress stamp of an event message. -/
def Mach.rxStamped (m : Mach) (p : Nat) (msg : PtpRx) : Mach :=
  if ptpEvent msg.kind then m.onTime fun x => { x with
    ptpRxStamp := sput (fun _ => {}) p (m.ptpStamp (m.time.count - BitVec.ofNat 64 (m.fld (Reg.TIME_PTP_LAT p) 0 16))) x.ptpRxStamp }
  else m

/-- The state that the message gives, where the role allows it. -/
def Mach.rxState (m : Mach) (p : Nat) (msg : PtpRx) : Mach := if m.roleAllows p msg.state.toNat then m.ptpState p msg.state else m

/-- The path delay, where it is valid. -/
def Mach.rxDelay (m : Mach) (p : Nat) (msg : PtpRx) : Mach := if msg.delayValid then m.setReg (Reg.TIME_PTP_DELAY p) msg.delay else m

/-- What every message of the port does, before a Sync acts on the servo. -/
def Mach.ptpHeard (m : Mach) (p : Nat) (msg : PtpRx) : Mach := ((m.rxStamped p msg).rxState p msg).rxDelay p msg

/-- A Sync of a SLAVE port under source PTP. -/
def Mach.syncTaken (m : Mach) (p : Nat) (msg : PtpRx) : Bool :=
  msg.kind == .sync && m.fld (Reg.TIME_PTP_STAT p) 0 4 == 9 && m.timeSource == 1

theorem Mach.ptpRx_ours {p : Nat} {msg : PtpRx} (hon : m.ptpOn p = true) (hours : m.ptpOurs p msg) : m.ptpRx p msg =
    (if (m.ptpHeard p msg).syncTaken p msg then (m.ptpHeard p msg).ptpSync p msg else m.ptpHeard p msg).servoCheck := by
  obtain ⟨htransport, hdomain, hkind⟩ := hours
  refine if_pos ?_
  rw [hon, htransport, hdomain, hkind, beq_self_eq_true, beq_self_eq_true]
  rfl

theorem Mach.ptpRx_other {p : Nat} {msg : PtpRx} (hother : ¬ m.ptpOurs p msg) : m.ptpRx p msg = m := by
  refine if_neg fun hall => hother ?_
  simp only [Bool.and_eq_true, beq_iff_eq] at hall
  obtain ⟨⟨⟨-, htransport⟩, hdomain⟩, hkind⟩ := hall
  exact ⟨htransport, hdomain, hkind⟩

section
variable (p : Nat) (msg : PtpRx)

theorem Mach.rxStamped_reg (a : Nat) : (m.rxStamped p msg).reg a = m.reg a := by
  unfold Mach.rxStamped
  split <;> rfl

theorem Mach.rxState_role : (m.rxStamped p msg).rxState p msg =
    if m.roleAllows p msg.state.toNat then (m.rxStamped p msg).ptpState p msg.state else m.rxStamped p msg := by
  have hrole : (m.rxStamped p msg).roleAllows p msg.state.toNat = m.roleAllows p msg.state.toNat := by
    rw [Mach.roleAllows, Mach.roleAllows, Mach.fld, Mach.fld, Mach.rxStamped_reg]
  rw [Mach.rxState, hrole]

theorem ptpDelay_ne_stat : Reg.TIME_PTP_STAT p ≠ Reg.TIME_PTP_DELAY p := by
  simp only [Reg.TIME_PTP_STAT, Reg.TIME_PTP_DELAY]
  omega

/-- The delay leaves the state. -/
theorem Mach.rxDelay_stat : (m.rxDelay p msg).reg (Reg.TIME_PTP_STAT p) = m.reg (Reg.TIME_PTP_STAT p) := by
  unfold Mach.rxDelay
  split
  · exact m.reg_setReg_ne (ptpDelay_ne_stat p) _
  · rfl

theorem Mach.rxDelay_time : (m.rxDelay p msg).time = m.time := by
  unfold Mach.rxDelay
  split <;> rfl

/-- The state and the delay that the port shows. -/
theorem Mach.ptpHeard_shows :
    (m.roleAllows p msg.state.toNat = true → (m.ptpHeard p msg).fld (Reg.TIME_PTP_STAT p) 0 4 = msg.state.toNat) ∧
      (¬ m.roleAllows p msg.state.toNat = true → (m.ptpHeard p msg).reg (Reg.TIME_PTP_STAT p) = m.reg (Reg.TIME_PTP_STAT p)) ∧
      (msg.delayValid = true → (m.ptpHeard p msg).reg (Reg.TIME_PTP_DELAY p) = msg.delay) := by
  rw [Mach.fld, Mach.ptpHeard, Mach.rxDelay_stat, Mach.rxState_role]
  refine ⟨fun hmay => ?_, fun hmay => ?_, fun hvalid => ?_⟩
  · rw [if_pos hmay]
    exact Mach.ptpState_fld p msg.state
  · rw [if_neg hmay, Mach.rxStamped_reg]
  · rw [Mach.rxDelay, if_pos hvalid, Mach.reg_setReg_same]

theorem Mach.TimeOnly.ptpHeard {l : List Nat} {t : Mach} (h : Mach.TimeOnly l m t) (hstat : Reg.TIME_PTP_STAT p ∈ l)
    (hdelay : Reg.TIME_PTP_DELAY p ∈ l) (hevent : Reg.TIME_EVENT ∈ l) : Mach.TimeOnly l m (t.ptpHeard p msg) := by
  have hstamped : Mach.TimeOnly l m (t.rxStamped p msg) := by
    unfold Mach.rxStamped
    split
    · exact h.onTime _
    · exact h
  have hstate : Mach.TimeOnly l m ((t.rxStamped p msg).rxState p msg) := by
    unfold Mach.rxState
    split
    · exact hstamped.ptpState hstat hevent _
    · exact hstamped
  unfold Mach.ptpHeard Mach.rxDelay
  split
  · exact hstate.setReg hdelay _
  · exact hstate

/-- Of the time line a message moves the stamps received, the counts of Sync messages and the reference. -/
theorem Mach.ptpHeard_time : ∃ a b c,
    (m.ptpHeard p msg).time = { (m.rxStamped p msg).time with syncs := a, ptpRef := b, inLock := c } := by
  rw [Mach.ptpHeard, Mach.rxDelay_time, Mach.rxState_role]
  split
  · exact Mach.ptpState_time p msg.state
  · exact ⟨_, _, _, rfl⟩

/-- A message from the master of a SLAVE port moves the stamps alone. -/
theorem Mach.ptpHeard_slave (h : msg.state = 9) : (m.ptpHeard p msg).time = (m.rxStamped p msg).time := by
  rw [Mach.ptpHeard, Mach.rxDelay_time, Mach.rxState_role, h]
  split
  · exact Mach.ptpState_slave p
  · rfl

theorem Mach.rxStamped_stamp (h : ptpEvent msg.kind = true) : sget (fun _ => {}) (m.rxStamped p msg).time.ptpRxStamp p =
    m.ptpStamp (m.time.count - BitVec.ofNat 64 (m.fld (Reg.TIME_PTP_LAT p) 0 16)) := by
  rw [Mach.rxStamped, if_pos h]
  exact sget_sput_same _ _ _ _

theorem Mach.rxStamped_time : ∃ a, (m.rxStamped p msg).time = { m.time with ptpRxStamp := a } := by
  unfold Mach.rxStamped
  split
  · exact ⟨_, rfl⟩
  · exact ⟨_, rfl⟩

/-- The source is none of a message's registers. -/
theorem Mach.ptpHeard_kept {a : Nat} (ha : a ∉ [Reg.TIME_PTP_STAT p, Reg.TIME_PTP_DELAY p, Reg.TIME_EVENT]) :
    (m.ptpHeard p msg).reg a = m.reg a :=
  ((Mach.TimeOnly.refl [Reg.TIME_PTP_STAT p, Reg.TIME_PTP_DELAY p, Reg.TIME_EVENT] m).ptpHeard p msg (by simp) (by simp) (by simp)).reg a ha

theorem timeRegs_apart {a : Nat} (ha : a < 0x20008) : a ∉ [Reg.TIME_PTP_STAT p, Reg.TIME_PTP_DELAY p, Reg.TIME_EVENT] := by
  simp only [List.mem_cons, List.not_mem_nil, or_false, not_or, Reg.TIME_PTP_STAT, Reg.TIME_PTP_DELAY, Reg.TIME_EVENT]
  omega

theorem Mach.ptpHeard_source : (m.ptpHeard p msg).timeSource = m.timeSource := by
  rw [Mach.timeSource, Mach.fld, Mach.ptpHeard_kept p msg (timeRegs_apart p (by decide))]
  rfl

end

/-! ## The fourth Sync (R58, R61) -/

/-- The port's fourth consecutive Sync has made it the reference. -/
def Mach.acquired (m : Mach) (p : Nat) (msg : PtpRx) : Mach := m.onTime fun x => { x with
  syncs := sput (fun _ => 0) p 4 x.syncs
  inLock := if msg.offset.toInt.natAbs < 100 then x.inLock + 1 else 0
  ptpRef := some p }

/-- The fourth Sync acquires the reference, and anchors an epoch that is not anchored. -/
theorem Mach.ptpSync_fourth {p : Nat} {msg : PtpRx} (hvalid : msg.delayValid = true)
    (hthree : sget (fun _ => 0) m.time.syncs p = 3) (hnone : m.time.ptpRef = none) : m.ptpSync p msg =
      if m.rbit Reg.TIME_STATUS 0 then m.acquired p msg
      else (m.acquired p msg).applyStep m.time.count { sec := msg.gmSec.toNat, ns := msg.gmNs.toNat } := by
  unfold Mach.ptpSync
  dsimp only
  rw [if_pos hvalid, hthree, if_pos ⟨by decide, .inl hnone⟩]
  rfl

/-- The reference acquired; the anchor is the message's time at this count where the epoch was unanchored, and stays elsewhere. -/
theorem Mach.ptpSync_reference {p : Nat} {msg : PtpRx} (hvalid : msg.delayValid = true)
    (hthree : sget (fun _ => 0) m.time.syncs p = 3) (hnone : m.time.ptpRef = none) :
    (m.ptpSync p msg).time.ptpRef = some p ∧ (m.ptpSync p msg).time.count = m.time.count ∧
      (m.rbit Reg.TIME_STATUS 0 = false → (m.ptpSync p msg).time.anchorWide = { sec := msg.gmSec.toNat, ns := msg.gmNs.toNat } ∧
        (m.ptpSync p msg).time.anchorCount = m.time.count) ∧
      (m.rbit Reg.TIME_STATUS 0 = true → (m.ptpSync p msg).time.anchorWide = m.time.anchorWide ∧
        (m.ptpSync p msg).time.anchorCount = m.time.anchorCount) := by
  rw [Mach.ptpSync_fourth hvalid hthree hnone]
  cases hanchored : m.rbit Reg.TIME_STATUS 0
  · rw [if_neg Bool.false_ne_true, Mach.applyStep_time]
    exact ⟨rfl, rfl, fun _ => ⟨rfl, rfl⟩, fun h => absurd h Bool.false_ne_true⟩
  · rw [if_pos rfl]
    exact ⟨rfl, rfl, fun h => absurd h.symm Bool.false_ne_true, fun _ => ⟨rfl, rfl⟩⟩

/-- A message that is no Sync of source PTP does nothing more than every message. -/
theorem Mach.ptpRx_heard {p : Nat} {msg : PtpRx} (hon : m.ptpOn p = true) (hours : m.ptpOurs p msg)
    (hquiet : msg.kind ≠ .sync ∨ m.timeSource ≠ 1) : m.ptpRx p msg = (m.ptpHeard p msg).servoCheck := by
  have hno : (m.ptpHeard p msg).syncTaken p msg = false := by
    rw [Mach.syncTaken, Mach.ptpHeard_source]
    rcases hquiet with hkind | hsource
    · rw [beq_eq_false_iff_ne.mpr hkind, Bool.false_and, Bool.false_and]
    · rw [beq_eq_false_iff_ne.mpr hsource, Bool.and_false]
  rw [Mach.ptpRx_ours hon hours, hno, if_neg Bool.false_ne_true]

/-- A Sync from the master of a port whose role lets it be SLAVE, under source PTP, counts. -/
theorem Mach.ptpRx_sync {p : Nat} {msg : PtpRx} (hon : m.ptpOn p = true) (hours : m.ptpOurs p msg) (hrole : m.roleAllows p 9 = true)
    (hkind : msg.kind = .sync) (hstate : msg.state = 9) (hsource : m.timeSource = 1) :
    m.ptpRx p msg = ((m.ptpHeard p msg).ptpSync p msg).servoCheck := by
  have hslave : (m.ptpHeard p msg).fld (Reg.TIME_PTP_STAT p) 0 4 = 9 := by
    rw [(m.ptpHeard_shows p msg).1 (by rw [hstate]; exact hrole), hstate]
    rfl
  have hyes : (m.ptpHeard p msg).syncTaken p msg = true := by
    rw [Mach.syncTaken, Mach.ptpHeard_source, hkind, hslave, hsource]
    decide
  rw [Mach.ptpRx_ours hon hours, hyes, if_pos rfl]

/-! ## A message transmitted (R60, R62) -/

/-- The time line with a frame transmitted. -/
def Mach.ptpSentFrame (m : Mach) (p : Nat) (k : PtpKind) : Mach := m.onTime fun x => { x with
  ptpSent := x.ptpSent ++ [m.ptpFrame p k]
  ptpSyncStamp := if k = .sync then sput (fun _ => {}) p (m.ptpFrame p k).stamp x.ptpSyncStamp else x.ptpSyncStamp
  ptpRespStamp := if k = .peerDelayResponse then sput (fun _ => {}) p (m.ptpFrame p k).stamp x.ptpRespStamp else x.ptpRespStamp }

theorem Mach.ptpTx_eq {p : Nat} {k : PtpKind} (hon : m.ptpOn p = true) (hknows : m.profileKnows p k = true)
    (hsends : m.roleSends p k = true) : m.ptpTx p k = m.ptpSentFrame p k :=
  if_pos (by rw [hon, hknows, hsends]; rfl)

theorem Mach.ptpFrame_domain (p : Nat) (k : PtpKind) : (m.ptpFrame p k).domain.toNat = m.fld Reg.TIME_PTP_CLOCK 0 8 := by
  have hlt : m.fld Reg.TIME_PTP_CLOCK 0 8 < 2 ^ 8 := Nat.mod_lt _ (by decide)
  exact (BitVec.toNat_ofNat _ 8).trans (Nat.mod_eq_of_lt hlt)

end

section
variable {s : State} (live : s.m.live = true)
include live

theorem exec_servoUpdate (hruns : s.m.mgmtRuns = true) (href : s.m.servoRef = true) (rate : BitVec 40) (off : Word) :
    exec (.servoUpdate rate off) s = .next { s with m := (s.m.rateSet (s.m.slewed rate)).report off } := by
  rw [← Mach.servoUpdate_eq hruns href]
  exact act_live live (·.servoUpdate rate off)

variable (p : Fin 4)

theorem exec_ptpMessageRx (msg : PtpRx) : exec (.ptpMessageRx p msg) s = .next { s with m := s.m.ptpRx p msg } :=
  act_live live (·.ptpRx p msg)

theorem exec_ptpMessageTx {k : PtpKind} (hon : s.m.ptpOn p = true) (hknows : s.m.profileKnows p k = true)
    (hsends : s.m.roleSends p k = true) : exec (.ptpMessageTx p k) s = .next { s with m := s.m.ptpSentFrame p k } := by
  rw [← Mach.ptpTx_eq hon hknows hsends]
  exact act_live live (·.ptpTx p k)

theorem exec_ptpAnnounceTimeout {st : BitVec 4} (hserved : s.m.ptpServed p = true) (hrole : s.m.roleAllows p st.toNat = true) :
    exec (.ptpAnnounceTimeout p st) s = .next { s with m := (s.m.ptpState p st).servoCheck } := by
  have htimeout : s.m.ptpTimeout p st = (s.m.ptpState p st).servoCheck := if_pos (by rw [hserved, hrole]; rfl)
  rw [← htimeout]
  exact act_live live (·.ptpTimeout p st)

end

theorem ptpStat_ne_status (p : Nat) : Reg.TIME_PTP_STAT p ≠ Reg.TIME_STATUS ∧ Reg.TIME_PTP_DELAY p ≠ Reg.TIME_STATUS := by
  simp only [Reg.TIME_PTP_STAT, Reg.TIME_PTP_DELAY, Reg.TIME_STATUS]
  omega

/-- Settles O14: the servo, and each happening of a PTP port, from what it does to the module. -/
theorem servoAndPtp : Obligations.ServoAndPtp := by
  intro s live
  refine ⟨fun rate off hruns href => ⟨_, exec_servoUpdate live hruns href rate off, ?_⟩, fun p msg hon => ⟨fun hother => ?_,
      fun hours hquiet => ⟨(s.m.ptpHeard p msg).servoCheck, ?_, ?_⟩,
      fun hours hrole hkind hvalid hstate hsource hthree hnone => ⟨((s.m.ptpHeard p msg).ptpSync p msg).servoCheck, ?_, ?_⟩⟩,
    fun p k hon hknows hsends => ⟨_, s.m.ptpFrame p k, exec_ptpMessageTx live p hon hknows hsends, ?_⟩,
    fun p st hserved hrole => ⟨_, exec_ptpAnnounceTimeout live p hserved hrole, ?_⟩⟩
  · obtain ⟨hregs, hrest⟩ := ((Mach.TimeOnly.refl
      [Reg.TIME_RATE_LO, Reg.TIME_RATE_HI, Reg.TIME_STATUS, Reg.TIME_EVENT] s.m).rateSet (by decide) (by decide)
      (s.m.slewed rate)).report (by decide) (by decide) off
    rw [Mach.report_time]
    exact ⟨rfl, by rw [Mach.slewMax], hregs, hrest⟩
  · rw [exec_ptpMessageRx live, Mach.ptpRx_other hother]
  · rw [exec_ptpMessageRx live, Mach.ptpRx_heard hon hours hquiet]
  · obtain ⟨hshown, hkept, hdelay⟩ := s.m.ptpHeard_shows p msg
    obtain ⟨a, b, c, htime⟩ := s.m.ptpHeard_time p msg
    obtain ⟨d, hstamped⟩ := s.m.rxStamped_time p msg
    obtain ⟨hregs, hrest⟩ := ((Mach.TimeOnly.refl [Reg.TIME_PTP_STAT p, Reg.TIME_PTP_DELAY p, Reg.TIME_STATUS, Reg.TIME_EVENT]
      s.m).ptpHeard p msg (by simp) (by simp) (by simp)).servoCheck (by simp)
    have hservo : (s.m.ptpHeard p msg).servoCheck.time = (s.m.ptpHeard p msg).time := rfl
    rw [Mach.fld, Mach.servoCheck_reg _ (ptpStat_ne_status p).1, Mach.servoCheck_reg _ (ptpStat_ne_status p).2, hservo, htime]
    refine ⟨hshown, hkept, hdelay, s.m.rxStamped_stamp p msg, hregs, ?_, hrest⟩
    rw [hstamped]
  · rw [exec_ptpMessageRx live, Mach.ptpRx_sync hon hours hrole hkind hstate hsource]
  · obtain ⟨d, hstamped⟩ := s.m.rxStamped_time p msg
    have htime := (s.m.ptpHeard_slave p msg hstate).trans hstamped
    have hanchor : (s.m.ptpHeard p msg).rbit Reg.TIME_STATUS 0 = s.m.rbit Reg.TIME_STATUS 0 :=
      Mach.rbit_congr (s.m.ptpHeard_kept p msg (timeRegs_apart p (by decide))) 0
    have hreference := Mach.ptpSync_reference (m := s.m.ptpHeard p msg) (p := p) hvalid (by rw [htime]; exact hthree)
      (by rw [htime]; exact hnone)
    rw [hanchor, htime] at hreference
    exact hreference
  · refine ⟨rfl, rfl, rfl, rfl, rfl, rfl, rfl, s.m.ptpFrame_domain p k, rfl, ?_, ?_⟩
    · rintro rfl
      rfl
    · rintro rfl
      rfl
  · obtain ⟨hregs, hrest⟩ := ((Mach.TimeOnly.refl [Reg.TIME_PTP_STAT p, Reg.TIME_STATUS, Reg.TIME_EVENT] s.m).ptpState
      (p := p) (by simp) (by simp) st).servoCheck (by simp)
    rw [Mach.fld, Mach.servoCheck_reg _ (ptpStat_ne_status p).1]
    exact ⟨Mach.ptpState_fld p st, hregs, hrest⟩

end Sys2Proof.Machine
end

section
/-! The loss of the 25 MHz reference (R68) in a module whose detections freeze the counters (R401) and whose trace records snapshots
(R407): the record of the freeze goes into the Cellar, which lies in memory. -/

namespace Sys2Proof.Machine

/-- A booted module with debug access: DBG_TRIG_CFG.freeze_on_fault is set, trace is enabled, and DBG_TRACE_KINDS takes snapshots. -/
def lossTraced : State := { State.reset with m := { (((State.reset.m.setReg Reg.DBG_STATUS 0x2).setReg Reg.DBG_TRIG_CFG 0x1).setReg
  Reg.DBG_TRACE_CTRL 0x80000000).setReg Reg.DBG_TRACE_KINDS 0x80 with pins := { State.reset.m.pins with booted := true } } }

/-- The first byte of the record, its kind, lies where the ring begins. -/
theorem lossTraced_record : lossTraced.m.refLost.byte (lossTraced.m.cellarBase + 0x40000) = 0x30 := by decide +kernel

theorem lossTraced_live : lossTraced.m.live = true := rfl

theorem lossTraced_mem : lossTraced.m.mem = [] := rfl

theorem Mach.stillOnFault_mem (m : Mach) : m.stillOnFault.mem = m.mem := by
  unfold Mach.stillOnFault
  split
  · split <;> rfl
  · rfl

theorem Mach.logFault_mem (m : Mach) (d : Detection) (r : Nat) : (m.logFault d r).2.mem = m.mem :=
  (congrArg Mach.mem ((Mach.onlyRecord_refl m).logFault d r) :)

/-- The loss of the reference answers the module it leads to. -/
theorem exec_referenceLost {s : State} (live : s.m.live = true) : exec .referenceLost s = .next { s with m := s.m.refLost } :=
  act_live live Mach.refLost

/-- A loss whose fault is logged last leaves the memory that it had before. -/
theorem refLost_mem_of_exec {s : State} {t : Mach} (live : s.m.live = true)
    (h : exec .referenceLost s = .next { s with m := (t.logFault referenceFault 0).2.stillOnFault }) : s.m.refLost.mem = t.mem := by
  rw [exec_referenceLost live] at h
  have hlost : s.m.refLost = (t.logFault referenceFault 0).2.stillOnFault := (congrArg State.m (Host.Outcome.next.inj h) :)
  rw [hlost, Mach.stillOnFault_mem, Mach.logFault_mem]

/-- Refutes O15: where a detection freezes the counters and snapshots are traced, the loss of the 25 MHz reference writes the record of
the freeze into the Cellar, so that memory is not as it was. -/
theorem not_timeReferences : ¬ Obligations.TimeReferences := by
  rintro ⟨-, hreference⟩
  obtain ⟨t, hexec, -, -, -, -, -, -, hmem, -⟩ := (hreference lossTraced lossTraced_live).1 rfl
  have hempty := (refLost_mem_of_exec lossTraced_live hexec).trans (hmem.trans lossTraced_mem)
  have hrecord := lossTraced_record
  rw [Mach.byte, hempty] at hrecord
  exact absurd hrecord (by decide)

end Sys2Proof.Machine
end

section
/-! What the sensor ports and the streams leave (R71 to R97): changes of registers, ports, streams and counters alone, and reads of the STR
block's registers that such a change does not reach. -/

namespace Sys2Proof.Machine

/-! ## Changes of ports and streams -/

/-- From m to t nothing but registers of l, the sensor ports, the streams and the counters has changed. -/
structure Mach.IngressOnly (l : List Nat) (m t : Mach) : Prop where
  reg : m.regsBut t l
  rest : { t with regs := m.regs, ports := m.ports, streams := m.streams, obs := m.obs } = m

theorem Mach.IngressOnly.refl (l : List Nat) (m : Mach) : Mach.IngressOnly l m m := ⟨fun _ _ => rfl, rfl⟩

theorem Mach.fld_congr {m t : Mach} {a : Nat} (h : t.reg a = m.reg a) (lo n : Nat) : t.fld a lo n = m.fld a lo n := by
  rw [Mach.fld, h]
  rfl

section
variable {l : List Nat} {m t : Mach} (h : Mach.IngressOnly l m t)
include h

theorem Mach.IngressOnly.setReg {a : Nat} (ha : a ∈ l) (v : Word) : Mach.IngressOnly l m (t.setReg a v) := ⟨h.reg.setReg ha v, h.rest⟩
theorem Mach.IngressOnly.onPorts (f : Ports → Ports) : Mach.IngressOnly l m (t.onPorts f) := ⟨h.reg, h.rest⟩
theorem Mach.IngressOnly.setStream (s : Nat) (x : Stream) : Mach.IngressOnly l m (t.setStream s x) := ⟨h.reg, h.rest⟩
theorem Mach.IngressOnly.onStream (s : Nat) (f : Stream → Stream) : Mach.IngressOnly l m (t.onStream s f) := h.setStream s _
theorem Mach.IngressOnly.onObs (f : Observe → Observe) : Mach.IngressOnly l m (t.onObs f) := ⟨h.reg, h.rest⟩

theorem Mach.IngressOnly.bumpStream (s lo n : Nat) : Mach.IngressOnly l m (t.bumpStream s lo n) := by
  unfold Mach.bumpStream
  split
  · exact h
  · exact h.onObs _

theorem Mach.IngressOnly.strDrop {s : Nat} (hs : Reg.STR_DROPS s ∈ l) : Mach.IngressOnly l m (t.strDrop s) := (h.setReg hs _).bumpStream _ _ _

theorem Mach.IngressOnly.strOverflow {s : Nat} (hs : Reg.STR_EVENT s ∈ l) : Mach.IngressOnly l m (t.strOverflow s) :=
  (h.setReg hs _).onStream _ _

theorem Mach.IngressOnly.setFrames {n : Nat} (hn : Reg.SNS_CSI_STAT n ∈ l) (fs : List OpenFrame) : Mach.IngressOnly l m (t.setFrames n fs) :=
  (h.onPorts _).setReg hn _

theorem Mach.IngressOnly.trans {u : Mach} (k : Mach.IngressOnly l t u) : Mach.IngressOnly l m u := by
  refine ⟨fun r hr => (k.reg r hr).trans (h.reg r hr), ?_⟩
  have hu := congrArg (fun x : Mach => { x with regs := m.regs, ports := m.ports, streams := m.streams, obs := m.obs }) k.rest
  exact hu.trans h.rest

theorem Mach.IngressOnly.mono {l' : List Nat} (hl : l ⊆ l') : Mach.IngressOnly l' m t := ⟨fun r hr => h.reg r fun hin => hr (hl hin), h.rest⟩

theorem Mach.IngressOnly.time : t.time = m.time := (congrArg Mach.time h.rest :)
theorem Mach.IngressOnly.islands : t.islands = m.islands := (congrArg Mach.islands h.rest :)
theorem Mach.IngressOnly.mem : t.mem = m.mem := (congrArg Mach.mem h.rest :)
theorem Mach.IngressOnly.now : t.now = m.now := congrArg (fun x : TimeLine => x.count.setWidth 32) h.time

/-- The counters as they were. -/
theorem Mach.IngressOnly.rest_streams (hobs : t.obs = m.obs) :
    { t with regs := m.regs, ports := m.ports, streams := m.streams } = m := by
  have hrest := h.rest
  rw [← hobs] at hrest
  exact hrest

/-- The streams as they were too. -/
theorem Mach.IngressOnly.rest_ports (hobs : t.obs = m.obs) (hstreams : t.streams = m.streams) :
    { t with regs := m.regs, ports := m.ports } = m := by
  have hrest := h.rest_streams hobs
  rw [← hstreams] at hrest
  exact hrest

end

section
variable (m : Mach)

/-! ## Streams and open frames, one of them changed -/

@[simp] theorem Mach.stream_setStream_same (s : Nat) (x : Stream) : (m.setStream s x).stream s = x := sget_sput_same _ _ _ _

theorem Mach.stream_setStream_ne {s o : Nat} (h : o ≠ s) (x : Stream) : (m.setStream s x).stream o = m.stream o :=
  sget_sput_ne _ h _ _

@[simp] theorem Mach.openFrames_setFrames_same (n : Nat) (l : List OpenFrame) : (m.setFrames n l).openFrames n = l :=
  sget_sput_same _ _ _ _

theorem Mach.openFrames_setFrames_ne {n k : Nat} (h : k ≠ n) (l : List OpenFrame) : (m.setFrames n l).openFrames k = m.openFrames k :=
  sget_sput_ne _ h _ _

@[simp] theorem Mach.setFrames_stream (n : Nat) (l : List OpenFrame) (s : Nat) : (m.setFrames n l).stream s = m.stream s := rfl

@[simp] theorem Mach.setFrames_fsyncOf (n : Nat) (l : List OpenFrame) (k : Nat) : (m.setFrames n l).fsyncOf k = m.fsyncOf k := rfl
@[simp] theorem Mach.onStream_fsyncOf (s : Nat) (f : Stream → Stream) (k : Nat) : (m.onStream s f).fsyncOf k = m.fsyncOf k := rfl
@[simp] theorem Mach.onStream_obs (s : Nat) (f : Stream → Stream) : (m.onStream s f).obs = m.obs := rfl
@[simp] theorem Mach.onStream_ports (s : Nat) (f : Stream → Stream) : (m.onStream s f).ports = m.ports := rfl
@[simp] theorem Mach.setFrames_obs (n : Nat) (l : List OpenFrame) : (m.setFrames n l).obs = m.obs := rfl
@[simp] theorem Mach.setFrames_streams (n : Nat) (l : List OpenFrame) : (m.setFrames n l).streams = m.streams := rfl

theorem Mach.setFrames_reg {n a : Nat} (h : a ≠ Reg.SNS_CSI_STAT n) (l : List OpenFrame) : (m.setFrames n l).reg a = m.reg a :=
  Mach.reg_setReg_ne _ h _

/-- SNS_CSI_STATn.in_frame follows the frames. -/
theorem Mach.setFrames_inFrame (n : Nat) (l : List OpenFrame) : (m.setFrames n l).rbit (Reg.SNS_CSI_STAT n) 1 = !l.isEmpty :=
  Mach.rbit_setRBit_same _ (by decide) _ _

end

/-! ## Counts of a stream (Table 16-2) -/

section
variable (m : Mach) (s : Nat)

/-- The counters of a stream are no part of what it holds. -/
theorem Mach.bumpStream_kept (lo n : Nat) : (m.bumpStream s lo n).regs = m.regs ∧ (m.bumpStream s lo n).streams = m.streams ∧
    (m.bumpStream s lo n).ports = m.ports := by
  unfold Mach.bumpStream
  split <;> exact ⟨rfl, rfl, rfl⟩

theorem Mach.bumpStream_reg (lo n a : Nat) : (m.bumpStream s lo n).reg a = m.reg a := by
  rw [Mach.reg, (m.bumpStream_kept s lo n).1]
  rfl

theorem Mach.strDrop_reg (a : Nat) : (m.strDrop s).reg a = if a = Reg.STR_DROPS s then m.reg a + 1 else m.reg a := by
  rw [Mach.strDrop, Mach.bumpStream_reg, Mach.incReg_reg]
  split
  · subst_vars
    rfl
  · rfl

theorem Mach.strDrop_kept : (m.strDrop s).streams = m.streams ∧ (m.strDrop s).ports = m.ports :=
  ((m.incReg (Reg.STR_DROPS s)).bumpStream_kept s 0 16).2

end

/-! ## Streams see their own registers -/

/-- The registers from the STR block on are in t as they are in m. -/
def Mach.strSame (m t : Mach) : Prop := ∀ a, 0x140000 ≤ a → t.reg a = m.reg a

section
variable {m t : Mach} (h : m.strSame t)
include h

theorem Mach.strSame.setReg {a : Nat} (ha : a < 0x140000) (v : Word) : m.strSame (t.setReg a v) := fun b hb =>
  (t.reg_setReg_ne (by omega) v).trans (h b hb)

theorem Mach.strSame.strEnabled (s : Nat) : t.strEnabled s = m.strEnabled s := Mach.rbit_congr (h _ (Nat.le_add_right _ _)) 31

theorem Mach.strSame.source (s : Nat) : t.reg (Reg.STR_SOURCE s) = m.reg (Reg.STR_SOURCE s) := h _ (by simp only [Reg.STR_SOURCE]; omega)

theorem Mach.strSame.strFrom (s kind port : Nat) : t.strFrom s kind port = m.strFrom s kind port := by
  simp only [Mach.strFrom, Mach.strKind, Mach.fld_congr (h.source s)]

theorem Mach.strSame.inqGeom (s : Nat) : t.inqGeom s = m.inqGeom s := by
  rw [Mach.inqGeom, Mach.inqGeom, Mach.fld_congr (h (Reg.STR_INQ s) (by simp only [Reg.STR_INQ]; omega))]

theorem Mach.strSame.selectStream {p q : Nat → Bool} (hp : ∀ s, p s = q s) : t.selectStream p = m.selectStream q := by
  simp only [Mach.selectStream, h.strEnabled, hp]

theorem Mach.strSame.cameraStream (n vc dt : Nat) : t.cameraStream n vc dt = m.cameraStream n vc dt :=
  h.selectStream fun s => by rw [h.strFrom, Mach.fld_congr (h.source s), Mach.fld_congr (h.source s)]

end

theorem Mach.strSame.refl (m : Mach) : m.strSame m := fun _ _ => rfl

end Sys2Proof.Machine
end

section
/-! Camera frames (R71, R72, R83, R92): the open frames of a port, how a frame begins, takes its lines and closes, and what a packet with
a bad header does. -/

namespace Sys2Proof.Machine

section
variable (m : Mach)

/-! ## Registers of a port -/

theorem csiErr_ne_stat (n : Nat) : Reg.SNS_CSI_ERR n ≠ Reg.SNS_CSI_STAT n := by
  simp only [Reg.SNS_CSI_ERR, Reg.SNS_CSI_STAT]
  omega

theorem csiErr_ne_event (n : Nat) : Reg.SNS_CSI_ERR n ≠ Reg.SNS_EVENT := by
  simp only [Reg.SNS_CSI_ERR, Reg.SNS_EVENT]
  omega

theorem event_ne_csiStat (n : Nat) : Reg.SNS_EVENT ≠ Reg.SNS_CSI_STAT n := by
  simp only [Reg.SNS_CSI_STAT, Reg.SNS_EVENT]
  omega

/-! ## Counts that saturate -/

theorem Mach.saturate_fld {lo n : Nat} (h : lo + n ≤ 32) (a : Nat) :
    (m.saturate a lo n).fld a lo n = min (2 ^ n - 1) (m.fld a lo n + 1) := by
  rw [Mach.fld, Mach.saturate, Mach.setFld_reg, if_pos rfl, Word.field_setField_same _ h]
  have hpos := Nat.two_pow_pos n
  exact Nat.mod_eq_of_lt (by omega)

theorem Mach.csiDiscard_only (n : Nat) : Mach.IngressOnly [Reg.SNS_CSI_ERR n, Reg.SNS_EVENT] m (m.csiDiscard n) :=
  ((Mach.IngressOnly.refl _ m).setReg (by simp) _).setReg (by simp) _

/-- A discarded packet is counted, and its event raised (Table 3-12). -/
theorem Mach.csiDiscard_shows (n : Nat) : (m.csiDiscard n).rbit Reg.SNS_EVENT 0 = true ∧
    (m.csiDiscard n).fld (Reg.SNS_CSI_ERR n) 0 16 = min 65535 (m.fld (Reg.SNS_CSI_ERR n) 0 16 + 1) := by
  refine ⟨Mach.raise_bit _ _ _ 0 (by decide) (by decide), ?_⟩
  rw [Mach.fld, Mach.csiDiscard, Mach.raise_reg, if_neg (csiErr_ne_event n)]
  exact m.saturate_fld (by decide) _

/-! ## Headers (Table 3-2) -/

/-- A good header leaves the module, a corrected one is counted. -/
def Mach.headerTaken (m : Mach) (n : Nat) (ecc : EccResult) : Mach :=
  if ecc = .corrected then m.saturate (Reg.SNS_CSI_ERR n) 16 16 else m

theorem Mach.headerTaken_fld (n : Nat) (ecc : EccResult) : (m.headerTaken n ecc).fld (Reg.SNS_CSI_ERR n) 16 16 =
    if ecc = .corrected then min 65535 (m.fld (Reg.SNS_CSI_ERR n) 16 16 + 1) else m.fld (Reg.SNS_CSI_ERR n) 16 16 := by
  unfold Mach.headerTaken
  split
  · exact m.saturate_fld (by decide) _
  · rfl

variable {m}

theorem Mach.withHeader_good {n : Nat} {ecc : EccResult} (hon : m.csiEnabled n = true) (hecc : ecc ≠ .uncorrectable)
    (f : Mach → Mach) : m.withHeader n ecc f = f (m.headerTaken n ecc) := by
  unfold Mach.withHeader
  rw [hon]
  cases ecc with
  | clean => rfl
  | corrected => rfl
  | uncorrectable => exact absurd rfl hecc

theorem Mach.withHeader_bad {n : Nat} (hon : m.csiEnabled n = true) (f : Mach → Mach) :
    m.withHeader n .uncorrectable f = m.badHeader n := by
  rw [Mach.withHeader, hon]
  rfl

/-! ## A frame begins (R71, R72, R83) -/

section
variable (m)

/-- Room taken in the stream's queue for the header of a record, and the stream's next sequence number. -/
def Mach.headerPoured (m : Mach) (s : Nat) : Mach := (m.pourInto s 32).onStream s fun x => { x with seq := x.seq + 1, first := false }

/-- The frame that begins for stream s. -/
def Mach.newFrame (m : Mach) (vc dt s : Nat) (stamp : Word) (triggered : Bool) : OpenFrame :=
  { vc := vc, dt := dt, stream := s, height := (m.headerPoured s).frameHeight s, startAt := m.now
    item := { kind := 1, triggered := triggered, first := (m.stream s).first, seq := (m.stream s).seq, stamp := stamp,
              tFirst := stamp, tLast := stamp, left := 32 } }

def Mach.frameOpened (m : Mach) (n vc dt s : Nat) (stamp : Word) (triggered : Bool) : Mach :=
  (m.headerPoured s).setFrames n (m.openFrames n ++ [m.newFrame vc dt s stamp triggered])

/-- A frame whose lines are dropped. -/
def Mach.skippedFrame (m : Mach) (vc dt s : Nat) : OpenFrame :=
  { vc := vc, dt := dt, stream := s, item := { kind := 1, stamp := m.now, tFirst := m.now, tLast := m.now }, skip := true
    startAt := m.now }

/-- The fire at this time has its frame for stream s. -/
def Mach.fireTaken (m : Mach) (o : Nat) (at_ : Word) (s : Nat) : Mach :=
  m.setFsync o { m.fsyncOf o with fires := (m.fsyncOf o).fires.map fun g => if g.1 = at_ then (g.1, s :: g.2) else g }

theorem Mach.headerPoured_stream (s : Nat) : (m.headerPoured s).stream s =
    { m.stream s with q := (m.stream s).q.pour (m.inqGeom s) 32, seq := (m.stream s).seq + 1, first := false } := by
  simp only [Mach.headerPoured, Mach.pourInto, Mach.onStream, Mach.stream_setStream_same]

theorem Mach.headerPoured_stream_ne {s o : Nat} (h : o ≠ s) : (m.headerPoured s).stream o = m.stream o :=
  (Mach.stream_setStream_ne _ h _).trans (Mach.stream_setStream_ne _ h _)

theorem Mach.beginFrame_room {n vc dt s : Nat} {stamp : Word} {triggered : Bool}
    (h : 32 ≤ (m.stream s).q.capacity (m.inqGeom s)) :
    m.beginFrame n vc dt s stamp triggered = m.frameOpened n vc dt s stamp triggered := if_pos h

theorem Mach.skipFrame_eq (n vc dt s : Nat) :
    m.skipFrame n vc dt s = (m.strDrop s).setFrames n (m.openFrames n ++ [m.skippedFrame vc dt s]) := rfl

theorem Mach.fireTaken_fires (o : Nat) (at_ : Word) (s : Nat) :
    ∀ h ∈ ((m.fireTaken o at_ s).fsyncOf o).fires, h.1 = at_ → s ∈ h.2 := by
  have hfires : (m.fireTaken o at_ s).fsyncOf o = _ := sget_sput_same _ _ _ _
  rw [hfires]
  intro h hin hat
  obtain ⟨g, -, rfl⟩ := List.mem_map.mp hin
  by_cases hg : g.1 = at_
  · rw [if_pos hg]
    exact List.mem_cons_self
  · rw [if_neg hg] at hat
    exact absurd hat hg

end

section
variable {l : List Nat} {t : Mach} (h : Mach.IngressOnly l m t)
include h

theorem Mach.IngressOnly.recordFrameNo (n vc : Nat) (num : BitVec 16) : Mach.IngressOnly l m (t.recordFrameNo n vc num) := ⟨h.reg, h.rest⟩

theorem Mach.IngressOnly.fireTaken (o : Nat) (at_ : Word) (s : Nat) : Mach.IngressOnly l m (t.fireTaken o at_ s) := ⟨h.reg, h.rest⟩

end

/-- A stream that selects a channel and type is no discovery (R338). -/
theorem Mach.shSeesCamera_selected {n vc dt st : Nat} (hsel : m.cameraStream n vc dt = some st) : m.shSeesCamera n vc dt = m := by
  rw [Mach.shSeesCamera, hsel, Option.isNone_some, Bool.and_false, if_neg Bool.false_ne_true]

theorem Mach.shSeesCamera_owned {n vc dt : Nat} (howned : m.showHome = false) : m.shSeesCamera n vc dt = m := by
  rw [Mach.shSeesCamera, howned, Bool.false_and, Bool.false_and, if_neg Bool.false_ne_true]

theorem Mach.closeDamaged_none {n vc dt : Nat} (hnew : ∀ f ∈ m.openFrames n, f.is vc dt = false) :
    m.closeDamaged n (fun f => f.is vc dt) = m := by
  have hnil : (m.openFrames n).filter (fun f => f.is vc dt) = [] :=
    List.filter_eq_nil_iff.mpr fun f hf => by rw [hnew f hf]; decide
  rw [Mach.closeDamaged, hnil]
  rfl

section
variable {n vc dt st : Nat} (hbits : csiBits dt ≠ 0) (hsel : m.cameraStream n vc dt = some st)
  (hnew : ∀ f ∈ m.openFrames n, f.is vc dt = false)
include hbits hsel hnew

/-- A Frame Start of a free-running stream. -/
theorem Mach.frameStart_free (hfree : m.rbit (Reg.STR_SOURCE st) 13 = false) :
    m.frameStart n vc dt = m.beginFrame n vc dt st m.now false := by
  rw [Mach.rbit] at hfree
  unfold Mach.frameStart
  simp only [Mach.shSeesCamera_selected hsel, Mach.closeDamaged_none hnew, if_neg hbits, hsel, hfree]
  rfl

section
variable (htrig : m.rbit (Reg.STR_SOURCE st) 13 = true)
include htrig

/-- A Frame Start that matches a fire without a frame. -/
theorem Mach.frameStart_fired {f : Word × List Nat} (hfire : m.matchFire st (m.fld (Reg.STR_SOURCE st) 10 3) = some f)
    (hfirst : st ∉ f.2) :
    m.frameStart n vc dt = (m.fireTaken (m.fld (Reg.STR_SOURCE st) 10 3) f.1 st).beginFrame n vc dt st f.1 true := by
  rw [Mach.rbit] at htrig
  rw [Mach.fld] at hfire
  have hcontains : f.2.contains st = false := by simpa using hfirst
  unfold Mach.frameStart
  simp only [Mach.shSeesCamera_selected hsel, Mach.closeDamaged_none hnew, if_neg hbits, hsel, htrig, hfire, hcontains]
  rfl

/-- A Frame Start without a fire of its own. -/
theorem Mach.frameStart_unfired
    (hfires : ∀ f, m.matchFire st (m.fld (Reg.STR_SOURCE st) 10 3) = some f → st ∈ f.2) :
    m.frameStart n vc dt = m.skipFrame n vc dt st := by
  rw [Mach.rbit] at htrig
  rw [Mach.fld] at hfires
  unfold Mach.frameStart
  simp only [Mach.shSeesCamera_selected hsel, Mach.closeDamaged_none hnew, if_neg hbits, hsel, htrig, if_true]
  cases hfire : m.matchFire st ((m.reg (Reg.STR_SOURCE st)).field 10 3) with
  | none => rfl
  | some f => exact if_pos (List.contains_iff_mem.mpr (hfires f hfire))

end

end

/-- The fire that a Frame Start matches lies no more than the match window before it (R83). -/
theorem Mach.matchFire_within {s o : Nat} {f : Word × List Nat} (h : m.matchFire s o = some f) :
    ((m.time.count.setWidth 32 : Word) - f.1).toNat ≤ m.fld (Reg.STR_CTRL s) 0 16 * 10000 := by
  have hin := List.find?_some h
  rw [Bool.and_eq_true, decide_eq_true_iff] at hin
  exact hin.2

/-! ## Lines (R71, R72) -/

section
variable (m)

/-- A frame with a line of this length more. -/
def OpenFrame.withLine (f : OpenFrame) (line : List Byte) : OpenFrame :=
  { f with
    lines := f.lines + 1
    width := if f.lines = 0 then 8 * line.length / csiBits f.dt else f.width
    item := { f.item with payload := f.item.payload ++ line, left := f.item.left + line.length } }

theorem Mach.longPacket_open {n vc dt : Nat} {f : OpenFrame} (h : (m.openFrames n).find? (fun g => g.is vc dt) = some f)
    (line : List Byte) (crcOk : Bool) :
    m.longPacket n vc dt line crcOk = if crcOk then m.takeLine n f line else (m.csiDiscard n).putFrame n f.damage := by
  rw [Mach.longPacket, h]

theorem Mach.takeLine_room {n : Nat} {f : OpenFrame} {line : List Byte} (hskip : f.skip = false) (hcut : f.cut = false)
    (hroom : line.length ≤ (m.stream f.stream).q.capacity (m.inqGeom f.stream)) :
    m.takeLine n f line = (m.pourInto f.stream line.length).putFrame n (f.withLine line) := by
  unfold Mach.takeLine
  dsimp only
  rw [if_neg (by rw [hskip, hcut]; decide), if_pos hroom, List.take_of_length_le hroom]
  rfl

/-- A frame that stands in for the open one of its channel and type is found in its place. -/
theorem find_replaced {vc dt : Nat} {f g : OpenFrame} (hvc : g.vc = f.vc) (hdt : g.dt = f.dt) (l : List OpenFrame)
    (h : l.find? (fun k => k.is vc dt) = some f) :
    (l.map fun k => if k.is g.vc g.dt then g else k).find? (fun k => k.is vc dt) = some g := by
  have hf := List.find?_some h
  have hg : g.is vc dt = true := by rw [OpenFrame.is, hvc, hdt]; exact hf
  rw [OpenFrame.is, Bool.and_eq_true, beq_iff_eq, beq_iff_eq] at hg
  obtain ⟨rfl, rfl⟩ := hg
  induction l with
  | nil => exact absurd h (by simp)
  | cons k ks ih =>
    rw [List.find?_cons] at h
    rw [List.map_cons, List.find?_cons]
    by_cases hk : k.is g.vc g.dt = true
    · rw [if_pos hk, OpenFrame.is, beq_self_eq_true, beq_self_eq_true]
      rfl
    · rw [if_neg hk]
      rw [Bool.not_eq_true] at hk
      rw [hk] at h ⊢
      exact ih h

theorem Mach.putFrame_find {vc dt n : Nat} {f g : OpenFrame} (hvc : g.vc = f.vc) (hdt : g.dt = f.dt)
    (h : (m.openFrames n).find? (fun k => k.is vc dt) = some f) :
    ((m.putFrame n g).openFrames n).find? (fun k => k.is vc dt) = some g := by
  rw [Mach.putFrame, Mach.openFrames_setFrames_same]
  exact find_replaced hvc hdt _ h

/-! ## A frame closes (R72) -/

/-- The padding that ends a frame's record, as far as the queue can take it. -/
def Mach.framePad (m : Mach) (f : OpenFrame) : Nat :=
  min ((m.stream f.stream).q.capacity (m.inqGeom f.stream))
    (recordBytes f.item.payload.length - (32 + f.item.payload.length))

/-- The height is checked and the frame has another number of lines. -/
def OpenFrame.wrongHeight (f : OpenFrame) : Bool := f.height.any fun h => f.lines != h

/-- The item that a frame makes when it closes. -/
def Mach.closedItem (m : Mach) (f : OpenFrame) (damaged : Bool) : Item :=
  { f.item with
    damaged := f.item.damaged || damaged || f.wrongHeight || f.cut
    info0 := BitVec.ofNat 32 (f.lines % 65536 * 65536 + f.width % 65536)
    info1 := BitVec.ofNat 32 (f.dt * 256 + f.vc)
    left := f.item.left + m.framePad f }

/-- The stream of a frame that has closed. -/
def Mach.closedStream (m : Mach) (f : OpenFrame) (damaged : Bool) : Stream :=
  { m.stream f.stream with
    q := ((m.stream f.stream).q.pour (m.inqGeom f.stream) (m.framePad f)).endRecord (m.inqGeom f.stream)
    items := (m.stream f.stream).items ++ [m.closedItem f damaged] }

/-- The frame closed and its item in its stream. -/
def Mach.frameClosed (m : Mach) (n : Nat) (f : OpenFrame) (damaged : Bool) : Mach :=
  (m.setStream f.stream (m.closedStream f damaged)).setFrames n ((m.openFrames n).filter fun g => !g.is f.vc f.dt)

theorem Mach.closeFrame_whole {n : Fin 8} {f : OpenFrame} (hskip : f.skip = false) (damaged : Bool) :
    m.closeFrame n f damaged = m.frameClosed n f damaged := by
  have hgeom : ∀ l, (m.setFrames n l).inqGeom f.stream = m.inqGeom f.stream := fun l => by
    have hinq : Reg.STR_INQ f.stream ≠ Reg.SNS_CSI_STAT n := by
      simp only [Reg.STR_INQ, Reg.SNS_CSI_STAT]
      omega
    rw [Mach.inqGeom, Mach.inqGeom, Mach.fld, Mach.fld, Mach.setFrames_reg _ hinq]
  unfold Mach.closeFrame
  simp only [hskip, Bool.false_eq_true, if_false, hgeom]
  unfold Mach.frameClosed Mach.closedStream Mach.closedItem OpenFrame.wrongHeight
  cases f.height <;> rfl

theorem Mach.closedItem_damaged (f : OpenFrame) : (m.closedItem f true).damaged = true := by
  rw [Mach.closedItem, Bool.or_true, Bool.true_or, Bool.true_or]

theorem Mach.frameClosed_stream (n : Nat) (f : OpenFrame) (damaged : Bool) :
    (m.frameClosed n f damaged).stream f.stream = m.closedStream f damaged := by
  rw [Mach.frameClosed, Mach.setFrames_stream, Mach.stream_setStream_same]

end

/-! ## Commands of a port that is on -/

section
variable (m : Mach) (n : Fin 8)

/-- The module as a Frame Start's or Frame End's own effect meets it: its header taken and its frame number recorded. -/
def Mach.shortTaken (m : Mach) (n vc : Nat) (num : BitVec 16) (ecc : EccResult) : Mach :=
  (m.headerTaken n ecc).recordFrameNo n vc num

theorem Mach.headerTaken_only (ecc : EccResult) : Mach.IngressOnly [Reg.SNS_CSI_ERR n] m (m.headerTaken n ecc) := by
  unfold Mach.headerTaken
  split
  · exact (Mach.IngressOnly.refl _ m).setReg (by simp) _
  · exact .refl _ m

theorem Mach.shortTaken_only (vc : Nat) (num : BitVec 16) (ecc : EccResult) :
    Mach.IngressOnly [Reg.SNS_CSI_ERR n] m (m.shortTaken n vc num ecc) := by
  rw [Mach.shortTaken, Mach.recordFrameNo]
  exact (m.headerTaken_only n ecc).onPorts _

/-- Neither the open frames nor the streams nor the counters move. -/
theorem Mach.shortTaken_kept (vc : Nat) (num : BitVec 16) (ecc : EccResult) :
    (∀ k, (m.shortTaken n vc num ecc).openFrames k = m.openFrames k) ∧ (m.shortTaken n vc num ecc).streams = m.streams ∧
      (m.shortTaken n vc num ecc).obs = m.obs := by
  unfold Mach.shortTaken Mach.headerTaken
  split <;> exact ⟨fun _ => rfl, rfl, rfl⟩

theorem Mach.shortTaken_strSame (vc : Nat) (num : BitVec 16) (ecc : EccResult) : m.strSame (m.shortTaken n vc num ecc) :=
  fun a ha => (m.shortTaken_only n vc num ecc).reg a (by simp only [List.mem_singleton, Reg.SNS_CSI_ERR]; omega)

theorem OpenFrame.is_iff {f : OpenFrame} {vc dt : Nat} : f.is vc dt = true ↔ f.vc = vc ∧ f.dt = dt := by
  rw [OpenFrame.is, Bool.and_eq_true, beq_iff_eq, beq_iff_eq]

theorem Mach.frameOpened_openFrames (vc dt st : Nat) (stamp : Word) (triggered : Bool) :
    (m.frameOpened n vc dt st stamp triggered).openFrames n = m.openFrames n ++ [m.newFrame vc dt st stamp triggered] :=
  Mach.openFrames_setFrames_same _ _ _

theorem Mach.frameOpened_inFrame (vc dt st : Nat) (stamp : Word) (triggered : Bool) :
    (m.frameOpened n vc dt st stamp triggered).rbit (Reg.SNS_CSI_STAT n) 1 = true := by
  simp [Mach.frameOpened, Mach.setFrames_inFrame]

theorem Mach.IngressOnly.frameOpened {l : List Nat} {t : Mach} (h : Mach.IngressOnly l m t) (hn : Reg.SNS_CSI_STAT n ∈ l)
    (vc dt st : Nat) (stamp : Word) (triggered : Bool) : Mach.IngressOnly l m (t.frameOpened n vc dt st stamp triggered) :=
  ((h.onStream _ _).onStream _ _).setFrames hn _

theorem Mach.frameOpened_reg {a : Nat} (h : a ≠ Reg.SNS_CSI_STAT n) (vc dt st : Nat) (stamp : Word) (triggered : Bool) :
    (m.frameOpened n vc dt st stamp triggered).reg a = m.reg a := (m.headerPoured st).setFrames_reg h _

theorem Mach.frameOpened_fsyncOf (vc dt st : Nat) (stamp : Word) (triggered : Bool) (k : Nat) :
    (m.frameOpened n vc dt st stamp triggered).fsyncOf k = m.fsyncOf k := by
  rw [Mach.frameOpened, Mach.setFrames_fsyncOf, Mach.headerPoured, Mach.onStream_fsyncOf, Mach.pourInto, Mach.onStream_fsyncOf]

theorem Mach.frameOpened_obs (vc dt st : Nat) (stamp : Word) (triggered : Bool) :
    (m.frameOpened n vc dt st stamp triggered).obs = m.obs := by
  rw [Mach.frameOpened, Mach.setFrames_obs, Mach.headerPoured, Mach.onStream_obs, Mach.pourInto, Mach.onStream_obs]

theorem Mach.frameOpened_stream (vc dt st : Nat) (stamp : Word) (triggered : Bool) :
    (m.frameOpened n vc dt st stamp triggered).stream st =
      { m.stream st with q := (m.stream st).q.pour (m.inqGeom st) 32, seq := (m.stream st).seq + 1, first := false } := by
  rw [Mach.frameOpened, Mach.setFrames_stream, Mach.headerPoured_stream]

theorem Mach.frameOpened_stream_ne {st o : Nat} (h : o ≠ st) (vc dt : Nat) (stamp : Word) (triggered : Bool) :
    (m.frameOpened n vc dt st stamp triggered).stream o = m.stream o := by
  rw [Mach.frameOpened, Mach.setFrames_stream, m.headerPoured_stream_ne h]

variable {m n}

/-- A Frame Start that finds its channel and type open goes on as if the frame had closed before it (R72). -/
theorem Mach.frameStart_closed {vc dt : Nat} (howned : m.showHome = false)
    (howned' : (m.closeDamaged n fun f => f.is vc dt).showHome = false)
    (hnew : ∀ f ∈ (m.closeDamaged n fun f => f.is vc dt).openFrames n, f.is vc dt = false) :
    m.frameStart n vc dt = (m.closeDamaged n fun f => f.is vc dt).frameStart n vc dt := by
  unfold Mach.frameStart
  rw [Mach.shSeesCamera_owned howned, Mach.shSeesCamera_owned howned', Mach.closeDamaged_none hnew]

theorem Mach.closeDamaged_one {vc dt : Nat} {f : OpenFrame} (hone : (m.openFrames n).filter (fun g => g.is vc dt) = [f])
    (hskip : f.skip = false) : m.closeDamaged n (fun g => g.is vc dt) = m.frameClosed n f true := by
  rw [Mach.closeDamaged, hone]
  exact Mach.closeFrame_whole m hskip true

/-- A frame closes whether or not the number of the next one has been recorded. -/
theorem Mach.frameClosed_recordFrameNo (f : OpenFrame) (damaged : Bool) (vc : Nat) (num : BitVec 16) :
    (m.recordFrameNo n vc num).frameClosed n f damaged = (m.frameClosed n f damaged).recordFrameNo n vc num := by
  have hparts : ∀ x l, ((m.recordFrameNo n vc num).setStream f.stream x).setFrames n l =
      ((m.setStream f.stream x).setFrames n l).recordFrameNo n vc num := fun _ _ => rfl
  exact hparts _ _

theorem Mach.frameClosed_openFrames {vc dt : Nat} {f : OpenFrame} (hf : f.is vc dt = true) (damaged : Bool) :
    (m.frameClosed n f damaged).openFrames n = (m.openFrames n).filter fun g => !g.is vc dt := by
  obtain ⟨rfl, rfl⟩ := OpenFrame.is_iff.mp hf
  exact Mach.openFrames_setFrames_same _ _ _

theorem Mach.frameClosed_stream_ne {f : OpenFrame} {o : Nat} (h : o ≠ f.stream) (damaged : Bool) :
    (m.frameClosed n f damaged).stream o = m.stream o := by
  rw [Mach.frameClosed, Mach.setFrames_stream, Mach.stream_setStream_ne m h]

theorem Mach.frameClosed_only (f : OpenFrame) (damaged : Bool) :
    Mach.IngressOnly [Reg.SNS_CSI_STAT n] m (m.frameClosed n f damaged) :=
  ((Mach.IngressOnly.refl _ m).setStream _ _).setFrames (by simp) _

theorem Mach.frameClosed_obs (f : OpenFrame) (damaged : Bool) : (m.frameClosed n f damaged).obs = m.obs := by
  rw [Mach.frameClosed, Mach.setFrames_obs, Mach.setStream_obs]

theorem Mach.csiEnabled_congr {t : Mach} (hcfg : t.reg (Reg.SNS_CSI_CFG n) = m.reg (Reg.SNS_CSI_CFG n)) (hislands : t.islands = m.islands) :
    t.csiEnabled n = m.csiEnabled n := by
  rw [Mach.csiEnabled, Mach.csiEnabled, Mach.rbit_congr hcfg, Mach.runs, Mach.runs, Mach.island, Mach.island, hislands]

section
variable {s : State} (live : s.m.live = true) (hon : s.m.csiEnabled n = true)
include live hon

theorem exec_frameStart (vc : BitVec 4) (dt : BitVec 6) (num : BitVec 16) {ecc : EccResult} (hecc : ecc ≠ .uncorrectable) :
    exec (.frameStart n vc ⟨dt, num, ecc⟩) s =
      .next { s with m := (s.m.shortTaken n vc.toNat num ecc).frameStart n vc.toNat dt.toNat } := by
  have hact : exec (.frameStart n vc ⟨dt, num, ecc⟩) s = _ := act_live live fun m =>
    m.withHeader n ecc fun m => (m.recordFrameNo n vc.toNat num).frameStart n vc.toNat dt.toNat
  rw [hact, Mach.withHeader_good hon hecc]
  rfl

/-- A clean header leaves no trace. -/
theorem exec_frameStart_clean (vc : BitVec 4) (dt : BitVec 6) (num : BitVec 16) : exec (.frameStart n vc ⟨dt, num, .clean⟩) s =
    .next { s with m := (s.m.recordFrameNo n vc.toNat num).frameStart n vc.toNat dt.toNat } :=
  exec_frameStart live hon vc dt num (by decide)

theorem exec_frameEnd (vc : BitVec 4) (dt : BitVec 6) (num : BitVec 16) : exec (.frameEnd n vc ⟨dt, num, .clean⟩) s =
    .next { s with m := (s.m.recordFrameNo n vc.toNat num).frameEnd n vc.toNat dt.toNat } := by
  have hact : exec (.frameEnd n vc ⟨dt, num, .clean⟩) s = _ := act_live live fun m =>
    m.withHeader n .clean fun m => (m.recordFrameNo n vc.toNat num).frameEnd n vc.toNat dt.toNat
  rw [hact, Mach.withHeader_good hon (by decide)]
  rfl

theorem exec_csiLongPacket (vc : BitVec 4) (dt : BitVec 6) (line : List Byte) (crcOk : Bool) :
    exec (.csiLongPacket n vc dt line .clean crcOk) s =
      .next { s with m := s.m.longPacket n vc.toNat dt.toNat line crcOk } := by
  have hact : exec (.csiLongPacket n vc dt line .clean crcOk) s = _ := act_live live fun m =>
    m.withHeader n .clean fun m => m.longPacket n vc.toNat dt.toNat line crcOk
  rw [hact, Mach.withHeader_good hon (by decide)]
  rfl

/-- A packet with an uncorrectable header, whichever it is (log entry 17). -/
theorem exec_badHeader (vc : BitVec 4) (dt : BitVec 6) (line : List Byte) (num : BitVec 16) (crcOk : Bool) :
    ∀ i ∈ [Instr.frameStart n vc ⟨dt, num, .uncorrectable⟩, .csiLongPacket n vc dt line .uncorrectable crcOk,
      .frameEnd n vc ⟨dt, num, .uncorrectable⟩], exec i s = .next { s with m := s.m.badHeader n } := by
  have hbad : ∀ f, act s (fun m => m.withHeader n .uncorrectable f) = .next { s with m := s.m.badHeader n } := fun f => by
    rw [act_live live, Mach.withHeader_bad hon]
  intro i hi
  simp only [List.mem_cons, List.not_mem_nil, or_false] at hi
  rcases hi with rfl | rfl | rfl
  · exact hbad _
  · exact hbad _
  · exact hbad _

theorem exec_frameTimeout (vc : BitVec 4) (dt : BitVec 6) {f : OpenFrame}
    (hopen : (s.m.openFrames n).find? (fun g => g.is vc.toNat dt.toNat) = some f)
    (hdue : reached (s.m.time.count.setWidth 32) (f.startAt + BitVec.ofNat 32 (s.m.fld (Reg.SNS_CSI_CFG n) 8 8 * 1000000)) = true) :
    exec (.frameTimeout n vc dt) s = .next { s with m := s.m.closeFrame n f true } := by
  have hact : exec (.frameTimeout n vc dt) s = _ := act_live live fun m =>
    if m.csiEnabled n then m.frameTimeout n vc.toNat dt.toNat else m
  have hclose : s.m.frameTimeout n vc.toNat dt.toNat = s.m.closeFrame n f true := by
    rw [Mach.frameTimeout, hopen]
    exact if_pos hdue
  rw [hact, if_pos hon, hclose]

theorem exec_csiLaneSyncChange (on : Bool) :
    exec (.csiLaneSyncChange n on) s = .next { s with m := s.m.setRBit (Reg.SNS_CSI_STAT n) 0 on } := by
  have hact : exec (.csiLaneSyncChange n on) s = _ := act_live live fun m =>
    if m.csiEnabled n then m.setRBit (Reg.SNS_CSI_STAT n) 0 on else m
  rw [hact, if_pos hon]

end

end

end

/-- From m to t frame f of port n has closed as one item of its stream, and nothing else of the streams has moved. -/
def Mach.frameCloses (m : Mach) (n : Fin 8) (vc dt : Nat) (f : OpenFrame) (hurt : Bool) (t : Mach) (it : Item) : Prop :=
  t.openFrames n = (m.openFrames n).filter (fun g => !g.is vc dt) ∧ (t.stream f.stream).items = (m.stream f.stream).items ++ [it] ∧
    (∀ o, o ≠ f.stream → t.stream o = m.stream o) ∧ it.payload = f.item.payload ∧ it.seq = f.item.seq ∧
    it.stamp = f.item.stamp ∧ it.info0 = BitVec.ofNat 32 (f.lines % 65536 * 65536 + f.width % 65536) ∧
    it.info1 = BitVec.ofNat 32 (dt * 256 + vc) ∧
    it.damaged = (f.item.damaged || hurt || f.height.any (fun h => f.lines != h) || f.cut) ∧
    m.regsBut t [Reg.SNS_CSI_STAT n] ∧ { t with regs := m.regs, ports := m.ports, streams := m.streams } = m

/-- A frame that closes, whatever else its ports note. -/
theorem Mach.frameClosed_closes (m : Mach) {n : Fin 8} {vc dt : Nat} {f : OpenFrame} (his : f.is vc dt = true) (hurt : Bool)
    (g : Ports → Ports) (hg : ∀ p, (g p).frames = p.frames) :
    m.frameCloses n vc dt f hurt ((m.frameClosed n f hurt).onPorts g) (m.closedItem f hurt) := by
  obtain ⟨hvc, hdt⟩ := OpenFrame.is_iff.mp his
  have honly := Mach.frameClosed_only (m := m) (n := n) f hurt
  have hframes := Mach.frameClosed_openFrames (m := m) (n := n) his hurt
  have hstream := m.frameClosed_stream n f hurt
  have hstreams : ∀ o, o ≠ f.stream → (m.frameClosed n f hurt).stream o = m.stream o := fun o ho => Mach.frameClosed_stream_ne ho hurt
  have hobs : (m.frameClosed n f hurt).obs = m.obs := Mach.frameClosed_obs f hurt
  generalize m.frameClosed n f hurt = u at *
  refine ⟨?_, (congrArg Stream.items hstream :), hstreams, rfl, rfl, rfl, rfl, ?_, rfl, honly.reg, (honly.onPorts g).rest_streams hobs⟩
  · rw [← hframes, Mach.openFrames, Mach.onPorts, hg]
    rfl
  · rw [← hvc, ← hdt]
    rfl

section
variable {s : State} {n : Fin 8} (live : s.m.live = true) (hon : s.m.csiEnabled n = true)
include live hon

/-! ## What a Frame Start does (R71, R83) -/

section
variable {vc : BitVec 4} {dt : BitVec 6} {st : Nat} (num : BitVec 16) (hbits : csiBits dt.toNat ≠ 0)
  (hsel : s.m.cameraStream n vc.toNat dt.toNat = some st)
include hbits hsel

/-- A Frame Start of a free-running stream opens a frame stamped now. -/
theorem exec_frameStart_free {ecc : EccResult} (hecc : ecc ≠ .uncorrectable) (hfree : s.m.rbit (Reg.STR_SOURCE st) 13 = false)
    (hnew : ∀ f ∈ s.m.openFrames n, f.is vc.toNat dt.toNat = false) (hroom : 32 ≤ (s.m.stream st).q.capacity (s.m.inqGeom st)) :
    ∃ t f, exec (.frameStart n vc ⟨dt, num, ecc⟩) s = .next { s with m := t } ∧ t.openFrames n = s.m.openFrames n ++ [f] ∧
      sget (fun _ => 0) t.ports.frameNo (16 * n.val + vc.toNat) = num ∧
      t.fld (Reg.SNS_CSI_ERR n) 16 16 = (if ecc = .corrected then min 65535 (s.m.fld (Reg.SNS_CSI_ERR n) 16 16 + 1)
        else s.m.fld (Reg.SNS_CSI_ERR n) 16 16) ∧
      f.vc = vc.toNat ∧ f.dt = dt.toNat ∧ f.stream = st ∧ f.lines = 0 ∧ f.skip = false ∧ f.cut = false ∧
      f.item.stamp = s.m.time.count.setWidth 32 ∧ f.item.seq = (s.m.stream st).seq ∧
      f.item.first = (s.m.stream st).first ∧ f.item.triggered = false ∧ f.item.payload = [] ∧
      (t.stream st).seq = (s.m.stream st).seq + 1 ∧ (t.stream st).first = false ∧
      (t.stream st).items = (s.m.stream st).items ∧ (∀ o, o ≠ st → t.stream o = s.m.stream o) ∧
      t.rbit (Reg.SNS_CSI_STAT n) 1 = true ∧ s.m.regsBut t [Reg.SNS_CSI_STAT n, Reg.SNS_CSI_ERR n] ∧
      { t with regs := s.m.regs, ports := s.m.ports, streams := s.m.streams } = s.m := by
  obtain ⟨hframes, hstreams, hobs⟩ := s.m.shortTaken_kept n vc.toNat num ecc
  have honly := s.m.shortTaken_only n vc.toNat num ecc
  have hstr := s.m.shortTaken_strSame n vc.toNat num ecc
  have herr : (s.m.shortTaken n vc.toNat num ecc).fld (Reg.SNS_CSI_ERR n) 16 16 = _ := s.m.headerTaken_fld n ecc
  have hnum : sget (fun _ => 0) (s.m.shortTaken n vc.toNat num ecc).ports.frameNo (16 * n.val + vc.toNat) = num :=
    sget_sput_same _ _ _ _
  have hexec := exec_frameStart live hon vc dt num hecc
  generalize s.m.shortTaken n vc.toNat num ecc = u at *
  have hstream : ∀ o, u.stream o = s.m.stream o := fun o => by rw [Mach.stream, hstreams]; rfl
  have hopened := u.frameOpened_stream n vc.toNat dt.toNat st u.now false
  have hall : Mach.IngressOnly [Reg.SNS_CSI_STAT n, Reg.SNS_CSI_ERR n] s.m (u.frameOpened n vc.toNat dt.toNat st u.now false) :=
    Mach.IngressOnly.frameOpened s.m n (honly.mono (by simp)) (by simp) _ _ _ _ _
  rw [hstream] at hopened
  rw [Mach.frameStart_free hbits ((hstr.cameraStream _ _ _).trans hsel) (by rw [hframes]; exact hnew)
      ((Mach.rbit_congr (hstr.source st) 13).trans hfree),
    Mach.beginFrame_room _ (by rw [hstream, hstr.inqGeom]; exact hroom)] at hexec
  refine ⟨_, u.newFrame vc.toNat dt.toNat st u.now false, hexec, ?_, hnum, ?_, rfl, rfl, rfl, rfl, rfl, rfl, honly.now,
    congrArg Stream.seq (hstream st), congrArg Stream.first (hstream st), rfl, rfl, ?_, ?_, ?_, fun o ho => ?_,
    u.frameOpened_inFrame n _ _ _ _ _, hall.reg,
    hall.rest_streams ((u.frameOpened_obs n _ _ _ _ _).trans hobs)⟩
  · rw [Mach.frameOpened_openFrames, hframes]
  · rw [Mach.fld_congr (Mach.frameOpened_reg _ _ (csiErr_ne_stat n) _ _ _ _ _)]
    exact herr
  · rw [hopened]
  · rw [hopened]
  · rw [hopened]
  · rw [Mach.frameOpened_stream_ne _ _ ho, hstream]

/-- From m to t frame g has opened at port n for its stream. -/
def Mach.frameOpens (m : Mach) (n : Fin 8) (vc dt st : Nat) (t : Mach) (g : OpenFrame) : Prop :=
  t.openFrames n = m.openFrames n ++ [g] ∧ g.vc = vc ∧ g.dt = dt ∧ g.stream = st ∧
    { t with regs := m.regs, ports := m.ports, streams := m.streams, obs := m.obs } = m

section
variable (htrig : s.m.rbit (Reg.STR_SOURCE st) 13 = true) (hnew : ∀ f ∈ s.m.openFrames n, f.is vc.toNat dt.toNat = false)
include htrig hnew

/-- A Frame Start of a triggered stream takes the stamp of the fire it matches. -/
theorem exec_frameStart_fired {f : Word × List Nat} (hfire : s.m.matchFire st (s.m.fld (Reg.STR_SOURCE st) 10 3) = some f)
    (hfirst : st ∉ f.2) (hroom : 32 ≤ (s.m.stream st).q.capacity (s.m.inqGeom st)) :
    ∃ t g, exec (.frameStart n vc ⟨dt, num, .clean⟩) s = .next { s with m := t } ∧ s.m.frameOpens n vc.toNat dt.toNat st t g ∧
      g.skip = false ∧ g.item.triggered = true ∧ g.item.stamp = f.1 ∧
      ((s.m.time.count.setWidth 32 : Word) - f.1).toNat ≤ s.m.fld (Reg.STR_CTRL st) 0 16 * 10000 ∧
      g.item.seq = (s.m.stream st).seq ∧ (t.stream st).seq = (s.m.stream st).seq + 1 ∧ t.obs = s.m.obs ∧
      ∀ h ∈ (t.fsyncOf (s.m.fld (Reg.STR_SOURCE st) 10 3)).fires, h.1 = f.1 → st ∈ h.2 := by
  have hexec := exec_frameStart_clean live hon vc dt num
  rw [Mach.frameStart_fired (m := s.m.recordFrameNo n vc.toNat num) hbits hsel hnew htrig hfire hfirst] at hexec
  have hfires := (s.m.recordFrameNo n vc.toNat num).fireTaken_fires (s.m.fld (Reg.STR_SOURCE st) 10 3) f.1 st
  have honly : Mach.IngressOnly [Reg.SNS_CSI_STAT n] s.m ((s.m.recordFrameNo n vc.toNat num).fireTaken (s.m.fld (Reg.STR_SOURCE st) 10 3) f.1 st) :=
    ((Mach.IngressOnly.refl _ s.m).recordFrameNo _ _ _).fireTaken _ _ _
  have hframes : ((s.m.recordFrameNo n vc.toNat num).fireTaken (s.m.fld (Reg.STR_SOURCE st) 10 3) f.1 st).openFrames n = s.m.openFrames n := rfl
  have hstream : ((s.m.recordFrameNo n vc.toNat num).fireTaken (s.m.fld (Reg.STR_SOURCE st) 10 3) f.1 st).stream st = s.m.stream st := rfl
  have hgeom : ((s.m.recordFrameNo n vc.toNat num).fireTaken (s.m.fld (Reg.STR_SOURCE st) 10 3) f.1 st).inqGeom st = s.m.inqGeom st := rfl
  have hobs : ((s.m.recordFrameNo n vc.toNat num).fireTaken (s.m.fld (Reg.STR_SOURCE st) 10 3) f.1 st).obs = s.m.obs := rfl
  change exec (.frameStart n vc ⟨dt, num, .clean⟩) s = .next { s with m := ((s.m.recordFrameNo n vc.toNat num).fireTaken (s.m.fld (Reg.STR_SOURCE st) 10 3) f.1 st).beginFrame n _ _ st f.1 true } at hexec
  generalize (s.m.recordFrameNo n vc.toNat num).fireTaken (s.m.fld (Reg.STR_SOURCE st) 10 3) f.1 st = u at *
  rw [Mach.beginFrame_room _ (by rw [hstream, hgeom]; exact hroom)] at hexec
  have hall : Mach.IngressOnly [Reg.SNS_CSI_STAT n] s.m (u.frameOpened n vc.toNat dt.toNat st f.1 true) :=
    Mach.IngressOnly.frameOpened s.m n honly (by simp) _ _ _ _ _
  refine ⟨_, u.newFrame vc.toNat dt.toNat st f.1 true, hexec, ⟨?_, rfl, rfl, rfl, hall.rest⟩, rfl, rfl, rfl,
    Mach.matchFire_within hfire, congrArg Stream.seq hstream, ?_, (u.frameOpened_obs n _ _ _ _ _).trans hobs, ?_⟩
  · rw [Mach.frameOpened_openFrames, hframes]
  · rw [Mach.frameOpened_stream, hstream]
  · rw [Mach.frameOpened_fsyncOf]
    exact hfires

/-- Without a fire of its own its lines are dropped and counted. -/
theorem exec_frameStart_unfired (hfires : ∀ f, s.m.matchFire st (s.m.fld (Reg.STR_SOURCE st) 10 3) = some f → st ∈ f.2) :
    ∃ t g, exec (.frameStart n vc ⟨dt, num, .clean⟩) s = .next { s with m := t } ∧ s.m.frameOpens n vc.toNat dt.toNat st t g ∧
      g.skip = true ∧ t.streams = s.m.streams ∧ t.reg (Reg.STR_DROPS st) = s.m.reg (Reg.STR_DROPS st) + 1 := by
  have hexec := exec_frameStart_clean live hon vc dt num
  rw [Mach.frameStart_unfired (m := s.m.recordFrameNo n vc.toNat num) hbits hsel hnew htrig hfires, Mach.skipFrame_eq] at hexec
  have hdrops : Reg.STR_DROPS st ≠ Reg.SNS_CSI_STAT n := by
    simp only [Reg.STR_DROPS, Reg.SNS_CSI_STAT]
    omega
  refine ⟨_, s.m.skippedFrame vc.toNat dt.toNat st, hexec, ⟨Mach.openFrames_setFrames_same _ _ _, rfl, rfl, rfl, ?_⟩, rfl, ?_, ?_⟩
  · exact (((Mach.IngressOnly.refl [Reg.STR_DROPS st, Reg.SNS_CSI_STAT n] s.m).onPorts _).strDrop (by simp)).setFrames (by simp) _ |>.rest
  · rw [Mach.setFrames_streams, (Mach.strDrop_kept _ _).1]
    rfl
  · rw [Mach.setFrames_reg _ hdrops, Mach.strDrop_reg, if_pos rfl]
    rfl

end

end

/-- A Frame Start that finds its channel and type open closes that frame first, as a damaged item. -/
theorem exec_frameStart_reopens {vc : BitVec 4} {dt : BitVec 6} (num : BitVec 16) {f : OpenFrame} (howned : s.m.showHome = false)
    (hone : (s.m.openFrames n).filter (fun g => g.is vc.toNat dt.toNat) = [f]) (hskip : f.skip = false) :
    ∃ (u : Mach) (it : Item), exec (.frameStart n vc ⟨dt, num, .clean⟩) s = exec (.frameStart n vc ⟨dt, num, .clean⟩) { s with m := u } ∧
      u.openFrames n = (s.m.openFrames n).filter (fun g => !g.is vc.toNat dt.toNat) ∧
      (u.stream f.stream).items = (s.m.stream f.stream).items ++ [it] ∧ it.damaged = true ∧
      it.payload = f.item.payload ∧ it.seq = f.item.seq ∧ it.stamp = f.item.stamp ∧
      (∀ p, p ≠ f.stream → u.stream p = s.m.stream p) ∧ s.m.regsBut u [Reg.SNS_CSI_STAT n] ∧
      { u with regs := s.m.regs, ports := s.m.ports, streams := s.m.streams } = s.m := by
  have hexec := exec_frameStart_clean live hon vc dt num
  have hclosed : (s.m.recordFrameNo n vc.toNat num).closeDamaged n (fun g => g.is vc.toNat dt.toNat) =
      (s.m.frameClosed n f true).recordFrameNo n vc.toNat num :=
    (Mach.closeDamaged_one (m := s.m.recordFrameNo n vc.toNat num) hone hskip).trans (Mach.frameClosed_recordFrameNo _ _ _ _)
  have hmem : f ∈ (s.m.openFrames n).filter fun g => g.is vc.toNat dt.toNat := hone ▸ List.mem_singleton_self f
  obtain ⟨-, his⟩ := List.mem_filter.mp hmem
  have honly := Mach.frameClosed_only (m := s.m) (n := n) f true
  have hframes := Mach.frameClosed_openFrames (m := s.m) (n := n) his true
  have hstream := s.m.frameClosed_stream n f true
  have hstreams : ∀ p, p ≠ f.stream → (s.m.frameClosed n f true).stream p = s.m.stream p := fun p hp =>
    Mach.frameClosed_stream_ne hp true
  have hrest := honly.rest_streams (Mach.frameClosed_obs f true)
  generalize s.m.frameClosed n f true = u at *
  have hnone : ∀ g ∈ u.openFrames n, g.is vc.toNat dt.toNat = false := fun g hg => by
    rw [hframes] at hg
    simpa using (List.mem_filter.mp hg).2
  have hlive : u.live = true := (congrArg Mach.live hrest :).trans live
  have hon' : u.csiEnabled n = true :=
    (Mach.csiEnabled_congr (honly.reg _ (by simp only [List.mem_singleton, Reg.SNS_CSI_CFG, Reg.SNS_CSI_STAT]; omega)) honly.islands).trans hon
  have howned' : u.showHome = false := (Mach.rbit_congr (honly.reg _ (by simp only [List.mem_singleton, Reg.SNS_CSI_STAT, Reg.FPL_STATUS]; omega)) 4).trans howned
  have hnext := Mach.frameStart_closed (m := s.m.recordFrameNo n vc.toNat num) (n := n) (vc := vc.toNat) (dt := dt.toNat) howned
  rw [hclosed] at hnext
  refine ⟨u, s.m.closedItem f true, ?_, hframes, ?_, s.m.closedItem_damaged f, rfl, rfl, rfl, hstreams, honly.reg, hrest⟩
  · rw [hexec, hnext howned' hnone]
    exact (exec_frameStart_clean (s := { s with m := u }) hlive hon' vc dt num).symm
  · rw [hstream]
    rfl

/-! ## What a long packet does (R71, R72) -/

section
variable (vc : BitVec 4) (dt : BitVec 6) (line : List Byte) {f : OpenFrame}
  (hopen : (s.m.openFrames n).find? (fun g => g.is vc.toNat dt.toNat) = some f)

section
include hopen

theorem exec_csiLongPacket_taken (hskip : f.skip = false) (hcut : f.cut = false)
    (hroom : line.length ≤ (s.m.stream f.stream).q.capacity (s.m.inqGeom f.stream)) :
    ∃ t g, exec (.csiLongPacket n vc dt line .clean true) s = .next { s with m := t } ∧
      (t.openFrames n).find? (fun g => g.is vc.toNat dt.toNat) = some g ∧ g.lines = f.lines + 1 ∧
      g.item.payload = f.item.payload ++ line ∧ g.item.damaged = f.item.damaged ∧ g.item.seq = f.item.seq ∧
      g.item.stamp = f.item.stamp ∧ (∀ o, o ≠ f.stream → t.stream o = s.m.stream o) ∧
      s.m.regsBut t [Reg.SNS_CSI_STAT n] ∧ { t with regs := s.m.regs, ports := s.m.ports, streams := s.m.streams } = s.m := by
  have hexec := exec_csiLongPacket live hon vc dt line true
  rw [Mach.longPacket_open _ hopen, if_pos rfl, Mach.takeLine_room _ hskip hcut hroom] at hexec
  have hall : Mach.IngressOnly [Reg.SNS_CSI_STAT n] s.m ((s.m.pourInto f.stream line.length).putFrame n (f.withLine line)) :=
    ((Mach.IngressOnly.refl _ s.m).onStream _ _).setFrames (by simp) _
  refine ⟨_, f.withLine line, hexec, Mach.putFrame_find (m := s.m.pourInto f.stream line.length) (f := f) rfl rfl hopen,
    rfl, rfl, rfl, rfl, rfl, fun o ho => ?_, hall.reg, hall.rest_streams ?_⟩
  · rw [Mach.putFrame, Mach.setFrames_stream, Mach.pourInto, Mach.onStream, Mach.stream_setStream_ne _ ho]
  · rw [Mach.putFrame, Mach.setFrames_obs, Mach.pourInto, Mach.onStream_obs]

theorem exec_csiLongPacket_damaged :
    ∃ t g, exec (.csiLongPacket n vc dt line .clean false) s = .next { s with m := t } ∧
      (t.openFrames n).find? (fun g => g.is vc.toNat dt.toNat) = some g ∧ g.item.damaged = true ∧ g.lines = f.lines ∧
      g.item.payload = f.item.payload ∧ t.rbit Reg.SNS_EVENT 0 = true ∧
      t.fld (Reg.SNS_CSI_ERR n) 0 16 = min 65535 (s.m.fld (Reg.SNS_CSI_ERR n) 0 16 + 1) ∧
      s.m.regsBut t [Reg.SNS_CSI_STAT n, Reg.SNS_CSI_ERR n, Reg.SNS_EVENT] ∧
      { t with regs := s.m.regs, ports := s.m.ports } = s.m := by
  have hexec := exec_csiLongPacket live hon vc dt line false
  rw [Mach.longPacket_open _ hopen, if_neg Bool.false_ne_true] at hexec
  obtain ⟨hevent, hcount⟩ := s.m.csiDiscard_shows n
  have hall : Mach.IngressOnly [Reg.SNS_CSI_STAT n, Reg.SNS_CSI_ERR n, Reg.SNS_EVENT] s.m ((s.m.csiDiscard n).putFrame n f.damage) :=
    ((s.m.csiDiscard_only n).mono (by simp)).setFrames (by simp) _
  refine ⟨_, f.damage, hexec, Mach.putFrame_find (m := s.m.csiDiscard n) (f := f) rfl rfl hopen, rfl, rfl, rfl, ?_, ?_, hall.reg, ?_⟩
  · exact (Mach.rbit_congr (Mach.setFrames_reg _ (event_ne_csiStat n) _) 0).trans hevent
  · exact (Mach.fld_congr (Mach.setFrames_reg _ (csiErr_ne_stat n) _) 0 16).trans hcount
  · exact hall.rest_ports rfl rfl

end

/-- A packet with an uncorrectable header damages every open frame of its port. -/
theorem exec_badHeader_shows (num : BitVec 16) (crcOk : Bool) :
    ∀ i ∈ [Instr.frameStart n vc ⟨dt, num, .uncorrectable⟩, .csiLongPacket n vc dt line .uncorrectable crcOk,
      .frameEnd n vc ⟨dt, num, .uncorrectable⟩],
    ∃ t, exec i s = .next { s with m := t } ∧ t.openFrames n = (s.m.openFrames n).map OpenFrame.damage ∧
      t.rbit Reg.SNS_EVENT 0 = true ∧ t.fld (Reg.SNS_CSI_ERR n) 0 16 = min 65535 (s.m.fld (Reg.SNS_CSI_ERR n) 0 16 + 1) ∧
      s.m.regsBut t [Reg.SNS_CSI_STAT n, Reg.SNS_CSI_ERR n, Reg.SNS_EVENT] ∧
      { t with regs := s.m.regs, ports := s.m.ports } = s.m := by
  intro i hi
  obtain ⟨hevent, hcount⟩ := s.m.csiDiscard_shows n
  have hall : Mach.IngressOnly [Reg.SNS_CSI_STAT n, Reg.SNS_CSI_ERR n, Reg.SNS_EVENT] s.m (s.m.badHeader n) :=
    ((s.m.csiDiscard_only n).mono (by simp)).setFrames (by simp) _
  refine ⟨_, exec_badHeader live hon vc dt line num crcOk i hi, Mach.openFrames_setFrames_same _ _ _, ?_, ?_, hall.reg, ?_⟩
  · exact (Mach.rbit_congr (Mach.setFrames_reg _ (event_ne_csiStat n) _) 0).trans hevent
  · exact (Mach.fld_congr (Mach.setFrames_reg _ (csiErr_ne_stat n) _) 0 16).trans hcount
  · exact hall.rest_ports rfl rfl

end

/-! ## How a frame ends (R72) -/

section
variable {vc : BitVec 4} {dt : BitVec 6} {f : OpenFrame} (hopen : (s.m.openFrames n).find? (fun g => g.is vc.toNat dt.toNat) = some f)
  (hskip : f.skip = false)

section
include hopen hskip

theorem exec_frameEnd_closes (num : BitVec 16) :
    ∃ t it, exec (.frameEnd n vc ⟨dt, num, .clean⟩) s = .next { s with m := t } ∧ s.m.frameCloses n vc.toNat dt.toNat f false t it := by
  have hend : (s.m.recordFrameNo n vc.toNat num).frameEnd n vc.toNat dt.toNat =
      (s.m.recordFrameNo n vc.toNat num).closeFrame n f false := by
    rw [Mach.frameEnd, show (s.m.recordFrameNo n vc.toNat num).openFrames n = s.m.openFrames n from rfl, hopen]
  have his := List.find?_some hopen
  refine ⟨_, _, ?_, s.m.frameClosed_closes his false
    (fun p => { p with frameNo := sput (fun _ => 0) (16 * n.val + vc.toNat) num p.frameNo }) fun _ => rfl⟩
  rw [exec_frameEnd live hon, hend, Mach.closeFrame_whole _ hskip, Mach.frameClosed_recordFrameNo]
  rfl

theorem exec_frameTimeout_closes
    (hdue : reached (s.m.time.count.setWidth 32) (f.startAt + BitVec.ofNat 32 (s.m.fld (Reg.SNS_CSI_CFG n) 8 8 * 1000000)) = true) :
    ∃ t it, exec (.frameTimeout n vc dt) s = .next { s with m := t } ∧ s.m.frameCloses n vc.toNat dt.toNat f true t it := by
  have his := List.find?_some hopen
  refine ⟨_, _, ?_, s.m.frameClosed_closes his true id fun _ => rfl⟩
  rw [exec_frameTimeout live hon vc dt hopen hdue, Mach.closeFrame_whole _ hskip]
  rfl

end

/-- A Frame End that no open frame and no stream takes. -/
theorem exec_frameEnd_discarded (num : BitVec 16) (hnone : s.m.openFrames n = []) (hunsel : s.m.unselected n vc.toNat dt.toNat = true) :
    ∃ t, exec (.frameEnd n vc ⟨dt, num, .clean⟩) s = .next { s with m := t } ∧ t.rbit Reg.SNS_EVENT 0 = true ∧
      t.fld (Reg.SNS_CSI_ERR n) 0 16 = min 65535 (s.m.fld (Reg.SNS_CSI_ERR n) 0 16 + 1) ∧
      s.m.regsBut t [Reg.SNS_CSI_ERR n, Reg.SNS_EVENT] ∧ { t with regs := s.m.regs, ports := s.m.ports } = s.m := by
  have hend : (s.m.recordFrameNo n vc.toNat num).frameEnd n vc.toNat dt.toNat = (s.m.recordFrameNo n vc.toNat num).csiDiscard n := by
    rw [Mach.frameEnd, show (s.m.recordFrameNo n vc.toNat num).openFrames n = s.m.openFrames n from rfl, hnone]
    exact if_pos hunsel
  have hall := ((Mach.IngressOnly.refl [Reg.SNS_CSI_ERR n, Reg.SNS_EVENT] s.m).recordFrameNo n vc.toNat num).trans
    ((s.m.recordFrameNo n vc.toNat num).csiDiscard_only n)
  obtain ⟨hevent, hcount⟩ := (s.m.recordFrameNo n vc.toNat num).csiDiscard_shows n
  exact ⟨_, (exec_frameEnd live hon vc dt num).trans (by rw [hend]), hevent, hcount, hall.reg, hall.rest_ports rfl rfl⟩

end

end

/-- Settles O16: what each packet does to the open frames of its port and to the stream that takes them, each by its own lemma above. -/
theorem cameraFrames : Obligations.CameraFrames := by
  refine ⟨fun s n vc dt num ecc st live hon hecc hbits hsel hfree hnew hroom => ?_,
    fun s n vc dt num st live hon hbits hsel => ⟨fun htrig hnew => ⟨?_, ?_⟩, ?_⟩,
    fun s n vc dt line f live hon hopen => ⟨?_, ?_, ?_⟩, fun s n vc dt num live hon => ⟨fun f hopen hskip => ⟨?_, ?_⟩, ?_, ?_⟩⟩
  · exact exec_frameStart_free live hon num hbits hsel hecc hfree hnew hroom
  · exact fun f hfire hfirst hroom => exec_frameStart_fired live hon num hbits hsel htrig hnew hfire hfirst hroom
  · exact exec_frameStart_unfired live hon num hbits hsel htrig hnew
  · exact fun f howned hone hskip => exec_frameStart_reopens live hon num howned hone hskip
  · exact exec_csiLongPacket_taken live hon vc dt line hopen
  · exact exec_csiLongPacket_damaged live hon vc dt line hopen
  · exact exec_badHeader_shows live hon vc dt line
  · exact exec_frameEnd_closes live hon hopen hskip num
  · exact exec_frameTimeout_closes live hon hopen hskip
  · exact exec_frameEnd_discarded live hon num
  · exact exec_csiLaneSyncChange live hon

end Sys2Proof.Machine
end

section
/-! What the shared operations of the sensor ports' commands do: a write that its access code lets in, the word that it stores, a happening
in the low-rate hub (R37), and bytes that go through a word. -/

namespace Sys2Proof.Machine

/-! ## Writes that are let in (R16, R385) -/

section
variable {m : Mach} {a : Nat} {v : Word} (hlet : m.writeCause a v = none)
include hlet

theorem Mach.arriveWith_let (e : Effect) : m.arriveWith a v e = if e.1 then m.refuse a else e.2 := by
  rw [Mach.arriveWith_eq, hlet]

/-- A write that the block's own rule refuses. -/
theorem Mach.arriveWith_bad {e : Effect} (he : e = m.bad) : m.arriveWith a v e = m.refuse a := by
  rw [Mach.arriveWith_let hlet, he]
  rfl

/-- A write that the block takes. -/
theorem Mach.arriveWith_taken {e : Effect} {u : Mach} (he : e = (false, u)) : m.arriveWith a v e = u := by
  rw [Mach.arriveWith_let hlet, he]
  rfl

end

/-- A register of access code RW or RWL takes its implemented bits. -/
theorem Mach.storeReg_rw (m : Mach) {a : Nat} {mask : Word}
    (hrow : (rowAt a).map (fun x => (x.1.acc, x.1.mask)) = some (.rw, mask)) (v : Word) :
    m.storeReg a v = m.setReg a (v &&& mask) := by
  obtain ⟨⟨r, j⟩, hr, hacc⟩ := Option.map_eq_some_iff.mp hrow
  obtain ⟨hrw, hmask⟩ := Prod.mk.inj hacc
  simp only [Mach.storeReg, hr]
  simp only at hrw hmask
  rw [hrw, hmask]

theorem Mach.storeReg_whole (m : Mach) {a : Nat}
    (hrow : (rowAt a).map (fun x => (x.1.acc, x.1.mask)) = some (.rw, 0xFFFFFFFF)) (v : Word) : m.storeReg a v = m.setReg a v := by
  have hall : (0xFFFFFFFF : Word) = BitVec.allOnes 32 := by decide
  rw [m.storeReg_rw hrow, hall, BitVec.and_allOnes]

theorem rowAt_fsyncNext : ∀ n : Fin 8, (rowAt (Reg.SNS_FSYNC_NEXT n)).map (fun x => (x.1.acc, x.1.mask)) = some (.rw, 0xFFFFFFFF) := by
  decide

theorem rowAt_fsyncPeriod : ∀ n : Fin 8, (rowAt (Reg.SNS_FSYNC_PERIOD n)).map (fun x => (x.1.acc, x.1.mask)) = some (.rw, 0xFFFFFFFF) := by
  decide

theorem rowAt_fsyncCfg : ∀ n : Fin 8, (rowAt (Reg.SNS_FSYNC_CFG n)).map (fun x => (x.1.acc, x.1.mask)) = some (.rw, 0xEF00FFFF) := by
  decide

theorem rowAt_strCtrl (st : Fin 256) : (rowAt (Reg.STR_CTRL st)).map (fun x => (x.1.acc, x.1.mask)) = some (.rw, 0xE000FFFF) := by
  have hblock : blockOf (Reg.STR_CTRL st) = some (.str, 0x100 * st.val) := by
    unfold blockOf
    have hst := st.isLt
    simp only [Reg.STR_CTRL]
    repeat rw [if_neg (by omega)]
    rw [if_pos (by omega), Nat.add_sub_cancel_left]
  rw [rowAt, hblock]
  simp only [rowsOf, strRows, findRow, List.findSome?_cons, Row.index]
  have hmod : 256 * st.val % 256 = 0 := by omega
  have hdiv : 256 * st.val / 256 = st.val := by omega
  simp [hmod, hdiv]

/-! ## Happenings in the low-rate hub (R37) -/

theorem atHub_runs {s : State} (live : s.m.live = true) (hruns : s.m.runs 164 = true) (f : Mach → Mach) :
    atHub s f = .next { s with m := f s.m } := by
  rw [atHub, act_live live, if_pos hruns]

/-! ## Bytes through a word -/

theorem ofLe_lt (l : List Byte) : ofLe l < 256 ^ l.length := by
  induction l with
  | nil => decide
  | cons b bs ih =>
    have hb := b.isLt
    rw [ofLe, List.length_cons, Nat.pow_succ]
    omega

theorem leBytes_ofLe (l : List Byte) : leBytes l.length (ofLe l) = l := by
  induction l with
  | nil => rfl
  | cons b bs ih =>
    have hb := b.isLt
    have hdiv : (b.toNat + 256 * ofLe bs) / 256 = ofLe bs := by omega
    rw [List.length_cons, ofLe, leBytes, hdiv, ih]
    congr 1
    exact BitVec.eq_of_toNat_eq (by rw [BitVec.toNat_ofNat]; omega)

/-- The bytes of the word that four bytes spell. -/
theorem wordBytes_ofLe {l : List Byte} (h : l.length = 4) : wordBytes (BitVec.ofNat 32 (ofLe l)) = l := by
  have hlt := ofLe_lt l
  have hbytes := leBytes_ofLe l
  rw [h] at hlt hbytes
  rw [wordBytes, BitVec.toNat_ofNat, Nat.mod_eq_of_lt (show ofLe l < 2 ^ 32 from hlt), hbytes]

end Sys2Proof.Machine
end

section
/-! The I3C controllers (R73): bytes queued and read, transfers queued, started and done, and what each leaves. -/

namespace Sys2Proof.Machine

section
variable (m : Mach) (n : Fin 8)

/-! ## One controller changed -/

/-- From m to t nothing has changed but controller n, which is y, the depth of its queue among the status, and the host's answer. -/
def Mach.i3cOnly (m : Mach) (n : Fin 8) (t : Mach) (y : I3c) : Prop :=
  t.i3cOf n = y ∧ (∀ o, o ≠ n.val → t.i3cOf o = m.i3cOf o) ∧ m.regsBut t [Reg.SNS_I3C_STAT n] ∧
    t.fld (Reg.SNS_I3C_STAT n) 0 5 = y.cmds.length % 32 ∧
    { t with regs := m.regs, ports := m.ports, port := m.port } = m

theorem Mach.setI3c_only {u : Mach} (hregs : m.regsBut u [Reg.SNS_I3C_STAT n]) (hrest : { u with regs := m.regs } = m) (y : I3c) :
    m.i3cOnly n (u.setI3c n y) y := by
  have hports : u.ports = m.ports := (congrArg Mach.ports hrest :)
  refine ⟨sget_sput_same _ _ _ _, fun o ho => ?_, hregs.setReg (by simp) _, ?_, ?_⟩
  · have hother : (u.setI3c n y).i3cOf o = u.i3cOf o := sget_sput_ne _ ho _ _
    rw [hother, Mach.i3cOf, hports]
    rfl
  · rw [Mach.fld, Mach.setI3c, Mach.setFld_reg, if_pos rfl, Word.field_setField_same _ (by decide)]
    rfl
  · exact (congrArg (fun x : Mach => { x with ports := m.ports, port := m.port }) hrest :)

/-- The rest of the status, above the depth of the queue. -/
theorem Mach.setI3c_rbit {k : Nat} (hk : 5 ≤ k) (y : I3c) : (m.setI3c n y).rbit (Reg.SNS_I3C_STAT n) k = m.rbit (Reg.SNS_I3C_STAT n) k := by
  rw [Mach.rbit, Mach.setI3c, Mach.setFld_reg, if_pos rfl, Word.bit_setField_out _ _ (by omega)]
  rfl

theorem Mach.setI3c_fld {lo k : Nat} (hlo : 5 ≤ lo) (y : I3c) : (m.setI3c n y).fld (Reg.SNS_I3C_STAT n) lo k = m.fld (Reg.SNS_I3C_STAT n) lo k := by
  rw [Mach.fld, Mach.setI3c, Mach.setFld_reg, if_pos rfl, Word.field_setField_apart _ _ (by omega)]
  rfl

/-! ## Transfers -/

/-- A transfer queued after those of controller n. -/
def Mach.i3cQueued (m : Mach) (n : Nat) (v : Word) : I3c :=
  { m.i3cOf n with
    cmds := (m.i3cOf n).cmds ++ [(v, if v.getLsbD 22 then some (m.reg (Reg.SNS_I3C_AT n)) else none)]
    headAt := if (m.i3cOf n).cmds.isEmpty && !(m.i3cOf n).busy then m.time.count.setWidth 32 else (m.i3cOf n).headAt }

/-- A transfer may be queued: there is room, and its time, where it has one, lies no more than 2 s ahead. -/
def Mach.i3cMay (m : Mach) (n : Nat) (v : Word) : Prop := (m.i3cOf n).cmds.length < 16 ∧
  (v.getLsbD 22 = true → (m.reg (Reg.SNS_I3C_AT n) - m.time.count.setWidth 32).toInt ≤ 2000000000)

theorem Mach.i3cMay_iff (v : Word) : m.i3cMay n v ↔
    ¬ (decide (16 ≤ (m.i3cOf n).cmds.length) || (v.bit 22 && m.moreAhead (m.reg (Reg.SNS_I3C_AT n)) 2000000000)) = true := by
  rw [Bool.or_eq_true, Bool.and_eq_true, decide_eq_true_iff, Mach.moreAhead, decide_eq_true_iff, not_or, not_and, not_le, not_lt]
  rfl

theorem Mach.i3cCmd_may {v : Word} (hmay : m.i3cMay n v) : m.i3cCmd n v = (false, m.setI3c n (m.i3cQueued n v)) :=
  if_neg ((m.i3cMay_iff n v).mp hmay)

theorem Mach.i3cCmd_refused {v : Word} (hmay : ¬ m.i3cMay n v) : m.i3cCmd n v = m.bad :=
  if_pos (not_not.mp fun h => hmay ((m.i3cMay_iff n v).mpr h))

/-- Whether the transfer at the head is late where it starts now; one that is not timed leaves the flag. -/
def Mach.i3cLateFlag (m : Mach) (n : Nat) (due : Option Word) : Bool :=
  match due with
  | some a => m.i3cLate (m.i3cOf n) a
  | none => m.rbit (Reg.SNS_I3C_STAT n) 9

/-- The controller with its head transfer in progress. -/
def I3c.started (x : I3c) (v : Word) (rest : List (Word × Option Word)) : I3c :=
  { x with cmds := rest, busy := true, wdata := x.wdata.drop (if v.field 30 2 = 1 then 0 else v.field 16 6) }

theorem Mach.i3cStart_due {v : Word} {due : Option Word} {rest : List (Word × Option Word)} (hhead : (m.i3cOf n).cmds = (v, due) :: rest)
    (hon : m.rbit (Reg.SNS_I3C_CFG n) 31 = true) (hfree : (m.i3cOf n).busy = false)
    (hdue : ∀ a, due = some a → reached (m.time.count.setWidth 32) a = true) :
    m.i3cStart n = (m.setRBit (Reg.SNS_I3C_STAT n) 9 (m.i3cLateFlag n due)).setI3c n ((m.i3cOf n).started v rest) := by
  unfold Mach.i3cStart
  simp only [hhead, hon, hfree]
  cases due with
  | none => rfl
  | some a => exact if_pos (hdue a rfl)

/-- A transfer done: its acknowledgement shown and counted, its bytes to be read. -/
theorem Mach.i3cDone_busy {data : List Byte} {nack : Bool} (hbusy : (m.i3cOf n).busy = true) :
    m.i3cDone n data nack = ((m.setRBit (Reg.SNS_I3C_STAT n) 8 nack).incFld (Reg.SNS_I3C_STAT n) 16 16).setI3c n
      { m.i3cOf n with busy := false, headAt := m.now, rdata := (m.i3cOf n).rdata ++ data } := if_pos hbusy

theorem Mach.setRBit_fld {a k lo w : Nat} (h : lo + w ≤ k ∨ k + 1 ≤ lo) (on : Bool) : (m.setRBit a k on).fld a lo w = m.fld a lo w := by
  rw [Mach.fld, Mach.setRBit_reg, if_pos rfl, Word.field_setBit _ h]
  rfl

theorem Mach.incFld_fld {lo w : Nat} (h : lo + w ≤ 32) (a : Nat) : (m.incFld a lo w).fld a lo w = (m.fld a lo w + 1) % 2 ^ w := by
  rw [Mach.fld, Mach.incFld, Mach.setFld_reg, if_pos rfl, Word.field_setField_same _ h]

theorem Mach.incFld_rbit {a k lo w : Nat} (h : k < lo ∨ lo + w ≤ k) : (m.incFld a lo w).rbit a k = m.rbit a k := by
  rw [Mach.rbit, Mach.incFld, Mach.setFld_reg, if_pos rfl, Word.bit_setField_out _ _ h]
  rfl

/-! ## Bytes read -/

/-- The answer to the host's read carries these bytes. -/
def Mach.hostGiven (m : Mach) (l : List Byte) : Mach := m.onPort fun p => { p with answer := { p.answer with data := l } }

/-- The controller with four read bytes fewer. -/
def I3c.popped (x : I3c) : I3c := { x with rdata := x.rdata.drop 4 }

theorem Mach.i3cRead_four (hlen : 4 ≤ (m.i3cOf n).rdata.length) :
    m.i3cRead n = (m.setI3c n (m.i3cOf n).popped).hostGiven ((m.i3cOf n).rdata.take 4) := by
  have htake : ((m.i3cOf n).rdata.take 4).length = 4 := List.length_take_of_le hlen
  unfold Mach.i3cRead Mach.i3cPop
  simp only [if_pos htake, wordBytes_ofLe htake]
  rfl

/-- Where fewer bytes are there, free bytes follow them (log entry 7). -/
theorem Mach.i3cRead_short (hlen : (m.i3cOf n).rdata.length < 4) : ∃ l, l.take (m.i3cOf n).rdata.length = (m.i3cOf n).rdata ∧
    m.i3cRead n = (m.setI3c n (m.i3cOf n).popped).free.2.hostGiven l := by
  have htake : (m.i3cOf n).rdata.take 4 = (m.i3cOf n).rdata := List.take_of_length_le (by omega)
  have hshort : ¬ (m.i3cOf n).rdata.length = 4 := by omega
  have hfour : ((m.i3cOf n).rdata ++ (wordBytes (Config.freeWord m.freeCtr)).drop (m.i3cOf n).rdata.length).length = 4 := by
    rw [List.length_append, List.length_drop, length_wordBytes]
    omega
  refine ⟨(m.i3cOf n).rdata ++ (wordBytes (Config.freeWord m.freeCtr)).drop (m.i3cOf n).rdata.length, List.take_left, ?_⟩
  unfold Mach.i3cRead Mach.i3cPop
  simp only [htake, if_neg hshort]
  rw [Mach.hostGiven, ← wordBytes_ofLe hfour]
  rfl

end

/-! ## The commands -/

section
variable {s : State} {n : Fin 8} (live : s.m.live = true)
include live

section
variable {v : Word}

theorem exec_i3cDataWrite (hlet : s.m.writeCause (Reg.SNS_I3C_DATA n) v = none) :
    ∃ t, exec (.i3cDataWrite n v) s = .next { s with m := t } ∧
      s.m.i3cOnly n t { s.m.i3cOf n with wdata := (s.m.i3cOf n).wdata ++ wordBytes v } ∧ t.port = s.m.port := by
  refine ⟨s.m.setI3c n _, ?_, s.m.setI3c_only n (fun _ _ => rfl) rfl _, rfl⟩
  rw [← Mach.arriveWith_taken hlet (e := s.m.i3cData n v) rfl]
  exact act_live live fun m => m.arriveWith (Reg.SNS_I3C_DATA n) v (m.i3cData n v)

variable (hlet : s.m.writeCause (Reg.SNS_I3C_CMD n) v = none)
include hlet

theorem exec_i3cCmdQueue (hmay : s.m.i3cMay n v) :
    ∃ t, exec (.i3cCmdQueue n v) s = .next { s with m := t } ∧ t.port = s.m.port ∧ s.m.i3cOnly n t (s.m.i3cQueued n v) := by
  refine ⟨s.m.setI3c n (s.m.i3cQueued n v), ?_, rfl, s.m.setI3c_only n (fun _ _ => rfl) rfl _⟩
  rw [← Mach.arriveWith_taken hlet (s.m.i3cCmd_may n hmay)]
  exact act_live live fun m => m.arriveWith (Reg.SNS_I3C_CMD n) v (m.i3cCmd n v)

theorem exec_i3cCmdQueue_refused (hmay : ¬ s.m.i3cMay n v) :
    ∃ t, exec (.i3cCmdQueue n v) s = .next { s with m := t } ∧ s.m.busErr t (Reg.SNS_I3C_CMD n) 4 := by
  refine ⟨s.m.refuse (Reg.SNS_I3C_CMD n), ?_, s.m.refuse_busErr _⟩
  rw [← Mach.arriveWith_bad hlet (s.m.i3cCmd_refused n hmay)]
  exact act_live live fun m => m.arriveWith (Reg.SNS_I3C_CMD n) v (m.i3cCmd n v)

end

theorem exec_i3cDataRead (hlen : 4 ≤ (s.m.i3cOf n).rdata.length) :
    ∃ t, exec (.i3cDataRead n) s = .next { s with m := t } ∧ s.m.i3cOnly n t (s.m.i3cOf n).popped ∧
      t.port = { s.m.port with answer := { s.m.port.answer with data := (s.m.i3cOf n).rdata.take 4 } } := by
  refine ⟨(s.m.setI3c n (s.m.i3cOf n).popped).hostGiven ((s.m.i3cOf n).rdata.take 4), ?_, s.m.setI3c_only n (fun _ _ => rfl) rfl _, rfl⟩
  rw [← s.m.i3cRead_four n hlen]
  exact act_live live (·.i3cRead n)

theorem exec_i3cDataRead_short (hlen : (s.m.i3cOf n).rdata.length < 4) :
    ∃ t, exec (.i3cDataRead n) s = .next { s with m := t } ∧ t.i3cOf n = { s.m.i3cOf n with rdata := [] } ∧
      (∀ o, o ≠ n.val → t.i3cOf o = s.m.i3cOf o) ∧ t.port.answer.data.take (s.m.i3cOf n).rdata.length = (s.m.i3cOf n).rdata ∧
      s.m.regsBut t [Reg.SNS_I3C_STAT n] ∧
      { t with regs := s.m.regs, ports := s.m.ports, port := s.m.port, freeCtr := s.m.freeCtr } = s.m := by
  obtain ⟨l, hl, hread⟩ := s.m.i3cRead_short n hlen
  obtain ⟨hself, hothers, hregs, -, hrest⟩ := s.m.setI3c_only n (u := s.m) (fun _ _ => rfl) rfl (s.m.i3cOf n).popped
  have hnil : (s.m.i3cOf n).rdata.drop 4 = [] := List.drop_eq_nil_of_le (by omega)
  refine ⟨(s.m.setI3c n (s.m.i3cOf n).popped).free.2.hostGiven l, ?_, hself.trans ?_, hothers, hl, hregs, ?_⟩
  · rw [← hread]
    exact act_live live (·.i3cRead n)
  · rw [I3c.popped, hnil]
  · exact (congrArg (fun x : Mach => { x with freeCtr := s.m.freeCtr }) hrest :)

variable (hruns : s.m.runs 164 = true)
include hruns

theorem exec_i3cTransferStart {v : Word} {due : Option Word} {rest : List (Word × Option Word)}
    (hhead : (s.m.i3cOf n).cmds = (v, due) :: rest) (hon : s.m.rbit (Reg.SNS_I3C_CFG n) 31 = true)
    (hfree : (s.m.i3cOf n).busy = false) (hdue : ∀ a, due = some a → reached (s.m.time.count.setWidth 32) a = true) :
    ∃ t, exec (.i3cTransferStart n) s = .next { s with m := t } ∧ t.port = s.m.port ∧
      (∀ a, due = some a → t.rbit (Reg.SNS_I3C_STAT n) 9 = s.m.i3cLate (s.m.i3cOf n) a) ∧
      s.m.i3cOnly n t ((s.m.i3cOf n).started v rest) := by
  refine ⟨(s.m.setRBit (Reg.SNS_I3C_STAT n) 9 (s.m.i3cLateFlag n due)).setI3c n ((s.m.i3cOf n).started v rest), ?_, rfl, ?_,
    s.m.setI3c_only n (Mach.regsBut.setReg (fun _ _ => rfl) (by simp) _) rfl _⟩
  · rw [← s.m.i3cStart_due n hhead hon hfree hdue]
    exact atHub_runs live hruns (·.i3cStart n)
  · rintro a rfl
    rw [Mach.setI3c_rbit _ _ (by decide), Mach.rbit_setRBit_same _ (by decide)]
    rfl

theorem exec_i3cTransferDone (data : List Byte) (nack : Bool) (hbusy : (s.m.i3cOf n).busy = true) :
    ∃ t, exec (.i3cTransferDone n data nack) s = .next { s with m := t } ∧ t.port = s.m.port ∧
      s.m.i3cOnly n t { s.m.i3cOf n with busy := false, headAt := s.m.time.count.setWidth 32, rdata := (s.m.i3cOf n).rdata ++ data } ∧
      t.rbit (Reg.SNS_I3C_STAT n) 8 = nack ∧
      t.fld (Reg.SNS_I3C_STAT n) 16 16 = (s.m.fld (Reg.SNS_I3C_STAT n) 16 16 + 1) % 65536 := by
  refine ⟨((s.m.setRBit (Reg.SNS_I3C_STAT n) 8 nack).incFld (Reg.SNS_I3C_STAT n) 16 16).setI3c n _, ?_, rfl,
    s.m.setI3c_only n (Mach.regsBut.setReg (Mach.regsBut.setReg (fun _ _ => rfl) (by simp) _) (by simp) _) rfl _, ?_, ?_⟩
  · exact (atHub_runs live hruns (·.i3cDone n data nack)).trans (by rw [s.m.i3cDone_busy n hbusy]; rfl)
  · rw [Mach.setI3c_rbit _ _ (by decide), Mach.incFld_rbit _ (by decide), Mach.rbit_setRBit_same _ (by decide)]
  · rw [Mach.setI3c_fld _ _ (by decide), Mach.incFld_fld _ (by decide), Mach.setRBit_fld _ (by decide)]
    rfl

theorem exec_i3cIbi (hon : s.m.rbit (Reg.SNS_I3C_CFG n) 31 = true) :
    exec (.i3cIbi n) s = .next { s with m := s.m.raise Reg.SNS_EVENT 0x8 } := by
  have hact : exec (.i3cIbi n) s = _ := atHub_runs live hruns fun m =>
    if m.rbit (Reg.SNS_I3C_CFG n) 31 then m.raise Reg.SNS_EVENT 0x8 else m
  rw [hact, if_pos hon]

end

end Sys2Proof.Machine
end

section
/-! The FSYNC outputs (R74, R83): pulses in period and in group mode, the writes of an output's registers, and the match windows that pass. -/

namespace Sys2Proof.Machine

section
variable (m : Mach) (n : Fin 8)

/-! ## One output changed -/

@[simp] theorem Mach.fsyncOf_setFsync_same (k : Nat) (x : Fsync) : (m.setFsync k x).fsyncOf k = x := sget_sput_same _ _ _ _

theorem Mach.fsyncOf_setFsync_ne {k o : Nat} (h : o ≠ k) (x : Fsync) : (m.setFsync k x).fsyncOf o = m.fsyncOf o := sget_sput_ne _ h _ _

/-- From m to t a pulse of output n has risen at this time, for the configured width, and no other output has changed. -/
def Mach.fsyncRises (m : Mach) (n : Fin 8) (t : Mach) (at_ : Word) : Prop :=
  t.reg (Reg.SNS_FSYNC_LAST n) = at_ ∧
    (t.fsyncOf n).pulseEnd = some (at_ + BitVec.ofNat 32 ((m.reg (Reg.SNS_FSYNC_CFG n)).field 0 16 * 1000)) ∧
    (at_, []) ∈ (t.fsyncOf n).fires ∧ (∀ o, o ≠ n.val → t.fsyncOf o = m.fsyncOf o) ∧
    { t with regs := m.regs, ports := m.ports } = m

theorem fsyncLast_ne_next : Reg.SNS_FSYNC_LAST n ≠ Reg.SNS_FSYNC_NEXT n := by
  simp only [Reg.SNS_FSYNC_LAST, Reg.SNS_FSYNC_NEXT]
  omega

/-- The pulse, from a module that differs from m in what output n plans. -/
theorem Mach.fsyncRise_rises {u : Mach} (hregs : u.regs = m.regs) (hothers : ∀ o, o ≠ n.val → u.fsyncOf o = m.fsyncOf o)
    (hrest : { u with ports := m.ports } = m) (at_ : Word) : m.fsyncRises n (u.fsyncRise n at_) at_ := by
  have hcfg : u.fld (Reg.SNS_FSYNC_CFG n) 0 16 = m.fld (Reg.SNS_FSYNC_CFG n) 0 16 :=
    Mach.fld_congr (by rw [Mach.reg, hregs]; rfl) _ _
  have hself : (u.fsyncRise n at_).fsyncOf n = _ := Mach.fsyncOf_setFsync_same _ _ _
  have hlast : (u.fsyncRise n at_).reg (Reg.SNS_FSYNC_LAST n) = at_ := u.reg_setReg_same _ _
  refine ⟨hlast, ?_, ?_, fun o ho => ?_, (congrArg (fun x : Mach => { x with regs := m.regs }) hrest :)⟩
  · rw [hself, hcfg]
    rfl
  · rw [hself]
    exact List.mem_append_right _ (List.mem_singleton_self _)
  · exact (Mach.fsyncOf_setFsync_ne _ ho _).trans (hothers o ho)

theorem Mach.fsyncRise_regsBut (at_ : Word) : m.regsBut (m.fsyncRise n at_) [Reg.SNS_FSYNC_LAST n] :=
  Mach.regsBut.setReg (fun _ _ => rfl) (by simp) _

/-- A planned pulse leaves the plans. -/
theorem Mach.fsyncRise_plans (at_ : Word) : ((m.fsyncRise n at_).fsyncOf n).plans = (m.fsyncOf n).plans := by
  have hself : (m.fsyncRise n at_).fsyncOf n = _ := Mach.fsyncOf_setFsync_same _ _ _
  rw [hself]

/-! ## Fires (R74) -/

/-- The plans of output n, one of them made or missed. -/
def Mach.planTaken (m : Mach) (n : Nat) (rest : List Word) : Mach := m.setFsync n { m.fsyncOf n with plans := rest }

variable {m n}

section
variable (hon : (m.reg (Reg.SNS_FSYNC_CFG n)).getLsbD 31 = true)
include hon

theorem Mach.fsyncFire_period (hmode : (m.reg (Reg.SNS_FSYNC_CFG n)).getLsbD 30 = false)
    (hdue : reached (m.time.count.setWidth 32) (m.reg (Reg.SNS_FSYNC_NEXT n)) = true) :
    m.fsyncFire n = (m.fsyncRise n (m.reg (Reg.SNS_FSYNC_NEXT n))).setReg (Reg.SNS_FSYNC_NEXT n)
      (m.reg (Reg.SNS_FSYNC_NEXT n) + m.reg (Reg.SNS_FSYNC_PERIOD n)) := by
  have henabled : m.fsyncEnabled n = true := hon
  have hperiod : m.fsyncGroupMode n = false := hmode
  unfold Mach.fsyncFire
  rw [henabled, hperiod]
  exact if_pos hdue

section
variable (hmode : (m.reg (Reg.SNS_FSYNC_CFG n)).getLsbD 30 = true) {at_ : Word} {rest : List Word}
  (hplans : (m.fsyncOf n).plans = at_ :: rest) (hdue : reached (m.time.count.setWidth 32) at_ = true)
include hmode hplans hdue

/-- A planned fire whose time has come is made, or missed where it is past by more than 1 ns or falls into a pulse. -/
theorem Mach.fsyncFire_group : ∃ missed, m.fsyncFire n =
      (if missed then (m.planTaken n rest).fsyncMiss n else (m.planTaken n rest).fsyncRise n at_) ∧
    (missed = true ↔ (1 < ((m.time.count.setWidth 32 : Word) - at_).toInt ∨ ∃ e, (m.fsyncOf n).pulseEnd = some e ∧ before at_ e = true)) := by
  have henabled : m.fsyncEnabled n = true := hon
  have hgroup : m.fsyncGroupMode n = true := hmode
  have hreached : reached m.now at_ = true := hdue
  unfold Mach.fsyncFire
  simp only [henabled, hgroup, hplans, hreached, Bool.not_true, Bool.false_eq_true, if_false, if_true]
  refine ⟨_, rfl, ?_⟩
  rw [Bool.or_eq_true, decide_eq_true_iff]
  refine or_congr Iff.rfl ?_
  cases (m.fsyncOf n).pulseEnd with
  | none => simp
  | some e => simp

end

end

/-! ## Writes of an output's registers (R74) -/

section
variable (v : Word)

/-- A new time of the next fire lies 10 µs to 2 s ahead, and not in a pulse of period mode. -/
def Mach.nextMay (m : Mach) (n : Nat) (v : Word) : Prop :=
  (10000 : Int) ≤ (v - m.time.count.setWidth 32).toInt ∧ (v - m.time.count.setWidth 32).toInt ≤ 2000000000 ∧
    ¬(∃ e, (m.fsyncOf n).pulseEnd = some e ∧ (m.reg (Reg.SNS_FSYNC_CFG n)).getLsbD 31 = true ∧
      (m.reg (Reg.SNS_FSYNC_CFG n)).getLsbD 30 = false ∧ before v e = true)

theorem Mach.aheadWithin_iff (at_ : Word) (lo hi : Int) : m.aheadWithin at_ lo hi = true ↔
    lo ≤ (at_ - m.time.count.setWidth 32).toInt ∧ (at_ - m.time.count.setWidth 32).toInt ≤ hi := by
  rw [Mach.aheadWithin, Bool.and_eq_true, decide_eq_true_iff, decide_eq_true_iff]
  rfl

theorem Mach.fsyncNext_eq : ∃ refused, m.fsyncNext n v = (if refused then m.bad else (false, m.setReg (Reg.SNS_FSYNC_NEXT n) v)) ∧
    (refused = true ↔ ¬ m.nextMay n v) := by
  unfold Mach.fsyncNext
  rw [Mach.storeReg_whole m (rowAt_fsyncNext n)]
  refine ⟨_, rfl, ?_⟩
  rw [Mach.nextMay, ← and_assoc, not_and_or, not_not, Bool.or_eq_true, Bool.not_eq_true', ← Bool.not_eq_true, Mach.aheadWithin_iff]
  refine or_congr Iff.rfl ?_
  cases (m.fsyncOf n).pulseEnd with
  | none => simp
  | some e =>
    simp only [Mach.fsyncEnabled, Mach.fsyncGroupMode, Mach.rbit, Word.bit, Bool.and_eq_true, Bool.not_eq_true', Option.some.injEq]
    exact ⟨fun ⟨⟨h31, h30⟩, hin⟩ => ⟨e, rfl, h31, h30, hin⟩, fun ⟨_, heq, h31, h30, hin⟩ => heq ▸ ⟨⟨h31, h30⟩, hin⟩⟩

/-- A pulse must end before the next one begins, in period mode. -/
theorem fsyncWidthOk_iff (cfg period : Word) :
    fsyncWidthOk cfg period = true ↔ cfg.getLsbD 30 = true ∨ cfg.field 0 16 * 1000 < period.toNat := by
  rw [fsyncWidthOk, Bool.or_eq_true, decide_eq_true_iff]
  rfl

theorem Mach.fsyncPeriod_taken (h : fsyncWidthOk (m.reg (Reg.SNS_FSYNC_CFG n)) v = true) :
    m.fsyncPeriod n v = (false, m.setReg (Reg.SNS_FSYNC_PERIOD n) v) := by
  rw [Mach.fsyncPeriod, h, Mach.storeReg_whole m (rowAt_fsyncPeriod n)]
  rfl

theorem Mach.fsyncPeriod_refused (h : fsyncWidthOk (m.reg (Reg.SNS_FSYNC_CFG n)) v = false) : m.fsyncPeriod n v = m.bad := by
  rw [Mach.fsyncPeriod, h]
  rfl

/-- A configuration fits: group mode, or a pulse shorter than the period, with SNS_FSYNC_NEXTn ahead where period mode begins. -/
def Mach.cfgMay (m : Mach) (n : Nat) (v : Word) : Prop :=
  v.getLsbD 30 = true ∨ (v.field 0 16 * 1000 < (m.reg (Reg.SNS_FSYNC_PERIOD n)).toNat ∧
    (v.getLsbD 31 = false ∨ ((m.reg (Reg.SNS_FSYNC_CFG n)).getLsbD 31 = true ∧ (m.reg (Reg.SNS_FSYNC_CFG n)).getLsbD 30 = false) ∨
      (10000 ≤ (m.reg (Reg.SNS_FSYNC_NEXT n) - m.time.count.setWidth 32).toInt ∧
        (m.reg (Reg.SNS_FSYNC_NEXT n) - m.time.count.setWidth 32).toInt ≤ 2000000000)))

/-- The configuration stored; an output that is not left in group mode forgets its plans (log entry 134). -/
def Mach.cfgStored (m : Mach) (n : Nat) (v : Word) : Mach :=
  if v.getLsbD 31 && v.getLsbD 30 then m.setReg (Reg.SNS_FSYNC_CFG n) (v &&& 0xEF00FFFF)
  else (m.setReg (Reg.SNS_FSYNC_CFG n) (v &&& 0xEF00FFFF)).setFsync n { m.fsyncOf n with plans := [] }

theorem Mach.fsyncCfg_eq : ∃ refused, m.fsyncCfg n v = (if refused then m.bad else (false, m.cfgStored n v)) ∧
    (refused = true ↔ ¬ m.cfgMay n v) := by
  unfold Mach.fsyncCfg
  dsimp only
  rw [Mach.storeReg_rw m (rowAt_fsyncCfg n)]
  refine ⟨_, rfl, ?_⟩
  rw [Bool.or_eq_true, Bool.and_eq_true, Bool.not_eq_true', ← Bool.not_eq_true, fsyncWidthOk_iff,
    Bool.not_eq_true', ← Bool.not_eq_true (m.aheadWithin _ _ _), Mach.aheadWithin_iff, Mach.cfgMay]
  simp only [Mach.fsyncEnabled, Mach.fsyncGroupMode, Mach.rbit, Word.bit, Bool.and_eq_true, Bool.not_eq_true',
    ← Bool.not_eq_true]
  tauto

end

end

/-! ## The commands -/

section
variable {s : State} {n : Fin 8} (live : s.m.live = true)
include live

section
variable (hruns : s.m.runs 164 = true)
include hruns

theorem exec_fsyncFire : exec (.fsyncFire n) s = .next { s with m := s.m.fsyncFire n } := atHub_runs live hruns (·.fsyncFire n)

section
variable (hon : (s.m.reg (Reg.SNS_FSYNC_CFG n)).getLsbD 31 = true)
include hon

theorem exec_fsyncFire_period (hmode : (s.m.reg (Reg.SNS_FSYNC_CFG n)).getLsbD 30 = false)
    (hdue : reached (s.m.time.count.setWidth 32) (s.m.reg (Reg.SNS_FSYNC_NEXT n)) = true) :
    ∃ t, exec (.fsyncFire n) s = .next { s with m := t } ∧ s.m.fsyncRises n t (s.m.reg (Reg.SNS_FSYNC_NEXT n)) ∧
      t.reg (Reg.SNS_FSYNC_NEXT n) = s.m.reg (Reg.SNS_FSYNC_NEXT n) + s.m.reg (Reg.SNS_FSYNC_PERIOD n) ∧
      s.m.regsBut t [Reg.SNS_FSYNC_NEXT n, Reg.SNS_FSYNC_LAST n] := by
  obtain ⟨hlast, hend, hfires, hothers, hrest⟩ := s.m.fsyncRise_rises n rfl (fun _ _ => rfl) rfl (s.m.reg (Reg.SNS_FSYNC_NEXT n))
  have hregs := s.m.fsyncRise_regsBut n (s.m.reg (Reg.SNS_FSYNC_NEXT n))
  rw [exec_fsyncFire live hruns, Mach.fsyncFire_period hon hmode hdue]
  refine ⟨_, rfl, ⟨?_, hend, hfires, hothers, hrest⟩, Mach.reg_setReg_same _ _ _,
    Mach.regsBut.setReg (fun r hr => hregs r fun hin => hr (List.mem_cons_of_mem _ hin)) (by simp) _⟩
  rw [Mach.reg_setReg_ne _ (fsyncLast_ne_next n)]
  exact hlast

section
variable (hmode : (s.m.reg (Reg.SNS_FSYNC_CFG n)).getLsbD 30 = true) {at_ : Word} {rest : List Word}
  (hplans : (s.m.fsyncOf n).plans = at_ :: rest)
include hmode hplans

theorem exec_fsyncFire_planned (hdue : s.m.time.count.setWidth 32 = at_ ∨ s.m.time.count.setWidth 32 = at_ + 1)
    (hclear : ∀ e, (s.m.fsyncOf n).pulseEnd = some e → before at_ e = false) :
    ∃ t, exec (.fsyncFire n) s = .next { s with m := t } ∧ s.m.fsyncRises n t at_ ∧ (t.fsyncOf n).plans = rest ∧
      s.m.regsBut t [Reg.SNS_FSYNC_LAST n] := by
  have hlag : ((s.m.time.count.setWidth 32 : Word) - at_).toInt = 0 ∨ ((s.m.time.count.setWidth 32 : Word) - at_).toInt = 1 := by
    rcases hdue with h | h
    · left
      rw [h, BitVec.sub_self]
      rfl
    · right
      rw [h, BitVec.add_comm, BitVec.add_sub_cancel]
      rfl
  obtain ⟨missed, hfire, hmissed⟩ := Mach.fsyncFire_group hon hmode hplans (decide_eq_true (by omega))
  have hmade : ¬ missed = true := fun h => by
    rcases hmissed.mp h with hlate | ⟨e, he, hin⟩
    · omega
    · rw [hclear e he] at hin
      exact Bool.false_ne_true hin
  rw [exec_fsyncFire live hruns, hfire, if_neg hmade]
  refine ⟨_, rfl, Mach.fsyncRise_rises s.m n (u := s.m.planTaken n rest) rfl (fun o ho => Mach.fsyncOf_setFsync_ne _ ho _) rfl at_, ?_,
    Mach.fsyncRise_regsBut (s.m.planTaken n rest) n at_⟩
  rw [Mach.fsyncRise_plans, Mach.planTaken, Mach.fsyncOf_setFsync_same]

theorem exec_fsyncFire_missed (hdue : reached (s.m.time.count.setWidth 32) at_ = true)
    (hmiss : 1 < ((s.m.time.count.setWidth 32 : Word) - at_).toInt ∨ ∃ e, (s.m.fsyncOf n).pulseEnd = some e ∧ before at_ e = true) :
    ∃ t, exec (.fsyncFire n) s = .next { s with m := t } ∧ t.fsyncOf n = { s.m.fsyncOf n with plans := rest } ∧
      t.reg (Reg.SNS_FSYNC_STAT n) = s.m.reg (Reg.SNS_FSYNC_STAT n) + 1 ∧ s.m.regsBut t [Reg.SNS_FSYNC_STAT n] ∧
      { t with regs := s.m.regs, ports := s.m.ports } = s.m := by
  obtain ⟨missed, hfire, hmissed⟩ := Mach.fsyncFire_group hon hmode hplans hdue
  rw [exec_fsyncFire live hruns, hfire, if_pos (hmissed.mpr hmiss)]
  refine ⟨_, rfl, Mach.fsyncOf_setFsync_same s.m _ _, ?_, Mach.regsBut.setReg (t := s.m.planTaken n rest) (fun _ _ => rfl) (by simp) _, rfl⟩
  rw [Mach.fsyncMiss, Mach.incReg_reg, if_pos rfl]
  rfl

end

end

theorem exec_fsyncPulseEnd {e : Word} (hpulse : (s.m.fsyncOf n).pulseEnd = some e) (hdue : reached (s.m.time.count.setWidth 32) e = true) :
    exec (.fsyncPulseEnd n) s = .next { s with m := s.m.setFsync n { s.m.fsyncOf n with pulseEnd := none } } := by
  have hend : s.m.fsyncEnd n = s.m.setFsync n { s.m.fsyncOf n with pulseEnd := none } := by
    rw [Mach.fsyncEnd, hpulse]
    exact if_pos hdue
  rw [← hend]
  exact atHub_runs live hruns (·.fsyncEnd n)

end

section
variable {v : Word}

section
variable (hlet : s.m.writeCause (Reg.SNS_FSYNC_NEXT n) v = none)
include hlet

theorem exec_fsyncNextWrite (hmay : s.m.nextMay n v) :
    exec (.fsyncNextWrite n v) s = .next { s with m := s.m.setReg (Reg.SNS_FSYNC_NEXT n) v } := by
  obtain ⟨refused, hnext, hrefused⟩ := Mach.fsyncNext_eq (m := s.m) (n := n) v
  rw [if_neg fun h => hrefused.mp h hmay] at hnext
  rw [← Mach.arriveWith_taken hlet hnext]
  exact act_live live fun m => m.arriveWith (Reg.SNS_FSYNC_NEXT n) v (m.fsyncNext n v)

theorem exec_fsyncNextWrite_refused (hmay : ¬ s.m.nextMay n v) :
    exec (.fsyncNextWrite n v) s = .next { s with m := s.m.refuse (Reg.SNS_FSYNC_NEXT n) } := by
  obtain ⟨refused, hnext, hrefused⟩ := Mach.fsyncNext_eq (m := s.m) (n := n) v
  rw [if_pos (hrefused.mpr hmay)] at hnext
  rw [← Mach.arriveWith_bad hlet hnext]
  exact act_live live fun m => m.arriveWith (Reg.SNS_FSYNC_NEXT n) v (m.fsyncNext n v)

end

section
variable (hlet : s.m.writeCause (Reg.SNS_FSYNC_PERIOD n) v = none)
include hlet

theorem exec_fsyncPeriodWrite (hfits : fsyncWidthOk (s.m.reg (Reg.SNS_FSYNC_CFG n)) v = true) :
    exec (.fsyncCfgWrite n true v) s = .next { s with m := s.m.setReg (Reg.SNS_FSYNC_PERIOD n) v } := by
  rw [← Mach.arriveWith_taken hlet (Mach.fsyncPeriod_taken v hfits)]
  exact act_live live fun m => m.arriveWith (Reg.SNS_FSYNC_PERIOD n) v (m.fsyncPeriod n v)

theorem exec_fsyncPeriodWrite_refused (hfits : fsyncWidthOk (s.m.reg (Reg.SNS_FSYNC_CFG n)) v = false) :
    exec (.fsyncCfgWrite n true v) s = .next { s with m := s.m.refuse (Reg.SNS_FSYNC_PERIOD n) } := by
  rw [← Mach.arriveWith_bad hlet (Mach.fsyncPeriod_refused v hfits)]
  exact act_live live fun m => m.arriveWith (Reg.SNS_FSYNC_PERIOD n) v (m.fsyncPeriod n v)

end

section
variable (hlet : s.m.writeCause (Reg.SNS_FSYNC_CFG n) v = none)
include hlet

theorem exec_fsyncCfgWrite (hmay : s.m.cfgMay n v) : exec (.fsyncCfgWrite n false v) s = .next { s with m := s.m.cfgStored n v } := by
  obtain ⟨refused, hcfg, hrefused⟩ := Mach.fsyncCfg_eq (m := s.m) (n := n) v
  rw [if_neg fun h => hrefused.mp h hmay] at hcfg
  rw [← Mach.arriveWith_taken hlet hcfg]
  exact act_live live fun m => m.arriveWith (Reg.SNS_FSYNC_CFG n) v (m.fsyncCfg n v)

theorem exec_fsyncCfgWrite_refused (hmay : ¬ s.m.cfgMay n v) :
    exec (.fsyncCfgWrite n false v) s = .next { s with m := s.m.refuse (Reg.SNS_FSYNC_CFG n) } := by
  obtain ⟨refused, hcfg, hrefused⟩ := Mach.fsyncCfg_eq (m := s.m) (n := n) v
  rw [if_pos (hrefused.mpr hmay)] at hcfg
  rw [← Mach.arriveWith_bad hlet hcfg]
  exact act_live live fun m => m.arriveWith (Reg.SNS_FSYNC_CFG n) v (m.fsyncCfg n v)

end

end

theorem exec_matchWindowExpiry : exec (.matchWindowExpiry n) s = .next { s with m := s.m.matchExpiry n } := act_live live (·.matchExpiry n)

end

section
variable (m : Mach) (n : Fin 8) (v : Word)

/-- What a stored configuration shows. -/
theorem Mach.cfgStored_shows : (m.cfgStored n v).reg (Reg.SNS_FSYNC_CFG n) = v &&& 0xEF00FFFF ∧
    m.regsBut (m.cfgStored n v) [Reg.SNS_FSYNC_CFG n] ∧
    (m.cfgStored n v).fsyncOf n = { m.fsyncOf n with plans := if v.getLsbD 31 && v.getLsbD 30 then (m.fsyncOf n).plans else [] } ∧
    (∀ o, o ≠ n.val → (m.cfgStored n v).fsyncOf o = m.fsyncOf o) ∧ { m.cfgStored n v with regs := m.regs, ports := m.ports } = m := by
  have hregs := Mach.regsBut.setReg (m := m) (l := [Reg.SNS_FSYNC_CFG n]) (fun _ _ => rfl) (List.mem_singleton_self _) (v &&& 0xEF00FFFF)
  unfold Mach.cfgStored
  split
  · exact ⟨m.reg_setReg_same _ _, hregs, rfl, fun _ _ => rfl, rfl⟩
  · exact ⟨m.reg_setReg_same _ _, hregs, Mach.fsyncOf_setFsync_same _ _ _, fun o ho => Mach.fsyncOf_setFsync_ne _ ho _, rfl⟩

end

/-! ## Match windows that pass (R83) -/

section
variable (m : Mach) (n : Nat)

/-- A fire without a frame for stream st, not yet counted, whose match window has passed. -/
def Mach.firePassed (m : Mach) (st : Nat) (f : Word × List Nat) : Bool :=
  !fireSettled st f && decide ((m.matchWindow st : Int) < ((m.time.count.setWidth 32 : Word) - f.1).toInt)

/-- The misses of stream st that a passed window of output n brings. -/
def Mach.missCount (m : Mach) (n st : Nat) : Nat :=
  if m.triggeredBy n st then ((m.fsyncOf n).fires.filter (m.firePassed st)).length else 0

/-- The misses of one stream settled, where it is triggered by the output. -/
def Mach.missStep (m : Mach) (n st : Nat) : Mach := if m.triggeredBy n st then m.settleMisses n st else m

/-- The fire with its miss for stream st counted. -/
def Mach.fireMissed (m : Mach) (st : Nat) (f : Word × List Nat) : Word × List Nat :=
  if m.firePassed st f then (f.1, (256 + st) :: f.2) else f

theorem Mach.settleMisses_eq (st : Nat) : m.settleMisses n st =
    (m.addReg (Reg.STR_MISS st) ((m.fsyncOf n).fires.filter (m.firePassed st)).length).setFsync n
      { m.fsyncOf n with fires := (m.fsyncOf n).fires.map (m.fireMissed st) } := rfl

theorem Mach.missStep_rest (st : Nat) : { m.missStep n st with regs := m.regs, ports := m.ports } = m := by
  unfold Mach.missStep
  split
  · rw [Mach.settleMisses_eq]
    rfl
  · rfl

theorem Mach.missStep_reg (st : Nat) : (m.missStep n st).reg (Reg.STR_MISS st) =
    m.reg (Reg.STR_MISS st) + BitVec.ofNat 32 (m.missCount n st) := by
  unfold Mach.missStep Mach.missCount
  split
  · rw [Mach.settleMisses_eq]
    exact m.reg_setReg_same _ _
  · exact (BitVec.add_zero _).symm

theorem Mach.missStep_reg_ne {st r : Nat} (h : r ≠ Reg.STR_MISS st) : (m.missStep n st).reg r = m.reg r := by
  unfold Mach.missStep
  split
  · exact m.reg_setReg_ne h _
  · rfl

/-- A miss counted for one stream settles the fire for no other. -/
theorem Mach.fireSettled_fireMissed {st o : Nat} (ho : o < 256) (h : o ≠ st) (f : Word × List Nat) :
    fireSettled o (m.fireMissed st f) = fireSettled o f := by
  have hframe : (o == 256 + st) = false := beq_eq_false_iff_ne.mpr (by omega)
  have hmiss : (256 + o == 256 + st) = false := beq_eq_false_iff_ne.mpr (by omega)
  unfold Mach.fireMissed
  split
  · rw [fireSettled, List.contains_cons, List.contains_cons, hframe, hmiss]
    rfl
  · rfl

theorem Mach.fireMissed_fst (st : Nat) (f : Word × List Nat) : (m.fireMissed st f).1 = f.1 := by
  unfold Mach.fireMissed
  split <;> rfl

theorem Mach.missStep_triggeredBy (st o : Nat) : (m.missStep n st).triggeredBy n o = m.triggeredBy n o := by
  have hctrl := m.missStep_reg_ne n (st := st) (r := Reg.STR_CTRL o) (by simp only [Reg.STR_CTRL, Reg.STR_MISS]; omega)
  have hsource := m.missStep_reg_ne n (st := st) (r := Reg.STR_SOURCE o) (by simp only [Reg.STR_SOURCE, Reg.STR_MISS]; omega)
  simp only [Mach.triggeredBy, Mach.strEnabled, Mach.strKind, Mach.rbit_congr hctrl, Mach.rbit_congr hsource, Mach.fld_congr hsource]

theorem Mach.missStep_firePassed {st o : Nat} (ho : o < 256) (h : o ≠ st) (f : Word × List Nat) :
    (m.missStep n st).firePassed o (m.fireMissed st f) = m.firePassed o f := by
  have hctrl := m.missStep_reg_ne n (st := st) (r := Reg.STR_CTRL o) (by simp only [Reg.STR_CTRL, Reg.STR_MISS]; omega)
  have htime : (m.missStep n st).time = m.time := (congrArg Mach.time (m.missStep_rest n st) :)
  rw [Mach.firePassed, Mach.firePassed, m.fireSettled_fireMissed ho h, Mach.fireMissed_fst, Mach.matchWindow, Mach.matchWindow,
    Mach.fld_congr hctrl, htime]

theorem Mach.missStep_missCount {st o : Nat} (ho : o < 256) (h : o ≠ st) : (m.missStep n st).missCount n o = m.missCount n o := by
  by_cases htrig : m.triggeredBy n st = true
  · have hpassed : (m.missStep n st).firePassed o ∘ m.fireMissed st = m.firePassed o := funext fun f => m.missStep_firePassed n ho h f
    have hfires : (m.missStep n st).fsyncOf n = { m.fsyncOf n with fires := (m.fsyncOf n).fires.map (m.fireMissed st) } := by
      rw [Mach.missStep, if_pos htrig, Mach.settleMisses_eq, Mach.fsyncOf_setFsync_same]
    rw [Mach.missCount, Mach.missCount, Mach.missStep_triggeredBy, hfires, List.filter_map, List.length_map, hpassed]
  · rw [Mach.missStep, if_neg htrig]

theorem strMiss_ne {st o : Nat} (h : o ≠ st) : Reg.STR_MISS o ≠ Reg.STR_MISS st := by
  simp only [Reg.STR_MISS]
  omega

/-- Every stream of a run over streams has its own misses counted once, and nothing else has changed. -/
theorem Mach.missRun_shows (l : List Nat) (hl : l.Nodup) (hlt : ∀ st ∈ l, st < 256) :
    (∀ st ∈ l, (l.foldl (fun m st => m.missStep n st) m).reg (Reg.STR_MISS st) =
        m.reg (Reg.STR_MISS st) + BitVec.ofNat 32 (m.missCount n st)) ∧
      (∀ r, (∀ st ∈ l, r ≠ Reg.STR_MISS st) → (l.foldl (fun m st => m.missStep n st) m).reg r = m.reg r) ∧
      { l.foldl (fun m st => m.missStep n st) m with regs := m.regs, ports := m.ports } = m := by
  induction l generalizing m with
  | nil => exact ⟨fun st h => absurd h List.not_mem_nil, fun _ _ => rfl, rfl⟩
  | cons s l ih =>
    obtain ⟨hs, hnodup⟩ := List.nodup_cons.mp hl
    obtain ⟨hself, hother, hrest⟩ := ih (m.missStep n s) hnodup fun st h => hlt st (List.mem_cons_of_mem _ h)
    rw [List.foldl_cons]
    refine ⟨fun st hst => ?_, fun r hr => ?_, ?_⟩
    · rcases List.mem_cons.mp hst with rfl | hin
      · rw [hother _ fun o ho => strMiss_ne fun e : st = o => hs (e.symm ▸ ho), Mach.missStep_reg]
      · have hne : st ≠ s := fun e => hs (e ▸ hin)
        rw [hself st hin, m.missStep_reg_ne n (strMiss_ne hne), m.missStep_missCount n (hlt st hst) hne]
    · rw [hother r fun st h => hr st (List.mem_cons_of_mem _ h), m.missStep_reg_ne n (hr s List.mem_cons_self)]
    · exact (congrArg (fun x : Mach => { x with regs := m.regs, ports := m.ports }) hrest).trans (m.missStep_rest n s)

theorem Mach.matchExpiry_eq : m.matchExpiry n = (List.range 256).foldl (fun m st => m.missStep n st) m := rfl

end

/-- Settles O17: the I3C controllers, the FSYNC outputs and the match windows, command by command. -/
theorem i3cAndFsync : Obligations.I3cAndFsync := by
  refine ⟨fun s n live hruns => ?_, fun s n live hruns => ?_, fun s n live => ?_⟩
  · exact ⟨fun v hlet => exec_i3cDataWrite live hlet,
      fun v hlet => ⟨exec_i3cCmdQueue live hlet, exec_i3cCmdQueue_refused live hlet⟩,
      fun v due rest hhead hon hfree hdue => exec_i3cTransferStart live hruns hhead hon hfree hdue,
      fun data nack hbusy => exec_i3cTransferDone live hruns data nack hbusy,
      exec_i3cDataRead live, exec_i3cDataRead_short live, exec_i3cIbi live hruns⟩
  · refine ⟨exec_fsyncFire_period live hruns,
      fun at_ rest hon hmode hplans hdue hclear => exec_fsyncFire_planned live hruns hon hmode hplans hdue hclear,
      fun at_ rest hon hmode hplans hdue hmiss => exec_fsyncFire_missed live hruns hon hmode hplans hdue hmiss,
      fun e hpulse hdue => ⟨_, exec_fsyncPulseEnd live hruns hpulse hdue, Mach.fsyncOf_setFsync_same _ _ _,
        fun o ho => Mach.fsyncOf_setFsync_ne _ ho _, rfl⟩,
      fun v hlet => ⟨fun hmay => ⟨_, exec_fsyncNextWrite live hlet hmay, Mach.reg_setReg_same _ _ _,
          Mach.regsBut.setReg (fun _ _ => rfl) (by simp) _, rfl⟩,
        fun hmay => ⟨_, exec_fsyncNextWrite_refused live hlet hmay, s.m.refuse_busErr _⟩⟩,
      fun v hlet => ⟨fun hfits => ⟨_, exec_fsyncPeriodWrite live hlet ((fsyncWidthOk_iff _ _).mpr hfits), Mach.reg_setReg_same _ _ _,
          Mach.regsBut.setReg (fun _ _ => rfl) (by simp) _, rfl⟩, fun hperiod hwide => ?_⟩,
      fun v hlet => ⟨fun hmay => ⟨_, exec_fsyncCfgWrite live hlet hmay, s.m.cfgStored_shows n v⟩,
        fun hmay => ⟨_, exec_fsyncCfgWrite_refused live hlet hmay, s.m.refuse_busErr _⟩⟩⟩
    have hrefused : fsyncWidthOk (s.m.reg (Reg.SNS_FSYNC_CFG n)) v = false := by
      rw [← Bool.not_eq_true, fsyncWidthOk_iff, not_or, Bool.not_eq_true]
      exact ⟨hperiod, Nat.not_lt.mpr hwide⟩
    exact ⟨_, exec_fsyncPeriodWrite_refused live hlet hrefused, s.m.refuse_busErr _⟩
  · obtain ⟨hself, hother, hrest⟩ := s.m.missRun_shows n (List.range 256) List.nodup_range fun st hst => List.mem_range.mp hst
    rw [← Mach.matchExpiry_eq] at hself hother hrest
    exact ⟨_, exec_matchWindowExpiry live, fun st hst => hself st (List.mem_range.mpr hst),
      fun r hr => hother r fun st hst => hr st (List.mem_range.mp hst), hrest⟩

end Sys2Proof.Machine
end

section
/-! Items on their way into the ingress queues (R80, R92): an item taken or dropped whole, and the items of the low-rate hub. -/

namespace Sys2Proof.Machine

section
variable (m : Mach) (st : Nat) (it : Item)

/-! ## An item at its queue (R92) -/

/-- The item as it lies in the queue of stream st. -/
def Mach.queuedItem (m : Mach) (st : Nat) (it : Item) : Item :=
  { it with seq := (m.stream st).seq, first := (m.stream st).first, left := recordBytes it.payload.length }

/-- The stream with the item in its queue. -/
def Mach.queuedStream (m : Mach) (st : Nat) (it : Item) : Stream :=
  { m.stream st with
    q := ((m.stream st).q.pour (m.inqGeom st) (recordBytes it.payload.length)).endRecord (m.inqGeom st)
    items := (m.stream st).items ++ [m.queuedItem st it]
    seq := (m.stream st).seq + 1
    first := false }

theorem Mach.enqueue_room (h : recordBytes it.payload.length ≤ (m.stream st).q.capacity (m.inqGeom st)) :
    m.enqueue st it = m.setStream st (m.queuedStream st it) := if_pos h

theorem Mach.enqueue_full (h : (m.stream st).q.capacity (m.inqGeom st) < recordBytes it.payload.length) :
    m.enqueue st it = (m.strDrop st).strOverflow st := if_neg (Nat.not_le.mpr h)

variable {m st it}

/-- An item enters a queue with room, in a module that differs from m in what its ports hold. -/
theorem Mach.enqueue_took {u : Mach} (hrest : { u with ports := m.ports } = m)
    (h : recordBytes it.payload.length ≤ (m.stream st).q.capacity (m.inqGeom st)) : m.tookItem (u.enqueue st it) st it := by
  have hstream : ∀ o, u.stream o = m.stream o := fun o => (congrArg (fun x : Mach => x.stream o) hrest :)
  have hgeom : u.inqGeom st = m.inqGeom st := (congrArg (fun x : Mach => x.inqGeom st) hrest :)
  rw [u.enqueue_room st it (by rw [hstream, hgeom]; exact h)]
  have hself := u.stream_setStream_same st (u.queuedStream st it)
  refine ⟨?_, ?_, ?_, fun o ho => ?_, (congrArg (fun x : Mach => { x with streams := m.streams }) hrest :)⟩
  · rw [hself, Mach.queuedStream, Mach.queuedItem, hstream]
  · rw [hself, Mach.queuedStream, hstream]
  · rw [hself, Mach.queuedStream]
  · rw [Mach.stream_setStream_ne _ ho, hstream]

/-- A dropped item moves its stream's drop count and event, and the next record is a first one (Table 3-11). -/
theorem Mach.dropped_shows (m : Mach) (st : Nat) : (((m.strDrop st).strOverflow st).stream st) = { m.stream st with first := true } ∧
    ((m.strDrop st).strOverflow st).rbit (Reg.STR_EVENT st) 1 = true ∧
    ((m.strDrop st).strOverflow st).reg (Reg.STR_DROPS st) = m.reg (Reg.STR_DROPS st) + 1 := by
  have hstream : ((m.strDrop st).raise (Reg.STR_EVENT st) 0x2).stream st = m.stream st :=
    congrArg (fun l : Sparse Stream => sget (fun _ => ({} : Stream)) l st) (m.strDrop_kept st).1
  have hdrops : Reg.STR_DROPS st ≠ Reg.STR_EVENT st := by
    simp only [Reg.STR_DROPS, Reg.STR_EVENT]
    omega
  have hreg : ∀ a, ((m.strDrop st).strOverflow st).reg a = ((m.strDrop st).raise (Reg.STR_EVENT st) 0x2).reg a :=
    fun a => Mach.setStream_reg _ _ _ _
  refine ⟨?_, ?_, ?_⟩
  · rw [Mach.strOverflow, Mach.onStream, Mach.stream_setStream_same, hstream]
  · rw [Mach.rbit_congr (hreg _)]
    exact Mach.raise_bit _ _ _ 1 (by decide) (by decide)
  · rw [hreg, Mach.raise_reg, if_neg hdrops, Mach.strDrop_reg, if_pos rfl]

theorem Mach.dropped_only (m : Mach) (st : Nat) :
    Mach.IngressOnly [Reg.STR_DROPS st, Reg.STR_EVENT st] m ((m.strDrop st).strOverflow st) :=
  ((Mach.IngressOnly.refl _ m).strDrop (by simp)).strOverflow (by simp)

/-- An item is dropped at a full queue, in a module that differs from m in what its ports hold (R92). -/
theorem Mach.enqueue_dropped {u : Mach} (hrest : { u with ports := m.ports } = m)
    (h : (m.stream st).q.capacity (m.inqGeom st) < recordBytes it.payload.length) :
    (u.enqueue st it).stream st = { m.stream st with first := true } ∧ (u.enqueue st it).rbit (Reg.STR_EVENT st) 1 = true ∧
      (u.enqueue st it).reg (Reg.STR_DROPS st) = m.reg (Reg.STR_DROPS st) + 1 ∧
      m.regsBut (u.enqueue st it) [Reg.STR_DROPS st, Reg.STR_EVENT st] := by
  have hstream : u.stream st = m.stream st := (congrArg (fun x : Mach => x.stream st) hrest :)
  have hgeom : u.inqGeom st = m.inqGeom st := (congrArg (fun x : Mach => x.inqGeom st) hrest :)
  have hreg : ∀ a, u.reg a = m.reg a := fun a => (congrArg (fun x : Mach => x.reg a) hrest :)
  obtain ⟨hself, hevent, hdrops⟩ := u.dropped_shows st
  rw [u.enqueue_full st it (by rw [hstream, hgeom]; exact h)]
  exact ⟨hself.trans (by rw [hstream]), hevent, hdrops.trans (by rw [hreg]), fun a ha => ((u.dropped_only st).reg a ha).trans (hreg a)⟩

theorem Mach.enqueue_took_self (h : recordBytes it.payload.length ≤ (m.stream st).q.capacity (m.inqGeom st)) :
    m.tookItem (m.enqueue st it) st it := Mach.enqueue_took rfl h

theorem Mach.enqueue_room_reg (h : recordBytes it.payload.length ≤ (m.stream st).q.capacity (m.inqGeom st)) (a : Nat) :
    (m.enqueue st it).reg a = m.reg a := by
  rw [m.enqueue_room st it h, Mach.setStream_reg]

/-! ## Items of the low-rate hub (R80) -/

theorem Mach.hubItem_some {lo : Nat} {p : Nat → Bool} (h : m.selectStream p = some st) : m.hubItem lo p it = m.enqueue st it := by
  rw [Mach.hubItem, h]

theorem Mach.hubItem_none {lo : Nat} {p : Nat → Bool} (h : m.selectStream p = none) :
    m.hubItem lo p it = m.incFld Reg.SNS_HUB_DROP lo 8 := by
  rw [Mach.hubItem, h]

end

end Sys2Proof.Machine
end

section
/-! The SPI and CAN ports (R77, R78): the edges of DRDY and the reads they start, and the frames and error counts of a CAN controller. -/

namespace Sys2Proof.Machine

/-! ## SPI (R77) -/

section
variable (m : Mach) (i : Fin 4)

@[simp] theorem Mach.spiOf_setSpi_same (k : Nat) (x : Spi) : (m.setSpi k x).spiOf k = x := sget_sput_same _ _ _ _

theorem Mach.spiOf_setSpi_ne {k o : Nat} (h : o ≠ k) (x : Spi) : (m.setSpi k x).spiOf o = m.spiOf o := sget_sput_ne _ h _ _

/-- What an item leaves at the SPI ports. -/
theorem Mach.enqueue_spiOf (st : Nat) (it : Item) (o : Nat) : (m.enqueue st it).spiOf o = m.spiOf o := by
  unfold Mach.enqueue
  dsimp only
  split
  · rfl
  · rw [Mach.spiOf, Mach.strOverflow, Mach.onStream_ports, Mach.raise, Mach.setReg_ports, (m.strDrop_kept st).2]
    rfl

section
variable {m i} {rising : Bool} (hon : (m.reg (Reg.SNS_SPI_CFG i)).getLsbD 31 = true)
  (hedge : rising = !(m.reg (Reg.SNS_SPI_CFG i)).getLsbD 28)
include hon hedge

/-- An edge of the configured direction. -/
theorem Mach.drdyEdge_taken : m.drdyEdge i rising =
    if (m.spiOf i).reading.isNone then m.setSpi i { reading := some (m.now, m.spiStream i) }
    else (m.setSpi i { m.spiOf i with held := some m.now }).incReg (Reg.SNS_SPI_STAT i) := by
  have hdir : ((m.reg (Reg.SNS_SPI_CFG i)).bit 31 && (m.reg (Reg.SNS_SPI_CFG i)).bit 28 != rising) = true := by
    rw [Word.bit, Word.bit, hon, hedge]
    cases (m.reg (Reg.SNS_SPI_CFG i)).getLsbD 28 <;> rfl
  exact if_pos hdir

end

/-- The port with its read done: the held one begins, for the stream that selects it now. -/
def Mach.spiNext (m : Mach) (i : Nat) : Mach :=
  m.setSpi i { reading := (m.spiOf i).held.map fun at_ => (at_, m.spiStream i) }

/-- The sample that a read's bytes make. -/
def Mach.spiSample (m : Mach) (i : Nat) (at_ : Word) (data : List Byte) : Item :=
  { plainItem 4 at_ (BitVec.ofNat 32 data.length) 0 data with damaged := (m.spiOf i).broken }

theorem Mach.spiDone_reading {at_ : Word} {dest : Option Nat} (h : (m.spiOf i).reading = some (at_, dest)) (data : List Byte) :
    m.spiDone i data = (m.spiNext i).spiItem i dest (m.spiSample i at_ data) := by
  unfold Mach.spiDone
  simp only [h]
  rfl

variable {m i} {dest : Option Nat} {it : Item}

/-- A sample of a stream that began the read and is enabled or drains. -/
theorem Mach.spiItem_own {st : Nat} (h : dest.filter (fun o => m.strEnabled o || m.rbit (Reg.STR_STATUS o) 3) = some st) :
    m.spiItem i dest it = (m.enqueue st it).strDrained st := by
  rw [Mach.spiItem, h]

theorem Mach.spiItem_other (h : dest.filter (fun o => m.strEnabled o || m.rbit (Reg.STR_STATUS o) 3) = none) :
    m.spiItem i dest it = m.hubItem 24 (fun o => m.strFrom o 4 i) it := by
  rw [Mach.spiItem, h]

end

/-! ## CAN (R78, Tables 3-4 and 3-12) -/

section
variable (m : Mach) (j : Fin 2)

theorem canStat_toNat {tec rec : Nat} (hrec : rec < 256) : (canStat tec rec).toNat = min 255 tec * 2 ^ 24 + rec * 2 ^ 16 +
    (if 256 ≤ tec then 2 else if 128 ≤ tec ∨ 128 ≤ rec then 1 else 0) := by
  rw [canStat, BitVec.toNat_ofNat]
  refine Nat.mod_eq_of_lt ?_
  split
  · omega
  · split <;> omega

/-- The fields of SNS_CAN_STAT: the counts and the state they stand for. -/
theorem canStat_fields {tec rec : Nat} (hrec : rec < 256) : (canStat tec rec).field 24 8 = min 255 tec ∧
    (canStat tec rec).field 16 8 = rec ∧
    (canStat tec rec).field 0 2 = (if 256 ≤ tec then 2 else if 128 ≤ tec ∨ 128 ≤ rec then 1 else 0) := by
  simp only [Word.field, canStat_toNat hrec]
  split
  · omega
  · split <;> omega

/-- After a good frame the receive error count is 1 less, or some value of 119 to 127 (log entry 135). -/
theorem Mach.canGood_eq : ∃ (u : Mach) (rec : Nat), m.canGood j = u.setReg (Reg.SNS_CAN_STAT j) (canStat (m.fld (Reg.SNS_CAN_STAT j) 24 8) rec) ∧
    u.regs = m.regs ∧ u.streams = m.streams ∧
    (m.fld (Reg.SNS_CAN_STAT j) 16 8 ≤ 127 → rec = m.fld (Reg.SNS_CAN_STAT j) 16 8 - 1) ∧
    (127 < m.fld (Reg.SNS_CAN_STAT j) 16 8 → 119 ≤ rec ∧ rec ≤ 127) := by
  by_cases h : 127 < m.fld (Reg.SNS_CAN_STAT j) 16 8
  · exact ⟨m.free.2, 119 + m.free.1.toNat % 9, if_pos h, rfl, rfl, by omega, by omega⟩
  · exact ⟨m, m.fld (Reg.SNS_CAN_STAT j) 16 8 - 1, if_neg h, rfl, rfl, fun _ => rfl, by omega⟩

theorem Mach.canGood_shows : m.strSame (m.canGood j) ∧ (m.canGood j).streams = m.streams ∧
    (m.fld (Reg.SNS_CAN_STAT j) 16 8 ≤ 127 →
      (m.canGood j).fld (Reg.SNS_CAN_STAT j) 16 8 = m.fld (Reg.SNS_CAN_STAT j) 16 8 - 1) ∧
    (127 < m.fld (Reg.SNS_CAN_STAT j) 16 8 →
      119 ≤ (m.canGood j).fld (Reg.SNS_CAN_STAT j) 16 8 ∧ (m.canGood j).fld (Reg.SNS_CAN_STAT j) 16 8 ≤ 127) := by
  obtain ⟨u, rec, heq, hregs, hstreams, hlow, hhigh⟩ := m.canGood_eq j
  have hbelow : m.fld (Reg.SNS_CAN_STAT j) 16 8 < 2 ^ 8 := Nat.mod_lt _ (by decide)
  have hrec : rec < 256 := by omega
  have hfld : (m.canGood j).fld (Reg.SNS_CAN_STAT j) 16 8 = rec := by
    rw [heq, Mach.fld, Mach.reg_setReg_same, (canStat_fields hrec).2.1]
  have hsame : m.strSame u := fun a _ => congrArg (fun l : Sparse Word => sget regReset l a) hregs
  refine ⟨?_, ?_, fun h => hfld.trans (hlow h), fun h => hfld ▸ hhigh h⟩
  · rw [heq]
    exact hsame.setReg (by simp only [Reg.SNS_CAN_STAT]; omega) _
  · rw [heq, Mach.setReg_streams, hstreams]

theorem Mach.canRx_taken {f : CanFrame} (hon : m.rbit (Reg.SNS_CAN_CFG j) 31 = true) (hstate : m.canState j ≠ 2)
    (hfd : f.fd = true → m.rbit (Reg.SNS_CAN_CFG j) 29 = true) :
    m.canRx j f = (m.canGood j).hubItem 16 (m.canMatch j f)
      (plainItem 6 f.sof (f.ident.setWidth 32) (BitVec.ofNat 32 f.data.length) f.data) := by
  refine if_pos ?_
  rw [Bool.and_eq_true, Bool.and_eq_true, Bool.or_eq_true, bne_iff_ne]
  refine ⟨⟨hon, hstate⟩, ?_⟩
  cases hf : f.fd with
  | false => exact .inl rfl
  | true => exact .inr (hfd hf)

/-- The controller after an error frame. -/
theorem Mach.canError_on {tec rec : Nat} (hon : m.rbit (Reg.SNS_CAN_CFG j) 31 = true) (hstate : m.canState j ≠ 2) (hrec : rec < 256) :
    m.canError j tec rec =
      if 256 ≤ tec then (m.setReg (Reg.SNS_CAN_STAT j) (canStat tec rec)).raise Reg.SNS_EVENT 0x4
      else m.setReg (Reg.SNS_CAN_STAT j) (canStat tec rec) := by
  have htaken : (m.rbit (Reg.SNS_CAN_CFG j) 31 && m.canState j != 2) = true := by
    rw [hon, Bool.true_and, bne_iff_ne]
    exact hstate
  have hafter : (m.setReg (Reg.SNS_CAN_STAT j) (canStat tec rec)).canState j = 2 ↔ 256 ≤ tec := by
    rw [Mach.canState, Mach.fld, Mach.reg_setReg_same, (canStat_fields hrec).2.2]
    split
    · simpa
    · split <;> simp <;> omega
  refine (if_pos htaken).trans ?_
  dsimp only
  simp only [hafter]

end

/-! ## The commands of SPI and CAN -/

section
variable {s : State} (live : s.m.live = true) (hruns : s.m.runs 164 = true)
include live hruns

section
variable {i : Fin 4}

section
variable {rising : Bool} (hon : (s.m.reg (Reg.SNS_SPI_CFG i)).getLsbD 31 = true)
  (hedge : rising = !(s.m.reg (Reg.SNS_SPI_CFG i)).getLsbD 28)
include hon hedge

theorem exec_drdyEdge_free (hfree : (s.m.spiOf i).reading = none) :
    ∃ t, exec (.drdyEdge i rising) s = .next { s with m := t } ∧
      t.spiOf i = { reading := some (s.m.time.count.setWidth 32, s.m.spiStream i) } ∧
      (∀ o, o ≠ i.val → t.spiOf o = s.m.spiOf o) ∧ { t with ports := s.m.ports } = s.m := by
  refine ⟨s.m.setSpi i { reading := some (s.m.now, s.m.spiStream i) }, ?_, Mach.spiOf_setSpi_same _ _ _,
    fun o ho => Mach.spiOf_setSpi_ne _ ho _, rfl⟩
  refine (atHub_runs live hruns (·.drdyEdge i rising)).trans ?_
  rw [Mach.drdyEdge_taken hon hedge, hfree]
  rfl

theorem exec_drdyEdge_held (hbusy : (s.m.spiOf i).reading ≠ none) :
    ∃ t, exec (.drdyEdge i rising) s = .next { s with m := t } ∧
      t.spiOf i = { s.m.spiOf i with held := some (s.m.time.count.setWidth 32) } ∧
      t.reg (Reg.SNS_SPI_STAT i) = s.m.reg (Reg.SNS_SPI_STAT i) + 1 ∧ s.m.regsBut t [Reg.SNS_SPI_STAT i] ∧
      { t with regs := s.m.regs, ports := s.m.ports } = s.m := by
  refine ⟨(s.m.setSpi i { s.m.spiOf i with held := some s.m.now }).incReg (Reg.SNS_SPI_STAT i), ?_, Mach.spiOf_setSpi_same _ _ _, ?_, ?_, rfl⟩
  · refine (atHub_runs live hruns (·.drdyEdge i rising)).trans ?_
    rw [Mach.drdyEdge_taken hon hedge, if_neg (by rwa [Option.isNone_iff_eq_none])]
  · exact Mach.reg_setReg_same _ _ _
  · exact Mach.regsBut.setReg (m := s.m) (fun _ _ => rfl) (by simp) _

end

section
variable {at_ : Word} {dest : Option Nat} {st : Nat} {data : List Byte} (hreading : (s.m.spiOf i).reading = some (at_, dest))
include hreading

/-- The stream that began the read takes its sample, if it is enabled or drains (R94). -/
def Mach.spiOwn (m : Mach) (dest : Option Nat) : Option Nat :=
  dest.filter fun o => m.strEnabled o || m.rbit (Reg.STR_STATUS o) 3

theorem exec_spiReadDone : exec (.spiReadDone i data) s =
    .next { s with m := (s.m.spiNext i).spiItem i dest (s.m.spiSample i at_ data) } := by
  rw [← s.m.spiDone_reading i hreading]
  exact atHub_runs live hruns (·.spiDone i data)

theorem exec_spiReadDone_own (hown : s.m.spiOwn dest = some st)
    (hroom : recordBytes data.length ≤ (s.m.stream st).q.capacity (s.m.inqGeom st)) :
    ∃ t, exec (.spiReadDone i data) s = .next { s with m := t.strDrained st } ∧
      t.spiOf i = { reading := (s.m.spiOf i).held.map fun h => (h, s.m.spiStream i) } ∧
      s.m.tookItem t st (s.m.spiSample i at_ data) := by
  refine ⟨(s.m.spiNext i).enqueue st (s.m.spiSample i at_ data), ?_, ?_, Mach.enqueue_took rfl hroom⟩
  · rw [exec_spiReadDone live hruns hreading, Mach.spiItem_own (m := s.m.spiNext i) hown]
  · rw [Mach.enqueue_spiOf, Mach.spiNext, Mach.spiOf_setSpi_same]

variable (hown : s.m.spiOwn dest = none)
include hown

theorem exec_spiReadDone_hub : exec (.spiReadDone i data) s =
    .next { s with m := (s.m.spiNext i).hubItem 24 (fun o => (s.m.spiNext i).strFrom o 4 i) (s.m.spiSample i at_ data) } := by
  rw [exec_spiReadDone live hruns hreading, Mach.spiItem_other (m := s.m.spiNext i) hown]

theorem exec_spiReadDone_unselected (hsel : s.m.spiStream i = none) :
    ∃ t, exec (.spiReadDone i data) s = .next { s with m := t } ∧
      t.spiOf i = { reading := (s.m.spiOf i).held.map fun h => (h, s.m.spiStream i) } ∧ t.streams = s.m.streams ∧
      t.fld Reg.SNS_HUB_DROP 24 8 = (s.m.fld Reg.SNS_HUB_DROP 24 8 + 1) % 256 ∧ s.m.regsBut t [Reg.SNS_HUB_DROP] ∧
      { t with regs := s.m.regs, ports := s.m.ports } = s.m := by
  refine ⟨(s.m.spiNext i).incFld Reg.SNS_HUB_DROP 24 8, ?_, Mach.spiOf_setSpi_same _ _ _, rfl,
    (s.m.spiNext i).incFld_fld (by decide) _, Mach.regsBut.setReg (m := s.m) (fun _ _ => rfl) (by simp) _, rfl⟩
  have hsel' : (s.m.spiNext i).selectStream (fun o => (s.m.spiNext i).strFrom o 4 i) = none := hsel
  rw [exec_spiReadDone_hub live hruns hreading hown, Mach.hubItem_none hsel']

variable (hsel : s.m.spiStream i = some st)
include hsel

theorem exec_spiReadDone_selected : exec (.spiReadDone i data) s =
    .next { s with m := (s.m.spiNext i).enqueue st (s.m.spiSample i at_ data) } := by
  have hsel' : (s.m.spiNext i).selectStream (fun o => (s.m.spiNext i).strFrom o 4 i) = some st := hsel
  rw [exec_spiReadDone_hub live hruns hreading hown, Mach.hubItem_some hsel']

theorem exec_spiReadDone_taken (hroom : recordBytes data.length ≤ (s.m.stream st).q.capacity (s.m.inqGeom st)) :
    ∃ t, exec (.spiReadDone i data) s = .next { s with m := t } ∧
      t.spiOf i = { reading := (s.m.spiOf i).held.map fun h => (h, s.m.spiStream i) } ∧
      s.m.tookItem t st (s.m.spiSample i at_ data) := by
  refine ⟨_, exec_spiReadDone_selected live hruns hreading hown hsel, ?_, Mach.enqueue_took rfl hroom⟩
  rw [Mach.enqueue_spiOf, Mach.spiNext, Mach.spiOf_setSpi_same]

theorem exec_spiReadDone_full (hfull : (s.m.stream st).q.capacity (s.m.inqGeom st) < recordBytes data.length) :
    ∃ t, exec (.spiReadDone i data) s = .next { s with m := t } ∧ (t.stream st).items = (s.m.stream st).items ∧
      (t.stream st).seq = (s.m.stream st).seq ∧ (t.stream st).first = true ∧ t.rbit (Reg.STR_EVENT st) 1 = true ∧
      t.reg (Reg.STR_DROPS st) = s.m.reg (Reg.STR_DROPS st) + 1 ∧ s.m.regsBut t [Reg.STR_DROPS st, Reg.STR_EVENT st] := by
  obtain ⟨hstream, hevent, hdrops, hregs⟩ := Mach.enqueue_dropped (u := s.m.spiNext i) (it := s.m.spiSample i at_ data) rfl hfull
  refine ⟨_, exec_spiReadDone_selected live hruns hreading hown hsel, ?_, ?_, ?_, hevent, hdrops, hregs⟩ <;> rw [hstream]

end

end

section
variable {j : Fin 2} (hon : s.m.rbit (Reg.SNS_CAN_CFG j) 31 = true) (hstate : s.m.canState j ≠ 2)
include hon hstate

theorem exec_canFrameRx {f : CanFrame} {st : Nat} (hfd : f.fd = true → s.m.rbit (Reg.SNS_CAN_CFG j) 29 = true)
    (hsel : s.m.selectStream (s.m.canMatch j f) = some st)
    (hroom : recordBytes f.data.length ≤ (s.m.stream st).q.capacity (s.m.inqGeom st)) :
    ∃ t, exec (.canFrameRx j f) s = .next { s with m := t } ∧
      (s.m.fld (Reg.SNS_CAN_STAT j) 16 8 ≤ 127 →
        t.fld (Reg.SNS_CAN_STAT j) 16 8 = s.m.fld (Reg.SNS_CAN_STAT j) 16 8 - 1) ∧
      (127 < s.m.fld (Reg.SNS_CAN_STAT j) 16 8 →
        119 ≤ t.fld (Reg.SNS_CAN_STAT j) 16 8 ∧ t.fld (Reg.SNS_CAN_STAT j) 16 8 ≤ 127) ∧
      (s.m.canGood j).tookItem t st (plainItem 6 f.sof (f.ident.setWidth 32) (BitVec.ofNat 32 f.data.length) f.data) := by
  obtain ⟨hsame, hstreams, hlow, hhigh⟩ := s.m.canGood_shows j
  have hsel' : (s.m.canGood j).selectStream (s.m.canMatch j f) = some st := (hsame.selectStream fun _ => rfl).trans hsel
  have hstream : (s.m.canGood j).stream st = s.m.stream st := congrArg (fun l : Sparse Stream => sget (fun _ => ({} : Stream)) l st) hstreams
  have hroom' : recordBytes f.data.length ≤ ((s.m.canGood j).stream st).q.capacity ((s.m.canGood j).inqGeom st) := by
    rwa [hstream, hsame.inqGeom]
  have hafter := Mach.fld_congr (Mach.enqueue_room_reg (it := plainItem 6 f.sof (f.ident.setWidth 32) (BitVec.ofNat 32 f.data.length) f.data)
    hroom' (Reg.SNS_CAN_STAT j)) 16 8
  refine ⟨(s.m.canGood j).enqueue st _, ?_, ?_, ?_, Mach.enqueue_took_self hroom'⟩
  · refine (atHub_runs live hruns (·.canRx j f)).trans ?_
    rw [s.m.canRx_taken j hon hstate hfd, Mach.hubItem_some hsel']
  · rwa [hafter]
  · rwa [hafter]

theorem exec_canErrorFrame (tec : BitVec 9) (rec : BitVec 8) :
    ∃ t, exec (.canErrorFrame j tec rec) s = .next { s with m := t } ∧
      t.canState j = (if 256 ≤ tec.toNat then 2 else if 128 ≤ tec.toNat ∨ 128 ≤ rec.toNat then 1 else 0) ∧
      t.fld (Reg.SNS_CAN_STAT j) 24 8 = min 255 tec.toNat ∧ t.fld (Reg.SNS_CAN_STAT j) 16 8 = rec.toNat ∧
      (256 ≤ tec.toNat → t.rbit Reg.SNS_EVENT 2 = true) ∧ s.m.regsBut t [Reg.SNS_CAN_STAT j, Reg.SNS_EVENT] ∧
      { t with regs := s.m.regs } = s.m := by
  obtain ⟨htec, hrec, hst⟩ := canStat_fields (tec := tec.toNat) rec.isLt
  have hact : exec (.canErrorFrame j tec rec) s = .next { s with m := _ } :=
    (atHub_runs live hruns (·.canError j tec.toNat rec.toNat)).trans (by rw [s.m.canError_on j hon hstate rec.isLt])
  have hevent : Reg.SNS_CAN_STAT j ≠ Reg.SNS_EVENT := by
    simp only [Reg.SNS_CAN_STAT, Reg.SNS_EVENT]
    omega
  generalize canStat tec.toNat rec.toNat = w at hact htec hrec hst
  refine ⟨_, hact, ?_⟩
  split
  case isTrue hoff =>
    have hstat := (Mach.raise_reg (s.m.setReg (Reg.SNS_CAN_STAT j) w) Reg.SNS_EVENT 0x4 (Reg.SNS_CAN_STAT j)).trans
      (if_neg hevent)
    rw [Mach.reg_setReg_same] at hstat
    rw [if_pos hoff] at hst
    rw [Mach.canState, Mach.fld, Mach.fld, Mach.fld, hstat]
    exact ⟨hst, htec, hrec, fun _ => Mach.raise_bit _ _ _ 2 (by decide) (by decide),
      Mach.regsBut.setReg (Mach.regsBut.setReg (fun _ _ => rfl) (by simp) _) (by simp) _,
      Mach.regs_rest_setReg (Mach.regs_rest_setReg rfl _ _) _ _⟩
  case isFalse hon =>
    rw [if_neg hon] at hst
    rw [Mach.canState, Mach.fld, Mach.fld, Mach.fld, Mach.reg_setReg_same]
    exact ⟨hst, htec, hrec, fun h => absurd h hon, Mach.regsBut.setReg (fun _ _ => rfl) (by simp) _, Mach.regs_rest_setReg rfl _ _⟩

end

theorem exec_canBusoffRecovery {j : Fin 2} (hstate : s.m.canState j = 2) :
    exec (.canBusoffRecovery j) s = .next { s with m := s.m.setReg (Reg.SNS_CAN_STAT j) 0 } :=
  (atHub_runs live hruns fun m => if m.canState j = 2 then m.setReg (Reg.SNS_CAN_STAT j) 0 else m).trans (by rw [if_pos hstate])

end

end Sys2Proof.Machine
end

section
/-! The encoders and the GPIO pins (R78, R79, R115): steps counted, samples at their boundaries, edges of pins and the timed output. -/

namespace Sys2Proof.Machine

/-! ## Encoders (R78) -/

section
variable (m : Mach) (e : Fin 8)

@[simp] theorem Mach.encOf_setEnc_same (k : Nat) (x : Enc) : (m.setEnc k x).encOf k = x := sget_sput_same _ _ _ _

theorem Mach.encOf_setEnc_ne {k o : Nat} (h : o ≠ k) (x : Enc) : (m.setEnc k x).encOf o = m.encOf o := sget_sput_ne _ h _ _

/-- One transition of A or B counts one step, whichever way and however the levels are inverted (log entry 20). -/
theorem quadStep_one (inv a b a' b' : Bool) (h : (a' = (!a) ∧ b' = b) ∨ (a' = a ∧ b' = (!b))) :
    quadStep (a != inv) (b != inv) (a' != inv) (b' != inv) = 1 ∨ quadStep (a != inv) (b != inv) (a' != inv) (b' != inv) = -1 := by
  revert inv a b a' b'
  decide

/-- Encoder e with its new levels, the edges among them stamped now. -/
def Mach.encMoved (m : Mach) (e : Nat) (a b z : Bool) : Enc :=
  { m.encOf e with
    a := a
    b := b
    z := z
    edge := if a != (m.encOf e).a || b != (m.encOf e).b then m.now else (m.encOf e).edge
    zEdge := if (z != m.rbit (Reg.SNS_ENC_CFG e) 30) && !((m.encOf e).z != m.rbit (Reg.SNS_ENC_CFG e) 30) && m.rbit (Reg.SNS_ENC_CFG e) 29
      then m.now else (m.encOf e).zEdge }

/-- The encoder after the boundary at a time: the next one is one period on. -/
def Mach.encNext (m : Mach) (e : Nat) (at_ : Word) : Mach :=
  m.setEnc e { m.encOf e with next := some (at_ + m.encPeriod e) }

/-- The item of a boundary: the count and the edge stamps. -/
def Mach.encItem (m : Mach) (e : Nat) (at_ : Word) : Item :=
  plainItem 5 at_ (m.reg (Reg.SNS_ENC_COUNT e)) 0 (wordBytes (m.encOf e).edge ++ wordBytes (m.encOf e).zEdge)

theorem Mach.encItem_bytes (at_ : Word) : recordBytes (m.encItem e at_).payload.length = 64 := by
  rw [Mach.encItem, plainItem, List.length_append, length_wordBytes, length_wordBytes]
  rfl

variable {m e} (hon : m.rbit (Reg.SNS_ENC_CFG e) 31 = true)
include hon

section
variable (hruns : m.runs 164 = true) {a b z : Bool}
include hruns

theorem Mach.encEdge_both (ha : a = !(m.encOf e).a) (hb : b = !(m.encOf e).b) :
    m.encEdge e a b z = (m.setEnc e (m.encMoved e a b z)).incReg (Reg.SNS_ENC_STAT e) := by
  have hrun : ((m.reg (Reg.SNS_ENC_CFG e)).bit 31 && m.runs 164) = true := by
    rw [hruns, Bool.and_true]
    exact hon
  have hboth : (a != (m.encOf e).a && b != (m.encOf e).b) = true := by simp [ha, hb]
  exact (if_pos hrun).trans (if_pos hboth)

theorem Mach.encEdge_one (hone : (a = (!(m.encOf e).a) ∧ b = (m.encOf e).b) ∨ (a = (m.encOf e).a ∧ b = (!(m.encOf e).b))) :
    ∃ d : Word, (d = 1 ∨ d = -1) ∧ m.encEdge e a b z =
      (m.setEnc e (m.encMoved e a b z)).setReg (Reg.SNS_ENC_COUNT e) (m.reg (Reg.SNS_ENC_COUNT e) + d) := by
  have hrun : ((m.reg (Reg.SNS_ENC_CFG e)).bit 31 && m.runs 164) = true := by
    rw [hruns, Bool.and_true]
    exact hon
  have hboth : ¬ (a != (m.encOf e).a && b != (m.encOf e).b) = true := by
    obtain ⟨ha, hb⟩ | ⟨ha, hb⟩ := hone <;> simp [ha, hb]
  refine ⟨_, ?_, (if_pos hrun).trans (if_neg hboth)⟩
  obtain hstep | hstep := quadStep_one ((m.reg (Reg.SNS_ENC_CFG e)).bit 30) (m.encOf e).a (m.encOf e).b a b hone
  · exact .inl (by rw [hstep]; decide)
  · exact .inr (by rw [hstep]; decide)

end

theorem Mach.encSample_due {at_ : Word} (hnext : (m.encOf e).next = some at_) (hdue : reached (m.time.count.setWidth 32) at_ = true) :
    m.encSample e = (m.encNext e at_).hubItem 8 (fun o => (m.encNext e at_).strFrom o 5 e) (m.encItem e at_) := by
  have htaken : (m.rbit (Reg.SNS_ENC_CFG e) 31 && reached m.now at_) = true := by
    rw [hon, Bool.true_and]
    exact hdue
  unfold Mach.encSample
  simp only [hnext]
  exact if_pos htaken

end

/-- What an item leaves at the encoders. -/
theorem Mach.enqueue_encOf {m : Mach} {st : Nat} {it : Item}
    (h : recordBytes it.payload.length ≤ (m.stream st).q.capacity (m.inqGeom st)) (o : Nat) :
    (m.enqueue st it).encOf o = m.encOf o := by
  rw [m.enqueue_room st it h]
  rfl

/-! ## GPIO (R78, R79) -/

section
variable {m : Mach} {pin : Fin 16}

/-- The stream that selects edges of a pin. -/
def Mach.gpioStream (m : Mach) (pin : Nat) : Option Nat :=
  m.selectStream fun o => m.strKind o == 7 && m.rbit (Reg.STR_MATCH o) pin

/-- The item of a pin's edge. -/
def gpioItem (at_ : Word) (pin : Nat) (level : Bool) : Item :=
  plainItem 7 at_ 0 (BitVec.ofNat 32 (pin * 16 + level.toNat)) []

theorem Mach.strSame.gpioStream {t : Mach} (h : m.strSame t) (k : Nat) : t.gpioStream k = m.gpioStream k :=
  h.selectStream fun s => by
    rw [Mach.strKind, Mach.strKind, Mach.fld_congr (h.source s), Mach.rbit_congr (h _ (by simp only [Reg.STR_MATCH]; omega))]

section
variable {level : Bool} (hin : m.rbit Reg.SNS_GPIO_DIR pin = false) (hchange : m.rbit Reg.SNS_GPIO_IN pin ≠ level)
include hin hchange

theorem Mach.gpioEdge_seen : m.gpioEdge pin level =
    (if (m.setRBit Reg.SNS_GPIO_IN pin level).rbit Reg.SNS_GPIO_EDGE (if level then 16 + pin.val else pin.val) then
      (m.setRBit Reg.SNS_GPIO_IN pin level).hubItem 0 (fun s => (m.setRBit Reg.SNS_GPIO_IN pin level).strKind s == 7 &&
        (m.setRBit Reg.SNS_GPIO_IN pin level).rbit (Reg.STR_MATCH s) pin) (gpioItem m.now pin level)
    else m.setRBit Reg.SNS_GPIO_IN pin level).gpioTrigger pin level m.now := by
  have hseen : ¬ (m.rbit Reg.SNS_GPIO_DIR pin || m.rbit Reg.SNS_GPIO_IN pin == level) = true := by simp [hin, hchange]
  exact if_neg hseen

end

/-- One output may be armed, 1 µs to 2 s ahead, and no pin that Show Home drives (R79, R341). -/
def Mach.gpioMay (m : Mach) : Prop :=
  m.ports.timed = none ∧ 1000 ≤ (m.reg Reg.SNS_GPIO_TAT - m.time.count.setWidth 32).toInt ∧
    (m.reg Reg.SNS_GPIO_TAT - m.time.count.setWidth 32).toInt ≤ 2000000000 ∧ ¬(m.showHome = true ∧ m.fld Reg.SNS_GPIO_TCFG 4 4 = 0)

theorem Mach.gpioMay_iff (m : Mach) : m.gpioMay ↔ ¬ (m.ports.timed.isSome || !m.aheadWithin (m.reg Reg.SNS_GPIO_TAT) 1000 2000000000 ||
    (m.showHome && m.fld Reg.SNS_GPIO_TCFG 4 4 == 0)) = true := by
  rw [Bool.or_eq_true, Bool.or_eq_true, not_or, not_or, Option.not_isSome_iff_eq_none, Bool.not_eq_true', Bool.not_eq_false,
    Mach.aheadWithin_iff, Bool.and_eq_true, beq_iff_eq, and_assoc, and_assoc]
  rfl

/-- The output armed, with pin and level as configured now (log entry 137). -/
def Mach.gpioArmed (m : Mach) : Mach :=
  m.onPorts fun p => { p with timed := some (m.reg Reg.SNS_GPIO_TAT, m.fld Reg.SNS_GPIO_TCFG 4 4, m.rbit Reg.SNS_GPIO_TCFG 0) }

def Mach.gpioDisarmed (m : Mach) : Mach := m.onPorts fun p => { p with timed := none }

section
variable {v : Word} (hset : v.getLsbD 0 = true)
include hset

theorem Mach.gpioTarm_may (hmay : m.gpioMay) : m.gpioTarm v = (false, m.gpioArmed) := by
  have hv : ¬ (!v.bit 0) = true := by simp [Word.bit, hset]
  exact (if_neg hv).trans (if_neg (m.gpioMay_iff.mp hmay))

theorem Mach.gpioTarm_refused (hmay : ¬ m.gpioMay) : m.gpioTarm v = m.bad := by
  have hv : ¬ (!v.bit 0) = true := by simp [Word.bit, hset]
  exact (if_neg hv).trans (if_pos (not_not.mp fun h => hmay (m.gpioMay_iff.mpr h)))

end

end

/-! ## The commands of the encoders and of GPIO -/

section
variable {s : State} (live : s.m.live = true)
include live

section
variable {e : Fin 8} (hruns : s.m.runs 164 = true) (hon : s.m.rbit (Reg.SNS_ENC_CFG e) 31 = true)
include hruns hon

section
variable {a b z : Bool}

theorem exec_encoderEdge_one (hone : (a = (!(s.m.encOf e).a) ∧ b = (s.m.encOf e).b) ∨ (a = (s.m.encOf e).a ∧ b = (!(s.m.encOf e).b))) :
    ∃ t, exec (.encoderEdge e a b z) s = .next { s with m := t } ∧
      (t.reg (Reg.SNS_ENC_COUNT e) = s.m.reg (Reg.SNS_ENC_COUNT e) + 1 ∨
        t.reg (Reg.SNS_ENC_COUNT e) = s.m.reg (Reg.SNS_ENC_COUNT e) - 1) ∧
      (t.encOf e).a = a ∧ (t.encOf e).b = b ∧ (t.encOf e).z = z ∧ (t.encOf e).edge = s.m.time.count.setWidth 32 ∧
      s.m.regsBut t [Reg.SNS_ENC_COUNT e] ∧ { t with regs := s.m.regs, ports := s.m.ports } = s.m := by
  obtain ⟨d, hd, hedge⟩ := Mach.encEdge_one hon hruns (z := z) hone
  have hself : ((s.m.setEnc e (s.m.encMoved e a b z)).setReg (Reg.SNS_ENC_COUNT e) (s.m.reg (Reg.SNS_ENC_COUNT e) + d)).encOf e =
      s.m.encMoved e a b z := Mach.encOf_setEnc_same _ _ _
  have hmoved : (a != (s.m.encOf e).a || b != (s.m.encOf e).b) = true := by
    obtain ⟨ha, hb⟩ | ⟨ha, hb⟩ := hone <;> simp [ha, hb]
  refine ⟨_, (act_live live (·.encEdge e a b z)).trans (by rw [hedge]), ?_, ?_⟩
  · rw [Mach.reg_setReg_same, BitVec.sub_eq_add_neg]
    exact hd.imp (congrArg _) (congrArg _)
  · rw [hself]
    exact ⟨rfl, rfl, rfl, if_pos hmoved, Mach.regsBut.setReg (m := s.m) (fun _ _ => rfl) (by simp) _, rfl⟩

theorem exec_encoderEdge_both (ha : a = !(s.m.encOf e).a) (hb : b = !(s.m.encOf e).b) :
    ∃ t, exec (.encoderEdge e a b z) s = .next { s with m := t } ∧
      t.reg (Reg.SNS_ENC_STAT e) = s.m.reg (Reg.SNS_ENC_STAT e) + 1 ∧ s.m.regsBut t [Reg.SNS_ENC_STAT e] :=
  ⟨(s.m.setEnc e (s.m.encMoved e a b z)).incReg (Reg.SNS_ENC_STAT e),
    (act_live live (·.encEdge e a b z)).trans (by rw [Mach.encEdge_both hon hruns ha hb]), Mach.reg_setReg_same _ _ _,
    Mach.regsBut.setReg (m := s.m) (fun _ _ => rfl) (by simp) _⟩

end

theorem exec_encoderSample {at_ : Word} {st : Nat} (hnext : (s.m.encOf e).next = some at_)
    (hdue : reached (s.m.time.count.setWidth 32) at_ = true) (hsel : s.m.selectStream (fun o => s.m.strFrom o 5 e) = some st)
    (hroom : 64 ≤ (s.m.stream st).q.capacity (s.m.inqGeom st)) :
    ∃ t, exec (.encoderSample e) s = .next { s with m := t } ∧
      t.encOf e = { s.m.encOf e with next := some (at_ + BitVec.ofNat 32 (s.m.fld (Reg.SNS_ENC_CFG e) 0 16 * 1000)) } ∧
      s.m.tookItem t st (plainItem 5 at_ (s.m.reg (Reg.SNS_ENC_COUNT e)) 0
        (wordBytes (s.m.encOf e).edge ++ wordBytes (s.m.encOf e).zEdge)) := by
  have hsel' : (s.m.encNext e at_).selectStream (fun o => (s.m.encNext e at_).strFrom o 5 e) = some st := hsel
  have hroom' : recordBytes (s.m.encItem e at_).payload.length ≤ ((s.m.encNext e at_).stream st).q.capacity ((s.m.encNext e at_).inqGeom st) := by
    rw [s.m.encItem_bytes]
    exact hroom
  refine ⟨(s.m.encNext e at_).enqueue st (s.m.encItem e at_), ?_, ?_, Mach.enqueue_took rfl hroom'⟩
  · refine (atHub_runs live hruns (·.encSample e)).trans ?_
    rw [Mach.encSample_due hon hnext hdue, Mach.hubItem_some hsel']
  · rw [Mach.enqueue_encOf hroom', Mach.encNext, Mach.encOf_setEnc_same]
    rfl

end

section
variable {pin : Fin 16} {level : Bool} (hruns : s.m.runs 164 = true) (hin : s.m.rbit Reg.SNS_GPIO_DIR pin = false)
  (hchange : s.m.rbit Reg.SNS_GPIO_IN pin ≠ level)
include hruns hin hchange

theorem exec_gpioEdge_plain (hplain : s.m.rbit Reg.SNS_GPIO_EDGE (if level then 16 + pin.val else pin.val) = false) :
    exec (.gpioEdge pin level) s = .next { s with m :=
      (s.m.setRBit Reg.SNS_GPIO_IN pin level).gpioTrigger pin level (s.m.time.count.setWidth 32) } := by
  have hact : exec (.gpioEdge pin level) s = _ := atHub_runs live hruns (·.gpioEdge pin level)
  have hedge : (s.m.setRBit Reg.SNS_GPIO_IN pin level).reg Reg.SNS_GPIO_EDGE = s.m.reg Reg.SNS_GPIO_EDGE :=
    Mach.reg_setReg_ne _ (by decide) _
  rw [hact, Mach.gpioEdge_seen hin hchange, Mach.rbit_congr hedge, hplain]
  rfl

theorem exec_gpioEdge_item (hitem : s.m.rbit Reg.SNS_GPIO_EDGE (if level then 16 + pin.val else pin.val) = true) :
    ∃ t : Mach, exec (.gpioEdge pin level) s = .next { s with m := t.gpioTrigger pin level (s.m.time.count.setWidth 32) } ∧
      t.rbit Reg.SNS_GPIO_IN pin = level ∧
      (∀ st, s.m.gpioStream pin = some st → 32 ≤ (s.m.stream st).q.capacity (s.m.inqGeom st) →
        (s.m.setRBit Reg.SNS_GPIO_IN pin level).tookItem t st (gpioItem (s.m.time.count.setWidth 32) pin level)) ∧
      (∀ st, s.m.gpioStream pin = some st → (s.m.stream st).q.capacity (s.m.inqGeom st) < 32 →
        (t.stream st).items = (s.m.stream st).items ∧ t.reg (Reg.STR_DROPS st) = s.m.reg (Reg.STR_DROPS st) + 1) ∧
      (s.m.gpioStream pin = none → t.streams = s.m.streams ∧
        t.fld Reg.SNS_HUB_DROP 0 8 = (s.m.fld Reg.SNS_HUB_DROP 0 8 + 1) % 256) := by
  have hact : exec (.gpioEdge pin level) s = _ := atHub_runs live hruns (·.gpioEdge pin level)
  have hedge : (s.m.setRBit Reg.SNS_GPIO_IN pin level).reg Reg.SNS_GPIO_EDGE = s.m.reg Reg.SNS_GPIO_EDGE :=
    Mach.reg_setReg_ne _ (by decide) _
  have hdrop : (s.m.setRBit Reg.SNS_GPIO_IN pin level).reg Reg.SNS_HUB_DROP = s.m.reg Reg.SNS_HUB_DROP :=
    Mach.reg_setReg_ne _ (by decide) _
  have hshow : (s.m.setRBit Reg.SNS_GPIO_IN pin level).rbit Reg.SNS_GPIO_IN pin = level :=
    Mach.rbit_setRBit_same _ (by omega) _ _
  have hsame : s.m.strSame (s.m.setRBit Reg.SNS_GPIO_IN pin level) := (Mach.strSame.refl s.m).setReg (by decide) _
  have hstream : ∀ o, (s.m.setRBit Reg.SNS_GPIO_IN pin level).stream o = s.m.stream o := fun _ => rfl
  have hstreams : (s.m.setRBit Reg.SNS_GPIO_IN pin level).streams = s.m.streams := rfl
  rw [Mach.gpioEdge_seen hin hchange, Mach.rbit_congr hedge, if_pos hitem] at hact
  generalize s.m.setRBit Reg.SNS_GPIO_IN pin level = seen at *
  have hsel := hsame.gpioStream pin
  refine ⟨_, hact, ?_⟩
  cases hnow : s.m.gpioStream pin with
  | none =>
    rw [hnow] at hsel
    rw [Mach.hubItem_none hsel]
    have hne : (seen.incFld Reg.SNS_HUB_DROP 0 8).reg Reg.SNS_GPIO_IN = seen.reg Reg.SNS_GPIO_IN := Mach.reg_setReg_ne _ (by decide) _
    refine ⟨(Mach.rbit_congr hne _).trans hshow, nofun, nofun, fun _ => ⟨hstreams, ?_⟩⟩
    rw [Mach.incFld_fld _ (by decide), Mach.fld_congr hdrop]
    rfl
  | some st =>
    rw [hnow] at hsel
    rw [Mach.hubItem_some hsel]
    have hbytes : recordBytes (gpioItem s.m.now pin level).payload.length = 32 := by simp [gpioItem, plainItem, recordBytes]
    by_cases hroom : 32 ≤ (s.m.stream st).q.capacity (s.m.inqGeom st)
    · have hroom' : recordBytes (gpioItem s.m.now pin level).payload.length ≤ (seen.stream st).q.capacity (seen.inqGeom st) := by
        rw [hstream, hsame.inqGeom, hbytes]
        exact hroom
      refine ⟨(Mach.rbit_congr (Mach.enqueue_room_reg hroom' _) _).trans hshow, ?_, ?_, nofun⟩
      · rintro _ ⟨⟩ -
        exact Mach.enqueue_took_self hroom'
      · rintro _ ⟨⟩ hfull
        exact absurd hroom (Nat.not_le.mpr hfull)
    · have hfull : (seen.stream st).q.capacity (seen.inqGeom st) < recordBytes (gpioItem s.m.now pin level).payload.length := by
        rw [hstream, hsame.inqGeom, hbytes]
        exact Nat.not_le.mp hroom
      obtain ⟨hdropped, -, hdrops, hregs⟩ := Mach.enqueue_dropped (u := seen) rfl hfull
      have hpinReg : Reg.SNS_GPIO_IN ∉ [Reg.STR_DROPS st, Reg.STR_EVENT st] := by
        simp only [List.mem_cons, List.not_mem_nil, or_false, Reg.SNS_GPIO_IN, Reg.STR_DROPS, Reg.STR_EVENT]
        omega
      refine ⟨(Mach.rbit_congr (hregs _ hpinReg) _).trans hshow, ?_, ?_, nofun⟩
      · rintro _ ⟨⟩ h
        exact absurd h hroom
      · rintro _ ⟨⟩ -
        exact ⟨by rw [hdropped, hstream], hdrops.trans (by rw [hsame _ (by simp only [Reg.STR_DROPS]; omega)])⟩

end

section
variable {v : Word} (hset : v.getLsbD 0 = true) (hlet : s.m.writeCause Reg.SNS_GPIO_TARM v = none)
include hset hlet

theorem exec_gpioTarm (hmay : s.m.gpioMay) : exec (.gpioTarm v) s = .next { s with m := s.m.gpioArmed } := by
  rw [← Mach.arriveWith_taken hlet (Mach.gpioTarm_may hset hmay)]
  exact act_live live fun m => m.arriveWith Reg.SNS_GPIO_TARM v (m.gpioTarm v)

theorem exec_gpioTarm_refused (hmay : ¬ s.m.gpioMay) :
    ∃ t, exec (.gpioTarm v) s = .next { s with m := t } ∧ s.m.busErr t Reg.SNS_GPIO_TARM 4 := by
  refine ⟨s.m.refuse Reg.SNS_GPIO_TARM, ?_, s.m.refuse_busErr _⟩
  rw [← Mach.arriveWith_bad hlet (Mach.gpioTarm_refused hset hmay)]
  exact act_live live fun m => m.arriveWith Reg.SNS_GPIO_TARM v (m.gpioTarm v)

end

theorem exec_gpioTimedOutput {at_ : Word} {pin : Nat} {level : Bool} (hruns : s.m.runs 164 = true)
    (hplan : s.m.ports.timed = some (at_, pin, level)) (hdue : reached (s.m.time.count.setWidth 32) at_ = true) :
    exec .gpioTimedOutput s = .next { s with m := s.m.gpioDisarmed.driveGpio ((s.m.reg Reg.SNS_GPIO_OUT).setBit pin level) } := by
  refine (atHub_runs live hruns (·.gpioTimed)).trans ?_
  unfold Mach.gpioTimed
  simp only [hplan]
  rw [if_pos (show reached s.m.now at_ = true from hdue)]
  rfl

end

/-- Settles O19: each of the ports' commands meets its own lemma above. -/
theorem lowRatePorts : Obligations.LowRatePorts := by
  refine ⟨fun s i live hruns => ⟨fun rising hon hedge => ⟨?_, ?_⟩, fun at_ dest data hreading => ⟨?_, ?_, ?_, ?_⟩⟩,
    fun s j live hruns => ⟨fun f st hon hstate hfd hsel hroom => ?_, fun tec rec hon hstate => ?_, ?_⟩,
    fun s e live hruns hon => ⟨fun a b z hone => ?_, fun a b z ha hb => ?_, fun at_ st hnext hdue hsel hroom => ?_⟩,
    fun s live => ⟨fun pin level hruns hin hchange hplain => ?_, fun pin level hruns hin hchange hitem => ?_,
      fun v hset hlet => ⟨fun hmay => ?_, fun hmay => ?_⟩, fun at_ pin level hruns hplan hdue => ?_⟩⟩
  · exact exec_drdyEdge_free live hruns hon hedge
  · exact exec_drdyEdge_held live hruns hon hedge
  · exact fun st hown hroom => exec_spiReadDone_own live hruns hreading hown hroom
  · exact fun st hown hsel hroom => exec_spiReadDone_taken live hruns hreading hown hsel hroom
  · exact fun st hown hsel hfull => exec_spiReadDone_full live hruns hreading hown hsel hfull
  · exact fun hown hsel => exec_spiReadDone_unselected live hruns hreading hown hsel
  · obtain ⟨t, hexec, hlow, hhigh, htook⟩ := exec_canFrameRx live hruns hon hstate hfd hsel hroom
    exact ⟨t, hexec, ⟨hlow, hhigh⟩, htook⟩
  · obtain ⟨t, hexec, hst, htec, hrec, hoff, hregs, hrest⟩ := exec_canErrorFrame live hruns hon hstate tec rec
    refine ⟨t, hexec, hst, htec, hrec, fun h => hoff ?_, hregs, hrest⟩
    by_contra hlow
    rw [if_neg hlow] at h
    split at h <;> simp at h
  · exact exec_canBusoffRecovery live hruns
  · exact exec_encoderEdge_one live hruns hon hone
  · exact exec_encoderEdge_both live hruns hon ha hb
  · exact exec_encoderSample live hruns hon hnext hdue hsel hroom
  · exact exec_gpioEdge_plain live hruns hin hchange hplain
  · exact exec_gpioEdge_item live hruns hin hchange hitem
  · exact ⟨_, exec_gpioTarm live hset hlet hmay, rfl, rfl⟩
  · exact exec_gpioTarm_refused live hset hlet hmay
  · exact exec_gpioTimedOutput live hruns hplan hdue

end Sys2Proof.Machine
end

section
/-! The spillway and the ring (R91, R93): the oldest whole item of a stream written at the ring's write position, and what that leaves alone. -/

namespace Sys2Proof.Machine

/-! ## Changes of one stream, registers, counters and memory -/

/-- From m to t nothing but registers of l, memory, stream st and the counters has changed, and the stream's items are the same. -/
structure Mach.RingOnly (l : List Nat) (st : Nat) (m t : Mach) : Prop where
  reg : m.regsBut t l
  others : ∀ o, o ≠ st → t.stream o = m.stream o
  items : (t.stream st).items = (m.stream st).items
  rest : { t with regs := m.regs, mem := m.mem, streams := m.streams, obs := m.obs } = m

theorem Mach.RingOnly.refl (l : List Nat) (st : Nat) (m : Mach) : Mach.RingOnly l st m m := ⟨fun _ _ => rfl, fun _ _ => rfl, rfl, rfl⟩

section
variable {l : List Nat} {st : Nat} {m t : Mach} (h : Mach.RingOnly l st m t)
include h

theorem Mach.RingOnly.setReg {a : Nat} (ha : a ∈ l) (v : Word) : Mach.RingOnly l st m (t.setReg a v) :=
  ⟨h.reg.setReg ha v, h.others, h.items, h.rest⟩

theorem Mach.RingOnly.setStream {x : Stream} (hx : x.items = (t.stream st).items) : Mach.RingOnly l st m (t.setStream st x) :=
  ⟨h.reg, fun o ho => (t.stream_setStream_ne ho x).trans (h.others o ho), by rw [Mach.stream_setStream_same, hx, h.items], h.rest⟩

theorem Mach.RingOnly.setBytes (a : Nat) (bytes : List Byte) : Mach.RingOnly l st m (t.setBytes a bytes) := by
  rw [t.setBytes_eq]
  exact ⟨h.reg, h.others, h.items, h.rest⟩

theorem Mach.RingOnly.bumpStream (lo n : Nat) : Mach.RingOnly l st m (t.bumpStream st lo n) := by
  have hstream : ∀ o, (t.bumpStream st lo n).stream o = t.stream o := fun o =>
    congrArg (fun l : Sparse Stream => sget (fun _ => ({} : Stream)) l o) (t.bumpStream_kept st lo n).2.1
  refine ⟨fun a ha => (t.bumpStream_reg st lo n a).trans (h.reg a ha), fun o ho => (hstream o).trans (h.others o ho),
    by rw [hstream, h.items], ?_⟩
  · unfold Mach.bumpStream
    split
    · exact h.rest
    · exact h.rest

end

/-! ## The ring (R91, R93) -/

section
variable (m : Mach) (st : Nat) (it : Item)

/-- The record with its header and padding, as its bytes lie in the ring. -/
def ringBytes (st : Nat) (it : Item) : List Byte :=
  padTo (recordBytes it.payload.length) (recordHeader st (recordBytes it.payload.length) it ++ it.payload)

/-- The ring with the record's bytes at an offset; the records that lay there are lost. -/
def Mach.ringStore (m : Mach) (st : Nat) (it : Item) (off : Nat) : Mach :=
  (m.ringLose st off (recordBytes it.payload.length)).setBytes (m.ringBase st + off) (ringBytes st it)

/-- The write position, the count of items and the last stamp after a record at an offset. -/
def Mach.ringCount (m : Mach) (st : Nat) (it : Item) (off : Nat) : Mach :=
  (((m.setReg (Reg.STR_RING_WR st) (BitVec.ofNat 32 (off + recordBytes it.payload.length))).incReg (Reg.STR_ITEMS st)).bumpStream st 32 32).setReg
    (Reg.STR_LAST_STAMP st) it.stamp

/-- The first record since the host looked is an event. -/
def Mach.ringTell (m : Mach) (st : Nat) : Mach :=
  if m.rbit (Reg.STR_STATUS st) 5 then m else (m.setRBit (Reg.STR_STATUS st) 5 true).raise (Reg.STR_EVENT st) 0x1

/-- The record as the stream lists it. -/
def Mach.ringRec (m : Mach) (it : Item) (off : Nat) : RingRec :=
  { off := off, len := recordBytes it.payload.length, item := it, at_ := m.time.count }

/-- The module with the record whole in the ring, before anything follows from it. -/
def Mach.ringPut (m : Mach) (st : Nat) (it : Item) (off : Nat) : Mach :=
  (((m.ringStore st it off).ringCount st it off).ringTell st).onStream st fun x =>
    { x with ring := x.ring ++ [((m.ringStore st it off).ringCount st it off).ringTell st |>.ringRec it off] }

/-- A record that fits before the end of the ring. -/
theorem Mach.ringWrite_fits (hfit : (m.reg (Reg.STR_RING_WR st)).toNat + recordBytes it.payload.length ≤ m.ringSize st) :
    ∃ r : RingRec, r.off = (m.reg (Reg.STR_RING_WR st)).toNat ∧ r.len = recordBytes it.payload.length ∧ r.item = it ∧ r.live = true ∧
      m.ringWrite st it = ((m.ringPut st it (m.reg (Reg.STR_RING_WR st)).toNat).post st r).ringPrune st := by
  have hsize : ¬ m.ringSize st < recordBytes it.payload.length := by omega
  have hend : ¬ m.ringSize st < (m.reg (Reg.STR_RING_WR st)).toNat + recordBytes it.payload.length := by omega
  refine ⟨((m.ringStore st it (m.reg (Reg.STR_RING_WR st)).toNat).ringCount st it (m.reg (Reg.STR_RING_WR st)).toNat).ringTell st
    |>.ringRec it (m.reg (Reg.STR_RING_WR st)).toNat, rfl, rfl, rfl, rfl, ?_⟩
  unfold Mach.ringWrite
  simp only [if_neg hsize, hend, decide_false, Bool.false_and, Bool.false_eq_true, if_false]
  rfl

/-! ## What a record in the ring changes -/

/-- The registers of the ring that a record changes. -/
def ringRegs (st : Nat) : List Nat :=
  [Reg.STR_RING_WR st, Reg.STR_ITEMS st, Reg.STR_LAST_STAMP st, Reg.STR_STATUS st, Reg.STR_EVENT st]

section
variable {m st} {t : Mach} (h : Mach.RingOnly (ringRegs st) st m t)
include h

theorem Mach.RingOnly.ringLose (off n : Nat) : Mach.RingOnly (ringRegs st) st m (t.ringLose st off n) := by
  unfold Mach.ringLose
  dsimp only
  split
  · refine Mach.RingOnly.setReg (h.setStream ?_) (by simp [ringRegs]) _
    rfl
  · exact h.setStream rfl

theorem Mach.RingOnly.ringStore (off : Nat) : Mach.RingOnly (ringRegs st) st m (t.ringStore st it off) := (h.ringLose _ _).setBytes _ _

theorem Mach.RingOnly.ringCount (off : Nat) : Mach.RingOnly (ringRegs st) st m (t.ringCount st it off) :=
  (((h.setReg (by simp [ringRegs]) _).setReg (by simp [ringRegs]) _).bumpStream _ _).setReg (by simp [ringRegs]) _

theorem Mach.RingOnly.ringTell : Mach.RingOnly (ringRegs st) st m (t.ringTell st) := by
  unfold Mach.ringTell
  split
  · exact h
  · exact (h.setReg (by simp [ringRegs]) _).setReg (by simp [ringRegs]) _

theorem Mach.RingOnly.ringPut (off : Nat) : Mach.RingOnly (ringRegs st) st m (t.ringPut st it off) :=
  ((h.ringStore it off).ringCount it off).ringTell.setStream rfl

end

/-! The bytes. -/

theorem Mach.ringLose_mem (off n : Nat) : (m.ringLose st off n).mem = m.mem := by
  unfold Mach.ringLose
  dsimp only
  split <;> rfl

theorem Mach.bumpStream_mem (lo n : Nat) : (m.bumpStream st lo n).mem = m.mem := by
  unfold Mach.bumpStream
  split <;> rfl

theorem Mach.ringCount_mem (off : Nat) : (m.ringCount st it off).mem = m.mem := by
  rw [Mach.ringCount, Mach.setReg_mem, Mach.bumpStream_mem]
  rfl

theorem Mach.ringTell_mem : (m.ringTell st).mem = m.mem := by
  unfold Mach.ringTell
  split <;> rfl

theorem Mach.ringPut_byte (off x : Nat) : (m.ringPut st it off).byte x = (m.ringStore st it off).byte x := by
  have hmem : (m.ringPut st it off).mem = (((m.ringStore st it off).ringCount st it off).ringTell st).mem := rfl
  rw [Mach.byte, hmem, Mach.ringTell_mem, Mach.ringCount_mem]
  rfl

theorem Mach.ringPut_byte_in {off i : Nat} (hi : i < recordBytes it.payload.length) :
    (m.ringPut st it off).byte (m.ringBase st + off + i) = (ringBytes st it).getD i 0 := by
  have hlen : i < (ringBytes st it).length := by rwa [ringBytes, length_padTo]
  rw [Mach.ringPut_byte, Mach.ringStore, Mach.setBytes_byte_in _ _ _ _ hlen, List.getD_eq_getElem _ _ hlen]

theorem Mach.ringPut_byte_out {off x : Nat}
    (hx : x < m.ringBase st + off ∨ m.ringBase st + off + recordBytes it.payload.length ≤ x) :
    (m.ringPut st it off).byte x = m.byte x := by
  rw [Mach.ringPut_byte, Mach.ringStore, Mach.setBytes_byte_out _ _ _ _ (by rwa [ringBytes, length_padTo]), Mach.byte,
    Mach.ringLose_mem]
  rfl

/-! The registers. -/

theorem Mach.ringTell_reg {a : Nat} (hstatus : a ≠ Reg.STR_STATUS st) (hevent : a ≠ Reg.STR_EVENT st) :
    (m.ringTell st).reg a = m.reg a := by
  unfold Mach.ringTell
  split
  · rfl
  · rw [Mach.raise_reg, if_neg hevent, Mach.setRBit_reg, if_neg hstatus]

theorem Mach.ringStore_reg {a : Nat} (hstatus : a ≠ Reg.STR_STATUS st) (off : Nat) : (m.ringStore st it off).reg a = m.reg a := by
  rw [Mach.ringStore, Mach.setBytes_reg]
  unfold Mach.ringLose
  dsimp only
  split
  · rw [Mach.setRBit_reg, if_neg hstatus]
    rfl
  · rfl

theorem Mach.ringPut_regs (off : Nat) :
    (m.ringPut st it off).reg (Reg.STR_RING_WR st) = BitVec.ofNat 32 (off + recordBytes it.payload.length) ∧
    (m.ringPut st it off).reg (Reg.STR_ITEMS st) = m.reg (Reg.STR_ITEMS st) + 1 ∧
    (m.ringPut st it off).reg (Reg.STR_LAST_STAMP st) = it.stamp := by
  have hput : ∀ a, a ≠ Reg.STR_STATUS st → a ≠ Reg.STR_EVENT st →
      (m.ringPut st it off).reg a = ((m.ringStore st it off).ringCount st it off).reg a := fun a hs he =>
    (Mach.setStream_reg _ _ _ _).trans (Mach.ringTell_reg _ _ hs he)
  have hitems : (m.ringStore st it off).reg (Reg.STR_ITEMS st) = m.reg (Reg.STR_ITEMS st) :=
    m.ringStore_reg st it (by simp only [Reg.STR_ITEMS, Reg.STR_STATUS]; omega) off
  refine ⟨?_, ?_, ?_⟩
  · rw [hput _ (by simp only [Reg.STR_RING_WR, Reg.STR_STATUS]; omega) (by simp only [Reg.STR_RING_WR, Reg.STR_EVENT]; omega),
      Mach.ringCount, Mach.reg_setReg_ne _ (by simp only [Reg.STR_RING_WR, Reg.STR_LAST_STAMP]; omega), Mach.bumpStream_reg,
      Mach.incReg_reg, if_neg (by simp only [Reg.STR_RING_WR, Reg.STR_ITEMS]; omega), Mach.reg_setReg_same]
  · rw [hput _ (by simp only [Reg.STR_ITEMS, Reg.STR_STATUS]; omega) (by simp only [Reg.STR_ITEMS, Reg.STR_EVENT]; omega),
      Mach.ringCount, Mach.reg_setReg_ne _ (by simp only [Reg.STR_ITEMS, Reg.STR_LAST_STAMP]; omega), Mach.bumpStream_reg,
      Mach.incReg_reg, if_pos rfl, Mach.reg_setReg_ne _ (by simp only [Reg.STR_RING_WR, Reg.STR_ITEMS]; omega), hitems]
    rfl
  · rw [hput _ (by simp only [Reg.STR_LAST_STAMP, Reg.STR_STATUS]; omega) (by simp only [Reg.STR_LAST_STAMP, Reg.STR_EVENT]; omega),
      Mach.ringCount, Mach.reg_setReg_same]

end

/-! ## The spillway (R91) -/

section
variable {m : Mach} {st : Nat} {it : Item} {rest : List Item}

/-- The stream with its oldest item taken out of the queue. -/
def Mach.spillTaken (m : Mach) (st : Nat) (it : Item) (rest : List Item) : Mach :=
  m.setStream st { m.stream st with q := (spillBytes (m.inqGeom st) (m.stream st).q it.left).1, items := rest }

/-- The spillway writes an item that lies whole in its queue. -/
theorem Mach.spill_whole (hitems : (m.stream st).items = it :: rest) (hwhole : (spillBytes (m.inqGeom st) (m.stream st).q it.left).2 = 0) :
    m.spill st = ((m.spillTaken st it rest).ringWrite st { it with left := 0 }).strDrained st := by
  unfold Mach.spill
  simp only [hitems]
  rw [if_pos hwhole]
  rfl

/-- The stream that the spillway serves. -/
def Mach.spillTurned (m : Mach) (st : Nat) : Mach := m.onPorts fun p => { p with spillTurn := st }

theorem Mach.spillServe_turn (hruns : m.runs 150 = true) (hnext : m.spillNext = some st) :
    m.spillServe st = (m.spillTurned st).spill st := by
  refine if_pos ?_
  rw [hruns, hnext, Bool.true_and]
  exact beq_self_eq_true _

end

/-- Settles O20: the machine before what the record sets off is the ring with the record put into it. -/
theorem spillwayWrites : Obligations.SpillwayWrites := by
  intro s st it rest live hruns hnext hitems hwhole n off at_ hfit
  have hact : exec (.spillwayWrite st) s = .next { s with m := s.m.spillServe st } := act_live live (·.spillServe st)
  rw [Mach.spillServe_turn hruns hnext, Mach.spill_whole (m := s.m.spillTurned st) hitems hwhole] at hact
  have hstream : ((s.m.spillTurned st).spillTaken st it rest).stream st = _ := Mach.stream_setStream_same _ _ _
  have hothers : ∀ o, o ≠ st.val → ((s.m.spillTurned st).spillTaken st it rest).stream o = s.m.stream o := fun o ho =>
    Mach.stream_setStream_ne _ ho _
  have hreg : ∀ a, ((s.m.spillTurned st).spillTaken st it rest).reg a = s.m.reg a := fun _ => rfl
  have hports : ((s.m.spillTurned st).spillTaken st it rest).ports = { s.m.ports with spillTurn := st.val } := rfl
  have hmem : ∀ x, ((s.m.spillTurned st).spillTaken st it rest).byte x = s.m.byte x := fun _ => rfl
  have hrest : { ((s.m.spillTurned st).spillTaken st it rest) with
      regs := s.m.regs, mem := s.m.mem, streams := s.m.streams, obs := s.m.obs, ports := s.m.ports } = s.m := rfl
  have hbase : ((s.m.spillTurned st).spillTaken st it rest).ringBase st = s.m.ringBase st := rfl
  have hsize : ((s.m.spillTurned st).spillTaken st it rest).ringSize st = s.m.ringSize st := rfl
  generalize (s.m.spillTurned st).spillTaken st it rest = u at *
  obtain ⟨r, hoff, hlen, hitem, hlive, hwrite⟩ := u.ringWrite_fits st { it with left := 0 } (by rw [hreg, hsize]; exact hfit)
  rw [hreg] at hoff hwrite
  obtain ⟨hwr, hcount, hstamp⟩ := u.ringPut_regs st { it with left := 0 } off
  obtain ⟨hregs, hother, hkept, hsame⟩ := (Mach.RingOnly.refl (ringRegs st) st u).ringPut { it with left := 0 } off
  refine ⟨u.ringPut st { it with left := 0 } off, r, hact.trans (by rw [hwrite]), hoff, hlen, hitem, hlive, ?_, ?_, ?_, hwr, ?_, hstamp,
    ?_, ?_, ?_, ?_⟩
  · rw [hkept, hstream]
  · intro i hi
    exact (congrArg (fun b => (u.ringPut st { it with left := 0 } off).byte (b + off + i)) hbase).symm.trans
      (u.ringPut_byte_in st { it with left := 0 } hi)
  · intro x hx
    refine (u.ringPut_byte_out st { it with left := 0 } ?_).trans (hmem x)
    rw [hbase]
    exact hx
  · rw [hcount, hreg]
  · exact fun a ha => (hregs a ha).trans (hreg a)
  · exact fun o ho => (hother o ho).trans (hothers o ho)
  · exact (congrArg Mach.ports hsame :).trans hports
  · exact (congrArg (fun x : Mach => { x with regs := s.m.regs, mem := s.m.mem, streams := s.m.streams, obs := s.m.obs, ports := s.m.ports })
      hsame :).trans hrest

end Sys2Proof.Machine
end

section
/-! Port enables (R94): the configuration registers of the ports, what the SNS block makes of their writes, and what follows when a port's
enable has changed. -/

namespace Sys2Proof.Machine

/-! ## The configuration registers (R16) -/

theorem rowAt_csiCfg : ∀ n : Fin 8, (rowAt (Reg.SNS_CSI_CFG n)).map (fun x => (x.1.acc, x.1.mask)) = some (.rw, 0xFFFFFF01) := by decide
theorem rowAt_macCfg : ∀ p : Fin 4, (rowAt (Reg.SNS_MAC_CFG p)).map (fun x => (x.1.acc, x.1.mask)) = some (.rw, 0xF0001FFF) := by decide
theorem rowAt_spiCfg : ∀ i : Fin 4, (rowAt (Reg.SNS_SPI_CFG i)).map (fun x => (x.1.acc, x.1.mask)) = some (.rw, 0xF77F00FF) := by decide
theorem rowAt_canCfg : ∀ j : Fin 2, (rowAt (Reg.SNS_CAN_CFG j)).map (fun x => (x.1.acc, x.1.mask)) = some (.rw, 0xF0000000) := by decide
theorem rowAt_encCfg : ∀ e : Fin 8, (rowAt (Reg.SNS_ENC_CFG e)).map (fun x => (x.1.acc, x.1.mask)) = some (.rw, 0xE0FFFFFF) := by decide
theorem rowAt_i3cCfg : ∀ n : Fin 8, (rowAt (Reg.SNS_I3C_CFG n)).map (fun x => (x.1.acc, x.1.mask)) = some (.rw, 0xC000FFFF) := by decide

/-! ## Where the SNS block takes their writes (R96) -/

theorem csiCfg_offset (n : Nat) : Reg.SNS_CSI_CFG n - 0x100000 = 0x1000 + 0x100 * n := by simp only [Reg.SNS_CSI_CFG]; omega
theorem i3cCfg_offset (n : Nat) : Reg.SNS_I3C_CFG n - 0x100000 = 0x1080 + 0x100 * n := by simp only [Reg.SNS_I3C_CFG]; omega
theorem macCfg_offset (p : Nat) : Reg.SNS_MAC_CFG p - 0x100000 = 0x2000 + 0x100 * p := by simp only [Reg.SNS_MAC_CFG]; omega
theorem spiCfg_offset (i : Nat) : Reg.SNS_SPI_CFG i - 0x100000 = 0x3000 + 0x40 * i := by simp only [Reg.SNS_SPI_CFG]; omega
theorem canCfg_offset (j : Nat) : Reg.SNS_CAN_CFG j - 0x100000 = 0x3200 + 0x40 * j := by simp only [Reg.SNS_CAN_CFG]; omega
theorem encCfg_offset (e : Nat) : Reg.SNS_ENC_CFG e - 0x100000 = 0x3400 + 0x20 * e := by simp only [Reg.SNS_ENC_CFG]; omega

section
variable (m : Mach) (v : Word)

theorem Mach.snsWrite_csiCfg (n : Fin 8) : m.snsWrite (Reg.SNS_CSI_CFG n) v = m.portCfg (Reg.SNS_CSI_CFG n) v := by
  have hplace : (0x1000 + 0x100 * n.val) % 0x100 = 0 := by omega
  unfold Mach.snsWrite
  simp only [csiCfg_offset]
  rw [if_pos (by omega), hplace]
  rfl

theorem Mach.snsWrite_i3cCfg (n : Fin 8) : m.snsWrite (Reg.SNS_I3C_CFG n) v = (false, m.storeReg (Reg.SNS_I3C_CFG n) v) := by
  have hplace : (0x1080 + 0x100 * n.val) % 0x100 = 0x80 := by omega
  unfold Mach.snsWrite
  simp only [i3cCfg_offset]
  rw [if_pos (by omega), hplace]
  rfl

theorem Mach.snsWrite_macCfg (p : Fin 4) : m.snsWrite (Reg.SNS_MAC_CFG p) v = m.macCfg (Reg.SNS_MAC_CFG p) v := by
  unfold Mach.snsWrite
  simp only [macCfg_offset]
  rw [if_neg (by omega), if_pos (by omega)]

theorem Mach.snsWrite_spiCfg (i : Fin 4) : m.snsWrite (Reg.SNS_SPI_CFG i) v = m.portCfg (Reg.SNS_SPI_CFG i) v := by
  unfold Mach.snsWrite
  simp only [spiCfg_offset]
  rw [if_neg (by omega), if_neg (by omega), if_pos (by omega)]

theorem Mach.snsWrite_canCfg (j : Fin 2) : m.snsWrite (Reg.SNS_CAN_CFG j) v = m.portCfg (Reg.SNS_CAN_CFG j) v := by
  unfold Mach.snsWrite
  simp only [canCfg_offset]
  rw [if_neg (by omega), if_neg (by omega), if_neg (by omega), if_pos (by omega)]

theorem Mach.snsWrite_encCfg (e : Fin 8) : m.snsWrite (Reg.SNS_ENC_CFG e) v = m.portCfg (Reg.SNS_ENC_CFG e) v := by
  unfold Mach.snsWrite
  simp only [encCfg_offset]
  rw [if_neg (by omega), if_neg (by omega), if_neg (by omega), if_neg (by omega), if_pos (by omega)]

end

/-! ## What follows from a changed enable -/

section
variable (m : Mach) (on : Bool)

theorem Mach.portChanged_csi (n : Fin 8) : m.portChanged (Reg.SNS_CSI_CFG n) on = if on then m else m.closeDamaged n fun _ => true := by
  have hport : (0x1000 + 0x100 * n.val - 0x1000) / 0x100 = n.val := by omega
  unfold Mach.portChanged
  simp only [csiCfg_offset]
  rw [if_pos (by omega), hport]

theorem Mach.portChanged_mac (p : Fin 4) : m.portChanged (Reg.SNS_MAC_CFG p) on = if on then m else (m.ptpState p 3).servoCheck := by
  have hport : (0x2000 + 0x100 * p.val - 0x2000) / 0x100 = p.val := by omega
  unfold Mach.portChanged
  simp only [macCfg_offset]
  rw [if_neg (by omega), if_pos (by omega), hport]

theorem Mach.portChanged_spi (i : Fin 4) : m.portChanged (Reg.SNS_SPI_CFG i) on = if on then m else m.spiClose i := by
  have hport : (0x3000 + 0x40 * i.val - 0x3000) / 0x40 = i.val := by omega
  unfold Mach.portChanged
  simp only [spiCfg_offset]
  rw [if_neg (by omega), if_neg (by omega), if_pos (by omega), hport]

theorem Mach.portChanged_can (j : Fin 2) : m.portChanged (Reg.SNS_CAN_CFG j) on = m := by
  unfold Mach.portChanged
  simp only [canCfg_offset]
  rw [if_neg (by omega), if_neg (by omega), if_neg (by omega), if_neg (by omega)]

theorem Mach.portChanged_enc (e : Fin 8) : m.portChanged (Reg.SNS_ENC_CFG e) on = 
    m.setEnc e { m.encOf e with next := if on then some (m.now + m.encPeriod e) else none } := by
  have hport : (0x3400 + 0x20 * e.val - 0x3400) / 0x20 = e.val := by omega
  unfold Mach.portChanged
  simp only [encCfg_offset]
  rw [if_neg (by omega), if_neg (by omega), if_neg (by omega), if_pos (by omega), hport]

end

/-! ## A port's enable written (R94) -/

section
variable {m : Mach} {a : Nat} {mask : Word} {on : Bool}

/-- Register a with the enable of its port in bit 31, as its row lets it be stored. -/
def Mach.portStored (m : Mach) (a : Nat) (mask : Word) (on : Bool) : Mach := m.setReg a ((m.reg a).setBit 31 on &&& mask)

theorem Mach.portStored_on (hmask : mask.getLsbD 31 = true) : (m.portStored a mask on).rbit a 31 = on := by
  rw [Mach.rbit, Mach.portStored, Mach.reg_setReg_same, Word.bit, BitVec.getLsbD_and, hmask, Bool.and_true]
  exact Word.bit_setBit_same _ (by decide) on

theorem Mach.portStored_only : m.regsBut (m.portStored a mask on) [a] ∧ { m.portStored a mask on with regs := m.regs } = m :=
  ⟨Mach.regsBut.setReg (fun _ _ => rfl) (by simp) _, rfl⟩

section
variable (hrow : (rowAt a).map (fun x => (x.1.acc, x.1.mask)) = some (.rw, mask))
include hrow

theorem Mach.portCfg_eq : m.portCfg a ((m.reg a).setBit 31 on) =
    (false, if on = m.rbit a 31 then m.portStored a mask on else (m.portStored a mask on).portChanged a on) := by
  unfold Mach.portCfg
  dsimp only
  rw [m.storeReg_rw hrow, Word.bit_setBit_same _ (by decide)]
  simp only [beq_iff_eq]
  rfl

end

end

/-! ## Open frames that close (R94) -/

/-- From m to t memory, the registers of the ports but SNS_CSI_STATn, and the open frames of the other ports are the same. -/
structure Mach.FramesOnly (n : Nat) (m t : Mach) : Prop where
  others : ∀ k, k ≠ n → t.openFrames k = m.openFrames k
  mem : t.mem = m.mem
  reg : ∀ a, a < 0x140000 → a ≠ Reg.SNS_CSI_STAT n → t.reg a = m.reg a

theorem Mach.FramesOnly.trans {n : Nat} {m t u : Mach} (h : Mach.FramesOnly n m t) (k : Mach.FramesOnly n t u) : Mach.FramesOnly n m u :=
  ⟨fun o ho => (k.others o ho).trans (h.others o ho), k.mem.trans h.mem, fun a ha hn => (k.reg a ha hn).trans (h.reg a ha hn)⟩

section
variable (m : Mach)

theorem Mach.setFrames_only (n : Nat) (l : List OpenFrame) : Mach.FramesOnly n m (m.setFrames n l) :=
  ⟨fun _ hk => Mach.openFrames_setFrames_ne _ hk l, rfl, fun _ _ ha => Mach.setFrames_reg _ ha l⟩

theorem Mach.setStream_frames (n st : Nat) (x : Stream) : Mach.FramesOnly n m (m.setStream st x) := ⟨fun _ _ => rfl, rfl, fun _ _ _ => rfl⟩

theorem Mach.strDrained_reg {a st : Nat} (h : a ≠ Reg.STR_STATUS st) : (m.strDrained st).reg a = m.reg a := by
  unfold Mach.strDrained
  split
  · rw [Mach.setRBit_reg, if_neg h]
  · rfl

theorem Mach.strDrained_rest (st : Nat) : { m.strDrained st with regs := m.regs } = m := by
  unfold Mach.strDrained
  split <;> rfl

theorem Mach.strDrained_frames (n st : Nat) : Mach.FramesOnly n m (m.strDrained st) :=
  ⟨fun k _ => (congrArg (fun x : Mach => x.openFrames k) (m.strDrained_rest st) :), (congrArg Mach.mem (m.strDrained_rest st) :),
    fun a ha _ => m.strDrained_reg (by simp only [Reg.STR_STATUS]; omega)⟩

/-- A frame that closes leaves the open ones, and no other port's. -/
theorem Mach.closeFrame_frames (n : Fin 8) (f : OpenFrame) (damaged : Bool) :
    Mach.FramesOnly n m (m.closeFrame n f damaged) ∧
      (m.closeFrame n f damaged).openFrames n = (m.openFrames n).filter fun g => !g.is f.vc f.dt := by
  cases hskip : f.skip with
  | false =>
    rw [m.closeFrame_whole hskip]
    exact ⟨(m.setStream_frames n _ _).trans (Mach.setFrames_only _ n _), Mach.openFrames_setFrames_same _ _ _⟩
  | true =>
    have hclose : m.closeFrame n f damaged = (m.setFrames n ((m.openFrames n).filter fun g => !g.is f.vc f.dt)).strDrained f.stream :=
      if_pos hskip
    have hkept := (congrArg (fun x : Mach => x.openFrames n)
      ((m.setFrames n ((m.openFrames n).filter fun g => !g.is f.vc f.dt)).strDrained_rest f.stream) :)
    rw [hclose]
    exact ⟨(m.setFrames_only n _).trans (Mach.strDrained_frames _ n _), hkept.trans (Mach.openFrames_setFrames_same _ _ _)⟩

/-- Frames that close one after the other: what is open after them was open before and is none of theirs. -/
theorem Mach.closeAll_frames (n : Fin 8) (damaged : Bool) (l : List OpenFrame) : ∀ m : Mach,
    Mach.FramesOnly n m (l.foldl (fun m f => m.closeFrame n f damaged) m) ∧
      ∀ g ∈ (l.foldl (fun m f => m.closeFrame n f damaged) m).openFrames n, g ∈ m.openFrames n ∧ ∀ f ∈ l, g.is f.vc f.dt = false := by
  induction l with
  | nil => exact fun m => ⟨⟨fun _ _ => rfl, rfl, fun _ _ _ => rfl⟩, fun g hg => ⟨hg, nofun⟩⟩
  | cons f fs ih =>
    intro m
    obtain ⟨hone, hopen⟩ := m.closeFrame_frames n f damaged
    obtain ⟨hrest, hleft⟩ := ih (m.closeFrame n f damaged)
    refine ⟨hone.trans hrest, fun g hg => ?_⟩
    obtain ⟨hin, hnone⟩ := hleft g hg
    rw [hopen, List.mem_filter, Bool.not_eq_true'] at hin
    exact ⟨hin.1, List.forall_mem_cons.mpr ⟨hin.2, hnone⟩⟩

/-- A port whose frames all close has no open frame. -/
theorem Mach.closeDamaged_all (n : Fin 8) : Mach.FramesOnly n m (m.closeDamaged n fun _ => true) ∧
    (m.closeDamaged n fun _ => true).openFrames n = [] := by
  have hall : (m.openFrames n).filter (fun _ => true) = m.openFrames n := List.filter_eq_self.mpr fun _ _ => rfl
  obtain ⟨honly, hleft⟩ := Mach.closeAll_frames n true (m.openFrames n) m
  rw [Mach.closeDamaged, hall]
  refine ⟨honly, List.eq_nil_iff_forall_not_mem.mpr fun g hg => ?_⟩
  obtain ⟨hin, hnone⟩ := hleft g hg
  have hself := hnone g hin
  rw [OpenFrame.is, beq_self_eq_true, beq_self_eq_true] at hself
  exact absurd hself (by decide)

/-! ## A read that its port ends (R94) -/

theorem Mach.enqueue_only (st : Nat) (it : Item) : Mach.IngressOnly [Reg.STR_DROPS st, Reg.STR_EVENT st] m (m.enqueue st it) := by
  by_cases h : recordBytes it.payload.length ≤ (m.stream st).q.capacity (m.inqGeom st)
  · rw [m.enqueue_room st it h]
    exact (Mach.IngressOnly.refl _ m).setStream _ _
  · rw [m.enqueue_full st it (Nat.not_le.mp h)]
    exact m.dropped_only st

/-- What an item of the hub leaves alone: memory, the ports' reads, and the registers of the ports but the count of drops. -/
theorem Mach.hubItem_kept (lo : Nat) (p : Nat → Bool) (it : Item) : (m.hubItem lo p it).mem = m.mem ∧
    (∀ o, (m.hubItem lo p it).spiOf o = m.spiOf o) ∧
    ∀ a, a < 0x140000 → a ≠ Reg.SNS_HUB_DROP → (m.hubItem lo p it).reg a = m.reg a := by
  cases hsel : m.selectStream p with
  | none =>
    rw [Mach.hubItem_none hsel]
    exact ⟨rfl, fun _ => rfl, fun a _ ha => Mach.reg_setReg_ne _ ha _⟩
  | some st =>
    rw [Mach.hubItem_some hsel]
    refine ⟨(m.enqueue_only st it).mem, fun o => m.enqueue_spiOf st it o, fun a ha _ => (m.enqueue_only st it).reg a ?_⟩
    simp only [List.mem_cons, List.not_mem_nil, or_false, Reg.STR_DROPS, Reg.STR_EVENT]
    omega

theorem Mach.spiItem_kept (i : Fin 4) (dest : Option Nat) (it : Item) : (m.spiItem i dest it).mem = m.mem ∧
    (∀ o, (m.spiItem i dest it).spiOf o = m.spiOf o) ∧
    ∀ a, a < 0x140000 → a ≠ Reg.SNS_HUB_DROP → (m.spiItem i dest it).reg a = m.reg a := by
  cases hown : dest.filter (fun o => m.strEnabled o || m.rbit (Reg.STR_STATUS o) 3) with
  | none =>
    rw [Mach.spiItem_other hown]
    exact m.hubItem_kept 24 _ it
  | some st =>
    rw [Mach.spiItem_own hown]
    have hrest := (m.enqueue st it).strDrained_rest st
    refine ⟨(congrArg Mach.mem hrest :).trans (m.enqueue_only st it).mem,
      fun o => (congrArg (fun x : Mach => x.spiOf o) hrest :).trans (m.enqueue_spiOf st it o), fun a ha _ => ?_⟩
    refine (Mach.strDrained_reg _ (by simp only [Reg.STR_STATUS]; omega)).trans ((m.enqueue_only st it).reg a ?_)
    simp only [List.mem_cons, List.not_mem_nil, or_false, Reg.STR_DROPS, Reg.STR_EVENT]
    omega

/-- A port that closes has no read, and no other port's read ends. -/
theorem Mach.spiClose_shows (i : Fin 4) : ((m.spiClose i).spiOf i).reading = none ∧ (∀ o, o ≠ i.val → (m.spiClose i).spiOf o = m.spiOf o) ∧
    (m.spiClose i).mem = m.mem ∧ ∀ a, a < 0x140000 → a ≠ Reg.SNS_HUB_DROP → (m.spiClose i).reg a = m.reg a := by
  unfold Mach.spiClose
  split
  case h_1 at_ dest hreading =>
    obtain ⟨hmem, hspi, hreg⟩ := (m.setSpi i {}).spiItem_kept i dest { plainItem 4 at_ 0 0 [] with damaged := true }
    refine ⟨?_, fun o ho => (hspi o).trans (Mach.spiOf_setSpi_ne _ ho _), hmem, hreg⟩
    rw [hspi, Mach.spiOf_setSpi_same]
  case h_2 hreading => exact ⟨hreading, fun _ _ => rfl, rfl, fun _ _ _ => rfl⟩

/-! ## The link of a MAC (Table 3-3) -/

/-- The link as its configuration, its island and its PHY's signal make it. -/
def Mach.linkUp (m : Mach) (p : Nat) : Bool :=
  m.rbit (Reg.SNS_MAC_CFG p) 31 && !(m.island (152 + p)).stopped.contains .standby &&
    (sget (fun _ => none) m.ports.macSignal p).any fun r => decide (m.fld (Reg.SNS_MAC_CFG p) 29 2 ≤ r)

/-- The rate that the status shows. -/
def Mach.linkRate (m : Mach) (p : Nat) : Nat :=
  (sget (fun _ => none) m.ports.macSignal p).getD (m.fld (Reg.SNS_MAC_STAT p) 1 2)

/-- The status of a MAC with its link judged. -/
def Mach.linkShown (m : Mach) (p : Nat) : Mach :=
  (m.setRBit (Reg.SNS_MAC_STAT p) 0 (m.linkUp p)).setFld (Reg.SNS_MAC_STAT p) 1 2 (m.linkRate p)

theorem Mach.macJudge_eq (p : Nat) : m.macJudge p =
    if m.linkUp p = m.rbit (Reg.SNS_MAC_STAT p) 0 then m.linkShown p else ((m.linkShown p).raise Reg.SNS_EVENT 0x2).reportGroups p := rfl

/-- Reports of groups are frames sent, and change nothing else. -/
theorem Mach.reportGroups_rest (p : Nat) : { m.reportGroups p with egr := m.egr } = m := by
  unfold Mach.reportGroups
  split
  · rw [List.foldl_cons, List.foldl_cons, List.foldl_nil]
    dsimp only
    split
    · split <;> rfl
    · split <;> rfl
  · rfl

/-- From m to t nothing but the status of MAC p, its event and the frames sent has changed. -/
structure Mach.LinkOnly (p : Nat) (m t : Mach) : Prop where
  reg : m.regsBut t [Reg.SNS_MAC_STAT p, Reg.SNS_EVENT]
  rest : { t with regs := m.regs, egr := m.egr } = m

variable {m} {p : Nat}

theorem macStat_ne_event (p : Nat) : Reg.SNS_MAC_STAT p ≠ Reg.SNS_EVENT := by
  simp only [Reg.SNS_MAC_STAT, Reg.SNS_EVENT]
  omega

theorem Mach.linkShown_up : (m.linkShown p).rbit (Reg.SNS_MAC_STAT p) 0 = m.linkUp p := by
  rw [Mach.linkShown, Mach.rbit, Mach.setFld_reg, if_pos rfl, Word.bit_setField_out _ _ (by decide)]
  exact Mach.rbit_setRBit_same _ (by decide) _ _

theorem Mach.linkShown_rate : (m.linkShown p).fld (Reg.SNS_MAC_STAT p) 1 2 = m.linkRate p % 4 := by
  rw [Mach.linkShown, Mach.fld, Mach.setFld_reg, if_pos rfl, Word.field_setField_same _ (by decide)]
  rfl

theorem Mach.linkShown_event : (m.linkShown p).reg Reg.SNS_EVENT = m.reg Reg.SNS_EVENT := by
  rw [Mach.linkShown, Mach.setFld_reg, if_neg (macStat_ne_event p).symm, Mach.setRBit_reg, if_neg (macStat_ne_event p).symm]

theorem Mach.linkShown_only : Mach.LinkOnly p m (m.linkShown p) :=
  ⟨Mach.regsBut.setReg (Mach.regsBut.setReg (fun _ _ => rfl) (by simp) _) (by simp) _,
    Mach.regs_rest_setReg (Mach.regs_rest_setReg rfl _ _) _ _⟩

/-- What the judgement of a link shows: the link, its rate, and an event and the reports where it has changed. -/
theorem Mach.macJudge_shows : (m.macJudge p).rbit (Reg.SNS_MAC_STAT p) 0 = m.linkUp p ∧
    (m.macJudge p).fld (Reg.SNS_MAC_STAT p) 1 2 = m.linkRate p % 4 ∧
    (m.linkUp p ≠ m.rbit (Reg.SNS_MAC_STAT p) 0 → (m.macJudge p).rbit Reg.SNS_EVENT 1 = true) ∧
    (m.linkUp p = m.rbit (Reg.SNS_MAC_STAT p) 0 → (m.macJudge p).reg Reg.SNS_EVENT = m.reg Reg.SNS_EVENT ∧ (m.macJudge p).egr = m.egr) ∧
    Mach.LinkOnly p m (m.macJudge p) := by
  rw [Mach.macJudge_eq]
  by_cases hsame : m.linkUp p = m.rbit (Reg.SNS_MAC_STAT p) 0
  · rw [if_pos hsame]
    exact ⟨Mach.linkShown_up, Mach.linkShown_rate, fun h => absurd hsame h,
      fun _ => ⟨Mach.linkShown_event, (congrArg Mach.egr (Mach.linkShown_only (m := m) (p := p)).rest :)⟩, Mach.linkShown_only⟩
  · rw [if_neg hsame]
    have hup := Mach.linkShown_up (m := m) (p := p)
    have hrate := Mach.linkShown_rate (m := m) (p := p)
    obtain ⟨hregs, hrest⟩ := Mach.linkShown_only (m := m) (p := p)
    generalize m.linkShown p = u at *
    have hsent := (u.raise Reg.SNS_EVENT 0x2).reportGroups_rest p
    have hreg : ∀ a, ((u.raise Reg.SNS_EVENT 0x2).reportGroups p).reg a = (u.raise Reg.SNS_EVENT 0x2).reg a := fun a =>
      (congrArg (fun x : Mach => x.reg a) hsent :)
    have hstat : ((u.raise Reg.SNS_EVENT 0x2).reportGroups p).reg (Reg.SNS_MAC_STAT p) = u.reg (Reg.SNS_MAC_STAT p) := by
      rw [hreg, Mach.raise_reg, if_neg (macStat_ne_event p)]
    refine ⟨(Mach.rbit_congr hstat _).trans hup, (Mach.fld_congr hstat _ _).trans hrate, fun _ => ?_, fun h => absurd h hsame, fun a ha => ?_, ?_⟩
    · rw [Mach.rbit_congr (hreg _)]
      exact Mach.raise_bit _ _ _ 1 (by decide) (by decide)
    · rw [hreg]
      exact hregs.setReg (by simp) _ a ha
    · exact (congrArg (fun x : Mach => { x with regs := m.regs, egr := m.egr }) hsent :).trans hrest

end

end Sys2Proof.Machine
end

section
/-! Streams and ports enabled and disabled (R94): the commands, and what each leaves. -/

namespace Sys2Proof.Machine

/-! ## Streams (R94) -/

section
variable (m : Mach) (st : Fin 256)

theorem strStatus_ne_ctrl (k : Nat) : Reg.STR_STATUS k ≠ Reg.STR_CTRL k := by
  simp only [Reg.STR_STATUS, Reg.STR_CTRL]
  omega

theorem Mach.strWrite_ctrl (v : Word) : m.strWrite (Reg.STR_CTRL st) v = m.strCtrl st v := by
  have hoff : Reg.STR_CTRL st - 0x140000 = 0x100 * st.val := Nat.add_sub_cancel_left _ _
  have hstream : 0x100 * st.val / 0x100 = st.val := by omega
  have hplace : 0x100 * st.val % 0x100 = 0 := by omega
  unfold Mach.strWrite
  simp only [hoff]
  rw [if_neg (by omega), hstream, hplace]
  rfl

/-- The registers of a stream that starts. -/
def Mach.strShown (m : Mach) (k : Nat) : Mach :=
  ((m.setRBit (Reg.STR_CTRL k) 31 true).setRBit (Reg.STR_STATUS k) 5 false).setFld (Reg.STR_STATUS k) 1 2 0

theorem Mach.strStart_reg (k a : Nat) : (m.strStart k).reg a = (m.strShown k).reg a := rfl

theorem Mach.strShown_ctrl (k : Nat) : (m.strShown k).rbit (Reg.STR_CTRL k) 31 = true := by
  rw [Mach.rbit, Mach.strShown, Mach.setFld_reg, if_neg (strStatus_ne_ctrl k).symm, Mach.setRBit_reg, if_neg (strStatus_ne_ctrl k).symm]
  exact m.rbit_setRBit_same (by decide) _ true

theorem Mach.strShown_map (k : Nat) : (m.strShown k).fld (Reg.STR_STATUS k) 1 2 = 0 := by
  rw [Mach.fld, Mach.strShown, Mach.setFld_reg, if_pos rfl, Word.field_setField_same _ (by decide)]
  rfl

/-- What a stream holds when it starts. -/
def Stream.fresh (x : Stream) : Stream :=
  { x with q := {}, items := [], first := true, lastSweep := none, lastAz := none, sweepOwed := false, blockMin := none, minima := [], deviating := 0 }

theorem Mach.mapRestart_stream (k : Nat) :
    (m.mapRestart k).stream k = { m.stream k with blockMin := none, minima := [], deviating := 0 } := Mach.stream_setStream_same _ _ _

theorem Mach.mapRestart_stream_ne {k o : Nat} (h : o ≠ k) : (m.mapRestart k).stream o = m.stream o :=
  Mach.stream_setStream_ne (m.setFld (Reg.STR_STATUS k) 1 2 0) h _

theorem Mach.ignoreFires_stream (k o : Nat) : (m.ignoreFires k).stream o = m.stream o := rfl

theorem Mach.strStart_stream (k : Nat) : (m.strStart k).stream k = (m.stream k).fresh := by
  rw [Mach.strStart, Mach.ignoreFires_stream, Mach.mapRestart_stream, Mach.onStream, Mach.stream_setStream_same]
  rfl

theorem Mach.strStart_stream_ne {k o : Nat} (h : o ≠ k) : (m.strStart k).stream o = m.stream o := by
  rw [Mach.strStart, Mach.ignoreFires_stream, Mach.mapRestart_stream_ne _ h, Mach.onStream, Mach.stream_setStream_ne _ h]
  rfl

theorem Mach.strStart_only (k : Nat) : Mach.IngressOnly [Reg.STR_CTRL k, Reg.STR_STATUS k] m (m.strStart k) := by
  rw [Mach.strStart, Mach.ignoreFires, Mach.mapRestart]
  exact (((((Mach.IngressOnly.refl _ m).setReg (by simp) _).setReg (by simp) _).onStream _ _).setReg (by simp) _).onStream _ _ |>.onPorts _

theorem Mach.strStart_obs (k : Nat) : (m.strStart k).obs = m.obs := by
  rw [Mach.strStart]
  rfl

/-- A stream that stops drains while it is busy. -/
theorem Mach.strStop_shows (k : Nat) : (m.strStop k).rbit (Reg.STR_CTRL k) 31 = false ∧
    (m.strStop k).rbit (Reg.STR_STATUS k) 3 = m.strBusy k ∧ m.regsBut (m.strStop k) [Reg.STR_CTRL k, Reg.STR_STATUS k] ∧
    { m.strStop k with regs := m.regs } = m := by
  have hctrl : ((m.setRBit (Reg.STR_CTRL k) 31 false).setRBit (Reg.STR_STATUS k) 3 true).rbit (Reg.STR_CTRL k) 31 = false :=
    (Mach.rbit_congr (Mach.setRBit_reg _ _ _ _ _ |>.trans (if_neg (strStatus_ne_ctrl k).symm)) 31).trans
      (m.rbit_setRBit_same (by decide) _ false)
  have hdrain : ((m.setRBit (Reg.STR_CTRL k) 31 false).setRBit (Reg.STR_STATUS k) 3 true).rbit (Reg.STR_STATUS k) 3 = true :=
    Mach.rbit_setRBit_same _ (by decide) _ true
  have hbusy : ((m.setRBit (Reg.STR_CTRL k) 31 false).setRBit (Reg.STR_STATUS k) 3 true).strBusy k = m.strBusy k := rfl
  have hregs : m.regsBut ((m.setRBit (Reg.STR_CTRL k) 31 false).setRBit (Reg.STR_STATUS k) 3 true) [Reg.STR_CTRL k, Reg.STR_STATUS k] :=
    Mach.regsBut.setReg (Mach.regsBut.setReg (fun _ _ => rfl) (by simp) _) (by simp) _
  have hrest : { (m.setRBit (Reg.STR_CTRL k) 31 false).setRBit (Reg.STR_STATUS k) 3 true with regs := m.regs } = m :=
    Mach.regs_rest_setReg (Mach.regs_rest_setReg rfl _ _) _ _
  rw [Mach.strStop]
  generalize (m.setRBit (Reg.STR_CTRL k) 31 false).setRBit (Reg.STR_STATUS k) 3 true = u at *
  refine ⟨(Mach.rbit_congr (u.strDrained_reg (strStatus_ne_ctrl k).symm) 31).trans hctrl, ?_, fun a ha => ?_,
    Mach.regs_rest_trans hrest (u.strDrained_rest k)⟩
  · rw [Mach.strDrained, hdrain, hbusy, Bool.true_and]
    cases m.strBusy k with
    | true => exact hdrain
    | false => exact Mach.rbit_setRBit_same _ (by decide) _ false
  · exact (u.strDrained_reg fun h => ha (by simp [h])).trans (hregs a ha)

section
variable {m st} {v : Word} (hlimit : ((m.strKind st == 2 || m.strKind st == 3) && v.field 0 16 == 0) = false)
include hlimit

/-- The control register as its write stores it, before the stream starts or stops. -/
def Mach.ctrlStored (m : Mach) (k : Nat) (v : Word) (was : Bool) : Mach :=
  (m.setReg (Reg.STR_CTRL k) (v &&& 0xE000FFFF)).setRBit (Reg.STR_CTRL k) 31 was

/-- A stream may be enabled: it drains nothing and its queue is its own (R90, R94, log entry 141). -/
def Mach.strMay (m : Mach) (k : Nat) : Prop :=
  m.rbit (Reg.STR_STATUS k) 3 = false ∧ m.inqOk k (m.reg (Reg.STR_SOURCE k)) (m.reg (Reg.STR_INQ k)) = true

theorem Mach.strCtrl_on (hv : v.bit 31 = true) (hwas : m.strEnabled st = false) (hmay : m.strMay st) :
    m.strCtrl st v = (false, (m.ctrlStored st v false).strStart st) := by
  obtain ⟨hdrain, hqueue⟩ := hmay
  unfold Mach.strCtrl
  simp only [hlimit, hv, hwas, hdrain, hqueue, m.storeReg_rw (rowAt_strCtrl st)]
  rfl

theorem Mach.strCtrl_refused (hv : v.bit 31 = true) (hwas : m.strEnabled st = false) (hmay : ¬ m.strMay st) : m.strCtrl st v = m.bad := by
  have hbad : (m.rbit (Reg.STR_STATUS st) 3 || !m.inqOk st (m.reg (Reg.STR_SOURCE st)) (m.reg (Reg.STR_INQ st))) = true := by
    rw [Mach.strMay, not_and_or, Bool.not_eq_false, Bool.not_eq_true] at hmay
    simpa using hmay
  unfold Mach.strCtrl
  simp only [hlimit, hv, hwas, hbad]
  rfl

theorem Mach.strCtrl_off (hv : v.bit 31 = false) (hwas : m.strEnabled st = true) :
    m.strCtrl st v = (false, (m.ctrlStored st v true).strStop st) := by
  unfold Mach.strCtrl
  simp only [hlimit, hv, hwas, m.storeReg_rw (rowAt_strCtrl st)]
  rfl

end

theorem Mach.ctrlStored_only (k : Nat) (v : Word) (was : Bool) :
    m.regsBut (m.ctrlStored k v was) [Reg.STR_CTRL k, Reg.STR_STATUS k] ∧ { m.ctrlStored k v was with regs := m.regs } = m :=
  ⟨Mach.regsBut.setReg (Mach.regsBut.setReg (fun _ _ => rfl) (by simp) _) (by simp) _,
    Mach.regs_rest_setReg (Mach.regs_rest_setReg rfl _ _) _ _⟩

end

section
variable {s : State} {st : Fin 256} (live : s.m.live = true) {v : Word}
include live

section
variable (hv : v = (s.m.reg (Reg.STR_CTRL st)).setBit 31 true) (hlet : s.m.writeCause (Reg.STR_CTRL st) v = none)
  (hwas : s.m.strEnabled st = false) (hlimit : ((s.m.strKind st == 2 || s.m.strKind st == 3) && v.field 0 16 == 0) = false)
include hv hlet hwas hlimit

theorem exec_streamEnable (hmay : s.m.strMay st) : ∃ t, exec (.streamEnable st) s = .next { s with m := t } ∧
    t.rbit (Reg.STR_CTRL st) 31 = true ∧ (t.stream st).first = true ∧ (t.stream st).items = [] ∧ (t.stream st).q = {} ∧
    t.fld (Reg.STR_STATUS st) 1 2 = 0 ∧ (∀ o, o ≠ st.val → t.stream o = s.m.stream o) ∧
    s.m.regsBut t [Reg.STR_CTRL st, Reg.STR_STATUS st] ∧
    { t with regs := s.m.regs, ports := s.m.ports, streams := s.m.streams } = s.m := by
  have hbit : v.bit 31 = true := hv ▸ Word.bit_setBit_same _ (by decide) true
  obtain ⟨hregs, hrest⟩ := s.m.ctrlStored_only st v false
  have hact : exec (.streamEnable st) s = .next { s with m := (s.m.ctrlStored st v false).strStart st } := by
    rw [← Mach.arriveWith_taken hlet ((s.m.strWrite_ctrl st v).trans (Mach.strCtrl_on hlimit hbit hwas hmay)), hv]
    exact act_live live fun m => m.enableWrite (Reg.STR_CTRL st) true Mach.strWrite
  generalize s.m.ctrlStored st v false = u at *
  have honly := u.strStart_only st
  have hother : ∀ o, u.stream o = s.m.stream o := fun o => (congrArg (fun x : Mach => x.stream o) hrest :)
  refine ⟨u.strStart st, hact, (Mach.rbit_congr (u.strStart_reg st _) _).trans (u.strShown_ctrl st), ?_, ?_, ?_,
    (Mach.fld_congr (u.strStart_reg st _) _ _).trans (u.strShown_map st), fun o ho => (u.strStart_stream_ne ho).trans (hother o),
    fun a ha => (honly.reg a ha).trans (hregs a ha), ?_⟩
  · rw [Mach.strStart_stream, Stream.fresh]
  · rw [Mach.strStart_stream, Stream.fresh]
  · rw [Mach.strStart_stream, Stream.fresh]
  · have hkept := honly.rest_streams (u.strStart_obs st)
    exact (congrArg (fun x : Mach => { x with regs := s.m.regs, ports := s.m.ports, streams := s.m.streams }) hkept :).trans
      (congrArg (fun x : Mach => { x with ports := s.m.ports, streams := s.m.streams }) hrest :)

theorem exec_streamEnable_refused (hmay : ¬ s.m.strMay st) :
    ∃ t, exec (.streamEnable st) s = .next { s with m := t } ∧ s.m.busErr t (Reg.STR_CTRL st) 4 := by
  have hbit : v.bit 31 = true := hv ▸ Word.bit_setBit_same _ (by decide) true
  refine ⟨s.m.refuse (Reg.STR_CTRL st), ?_, s.m.refuse_busErr _⟩
  rw [← Mach.arriveWith_bad hlet ((s.m.strWrite_ctrl st v).trans (Mach.strCtrl_refused hlimit hbit hwas hmay)), hv]
  exact act_live live fun m => m.enableWrite (Reg.STR_CTRL st) true Mach.strWrite

end

theorem exec_streamDisable (hv : v = (s.m.reg (Reg.STR_CTRL st)).setBit 31 false) (hlet : s.m.writeCause (Reg.STR_CTRL st) v = none)
    (hwas : s.m.strEnabled st = true) (hlimit : ((s.m.strKind st == 2 || s.m.strKind st == 3) && v.field 0 16 == 0) = false) :
    ∃ t, exec (.streamDisable st) s = .next { s with m := t } ∧ t.rbit (Reg.STR_CTRL st) 31 = false ∧
      t.rbit (Reg.STR_STATUS st) 3 = s.m.strBusy st ∧ s.m.regsBut t [Reg.STR_CTRL st, Reg.STR_STATUS st] ∧
      { t with regs := s.m.regs } = s.m := by
  have hbit : v.bit 31 = false := hv ▸ Word.bit_setBit_same _ (by decide) false
  obtain ⟨hregs, hrest⟩ := s.m.ctrlStored_only st v true
  have hact : exec (.streamDisable st) s = .next { s with m := (s.m.ctrlStored st v true).strStop st } := by
    rw [← Mach.arriveWith_taken hlet ((s.m.strWrite_ctrl st v).trans (Mach.strCtrl_off hlimit hbit hwas)), hv]
    exact act_live live fun m => m.enableWrite (Reg.STR_CTRL st) false Mach.strWrite
  generalize s.m.ctrlStored st v true = u at *
  obtain ⟨hctrl, hdrain, hregs', hrest'⟩ := u.strStop_shows st
  have hbusy : u.strBusy st = s.m.strBusy st := (congrArg (fun x : Mach => x.strBusy st) hrest :)
  exact ⟨_, hact, hctrl, hdrain.trans hbusy, fun a ha => (hregs' a ha).trans (hregs a ha), Mach.regs_rest_trans hrest hrest'⟩

/-! ## Ports (R94) -/

section
omit live
variable {m : Mach}

theorem Mach.macCfg_eq (p : Fin 4) (v : Word) :
    m.macCfg (Reg.SNS_MAC_CFG p) v = (false, (m.portCfg (Reg.SNS_MAC_CFG p) v).2.macJudge p) := by
  have hport : (Reg.SNS_MAC_CFG p - 0x102000) / 0x100 = p.val := by
    simp only [Reg.SNS_MAC_CFG]
    omega
  rw [Mach.macCfg, hport]

/-- The MAC's configuration stored, and its PTP port as the enable leaves it. -/
def Mach.macStored (m : Mach) (p : Nat) (on : Bool) : Mach :=
  if on = m.rbit (Reg.SNS_MAC_CFG p) 31 ∨ on = true then m.portStored (Reg.SNS_MAC_CFG p) 0xF0001FFF on
  else ((m.portStored (Reg.SNS_MAC_CFG p) 0xF0001FFF on).ptpState p 3).servoCheck

theorem Mach.snsWrite_mac (p : Fin 4) (on : Bool) :
    m.snsWrite (Reg.SNS_MAC_CFG p) ((m.reg (Reg.SNS_MAC_CFG p)).setBit 31 on) = (false, (m.macStored p on).macJudge p) := by
  rw [Mach.snsWrite_macCfg, Mach.macCfg_eq, Mach.portCfg_eq (rowAt_macCfg p), Mach.portChanged_mac]
  by_cases hsame : on = m.rbit (Reg.SNS_MAC_CFG p) 31
  · rw [if_pos hsame, Mach.macStored, if_pos (.inl hsame)]
  · rw [if_neg hsame]
    cases on with
    | true =>
      rw [Mach.macStored, if_pos (Or.inr rfl)]
      rfl
    | false =>
      rw [Mach.macStored, if_neg (not_or_intro hsame Bool.false_ne_true)]
      rfl

/-- The registers that a MAC's enable changes, beside those of its link. -/
def macRegs (p : Nat) : List Nat :=
  [Reg.SNS_MAC_CFG p, Reg.SNS_MAC_STAT p, Reg.SNS_EVENT, Reg.TIME_PTP_STAT p, Reg.TIME_STATUS, Reg.TIME_EVENT]

theorem Mach.macStored_shows (p : Fin 4) (on : Bool) : (m.macStored p on).rbit (Reg.SNS_MAC_CFG p) 31 = on ∧
    (on = false → m.rbit (Reg.SNS_MAC_CFG p) 31 = true → (m.macStored p on).fld (Reg.TIME_PTP_STAT p) 0 4 = 3) ∧
    Mach.TimeOnly (macRegs p) m (m.macStored p on) := by
  have hon := Mach.portStored_on (m := m) (a := Reg.SNS_MAC_CFG p) (mask := 0xF0001FFF) (on := on) (by decide)
  have honly : Mach.TimeOnly (macRegs p) m (m.portStored (Reg.SNS_MAC_CFG p) 0xF0001FFF on) :=
    (Mach.TimeOnly.refl _ m).setReg (by simp [macRegs]) _
  unfold Mach.macStored
  split
  case isTrue hkept =>
    refine ⟨hon, fun hoff hwas => ?_, honly⟩
    rw [hoff, hwas] at hkept
    exact absurd hkept (by decide)
  case isFalse =>
    generalize m.portStored (Reg.SNS_MAC_CFG p) 0xF0001FFF on = u at *
    have hptp := u.ptpState_fld p 3
    have hstate := (Mach.TimeOnly.refl [Reg.TIME_PTP_STAT p, Reg.TIME_EVENT] u).ptpState (p := p) (by simp) (by simp) 3
    have hcfg : (u.ptpState p 3).servoCheck.reg (Reg.SNS_MAC_CFG p) = u.reg (Reg.SNS_MAC_CFG p) := by
      rw [Mach.servoCheck_reg _ (by simp only [Reg.SNS_MAC_CFG, Reg.TIME_STATUS]; omega)]
      refine hstate.reg _ ?_
      simp only [List.mem_cons, List.not_mem_nil, or_false, Reg.SNS_MAC_CFG, Reg.TIME_PTP_STAT, Reg.TIME_EVENT]
      omega
    refine ⟨(Mach.rbit_congr hcfg _).trans hon, fun _ _ => ?_,
      (honly.ptpState (by simp [macRegs]) (by simp [macRegs]) 3).servoCheck (by simp [macRegs])⟩
    exact (Mach.fld_congr (Mach.servoCheck_reg _ (ptpStat_ne_status p).1) _ _).trans hptp

/-- A change of a port's enable, where something follows from it. -/
theorem Mach.portCfg_changed {a : Nat} {mask : Word} {on : Bool}
    (hrow : (rowAt a).map (fun x => (x.1.acc, x.1.mask)) = some (.rw, mask)) (hwas : m.rbit a 31 = !on) :
    m.portCfg a ((m.reg a).setBit 31 on) = (false, (m.portStored a mask on).portChanged a on) := by
  rw [Mach.portCfg_eq hrow, if_neg (by rw [hwas]; cases on <;> decide)]

end

theorem exec_portEnableChange {p : PortRef} {on : Bool} {u : Mach}
    (hlet : s.m.writeCause (portReg p) ((s.m.reg (portReg p)).setBit 31 on) = none)
    (hwrite : s.m.snsWrite (portReg p) ((s.m.reg (portReg p)).setBit 31 on) = (false, u)) :
    exec (.portEnableChange p on) s = .next { s with m := u } := by
  rw [← Mach.arriveWith_taken hlet hwrite]
  exact act_live live fun m => m.enableWrite (portReg p) on Mach.snsWrite

/-- A port whose enable alone is stored. -/
theorem exec_portEnableChange_stored {p : PortRef} {on : Bool} {mask : Word} (hmask : mask.getLsbD 31 = true)
    (hlet : s.m.writeCause (portReg p) ((s.m.reg (portReg p)).setBit 31 on) = none)
    (hwrite : s.m.snsWrite (portReg p) ((s.m.reg (portReg p)).setBit 31 on) = (false, s.m.portStored (portReg p) mask on)) :
    ∃ t, exec (.portEnableChange p on) s = .next { s with m := t } ∧ t.rbit (portReg p) 31 = on ∧
      s.m.regsBut t [portReg p] ∧ { t with regs := s.m.regs } = s.m := by
  obtain ⟨hregs, hrest⟩ := s.m.portStored_only (a := portReg p) (mask := mask) (on := on)
  exact ⟨_, exec_portEnableChange live hlet hwrite, Mach.portStored_on hmask, hregs, hrest⟩

theorem exec_portEnableChange_mac {p : Fin 4} {on : Bool}
    (hlet : s.m.writeCause (Reg.SNS_MAC_CFG p) ((s.m.reg (Reg.SNS_MAC_CFG p)).setBit 31 on) = none) :
    ∃ t, exec (.portEnableChange (.mac p) on) s = .next { s with m := t } ∧ t.rbit (Reg.SNS_MAC_CFG p) 31 = on ∧
      (on = false → t.rbit (Reg.SNS_MAC_STAT p) 0 = false) ∧
      (on = false → s.m.rbit (Reg.SNS_MAC_CFG p) 31 = true → t.fld (Reg.TIME_PTP_STAT p) 0 4 = 3) ∧
      s.m.regsBut t (macRegs p) ∧ { t with regs := s.m.regs, time := s.m.time, egr := s.m.egr } = s.m := by
  have hact : exec (.portEnableChange (.mac p) on) s = _ := exec_portEnableChange live hlet (s.m.snsWrite_mac p on)
  obtain ⟨hon, hptp, honly⟩ := s.m.macStored_shows p on
  generalize s.m.macStored p on = u at *
  obtain ⟨hup, -, -, -, hlink⟩ := u.macJudge_shows (p := p)
  have hcfg : (u.macJudge p).reg (Reg.SNS_MAC_CFG p) = u.reg (Reg.SNS_MAC_CFG p) := hlink.reg _ (by
    simp only [List.mem_cons, List.not_mem_nil, or_false, Reg.SNS_MAC_CFG, Reg.SNS_MAC_STAT, Reg.SNS_EVENT]
    omega)
  have hstat : (u.macJudge p).reg (Reg.TIME_PTP_STAT p) = u.reg (Reg.TIME_PTP_STAT p) := hlink.reg _ (by
    simp only [List.mem_cons, List.not_mem_nil, or_false, Reg.TIME_PTP_STAT, Reg.SNS_MAC_STAT, Reg.SNS_EVENT]
    omega)
  refine ⟨u.macJudge p, hact, (Mach.rbit_congr hcfg _).trans hon, fun hoff => ?_, fun hoff hwas => ?_, fun a ha => ?_, ?_⟩
  · rw [hup, Mach.linkUp, hon, hoff]
    rfl
  · exact (Mach.fld_congr hstat _ _).trans (hptp hoff hwas)
  · refine (hlink.reg a fun hin => ha ?_).trans (honly.reg a ha)
    simp only [List.mem_cons, List.not_mem_nil, or_false] at hin
    obtain rfl | rfl := hin <;> simp [macRegs]
  · exact (congrArg (fun x : Mach => { x with regs := s.m.regs, time := s.m.time, egr := s.m.egr }) hlink.rest :).trans
      (congrArg (fun x : Mach => { x with egr := s.m.egr }) honly.rest :)

/-- The enable of a CAN or I3C port. -/
theorem exec_portEnableChange_plain {p : PortRef} {on : Bool} (hp : (∃ j, p = .can j) ∨ ∃ n, p = .i3c n)
    (hlet : s.m.writeCause (portReg p) ((s.m.reg (portReg p)).setBit 31 on) = none) :
    ∃ t, exec (.portEnableChange p on) s = .next { s with m := t } ∧ t.rbit (portReg p) 31 = on ∧
      s.m.regsBut t [portReg p] ∧ { t with regs := s.m.regs } = s.m := by
  obtain ⟨j, rfl⟩ | ⟨n, rfl⟩ := hp
  · refine exec_portEnableChange_stored live (mask := 0xF0000000) (by decide) hlet ?_
    rw [portReg, Mach.snsWrite_canCfg, Mach.portCfg_eq (rowAt_canCfg j), Mach.portChanged_can, ite_self]
  · refine exec_portEnableChange_stored live (mask := 0xC000FFFF) (by decide) hlet ?_
    rw [portReg, Mach.snsWrite_i3cCfg, Mach.storeReg_rw _ (rowAt_i3cCfg n)]
    rfl

/-- The enable of a CSI-2 or SPI port, from 0 to 1. -/
theorem exec_portEnableChange_opened {p : PortRef} (hp : (∃ n, p = .csi n) ∨ ∃ i, p = .spi i)
    (hlet : s.m.writeCause (portReg p) ((s.m.reg (portReg p)).setBit 31 true) = none) (hwas : s.m.rbit (portReg p) 31 = false) :
    ∃ t, exec (.portEnableChange p true) s = .next { s with m := t } ∧ t.rbit (portReg p) 31 = true ∧
      s.m.regsBut t [portReg p] ∧ { t with regs := s.m.regs } = s.m := by
  obtain ⟨n, rfl⟩ | ⟨i, rfl⟩ := hp
  · refine exec_portEnableChange_stored live (mask := 0xFFFFFF01) (by decide) hlet ?_
    rw [portReg, Mach.snsWrite_csiCfg, Mach.portCfg_changed (rowAt_csiCfg n) hwas, Mach.portChanged_csi, if_pos rfl]
  · refine exec_portEnableChange_stored live (mask := 0xF77F00FF) (by decide) hlet ?_
    rw [portReg, Mach.snsWrite_spiCfg, Mach.portCfg_changed (rowAt_spiCfg i) hwas, Mach.portChanged_spi, if_pos rfl]

theorem exec_portEnableChange_csiOff {n : Fin 8}
    (hlet : s.m.writeCause (Reg.SNS_CSI_CFG n) ((s.m.reg (Reg.SNS_CSI_CFG n)).setBit 31 false) = none)
    (hwas : s.m.rbit (Reg.SNS_CSI_CFG n) 31 = true) :
    ∃ t, exec (.portEnableChange (.csi n) false) s = .next { s with m := t } ∧ t.rbit (Reg.SNS_CSI_CFG n) 31 = false ∧
      t.openFrames n = [] ∧ (∀ o, o ≠ n.val → t.openFrames o = s.m.openFrames o) ∧ t.mem = s.m.mem := by
  have hwrite : s.m.snsWrite (portReg (.csi n)) ((s.m.reg (portReg (.csi n))).setBit 31 false) =
      (false, (s.m.portStored (Reg.SNS_CSI_CFG n) 0xFFFFFF01 false).closeDamaged n fun _ => true) := by
    rw [portReg, Mach.snsWrite_csiCfg, Mach.portCfg_changed (rowAt_csiCfg n) hwas, Mach.portChanged_csi, if_neg Bool.false_ne_true]
  have hon := Mach.portStored_on (m := s.m) (a := Reg.SNS_CSI_CFG n) (mask := 0xFFFFFF01) (on := false) (by decide)
  have hrest := (s.m.portStored_only (a := Reg.SNS_CSI_CFG n) (mask := 0xFFFFFF01) (on := false)).2
  have hact := exec_portEnableChange (p := .csi n) live hlet hwrite
  generalize s.m.portStored (Reg.SNS_CSI_CFG n) 0xFFFFFF01 false = u at *
  obtain ⟨⟨hothers, hmem, hreg⟩, hnone⟩ := u.closeDamaged_all n
  refine ⟨_, hact, (Mach.rbit_congr (hreg _ ?_ ?_) _).trans hon, hnone,
    fun o ho => (hothers o ho).trans (congrArg (fun x : Mach => x.openFrames o) hrest :), hmem.trans (congrArg Mach.mem hrest :)⟩
  · simp only [Reg.SNS_CSI_CFG]
    omega
  · simp only [Reg.SNS_CSI_CFG, Reg.SNS_CSI_STAT]
    omega

theorem exec_portEnableChange_spiOff {i : Fin 4}
    (hlet : s.m.writeCause (Reg.SNS_SPI_CFG i) ((s.m.reg (Reg.SNS_SPI_CFG i)).setBit 31 false) = none)
    (hwas : s.m.rbit (Reg.SNS_SPI_CFG i) 31 = true) :
    ∃ t, exec (.portEnableChange (.spi i) false) s = .next { s with m := t } ∧ t.rbit (Reg.SNS_SPI_CFG i) 31 = false ∧
      (t.spiOf i).reading = none ∧ (∀ o, o ≠ i.val → t.spiOf o = s.m.spiOf o) ∧ t.mem = s.m.mem := by
  have hwrite : s.m.snsWrite (portReg (.spi i)) ((s.m.reg (portReg (.spi i))).setBit 31 false) =
      (false, (s.m.portStored (Reg.SNS_SPI_CFG i) 0xF77F00FF false).spiClose i) := by
    rw [portReg, Mach.snsWrite_spiCfg, Mach.portCfg_changed (rowAt_spiCfg i) hwas, Mach.portChanged_spi, if_neg Bool.false_ne_true]
  have hon := Mach.portStored_on (m := s.m) (a := Reg.SNS_SPI_CFG i) (mask := 0xF77F00FF) (on := false) (by decide)
  have hrest := (s.m.portStored_only (a := Reg.SNS_SPI_CFG i) (mask := 0xF77F00FF) (on := false)).2
  have hact := exec_portEnableChange (p := .spi i) live hlet hwrite
  generalize s.m.portStored (Reg.SNS_SPI_CFG i) 0xF77F00FF false = u at *
  obtain ⟨hnone, hothers, hmem, hreg⟩ := u.spiClose_shows i
  refine ⟨_, hact, (Mach.rbit_congr (hreg _ ?_ ?_) _).trans hon, hnone,
    fun o ho => (hothers o ho).trans (congrArg (fun x : Mach => x.spiOf o) hrest :), hmem.trans (congrArg Mach.mem hrest :)⟩
  · simp only [Reg.SNS_SPI_CFG]
    omega
  · simp only [Reg.SNS_SPI_CFG, Reg.SNS_HUB_DROP]
    omega

/-- An encoder whose enable changes: it plans its first sample, or none. -/
theorem exec_portEnableChange_enc {e : Fin 8} {on : Bool}
    (hlet : s.m.writeCause (Reg.SNS_ENC_CFG e) ((s.m.reg (Reg.SNS_ENC_CFG e)).setBit 31 on) = none)
    (hwas : s.m.rbit (Reg.SNS_ENC_CFG e) 31 = !on) :
    ∃ t, exec (.portEnableChange (.enc e) on) s = .next { s with m := t } ∧ t.rbit (Reg.SNS_ENC_CFG e) 31 = on ∧
      t.encOf e = { s.m.encOf e with next := if on then some (s.m.time.count.setWidth 32 + t.encPeriod e) else none } ∧
      (∀ o, o ≠ e.val → t.encOf o = s.m.encOf o) ∧ s.m.regsBut t [Reg.SNS_ENC_CFG e] ∧
      { t with regs := s.m.regs, ports := s.m.ports } = s.m := by
  have hon := Mach.portStored_on (m := s.m) (a := Reg.SNS_ENC_CFG e) (mask := 0xE0FFFFFF) (on := on) (by decide)
  obtain ⟨hregs, hrest⟩ := s.m.portStored_only (a := Reg.SNS_ENC_CFG e) (mask := 0xE0FFFFFF) (on := on)
  have hwrite : s.m.snsWrite (portReg (.enc e)) ((s.m.reg (portReg (.enc e))).setBit 31 on) = (false, _) :=
    (s.m.snsWrite_encCfg _ e).trans ((Mach.portCfg_changed (rowAt_encCfg e) hwas).trans (by rw [Mach.portChanged_enc]))
  have hact := exec_portEnableChange (p := .enc e) live hlet hwrite
  generalize s.m.portStored (Reg.SNS_ENC_CFG e) 0xE0FFFFFF on = u at *
  have henc : ∀ o, u.encOf o = s.m.encOf o := fun o => (congrArg (fun x : Mach => x.encOf o) hrest :)
  have hnow : u.now = s.m.time.count.setWidth 32 := (congrArg (fun x : Mach => x.now) hrest :)
  refine ⟨_, hact, hon, ?_, fun o ho => (Mach.encOf_setEnc_ne _ ho _).trans (henc o), hregs,
    (congrArg (fun x : Mach => { x with ports := s.m.ports }) hrest :)⟩
  rw [Mach.encOf_setEnc_same, henc, hnow]
  rfl

end

/-- Settles O21: streams and ports, each by the lemma of its command above. -/
theorem streamAndPortEnables : Obligations.StreamAndPortEnables := by
  intro s live
  refine ⟨fun st v hv hlet hwas hlimit => ⟨fun hmay => ?_, fun hmay => ?_⟩, fun st v hv hlet hwas hlimit => ?_,
    fun p on hlet => ?_, fun p on hp hlet => ?_, fun n hlet hwas => ?_, fun i hlet hwas => ?_, fun p hp hlet hwas => ?_,
    fun e hlet hwas => ?_, fun e hlet hwas => ?_⟩
  · exact exec_streamEnable live hv hlet hwas hlimit hmay
  · exact exec_streamEnable_refused live hv hlet hwas hlimit hmay
  · exact exec_streamDisable live hv hlet hwas hlimit
  · exact exec_portEnableChange_mac live hlet
  · exact exec_portEnableChange_plain live hp hlet
  · exact exec_portEnableChange_csiOff live hlet hwas
  · exact exec_portEnableChange_spiOff live hlet hwas
  · exact exec_portEnableChange_opened live hp hlet hwas
  · exact exec_portEnableChange_enc live hlet hwas
  · obtain ⟨t, hexec, hon, hnext, -, hregs, hrest⟩ := exec_portEnableChange_enc live hlet hwas
    exact ⟨t, hexec, hon, by rw [hnext]; rfl, hregs, hrest⟩

end Sys2Proof.Machine
end

section
/-! Datagrams and the sensor-time map (R75, R76, R80, R84 to R89): what a MAC makes of a frame, the item that a decoded datagram makes, and
a block of the map that ends. -/

namespace Sys2Proof.Machine

/-! ## A frame of a MAC (R75, R76, R80) -/

section
variable (m : Mach) (p : Nat) (d : Datagram)

/-- The bytes of the frame counted (log entry 77). -/
def Mach.frameCounted (m : Mach) (p : Nat) (d : Datagram) : Mach := m.bump (500 + p) (frameBytes d)

theorem Mach.frameCounted_rest : { m.frameCounted p d with obs := m.obs } = m := (m.bump_eq (500 + p) (frameBytes d)).2

/-- What stream st decodes of a datagram (R87, R89). -/
def Mach.scanOf (m : Mach) (st : Nat) (d : Datagram) : Option Scan :=
  if m.strKind st = 2 then (if cgpfOk d.payload then some (cgpfScan d.payload (m.stream st).lastSweep) else none)
  else descScan (m.descriptor (m.fld (Reg.STR_SOURCE st) 5 5)) d.payload (m.stream st).lastSweep (m.stream st).lastAz

/-- The stamp of a datagram, the ingress latency taken off (R76). -/
def Mach.arrival (m : Mach) (p : Nat) : BitVec 64 := m.time.count - BitVec.ofNat 64 (m.fld (Reg.TIME_PTP_LAT p) 0 16)

/-- A datagram for the stream that selects it. -/
def Mach.scanTaken (m : Mach) (p st : Nat) (d : Datagram) : Mach :=
  match m.scanOf st d with
  | none => m.strMalf st
  | some sc => (m.stopNear sc).scanIn st (m.arrival p) sc

/-- A frame that its MAC has counted. -/
def Mach.frameIn (m : Mach) (p : Nat) (d : Datagram) : Mach :=
  if !d.intact then m.incReg (Reg.SNS_MAC_RXERR p)
  else if m.unsupported p d then m.macDrop p
  else if isPtp d then m
  else
    let m := if cgpfOk d.payload then m.shSeesScanner p d else m
    match m.scannerStream p d with
    | none => m.macDrop p
    | some st => m.scanTaken p st d

theorem Mach.datagramRx_up (hup : m.macUp p = true) (hmessage : m.isMessage d = false) :
    m.datagramRx p d = (m.frameCounted p d).frameIn p d := by
  have htaken : ¬ (!m.macUp p || m.isMessage d) = true := by simp [hup, hmessage]
  exact if_neg htaken

variable {m p d}

theorem Mach.frameIn_broken (h : d.intact = false) : m.frameIn p d = m.incReg (Reg.SNS_MAC_RXERR p) := by
  rw [Mach.frameIn, h]
  rfl

section
variable (hintact : d.intact = true)
include hintact

theorem Mach.frameIn_unsupported (h : m.unsupported p d = true) : m.frameIn p d = m.macDrop p := by
  rw [Mach.frameIn, hintact, h]
  rfl

section
variable (hsupported : m.unsupported p d = false)
include hsupported

theorem Mach.frameIn_ptp (h : isPtp d = true) : m.frameIn p d = m := by
  rw [Mach.frameIn, hintact, hsupported, h]
  rfl

section
variable (hplain : isPtp d = false)
include hplain

theorem Mach.frameIn_unselected (howned : m.showHome = false) (hsel : m.scannerStream p d = none) : m.frameIn p d = m.macDrop p := by
  have hseen : m.shSeesScanner p d = m := by
    rw [Mach.shSeesScanner, howned]
    rfl
  rw [Mach.frameIn, hintact, hsupported, hplain, hseen, ite_self]
  simp only [hsel]
  rfl

theorem Mach.frameIn_selected {st : Nat} (hsel : m.scannerStream p d = some st) : m.frameIn p d = m.scanTaken p st d := by
  have hseen : m.shSeesScanner p d = m := by
    rw [Mach.shSeesScanner, hsel, Option.isNone_some, Bool.and_false, if_neg Bool.false_ne_true]
  rw [Mach.frameIn, hintact, hsupported, hplain, hseen, ite_self]
  simp only [hsel]
  rfl

end

end

end

end

/-! ## The item of a decoded datagram (R84, R87, R93) -/

section
variable (m : Mach) (st : Nat) (stamp : Word) (sc : Scan) (conv : Int → Word)

/-- The points kept, with their short times (R87). -/
def Mach.keptOf (m : Mach) (st : Nat) (sc : Scan) (conv : Int → Word) : List (Pt × Word × Bool) :=
  (keepPoints conv (m.stream st).sweepOwed sc.pts).1

/-- The bytes of the points kept (Table 3-9). -/
def keptBytes (kept : List (Pt × Word × Bool)) : List Byte := kept.flatMap fun k => pointBytes k.1 k.2.1 k.2.2

/-- The stream with what the next datagram needs of this one. -/
def Mach.scanNoted (m : Mach) (st : Nat) (sc : Scan) (conv : Int → Word) : Mach :=
  m.onStream st fun x => { x with
    sweepOwed := (keepPoints conv (m.stream st).sweepOwed sc.pts).2, lastSweep := sc.lastSweep, lastAz := sc.lastAz }

/-- The item of the points kept, from the first of them to the last. -/
def Mach.pointItem (m : Mach) (st : Nat) (stamp : Word) (sc : Scan) (kept : List (Pt × Word × Bool)) (tFirst tLast : Word) : Item :=
  { kind := m.strKind st
    offsetOnly := m.fld (Reg.STR_CTRL st) 29 2 == 0 && m.mapState st == 1
    sweep := kept.any fun k => k.2.2
    stamp := stamp
    tFirst := tFirst
    tLast := tLast
    info0 := BitVec.ofNat 32 (sc.sweep % 65536 * 65536 + kept.length)
    payload := keptBytes kept }

theorem Mach.scanItem_kept (hkept : m.keptOf st sc conv ≠ []) : ∃ a z, m.scanItem st stamp sc conv =
    (m.scanNoted st sc conv).enqueue st ((m.scanNoted st sc conv).pointItem st stamp sc (m.keptOf st sc conv) a z) := by
  have hhead := List.head?_eq_some_head hkept
  have hlast := List.getLast?_eq_some_getLast hkept
  unfold Mach.keptOf at hhead hlast
  refine ⟨((m.keptOf st sc conv).head hkept).2.1, ((m.keptOf st sc conv).getLast hkept).2.1, ?_⟩
  unfold Mach.scanItem
  simp only [hhead, hlast]
  rfl

variable {m st stamp sc conv}

/-- The item enters its stream where the queue has room. -/
theorem Mach.scanItem_taken (hkept : m.keptOf st sc conv ≠ [])
    (hmode : m.fld (Reg.STR_CTRL st) 29 2 ≠ 0)
    (hroom : recordBytes (keptBytes (m.keptOf st sc conv)).length ≤ (m.stream st).q.capacity (m.inqGeom st)) :
    ∃ it : Item, ((m.scanItem st stamp sc conv).stream st).items = (m.stream st).items ++ [it] ∧
      it.kind = m.strKind st ∧ it.stamp = stamp ∧ it.seq = (m.stream st).seq ∧
      ((m.scanItem st stamp sc conv).stream st).seq = (m.stream st).seq + 1 ∧ it.first = (m.stream st).first ∧
      it.payload = keptBytes (m.keptOf st sc conv) ∧
      it.info0 = BitVec.ofNat 32 (sc.sweep % 65536 * 65536 + (m.keptOf st sc conv).length) ∧ it.offsetOnly = false ∧
      (∀ a, (m.scanItem st stamp sc conv).reg a = m.reg a) ∧
      ∀ o, o ≠ st → (m.scanItem st stamp sc conv).stream o = m.stream o := by
  obtain ⟨a, z, heq⟩ := m.scanItem_kept st stamp sc conv hkept
  rw [heq]
  have hnoted : (m.scanNoted st sc conv).stream st = { m.stream st with
      sweepOwed := (keepPoints conv (m.stream st).sweepOwed sc.pts).2, lastSweep := sc.lastSweep, lastAz := sc.lastAz } :=
    Mach.stream_setStream_same _ _ _
  have hothers : ∀ o, o ≠ st → (m.scanNoted st sc conv).stream o = m.stream o := fun o ho => Mach.stream_setStream_ne _ ho _
  have hreg : ∀ a, (m.scanNoted st sc conv).reg a = m.reg a := fun _ => rfl
  have hgeom : (m.scanNoted st sc conv).inqGeom st = m.inqGeom st := rfl
  have hkind : (m.scanNoted st sc conv).strKind st = m.strKind st := rfl
  have hctrl : (m.scanNoted st sc conv).fld (Reg.STR_CTRL st) 29 2 = m.fld (Reg.STR_CTRL st) 29 2 := rfl
  generalize m.scanNoted st sc conv = u at *
  have hroom' : recordBytes (u.pointItem st stamp sc (m.keptOf st sc conv) a z).payload.length ≤ (u.stream st).q.capacity (u.inqGeom st) := by
    rw [hnoted, hgeom]
    exact hroom
  obtain ⟨hitems, hseq, -, hother, -⟩ := Mach.enqueue_took_self hroom'
  have hoffset : (u.pointItem st stamp sc (m.keptOf st sc conv) a z).offsetOnly = false := by
    rw [Mach.pointItem, hctrl, beq_false_of_ne hmode, Bool.false_and]
  refine ⟨u.queuedItem st (u.pointItem st stamp sc (m.keptOf st sc conv) a z), ?_, hkind, rfl, ?_, ?_, ?_, rfl, rfl, hoffset, fun r => (Mach.enqueue_room_reg hroom' r).trans (hreg r),
    fun o ho => (hother o ho).trans (hothers o ho)⟩
  · rw [hitems, Mach.queuedItem, hnoted]
  · rw [Mach.queuedItem, hnoted]
  · rw [hseq, hnoted]
  · rw [Mach.queuedItem, hnoted]

end

/-! ## A datagram under a map (R84, R54) -/

theorem Mach.scannerStream_lt {m : Mach} {p st : Nat} {d : Datagram} (h : m.scannerStream p d = some st) : st < 256 := by
  rw [Mach.scannerStream, Mach.selectStream] at h
  exact List.mem_range.mp (List.mem_of_find?_eq_some h)

section
variable {m : Mach} {st : Nat} {stamp : BitVec 64} {sc : Scan}

/-- Points that the decoder could not take are counted as malformed. -/
def Mach.malfCounted (m : Mach) (st : Nat) (sc : Scan) : Mach := m.addReg (Reg.STR_MALF st) sc.malf

/-- The calibration entries lie apart from a stream's count of malformed points. -/
theorem Mach.malfCounted_cal (hst : st < 256) : (m.malfCounted st sc).calForMap st stamp = m.calForMap st stamp := by
  have hlast : st ≤ 255 := Nat.le_of_lt_succ hst
  have hentry : ∀ b, (m.malfCounted st sc).calEntry b st = m.calEntry b st := fun b => by
    unfold Mach.calEntry
    refine List.flatMap_congr fun j hj => ?_
    have hj' := List.mem_range.mp hj
    rw [Mach.malfCounted, Mach.addReg_reg, if_neg]
    cases b with
    | false => simp only [Bool.false_eq_true, if_false, Reg.CAL_ACTIVE, Reg.STR_MALF]; omega
    | true => simp only [if_true, Reg.CAL_SHADOW, Reg.STR_MALF]; omega
  have hformer : (m.malfCounted st sc).cal = m.cal := rfl
  unfold Mach.calForMap
  simp only [hentry, hformer]

/-- Under a calibrated map the points take the entry in force for the stamp. -/
theorem Mach.scanIn_calibrated (hst : st < 256) (hmode : m.fld (Reg.STR_CTRL st) 29 2 = 1) : m.scanIn st stamp sc =
    (m.malfCounted st sc).scanItem st (stamp.setWidth 32) sc (entryCoef (m.calForMap st stamp)).conv := by
  have hctrl : (m.addReg (Reg.STR_MALF st) sc.malf).fld (Reg.STR_CTRL st) 29 2 = 1 := by
    rw [Mach.fld_congr ((m.addReg_reg _ _ _).trans (if_neg (by simp only [Reg.STR_CTRL, Reg.STR_MALF]; omega)))]
    exact hmode
  rw [← m.malfCounted_cal hst (sc := sc)]
  unfold Mach.scanIn
  simp only [hctrl]
  rfl

/-- Short time of a point under the identity map. -/
def Mach.identityConv (m : Mach) (t : Int) : Word := BitVec.ofInt 32 (m.time.anchorCount.toNat + (t - m.time.anchorWide.total))

/-- Points before the target of a step are counted as a drop. -/
def Mach.identityCounted (m : Mach) (st : Nat) (sc : Scan) : Mach :=
  if sc.pts.any fun p => decide (p.t < m.time.anchorWide.total) then (m.malfCounted st sc).strDrop st else m.malfCounted st sc

/-- Under the identity map the points take the time line's anchor. -/
theorem Mach.scanIn_identity (hmode : m.fld (Reg.STR_CTRL st) 29 2 = 2) (hset : m.rbit Reg.TIME_STATUS 0 = true) : m.scanIn st stamp sc =
    (m.identityCounted st sc).scanItem st (stamp.setWidth 32) (sc.since m.time.anchorWide.total) m.identityConv := by
  have hctrl : (m.addReg (Reg.STR_MALF st) sc.malf).fld (Reg.STR_CTRL st) 29 2 = 2 := by
    rw [Mach.fld_congr ((m.addReg_reg _ _ _).trans (if_neg (by simp only [Reg.STR_CTRL, Reg.STR_MALF]; omega)))]
    exact hmode
  have hstatus : (m.addReg (Reg.STR_MALF st) sc.malf).rbit Reg.TIME_STATUS 0 = true := by
    rw [Mach.rbit_congr ((m.addReg_reg _ _ _).trans (if_neg (by simp only [Reg.TIME_STATUS, Reg.STR_MALF]; omega)))]
    exact hset
  have htime : (m.addReg (Reg.STR_MALF st) sc.malf).time = m.time := rfl
  unfold Mach.scanIn
  simp only [hctrl, hstatus, htime, if_true]
  unfold Mach.identityCounted Mach.malfCounted Mach.identityConv
  split
  · have hdrop : ((m.addReg (Reg.STR_MALF st) sc.malf).strDrop st).time = m.time :=
      ((Mach.IngressOnly.refl [Reg.STR_DROPS st] (m.addReg (Reg.STR_MALF st) sc.malf)).strDrop (by simp)).time.trans htime
    simp only [hdrop]
  · rfl

/-- Before its item is made, a datagram moves nothing of its stream but the counts. -/
def Mach.countedOnly (m : Mach) (st : Nat) (sc : Scan) (u : Mach) : Prop :=
  u.reg (Reg.STR_MALF st) = m.reg (Reg.STR_MALF st) + BitVec.ofNat 32 sc.malf ∧
    (∀ a, a ≠ Reg.STR_MALF st → a ≠ Reg.STR_DROPS st → u.reg a = m.reg a) ∧ u.streams = m.streams

theorem Mach.malfCounted_only : m.countedOnly st sc (m.malfCounted st sc) :=
  ⟨(m.addReg_reg _ _ _).trans (if_pos rfl), fun _ ha _ => (m.addReg_reg _ _ _).trans (if_neg ha), rfl⟩

theorem Mach.identityCounted_only : m.countedOnly st sc (m.identityCounted st sc) := by
  obtain ⟨hmalf, hregs, hstreams⟩ := Mach.malfCounted_only (m := m) (st := st) (sc := sc)
  unfold Mach.identityCounted
  split
  · refine ⟨?_, fun a ha hd => ?_, ((m.malfCounted st sc).strDrop_kept st).1.trans hstreams⟩
    · rw [Mach.strDrop_reg, if_neg (by simp only [Reg.STR_MALF, Reg.STR_DROPS]; omega), hmalf]
    · rw [Mach.strDrop_reg, if_neg hd, hregs a ha hd]
  · exact ⟨hmalf, hregs, hstreams⟩

/-- How the map of stream st makes a sensor time a short time. -/
def Mach.mapConv (m : Mach) (st : Nat) (stamp : BitVec 64) : Int → Word :=
  if m.fld (Reg.STR_CTRL st) 29 2 = 1 then (entryCoef (m.calForMap st stamp)).conv else m.identityConv

/-- The points that the map takes. -/
def Mach.mapPoints (m : Mach) (st : Nat) (sc : Scan) : List Pt :=
  if m.fld (Reg.STR_CTRL st) 29 2 = 1 then sc.pts else (sc.since m.time.anchorWide.total).pts

/-- The points kept of a datagram under its stream's map. -/
def Mach.mapKept (m : Mach) (st : Nat) (stamp : BitVec 64) (sc : Scan) : List (Pt × Word × Bool) :=
  (keepPoints (m.mapConv st stamp) (m.stream st).sweepOwed (m.mapPoints st sc)).1

/-- A calibrated map, or an identity map of a time line that is set. -/
def Mach.mapReady (m : Mach) (st : Nat) : Prop :=
  m.fld (Reg.STR_CTRL st) 29 2 = 1 ∨ (m.fld (Reg.STR_CTRL st) 29 2 = 2 ∧ m.rbit Reg.TIME_STATUS 0 = true)

theorem Mach.scanIn_mapped (hst : st < 256) (hready : m.mapReady st) : ∃ (u : Mach) (sc' : Scan), m.countedOnly st sc u ∧
    sc'.sweep = sc.sweep ∧ sc'.pts = m.mapPoints st sc ∧
    m.scanIn st stamp sc = u.scanItem st (stamp.setWidth 32) sc' (m.mapConv st stamp) := by
  obtain hone | ⟨htwo, hset⟩ := hready
  · refine ⟨_, sc, Mach.malfCounted_only, rfl, ?_, (Mach.scanIn_calibrated hst hone).trans ?_⟩
    · rw [Mach.mapPoints, if_pos hone]
    · rw [Mach.mapConv, if_pos hone]
  · have hne : ¬ m.fld (Reg.STR_CTRL st) 29 2 = 1 := by rw [htwo]; decide
    refine ⟨_, sc.since m.time.anchorWide.total, Mach.identityCounted_only, rfl, ?_, (Mach.scanIn_identity htwo hset).trans ?_⟩
    · rw [Mach.mapPoints, if_neg hne]
    · rw [Mach.mapConv, if_neg hne]

/-- The item of a datagram under its stream's map, and what else the datagram changes of the stream. -/
theorem Mach.scanIn_item (hst : st < 256) (hready : m.mapReady st) (hkept : m.mapKept st stamp sc ≠ [])
    (hroom : recordBytes (keptBytes (m.mapKept st stamp sc)).length ≤ (m.stream st).q.capacity (m.inqGeom st)) :
    ∃ it : Item, ((m.scanIn st stamp sc).stream st).items = (m.stream st).items ++ [it] ∧ it.kind = m.strKind st ∧
      it.stamp = stamp.setWidth 32 ∧ it.seq = (m.stream st).seq ∧ ((m.scanIn st stamp sc).stream st).seq = (m.stream st).seq + 1 ∧
      it.first = (m.stream st).first ∧ it.payload = keptBytes (m.mapKept st stamp sc) ∧
      it.info0 = BitVec.ofNat 32 (sc.sweep % 65536 * 65536 + (m.mapKept st stamp sc).length) ∧ it.offsetOnly = false ∧
      (m.scanIn st stamp sc).reg (Reg.STR_MALF st) = m.reg (Reg.STR_MALF st) + BitVec.ofNat 32 sc.malf ∧
      ∀ o, o ≠ st → (m.scanIn st stamp sc).stream o = m.stream o := by
  obtain ⟨u, sc', ⟨hmalf, hregs, hstreams⟩, hsweep, hpts, heq⟩ := Mach.scanIn_mapped (stamp := stamp) (sc := sc) hst hready
  have hstream : ∀ o, u.stream o = m.stream o := fun o =>
    congrArg (fun l : Sparse Stream => sget (fun _ => ({} : Stream)) l o) hstreams
  have hctrl : u.fld (Reg.STR_CTRL st) 29 2 = m.fld (Reg.STR_CTRL st) 29 2 :=
    Mach.fld_congr (hregs _ (by simp only [Reg.STR_CTRL, Reg.STR_MALF]; omega) (by simp only [Reg.STR_CTRL, Reg.STR_DROPS]; omega)) _ _
  have hkind : u.strKind st = m.strKind st :=
    Mach.fld_congr (hregs _ (by simp only [Reg.STR_SOURCE, Reg.STR_MALF]; omega) (by simp only [Reg.STR_SOURCE, Reg.STR_DROPS]; omega)) _ _
  have hgeom : u.inqGeom st = m.inqGeom st := by
    rw [Mach.inqGeom, Mach.inqGeom, Mach.fld_congr (hregs _ (by simp only [Reg.STR_INQ, Reg.STR_MALF]; omega)
      (by simp only [Reg.STR_INQ, Reg.STR_DROPS]; omega))]
  have hpoints : u.keptOf st sc' (m.mapConv st stamp) = m.mapKept st stamp sc := by
    rw [Mach.keptOf, Mach.mapKept, hstream, hpts]
  have hmode : u.fld (Reg.STR_CTRL st) 29 2 ≠ 0 := by
    rw [hctrl]
    obtain h | ⟨h, -⟩ := hready <;> rw [h] <;> decide
  obtain ⟨it, hitems, hk, hs, hseq, hnext, hfirst, hpay, hinfo, hoff, hsame, hothers⟩ :=
    Mach.scanItem_taken (stamp := stamp.setWidth 32) (by rwa [hpoints]) hmode (by rw [hpoints, hstream, hgeom]; exact hroom)
  rw [hpoints] at hpay hinfo
  rw [hstream] at hitems hseq hnext hfirst
  rw [heq]
  exact ⟨it, hitems, hk.trans hkind, hs, hseq, hnext, hfirst, hpay, by rw [hinfo, hsweep], hoff, (hsame _).trans hmalf,
    fun o ho => (hothers o ho).trans (hstream o)⟩

end

/-! ## The command -/

section
variable {s : State} {p : Fin 4} {d : Datagram} (live : s.m.live = true) (hup : s.m.macUp p = true) (hmessage : s.m.isMessage d = false)

/-- One register that counts a frame, beside the bytes counted of its MAC. -/
theorem Mach.frameCounted_counts (m : Mach) (p : Nat) (d : Datagram) (a : Nat) :
    ((m.frameCounted p d).incReg a).reg a = m.reg a + 1 ∧ m.regsBut ((m.frameCounted p d).incReg a) [a] ∧
      { (m.frameCounted p d).incReg a with regs := m.regs, obs := m.obs } = m := by
  have hrest := m.frameCounted_rest p d
  have hreg : ∀ b, (m.frameCounted p d).reg b = m.reg b := fun b => m.bump_reg _ _ b
  generalize m.frameCounted p d = u at *
  refine ⟨?_, Mach.regsBut.setReg (fun b _ => hreg b) (by simp) _, (congrArg (fun x : Mach => { x with regs := m.regs }) hrest :)⟩
  rw [Mach.incReg_reg, if_pos rfl, hreg]
  rfl

section
variable (m : Mach) (p : Nat) (d : Datagram)

/-! The count of a frame's bytes is no part of what its MAC looks at. -/

theorem Mach.frameCounted_unsupported : (m.frameCounted p d).unsupported p d = m.unsupported p d :=
  (congrArg (fun x : Mach => x.unsupported p d) (m.frameCounted_rest p d) :)

theorem Mach.frameCounted_scannerStream : (m.frameCounted p d).scannerStream p d = m.scannerStream p d :=
  (congrArg (fun x : Mach => x.scannerStream p d) (m.frameCounted_rest p d) :)

theorem Mach.frameCounted_showHome : (m.frameCounted p d).showHome = m.showHome :=
  (congrArg (fun x : Mach => x.showHome) (m.frameCounted_rest p d) :)

theorem Mach.frameCounted_scanOf (st : Nat) : (m.frameCounted p d).scanOf st d = m.scanOf st d :=
  (congrArg (fun x : Mach => x.scanOf st d) (m.frameCounted_rest p d) :)

theorem Mach.frameCounted_arrival : (m.frameCounted p d).arrival p = m.arrival p :=
  (congrArg (fun x : Mach => x.arrival p) (m.frameCounted_rest p d) :)

end

include live hup hmessage

theorem exec_datagramRx : exec (.datagramRx p d) s = .next { s with m := (s.m.frameCounted p d).frameIn p d } := by
  rw [← Mach.datagramRx_up _ _ _ hup hmessage]
  exact act_live live (·.datagramRx p d)

/-- A frame that is counted in register a and goes no further. -/
theorem exec_datagramRx_counts {a : Nat} (hin : (s.m.frameCounted p d).frameIn p d = (s.m.frameCounted p d).incReg a) :
    ∃ t, exec (.datagramRx p d) s = .next { s with m := t } ∧ t.reg a = s.m.reg a + 1 ∧ s.m.regsBut t [a] ∧
      { t with regs := s.m.regs, obs := s.m.obs } = s.m :=
  ⟨_, (exec_datagramRx live hup hmessage).trans (by rw [hin]), s.m.frameCounted_counts p d a⟩

section
variable (hintact : d.intact = true)
include hintact

theorem exec_datagramRx_unsupported (hsupported : s.m.unsupported p d = true) :
    ∃ t, exec (.datagramRx p d) s = .next { s with m := t } ∧ t.reg (Reg.SNS_MAC_RXDROP p) = s.m.reg (Reg.SNS_MAC_RXDROP p) + 1 ∧
      s.m.regsBut t [Reg.SNS_MAC_RXDROP p] ∧ { t with regs := s.m.regs, obs := s.m.obs } = s.m := by
  exact exec_datagramRx_counts live hup hmessage
    (Mach.frameIn_unsupported hintact ((s.m.frameCounted_unsupported p d).trans hsupported))

variable (hsupported : s.m.unsupported p d = false)
include hsupported

theorem exec_datagramRx_ptp (hptp : isPtp d = true) : exec (.datagramRx p d) s = .next { s with m := s.m.frameCounted p d } := by
  rw [exec_datagramRx live hup hmessage, Mach.frameIn_ptp hintact ((s.m.frameCounted_unsupported p d).trans hsupported) hptp]

variable (hplain : isPtp d = false)
include hplain

theorem exec_datagramRx_unselected (howned : s.m.showHome = false) (hsel : s.m.scannerStream p d = none) :
    ∃ t, exec (.datagramRx p d) s = .next { s with m := t } ∧ t.reg (Reg.SNS_MAC_RXDROP p) = s.m.reg (Reg.SNS_MAC_RXDROP p) + 1 ∧
      s.m.regsBut t [Reg.SNS_MAC_RXDROP p] ∧ { t with regs := s.m.regs, obs := s.m.obs } = s.m :=
  exec_datagramRx_counts live hup hmessage (Mach.frameIn_unselected hintact ((s.m.frameCounted_unsupported p d).trans hsupported) hplain
    ((s.m.frameCounted_showHome p d).trans howned) ((s.m.frameCounted_scannerStream p d).trans hsel))

variable {st : Nat} (hsel : s.m.scannerStream p d = some st)
include hsel

omit live hup hmessage in
theorem frameIn_selected : (s.m.frameCounted p d).frameIn p d = (s.m.frameCounted p d).scanTaken p st d :=
  Mach.frameIn_selected hintact ((s.m.frameCounted_unsupported p d).trans hsupported) hplain ((s.m.frameCounted_scannerStream p d).trans hsel)

theorem exec_datagramRx_malformed (hscan : s.m.scanOf st d = none) :
    ∃ t, exec (.datagramRx p d) s = .next { s with m := t } ∧ t.reg (Reg.STR_MALF st) = s.m.reg (Reg.STR_MALF st) + 1 ∧
      s.m.regsBut t [Reg.STR_MALF st] ∧ { t with regs := s.m.regs, obs := s.m.obs } = s.m := by
  refine exec_datagramRx_counts live hup hmessage ?_
  rw [frameIn_selected hintact hsupported hplain hsel, Mach.scanTaken, Mach.frameCounted_scanOf, hscan]
  rfl

variable {sc : Scan} (hscan : s.m.scanOf st d = some sc)
include hscan

theorem exec_datagramRx_scan : exec (.datagramRx p d) s =
    .next { s with m := ((s.m.frameCounted p d).stopNear sc).scanIn st (s.m.arrival p) sc } := by
  rw [exec_datagramRx live hup hmessage, frameIn_selected hintact hsupported hplain hsel, Mach.scanTaken,
    Mach.frameCounted_scanOf, hscan, Mach.frameCounted_arrival]

variable (howned : s.m.showHome = false)
include howned

theorem exec_datagramRx_owned : exec (.datagramRx p d) s =
    .next { s with m := (s.m.frameCounted p d).scanIn st (s.m.arrival p) sc } := by
  have hstop : (s.m.frameCounted p d).stopNear sc = s.m.frameCounted p d := by
    rw [Mach.stopNear, Mach.frameCounted_showHome, howned]
    rfl
  rw [exec_datagramRx_scan live hup hmessage hintact hsupported hplain hsel hscan, hstop]

/-- The item that a datagram makes in its stream. -/
theorem exec_datagramRx_item (hready : s.m.mapReady st) (hkept : s.m.mapKept st (s.m.arrival p) sc ≠ [])
    (hroom : recordBytes (keptBytes (s.m.mapKept st (s.m.arrival p) sc)).length ≤ (s.m.stream st).q.capacity (s.m.inqGeom st)) :
    ∃ t, ∃ it : Item, exec (.datagramRx p d) s = .next { s with m := t } ∧ (t.stream st).items = (s.m.stream st).items ++ [it] ∧
      it.kind = s.m.strKind st ∧ it.stamp = (s.m.arrival p).setWidth 32 ∧ it.seq = (s.m.stream st).seq ∧
      (t.stream st).seq = (s.m.stream st).seq + 1 ∧ it.first = (s.m.stream st).first ∧
      it.payload = keptBytes (s.m.mapKept st (s.m.arrival p) sc) ∧
      it.info0 = BitVec.ofNat 32 (sc.sweep % 65536 * 65536 + (s.m.mapKept st (s.m.arrival p) sc).length) ∧ it.offsetOnly = false ∧
      t.reg (Reg.STR_MALF st) = s.m.reg (Reg.STR_MALF st) + BitVec.ofNat 32 sc.malf ∧ ∀ o, o ≠ st → t.stream o = s.m.stream o := by
  have hst := Mach.scannerStream_lt hsel
  have hact := exec_datagramRx_owned live hup hmessage hintact hsupported hplain hsel hscan howned
  have hrest := s.m.frameCounted_rest p d
  generalize s.m.frameCounted p d = u at hact hrest
  have hstream : ∀ o, u.stream o = s.m.stream o := fun o => (congrArg (fun x : Mach => x.stream o) hrest :)
  have hgeom : u.inqGeom st = s.m.inqGeom st := (congrArg (fun x : Mach => x.inqGeom st) hrest :)
  have hkind : u.strKind st = s.m.strKind st := (congrArg (fun x : Mach => x.strKind st) hrest :)
  have hmalf : u.reg (Reg.STR_MALF st) = s.m.reg (Reg.STR_MALF st) := (congrArg (fun x : Mach => x.reg (Reg.STR_MALF st)) hrest :)
  have hpoints : ∀ w, u.mapKept st w sc = s.m.mapKept st w sc := fun w => (congrArg (fun x : Mach => x.mapKept st w sc) hrest :)
  have hready' : u.mapReady st := by
    have hiff : u.mapReady st = s.m.mapReady st := (congrArg (fun x : Mach => x.mapReady st) hrest :)
    rwa [hiff]
  obtain ⟨it, hitem⟩ := Mach.scanIn_item hst hready' (stamp := s.m.arrival p) (sc := sc) (by rwa [hpoints])
    (by rw [hpoints, hstream, hgeom]; exact hroom)
  simp only [hpoints, hstream, hkind, hmalf] at hitem
  exact ⟨_, it, hact, hitem⟩

end

end

end Sys2Proof.Machine
end

section
/-! The sensor-time map's blocks (R85) and the happenings of a MAC beside datagrams (R75, R282, R453): PAUSE, links, requests, neighbours. -/

namespace Sys2Proof.Machine

/-! ## A block of the map ends (R85) -/

section
variable (m : Mach) (st : Nat) (dly : Int) (tt : Nat)

/-- The minima with that of the block that ends, the newest first. -/
def Mach.minimaAfter (m : Mach) (st : Nat) (dly : Int) (tt : Nat) : List (Int × Nat) := ((dly, tt) :: (m.stream st).minima).take 8

/-- Eight minima are there. -/
def Mach.mapFull (m : Mach) (st : Nat) (dly : Int) (tt : Nat) : Bool := decide (8 ≤ (m.minimaAfter st dly tt).length)

/-- The stream with the block's minimum among its minima. -/
def Mach.minimumNoted (m : Mach) (st : Nat) (dly : Int) (tt : Nat) : Mach :=
  m.setStream st { m.stream st with blockMin := none, minima := m.minimaAfter st dly tt }

/-- The map shown in the registers. -/
def Mach.mapShown (m : Mach) (st : Nat) (dly : Int) (tt : Nat) (skew : Int) : Mach :=
  (((m.setReg (Reg.STR_MAP_S0_LO st) (BitVec.ofNat 32 tt)).setReg (Reg.STR_MAP_S0_HI st) (BitVec.ofNat 32 (tt / 2 ^ 32))).setReg
    (Reg.STR_MAP_M0 st) (BitVec.ofInt 32 (tt + dly))).setReg (Reg.STR_MAP_SKEW st) (BitVec.ofInt 32 skew)

/-- The map and its state shown. -/
def Mach.mapStated (m : Mach) (st : Nat) (dly : Int) (tt : Nat) (skew : Int) (state : Nat) : Mach :=
  (m.mapShown st dly tt skew).setFld (Reg.STR_STATUS st) 1 2 state

theorem Mach.mapBlockEnd_min {b : Nat} (hmin : (m.stream st).blockMin = some (b, dly, tt)) : m.mapBlockEnd st =
    (m.minimumNoted st dly tt).mapStated st dly tt (if m.mapFull st dly tt then skewOf (m.minimaAfter st dly tt) else 0)
      (if m.mapFull st dly tt then 2 else 1) := by
  unfold Mach.mapBlockEnd
  simp only [hmin]
  rfl

theorem Mach.mapFull_iff : m.mapFull st dly tt = true ↔ 7 ≤ (m.stream st).minima.length := by
  rw [Mach.mapFull, decide_eq_true_iff, Mach.minimaAfter, List.length_take, List.length_cons]
  omega

/-- The registers that show a stream's map. -/
def mapRegs (st : Nat) : List Nat :=
  [Reg.STR_MAP_S0_LO st, Reg.STR_MAP_S0_HI st, Reg.STR_MAP_M0 st, Reg.STR_MAP_SKEW st, Reg.STR_STATUS st]

variable (skew : Int) (state : Nat)

theorem Mach.mapStated_regs : (m.mapStated st dly tt skew state).reg (Reg.STR_MAP_S0_LO st) = BitVec.ofNat 32 tt ∧
    (m.mapStated st dly tt skew state).reg (Reg.STR_MAP_S0_HI st) = BitVec.ofNat 32 (tt / 2 ^ 32) ∧
    (m.mapStated st dly tt skew state).reg (Reg.STR_MAP_M0 st) = BitVec.ofInt 32 (tt + dly) ∧
    (m.mapStated st dly tt skew state).reg (Reg.STR_MAP_SKEW st) = BitVec.ofInt 32 skew ∧
    (m.mapStated st dly tt skew state).fld (Reg.STR_STATUS st) 1 2 = state % 4 := by
  have hshown : ∀ k, k ≠ 0x1C → (m.mapStated st dly tt skew state).reg (0x140000 + 0x100 * st + k) =
      (m.mapShown st dly tt skew).reg (0x140000 + 0x100 * st + k) := fun k hk =>
    (Mach.setFld_reg _ _ _ _ _ _).trans (if_neg (by simp only [Reg.STR_STATUS]; omega))
  refine ⟨(hshown 0x40 (by decide)).trans ?_, (hshown 0x44 (by decide)).trans ?_, (hshown 0x48 (by decide)).trans ?_,
    (hshown 0x4C (by decide)).trans ?_, ?_⟩
  · rw [Mach.mapShown, Mach.reg_setReg_ne _ (by simp only [Reg.STR_MAP_SKEW]; omega),
      Mach.reg_setReg_ne _ (by simp only [Reg.STR_MAP_M0]; omega), Mach.reg_setReg_ne _ (by simp only [Reg.STR_MAP_S0_HI]; omega)]
    exact Mach.reg_setReg_same _ _ _
  · rw [Mach.mapShown, Mach.reg_setReg_ne _ (by simp only [Reg.STR_MAP_SKEW]; omega),
      Mach.reg_setReg_ne _ (by simp only [Reg.STR_MAP_M0]; omega)]
    exact Mach.reg_setReg_same _ _ _
  · rw [Mach.mapShown, Mach.reg_setReg_ne _ (by simp only [Reg.STR_MAP_SKEW]; omega)]
    exact Mach.reg_setReg_same _ _ _
  · exact Mach.reg_setReg_same _ _ _
  · rw [Mach.fld, Mach.mapStated, Mach.setFld_reg, if_pos rfl, Word.field_setField_same _ (by decide)]
    rfl

theorem Mach.mapStated_only : m.regsBut (m.mapStated st dly tt skew state) (mapRegs st) ∧
    { m.mapStated st dly tt skew state with regs := m.regs } = m := by
  refine ⟨?_, Mach.regs_rest_setReg (Mach.regs_rest_setReg (Mach.regs_rest_setReg (Mach.regs_rest_setReg (Mach.regs_rest_setReg rfl _ _) _ _)
    _ _) _ _) _ _⟩
  exact ((((Mach.regsBut.setReg (fun _ _ => rfl) (by simp [mapRegs]) _).setReg (by simp [mapRegs]) _).setReg (by simp [mapRegs]) _).setReg
    (by simp [mapRegs]) _).setReg (by simp [mapRegs]) _

end

section
variable {s : State} (live : s.m.live = true)
include live

theorem exec_mapBlockEnd {st : Fin 256} {b : Nat} {dly : Int} {tt : Nat} (hmin : (s.m.stream st).blockMin = some (b, dly, tt))
    (hover : b < s.m.time.count.toNat / 250000000) :
    ∃ t, exec (.mapBlockEnd st) s = .next { s with m := t } ∧
      t.reg (Reg.STR_MAP_S0_LO st) = BitVec.ofNat 32 tt ∧ t.reg (Reg.STR_MAP_S0_HI st) = BitVec.ofNat 32 (tt / 2 ^ 32) ∧
      t.reg (Reg.STR_MAP_M0 st) = BitVec.ofInt 32 (tt + dly) ∧
      t.fld (Reg.STR_STATUS st) 1 2 = (if 7 ≤ (s.m.stream st).minima.length then 2 else 1) ∧
      ((s.m.stream st).minima.length < 7 → t.reg (Reg.STR_MAP_SKEW st) = 0) ∧
      (t.stream st).blockMin = none ∧ (t.stream st).minima = ((dly, tt) :: (s.m.stream st).minima).take 8 ∧
      (∀ o, o ≠ st.val → t.stream o = s.m.stream o) ∧ s.m.regsBut t (mapRegs st) ∧
      { t with regs := s.m.regs, streams := s.m.streams } = s.m := by
  have hact : exec (.mapBlockEnd st) s = .next { s with m := s.m.mapBlockEnd st } := by
    refine (act_live live fun m => match (m.stream st).blockMin with
      | some (b, _, _) => if b < m.block then m.mapBlockEnd st else m
      | none => m).trans ?_
    simp only [hmin]
    rw [if_pos (show b < s.m.block from hover)]
  have hself : (s.m.minimumNoted st dly tt).stream st =
      { s.m.stream st with blockMin := none, minima := s.m.minimaAfter st dly tt } := Mach.stream_setStream_same _ _ _
  have hothers : ∀ o, o ≠ st.val → (s.m.minimumNoted st dly tt).stream o = s.m.stream o := fun o ho => Mach.stream_setStream_ne _ ho _
  have hregs : ∀ a, (s.m.minimumNoted st dly tt).reg a = s.m.reg a := fun _ => rfl
  have hrest : { s.m.minimumNoted st dly tt with regs := s.m.regs, streams := s.m.streams } = s.m := rfl
  rw [Mach.mapBlockEnd_min s.m st dly tt hmin] at hact
  generalize s.m.minimumNoted st dly tt = u at *
  have hfull : (s.m.mapFull st dly tt = true) = (7 ≤ (s.m.stream st).minima.length) := propext (s.m.mapFull_iff st dly tt)
  simp only [hfull] at hact
  have hskew : (s.m.stream st).minima.length < 7 →
      (if 7 ≤ (s.m.stream st).minima.length then skewOf (s.m.minimaAfter st dly tt) else 0) = 0 := fun h => if_neg (Nat.not_le.mpr h)
  have hstate : (if 7 ≤ (s.m.stream st).minima.length then 2 else 1) % 4 = if 7 ≤ (s.m.stream st).minima.length then 2 else 1 := by
    split <;> rfl
  generalize (if 7 ≤ (s.m.stream st).minima.length then skewOf (s.m.minimaAfter st dly tt) else 0) = skew at hact hskew
  generalize (if 7 ≤ (s.m.stream st).minima.length then 2 else 1) = state at hact hstate ⊢
  obtain ⟨hlo, hhi, hm0, hskewed, hstated⟩ := u.mapStated_regs st dly tt skew state
  obtain ⟨honly, hkept⟩ := u.mapStated_only st dly tt skew state
  generalize u.mapStated st dly tt skew state = t at *
  have hstream : ∀ o, t.stream o = u.stream o := fun o => (congrArg (fun x : Mach => x.stream o) hkept :)
  refine ⟨t, hact, hlo, hhi, hm0, hstated.trans hstate, fun hfew => hskewed.trans (by rw [hskew hfew]; rfl), ?_, ?_,
    fun o ho => (hstream o).trans (hothers o ho), fun a ha => (honly a ha).trans (hregs a),
    (congrArg (fun x : Mach => { x with regs := s.m.regs, streams := s.m.streams }) hkept :).trans hrest⟩
  · rw [hstream, hself]
  · rw [hstream, hself]
    rfl

end

/-! ## The happenings of a MAC -/

/-- Transmission of a MAC held for these quanta. -/
def Mach.paused (m : Mach) (p quanta : Nat) : Mach := m.onEgr fun e => { e with pause := sput (fun _ => 0) p quanta e.pause }

/-- The link as the MAC's configuration, its island and this signal make it. -/
def Mach.linkFrom (m : Mach) (p : Nat) (up : Bool) (rate : Nat) : Bool :=
  m.rbit (Reg.SNS_MAC_CFG p) 31 && !(m.island (152 + p)).stopped.contains .standby && up && decide (m.fld (Reg.SNS_MAC_CFG p) 29 2 ≤ rate)

/-- The PHY's signal recorded. -/
def Mach.signalled (m : Mach) (p : Nat) (up : Bool) (rate : Nat) : Mach :=
  m.onPorts fun x => { x with macSignal := sput (fun _ => none) p (if up then some rate else none) x.macSignal }

theorem Mach.signalled_signal (m : Mach) (p : Nat) (up : Bool) (rate : Nat) :
    sget (fun _ => none) (m.signalled p up rate).ports.macSignal p = if up then some rate else none := sget_sput_same _ _ _ _

theorem Mach.signalled_linkUp (m : Mach) (p : Nat) (up : Bool) (rate : Nat) : (m.signalled p up rate).linkUp p = m.linkFrom p up rate := by
  have hcfg : (m.signalled p up rate).reg (Reg.SNS_MAC_CFG p) = m.reg (Reg.SNS_MAC_CFG p) := rfl
  have hisland : (m.signalled p up rate).island (152 + p) = m.island (152 + p) := rfl
  rw [Mach.linkUp, Mach.linkFrom, Mach.signalled_signal, Mach.rbit_congr hcfg, Mach.fld_congr hcfg, hisland]
  cases up <;> simp

/-- The neighbours of a MAC replaced, their number shown. -/
def Mach.neighboursSet (m : Mach) (p : Nat) (l : List (List Byte × BitVec 48 × BitVec 64)) : Mach :=
  (m.onEgr fun e => { e with nbrs := sput (fun _ => []) p l e.nbrs }).setReg (Reg.NET_NBR p) (BitVec.ofNat 32 l.length)

section
variable {s : State} (live : s.m.live = true) {p : Fin 4}
include live

theorem exec_pauseRx {quanta : BitVec 16} (hup : s.m.macUp p = true) (hon : s.m.rbit (Reg.SNS_MAC_CFG p) 28 = true) :
    ∃ t, exec (.pauseRx p quanta) s = .next { s with m := t } ∧ sget (fun _ => 0) t.egr.pause p = quanta.toNat ∧
      (∀ o, o ≠ p.val → sget (fun _ => 0) t.egr.pause o = sget (fun _ => 0) s.m.egr.pause o) ∧
      { t with egr := s.m.egr } = s.m ∧ { t.egr with pause := s.m.egr.pause } = s.m.egr := by
  have hpause : s.m.pauseRx p quanta.toNat = s.m.paused p quanta.toNat := by
    rw [Mach.pauseRx, hup, hon]
    rfl
  exact ⟨s.m.paused p quanta.toNat, (act_live live (·.pauseRx p quanta.toNat)).trans (by rw [hpause]), sget_sput_same _ _ _ _,
    fun o ho => sget_sput_ne _ ho _ _, rfl, rfl⟩

theorem exec_macLinkChange (up : Bool) (rate : BitVec 2) :
    ∃ t, exec (.macLinkChange p up rate) s = .next { s with m := t } ∧ t.rbit (Reg.SNS_MAC_STAT p) 0 = s.m.linkFrom p up rate.toNat ∧
      (up = true → t.fld (Reg.SNS_MAC_STAT p) 1 2 = rate.toNat) ∧
      (s.m.linkFrom p up rate.toNat ≠ s.m.rbit (Reg.SNS_MAC_STAT p) 0 → t.rbit Reg.SNS_EVENT 1 = true) ∧
      (s.m.linkFrom p up rate.toNat = s.m.rbit (Reg.SNS_MAC_STAT p) 0 → t.reg Reg.SNS_EVENT = s.m.reg Reg.SNS_EVENT ∧ t.egr = s.m.egr) ∧
      s.m.regsBut t [Reg.SNS_MAC_STAT p, Reg.SNS_EVENT] ∧ { t with regs := s.m.regs, ports := s.m.ports, egr := s.m.egr } = s.m := by
  have hact : exec (.macLinkChange p up rate) s = .next { s with m := (s.m.signalled p up rate.toNat).macJudge p } :=
    act_live live (·.macLink p up rate.toNat)
  have hup := s.m.signalled_linkUp p up rate.toNat
  have hsignal := s.m.signalled_signal p up rate.toNat
  have hreg : ∀ a, (s.m.signalled p up rate.toNat).reg a = s.m.reg a := fun _ => rfl
  have hegr : (s.m.signalled p up rate.toNat).egr = s.m.egr := rfl
  have hrest : { s.m.signalled p up rate.toNat with regs := s.m.regs, ports := s.m.ports, egr := s.m.egr } = s.m := rfl
  generalize s.m.signalled p up rate.toNat = u at *
  obtain ⟨hlink, hrate, hchanged, hsame, honly, hkept⟩ := u.macJudge_shows (p := p)
  have hwas : u.rbit (Reg.SNS_MAC_STAT p) 0 = s.m.rbit (Reg.SNS_MAC_STAT p) 0 := Mach.rbit_congr (hreg _) 0
  rw [hup, hwas] at hchanged hsame
  refine ⟨_, hact, hlink.trans hup, fun h => hrate.trans ?_, hchanged, fun h => ?_, fun a ha => (honly a ha).trans (hreg a), ?_⟩
  · have hlt := rate.isLt
    rw [Mach.linkRate, hsignal, h, if_pos rfl, Option.getD_some]
    omega
  · obtain ⟨hevent, hsent⟩ := hsame h
    exact ⟨hevent.trans (hreg _), hsent.trans hegr⟩
  · exact (congrArg (fun x : Mach => { x with regs := s.m.regs, ports := s.m.ports, egr := s.m.egr }) hkept :).trans hrest

theorem exec_netRequestRx {r : NetRequest} (hup : s.m.macUp p = true) (hrespond : s.m.rbit (Reg.NET_CFG p) 29 = true)
    (hfamily : s.m.rbit (Reg.NET_CFG p) (if reqSix r then 30 else 31) = true) (hours : reqTarget r = s.m.ownIp p (reqSix r)) :
    exec (.netRequestRx p r) s = .next { s with m := s.m.transmit p (.reply r) } := by
  have htaken : (s.m.macUp p && (s.m.reg (Reg.NET_CFG p)).bit 29 && (s.m.reg (Reg.NET_CFG p)).bit (if reqSix r then 30 else 31) &&
      reqTarget r == s.m.ownIp p (reqSix r)) = true := by
    rw [Mach.rbit] at hrespond hfamily
    rw [hup, hrespond, hfamily, hours, beq_self_eq_true]
    rfl
  exact (act_live live (·.netRequest p r)).trans (congrArg (fun t => Host.Outcome.next { s with m := t }) (if_pos htaken))

theorem exec_neighbourRefresh {ip : List Byte} {answer : Option (BitVec 48)} (hup : s.m.macUp p = true) (hnamed : s.m.resolves p ip = true)
    (hdue : s.m.resolveDue p ip = true) :
    ∃ t, exec (.neighbourRefresh p ip answer) s = .next { s with m := t } ∧
      t.nbrs p = refreshed (s.m.nbrs p) ip answer s.m.time.count ∧ (∀ o, o ≠ p.val → t.nbrs o = s.m.nbrs o) ∧
      t.egr.sent = s.m.egr.sent ++ [{ mac := p, src := s.m.ownMac p, vlan := s.m.macVlan p, body := .resolve ip }] ∧
      t.reg (Reg.NET_NBR p) = BitVec.ofNat 32 (t.nbrs p).length ∧ s.m.regsBut t [Reg.NET_NBR p] ∧
      { t with regs := s.m.regs, egr := s.m.egr } = s.m := by
  have htaken : (s.m.macUp p && s.m.resolves p ip && s.m.resolveDue p ip) = true := by rw [hup, hnamed, hdue]; rfl
  have hnbrs : ((s.m.transmit p (.resolve ip)).neighboursSet p (refreshed (s.m.nbrs p) ip answer s.m.time.count)).nbrs p =
      refreshed (s.m.nbrs p) ip answer s.m.time.count := sget_sput_same _ _ _ _
  refine ⟨(s.m.transmit p (.resolve ip)).neighboursSet p (refreshed (s.m.nbrs p) ip answer s.m.time.count),
    (act_live live (·.refreshNeighbour p ip answer)).trans (congrArg (fun t => Host.Outcome.next { s with m := t }) (if_pos htaken)),
    hnbrs, fun o ho => sget_sput_ne _ ho _ _, rfl, ?_, Mach.regsBut.setReg (fun _ _ => rfl) (by simp) _, rfl⟩
  rw [hnbrs]
  exact Mach.reg_setReg_same _ _ _

end

/-- Settles O18: datagrams by what their MAC counts and their stream decodes, and each other happening by its own lemma above. -/
theorem ethernetPorts : Obligations.EthernetPorts := by
  refine ⟨fun s p d live => ⟨fun hup hmessage => ⟨?_, ?_, ?_, fun hintact hsupported hplain => ⟨?_, fun st hsel => ⟨?_, ?_, ?_⟩⟩⟩, ?_⟩,
    fun s p live => ⟨?_, ?_, ?_, ?_⟩⟩
  · exact fun hbroken => exec_datagramRx_counts live hup hmessage (Mach.frameIn_broken hbroken)
  · exact exec_datagramRx_unsupported live hup hmessage
  · exact exec_datagramRx_ptp live hup hmessage
  · exact exec_datagramRx_unselected live hup hmessage hintact hsupported hplain
  · exact fun sc hscan => exec_datagramRx_scan live hup hmessage hintact hsupported hplain hsel hscan
  · exact fun sc hscan howned hready hkept hroom =>
      exec_datagramRx_item live hup hmessage hintact hsupported hplain hsel hscan howned hready hkept hroom
  · exact exec_datagramRx_malformed live hup hmessage hintact hsupported hplain hsel
  · exact fun st b dly tt hmin hover => exec_mapBlockEnd live hmin hover
  · exact fun quanta hup hon => exec_pauseRx live hup hon
  · exact exec_macLinkChange live
  · exact fun r hup hrespond hfamily hours => ⟨_, exec_netRequestRx live hup hrespond hfamily hours, rfl, rfl⟩
  · exact fun ip answer hup hnamed hdue => exec_neighbourRefresh live hup hnamed hdue

end Sys2Proof.Machine
end

section
/-! The host queues as one clock leaves them (R101, R108): the queue after the swap, its event register, and what neither reaches. -/

namespace Sys2Proof.Machine

/-! ## One host queue changed -/

section
variable (m : Mach) (h : HostQ) (q : Tbq)

@[simp] theorem Mach.hostq_setHostq_same : (m.setHostq h q).hostq h = q := by cases h <;> rfl

@[simp] theorem Mach.setHostq_mem : (m.setHostq h q).mem = m.mem := by cases h <;> rfl

@[simp] theorem Mach.setHostq_reg (a : Nat) : (m.setHostq h q).reg a = m.reg a := by cases h <;> rfl

end

/-- Where a host queue lies is a matter of the registers alone (R111). -/
theorem Mach.hqGeom_congr {m t : Mach} (hregs : t.regs = m.regs) (h : HostQ) : t.hqGeom h = m.hqGeom h := by
  have hreg : ∀ a, t.reg a = m.reg a := fun a => by rw [Mach.reg, hregs]; rfl
  simp only [Mach.hqGeom, Mach.fld, Mach.rbit, hreg]

/-! ## The end of a clock (R101, R108) -/

/-- The bit of the event that an empty queue raises as it comes to hold data. -/
def readyBit (was q : Tbq) : Nat := if was.empty && !q.empty then 1 else 0

theorem readyBit_filled {was q : Tbq} (hwas : was.rd = was.l) (hq : q.rd ≠ q.l) : readyBit was q = 1 := by
  simp [readyBit, Tbq.empty, hwas, hq]

theorem readyBit_quiet {was q : Tbq} (hstays : was.rd ≠ was.l ∨ q.rd = q.l) : readyBit was q = 0 := by
  rcases hstays with hwas | hq
  · simp [readyBit, Tbq.empty, hwas]
  · simp [readyBit, Tbq.empty, hq]

/-- The queue with the one evaluation of R101. -/
def Mach.hqSettled (m : Mach) (h : HostQ) (q : Tbq) : Tbq := q.settle (m.hqGeom h) q.recordOpen

section
variable (m : Mach) (h : HostQ) (was q : Tbq)

theorem Mach.hqUpdate_eq (events : Nat) : m.hqUpdate h was q events =
    if events + readyBit was (m.hqSettled h q) = 0 then m.setHostq h (m.hqSettled h q)
    else (m.setHostq h (m.hqSettled h q)).raise (Reg.Q_EVENT (hqWindow h)) (events + readyBit was (m.hqSettled h q)) := rfl

/-- The queue is set, and at most its event register is written beside it. -/
theorem Mach.hqUpdate_cases (events : Nat) : m.hqUpdate h was q events = m.setHostq h (m.hqSettled h q) ∨
    ∃ w, m.hqUpdate h was q events = (m.setHostq h (m.hqSettled h q)).setReg (Reg.Q_EVENT (hqWindow h)) w := by
  rw [Mach.hqUpdate_eq]
  split
  · exact .inl rfl
  · exact .inr ⟨_, rfl⟩

theorem Mach.hqUpdate_hostq (events : Nat) : (m.hqUpdate h was q events).hostq h = m.hqSettled h q := by
  rcases m.hqUpdate_cases h was q events with heq | ⟨w, heq⟩
  · rw [heq, Mach.hostq_setHostq_same]
  · rw [heq]
    exact Mach.hostq_setHostq_same m h _

theorem Mach.hqUpdate_regsBut (events : Nat) : m.regsBut (m.hqUpdate h was q events) [Reg.Q_EVENT (hqWindow h)] := by
  have hset : m.regsBut (m.setHostq h (m.hqSettled h q)) [Reg.Q_EVENT (hqWindow h)] := fun a _ => m.setHostq_reg h _ a
  rcases m.hqUpdate_cases h was q events with heq | ⟨w, heq⟩
  · rw [heq]
    exact hset
  · rw [heq]
    exact hset.setReg (by simp) w

theorem Mach.hqUpdate_rest (events : Nat) :
    { (m.hqUpdate h was q events).setHostq h (m.hostq h) with regs := m.regs } = m := by
  rcases m.hqUpdate_cases h was q events with heq | ⟨w, heq⟩ <;> rw [heq] <;> cases h <;> rfl

theorem Mach.hqUpdate_byte (events x : Nat) : (m.hqUpdate h was q events).byte x = m.byte x := by
  have hmem : (m.hqUpdate h was q events).mem = m.mem := by
    rcases m.hqUpdate_cases h was q events with heq | ⟨w, heq⟩ <;> rw [heq] <;> exact m.setHostq_mem h _
  rw [Mach.byte, hmem]
  rfl

theorem Mach.hqUpdate_stage (events n : Nat) : (m.hqUpdate h was q events).stage n = m.stage n := by
  rcases m.hqUpdate_cases h was q events with heq | ⟨w, heq⟩ <;> rw [heq] <;> cases h <;> rfl

/-- An event beside ready shows. -/
theorem Mach.hqUpdate_event {events n : Nat} (hn : n < 16) (hbit : ∀ r, r ≤ 1 → (events + r).testBit n = true) :
    (m.hqUpdate h was q events).rbit (Reg.Q_EVENT (hqWindow h)) n = true := by
  have hready : readyBit was (m.hqSettled h q) ≤ 1 := by
    unfold readyBit
    split <;> decide
  have hset := hbit _ hready
  rw [Mach.hqUpdate_eq, if_neg fun hzero => ?_]
  · exact Mach.raise_bit _ _ _ n hn hset
  · rw [hzero, Nat.zero_testBit] at hset
    exact Bool.false_ne_true hset

end

/-- From m to t host queue h has become q with the one evaluation of R101 after it; an empty queue that comes to hold data has raised
ready, and nothing else has changed. -/
def Mach.hqEnds (m t : Mach) (h : HostQ) (q : Tbq) : Prop :=
  t.hostq h = q.settle (m.hqGeom h) q.recordOpen ∧ { t.setHostq h (m.hostq h) with regs := m.regs } = m ∧
    m.regsBut t [Reg.Q_EVENT (hqWindow h)] ∧
    ((m.hostq h).rd = (m.hostq h).l → (t.hostq h).rd ≠ (t.hostq h).l → t.rbit (Reg.Q_EVENT (hqWindow h)) 0 = true) ∧
    ((m.hostq h).rd ≠ (m.hostq h).l ∨ (t.hostq h).rd = (t.hostq h).l →
      t.reg (Reg.Q_EVENT (hqWindow h)) = m.reg (Reg.Q_EVENT (hqWindow h)))

theorem Mach.hqUpdate_ends (m : Mach) (h : HostQ) (q : Tbq) : m.hqEnds (m.hqUpdate h (m.hostq h) q 0) h q := by
  refine ⟨m.hqUpdate_hostq h _ q 0, m.hqUpdate_rest h _ q 0, m.hqUpdate_regsBut h _ q 0, fun hwas hheld => ?_, fun hstays => ?_⟩
  · rw [Mach.hqUpdate_hostq] at hheld
    rw [Mach.hqUpdate_eq, readyBit_filled hwas hheld, if_neg (by decide)]
    exact Mach.raise_bit _ _ _ 0 (by decide) (by decide)
  · rw [Mach.hqUpdate_hostq] at hstays
    rw [Mach.hqUpdate_eq, readyBit_quiet hstays, if_pos rfl, Mach.setHostq_reg]

end Sys2Proof.Machine
end

section
/-! Q_CMD (R102, R105 to R108): which of its bits are taken, and what each makes of the queue. -/

namespace Sys2Proof.Machine

/-! ## The bits of Q_CMD -/

/-- The queue after the bits of one write of Q_CMD, in the order of R108. -/
def Tbq.commanded (q : Tbq) (v : Word) : Tbq :=
  let q := if v.bit 0 then { q with underrun := false } else q
  let q := if v.bit 1 then q.doMark else q
  let q := if v.bit 2 then q.release else q
  let q := if v.bit 3 then q.rewind else q
  if v.bit 4 then q.hostFlush else q

/-- A flush ends the open record and is pending; without one it is ignored (R102, R280). -/
theorem Tbq.hostFlush_eq (q : Tbq) : q.hostFlush =
    if q.recordOpen then { q with fillEnds := q.fillEnds ++ [q.f], flushPending := true } else q := by
  by_cases hopen : q.recordOpen = true
  · have hsome : q.f ≠ 0 := by
      rw [Tbq.recordOpen, decide_eq_true_eq] at hopen
      omega
    rw [Tbq.hostFlush, if_pos hopen, if_pos hopen, Tbq.flush, if_neg hsome]
  · rw [Tbq.hostFlush, if_neg hopen, if_neg hopen]

section
variable (m : Mach) (h : HostQ) (v : Word)

/-- The bits are out of place: the host does not consume, or produce, here, or no end of a record more can be held. -/
def Mach.hqRefuses (m : Mach) (h : HostQ) (v : Word) : Bool :=
  (v.field 1 3 != 0 && !m.hqConsumer h) || (v.bit 4 && !m.hqProducer h) ||
    (v.bit 4 && (m.hostq h).recordOpen && decide (64 ≤ (m.hostq h).fillEnds.length))

theorem Mach.hqCommand_eq : m.hqCommand h v =
    if m.hqRefuses h v then m.bad else (false, m.hqUpdate h (m.hostq h) ((m.hostq h).commanded v) 0) := rfl

theorem Mach.hqRefuses_consumer (hv : v.bit 4 = false) : m.hqRefuses h v = (v.field 1 3 != 0 && !m.hqConsumer h) := by
  rw [Mach.hqRefuses, hv, Bool.false_and, Bool.false_and, Bool.false_and, Bool.or_false, Bool.or_false]

theorem Mach.hqRefuses_flush :
    m.hqRefuses h 0x10 = (!m.hqProducer h || ((m.hostq h).recordOpen && decide (64 ≤ (m.hostq h).fillEnds.length))) := by
  have hflush : (0x10 : Word).bit 4 = true := by decide
  have hreads : ((0x10 : Word).field 1 3 != 0) = false := by decide
  rw [Mach.hqRefuses, hflush, hreads, Bool.false_and, Bool.false_or, Bool.true_and, Bool.true_and]

/-- Q_CMD is a register of write-1 bits, so a write of it is refused only while a posted write to its block waits. -/
theorem Mach.writeCause_qCmd (hfree : m.blockPosted (Reg.Q_CMD (hqWindow h)) = false) :
    m.writeCause (Reg.Q_CMD (hqWindow h)) v = none := by
  have hrow : ((rowAt (Reg.Q_CMD (hqWindow h))).map fun x => x.1.acc) = some .w1p := by cases h <;> decide
  obtain ⟨⟨r, j⟩, hr, hacc⟩ := Option.map_eq_some_iff.mp hrow
  simp only at hacc
  simp [Mach.writeCause, hr, hfree, hacc]

end

/-! ## The commands -/

section
variable {s : State} {h : HostQ} (live : s.m.live = true) (hfree : s.m.blockPosted (Reg.Q_CMD (hqWindow h)) = false)
variable {c : Instr} {v : Word} (harm : exec c s = act s (·.qCmd h v))
include live hfree harm

theorem exec_qCmd_taken (hmay : s.m.hqRefuses h v = false) :
    ∃ t, exec c s = .next { s with m := t } ∧ s.m.hqEnds t h ((s.m.hostq h).commanded v) := by
  have hwrite : s.m.qCmd h v = s.m.hqUpdate h (s.m.hostq h) ((s.m.hostq h).commanded v) 0 :=
    Mach.arriveWith_taken (s.m.writeCause_qCmd h v hfree) (by rw [Mach.hqCommand_eq, hmay]; rfl)
  exact ⟨_, harm.trans (act_live live _), by rw [hwrite]; exact s.m.hqUpdate_ends h _⟩

theorem exec_qCmd_refused (hno : s.m.hqRefuses h v = true) :
    ∃ t, exec c s = .next { s with m := t } ∧ s.m.busErr t (Reg.Q_CMD (hqWindow h)) 4 := by
  have hwrite : s.m.qCmd h v = s.m.refuse (Reg.Q_CMD (hqWindow h)) :=
    Mach.arriveWith_bad (s.m.writeCause_qCmd h v hfree) (by rw [Mach.hqCommand_eq, hno]; rfl)
  exact ⟨_, harm.trans (act_live live _), by rw [hwrite]; exact s.m.refuse_busErr _⟩

/-- A bit for the consumer alone (MARK, RELEASE, REWIND) where the host consumes, and any bit that asks for nothing of the sides. -/
theorem exec_qCmd_consumer (hv : v.bit 4 = false) (hside : v.field 1 3 = 0 ∨ s.m.hqConsumer h = true) :
    ∃ t, exec c s = .next { s with m := t } ∧ s.m.hqEnds t h ((s.m.hostq h).commanded v) := by
  refine exec_qCmd_taken live hfree harm ?_
  rw [Mach.hqRefuses_consumer _ _ _ hv]
  rcases hside with hnone | hconsumer
  · rw [hnone]; rfl
  · rw [hconsumer, Bool.not_true, Bool.and_false]

/-- A bit for the consumer where the host does not consume. -/
theorem exec_qCmd_outOfPlace (hv : v.bit 4 = false) (hbits : v.field 1 3 ≠ 0) (hside : s.m.hqConsumer h = false) :
    ∃ t, exec c s = .next { s with m := t } ∧ s.m.busErr t (Reg.Q_CMD (hqWindow h)) 4 := by
  refine exec_qCmd_refused live hfree harm ?_
  rw [Mach.hqRefuses_consumer _ _ _ hv, hside, Bool.not_false, Bool.and_true]
  exact bne_iff_ne.mpr hbits

end

section
variable {s : State} {h : HostQ} (live : s.m.live = true) (hfree : s.m.blockPosted (Reg.Q_CMD (hqWindow h)) = false)
include live hfree

theorem exec_flush_taken (hproducer : s.m.hqProducer h = true)
    (hfits : (s.m.hostq h).recordOpen = true → (s.m.hostq h).fillEnds.length < 64) :
    ∃ t, exec (.flush h) s = .next { s with m := t } ∧ s.m.hqEnds t h (s.m.hostq h).hostFlush := by
  refine exec_qCmd_taken live hfree (v := 0x10) rfl ?_
  rw [Mach.hqRefuses_flush, hproducer, Bool.not_true, Bool.false_or, Bool.and_eq_false_imp]
  exact fun hopen => decide_eq_false (Nat.not_le.mpr (hfits hopen))

theorem exec_flush_refused (hproducer : s.m.hqProducer h = false) :
    ∃ t, exec (.flush h) s = .next { s with m := t } ∧ s.m.busErr t (Reg.Q_CMD (hqWindow h)) 4 :=
  exec_qCmd_refused live hfree (v := 0x10) rfl (by rw [Mach.hqRefuses_flush, hproducer]; rfl)

end

end Sys2Proof.Machine
end

section
/-! Q_RDATA and Q_WDATA (R103, R104, R280): words that the host takes from a queue, and words that it brings. -/

namespace Sys2Proof.Machine

/-! ## Memory read back -/

@[simp] theorem Mach.length_bytes (m : Mach) (a n : Nat) : (m.bytes a n).length = n := by
  induction n generalizing a with
  | zero => rfl
  | succ n ih => rw [Mach.bytes, List.length_cons, ih]

/-- The whole of what has just been written. -/
theorem Mach.bytes_setBytes_all (m : Mach) (a : Nat) (l : List Byte) : (m.setBytes a l).bytes a l.length = l := by
  have hread := m.bytes_setBytes (l := l) (k := 0) (n := l.length) (by omega) a
  rwa [Nat.add_zero, List.drop_zero, List.take_length] at hread

/-- The bytes of a word in memory. -/
theorem Mach.leBytes_word (m : Mach) (a : Nat) : leBytes 4 (m.word a).toNat = m.bytes a 4 := wordBytes_ofLe (m.length_bytes a 4)

theorem Mach.setBytes_regs (m : Mach) (a : Nat) (l : List Byte) : (m.setBytes a l).regs = m.regs := by rw [m.setBytes_eq]

theorem Mach.setBytes_hostq (m : Mach) (a : Nat) (l : List Byte) (h : HostQ) : (m.setBytes a l).hostq h = m.hostq h := by
  rw [m.setBytes_eq]
  cases h <;> rfl

/-! ## Bus errors that are not deferred (R382) -/

/-- A bus error that the host sees at once is counted, raises its event, is captured where capture is armed, and changes nothing else. -/
theorem Mach.busError_atOnce (m : Mach) (a code opcode index : Nat) :
    { m.busError false a code opcode index with regs := m.regs } = m ∧
      (m.busError false a code opcode index).reg Reg.HIF_ERR_COUNT = m.reg Reg.HIF_ERR_COUNT + 1 ∧
      (m.busError false a code opcode index).rbit Reg.HIF_EVENT 0 = true ∧
      m.regsBut (m.busError false a code opcode index) [Reg.HIF_ERR_COUNT, Reg.HIF_ERR_ADDR, Reg.HIF_ERR_CAUSE, Reg.HIF_EVENT] := by
  obtain ⟨hrest, hport⟩ := m.busError_rest false a code opcode index
  have hcounted : ∀ r, r ≠ Reg.HIF_ERR_ADDR → r ≠ Reg.HIF_ERR_CAUSE →
      (m.busError false a code opcode index).reg r = ((m.incReg Reg.HIF_ERR_COUNT).raise Reg.HIF_EVENT 0x1).reg r := fun r h1 h2 => by
    rw [Mach.busError, if_neg Bool.false_ne_true, if_neg Bool.false_ne_true]
    split
    · rfl
    · rw [Mach.reg_setReg_ne _ h2, Mach.reg_setReg_ne _ h1]
  refine ⟨?_, ?_, ?_, m.busError_regs false a code opcode index⟩
  · rw [if_neg Bool.false_ne_true] at hport
    generalize m.busError false a code opcode index = t at *
    rw [← hport] at hrest
    exact hrest
  · rw [hcounted _ (by decide) (by decide), Mach.raise_reg, if_neg (by decide), Mach.incReg_reg, if_pos rfl]
    rfl
  · exact (Mach.rbit_congr (hcounted _ (by decide) (by decide)) 0).trans (Mach.raise_bit _ _ _ 0 (by decide) (by decide))

/-! ## Reads (R104) -/

section
variable (m : Mach) (h : HostQ)

/-- The queue that has given the word at RD. -/
def Mach.hqTaken (m : Mach) (h : HostQ) : Mach :=
  m.setHostq h { m.hostq h with rd := (m.hostq h).rd + 4, lastRead := m.word ((m.hostq h).readAt (m.hqGeom h)) }

theorem Mach.hqRead_word (hdata : (m.hostq h).rd ≠ (m.hostq h).l) : m.hqRead h =
    (m.word ((m.hostq h).readAt (m.hqGeom h)), if h = .result then (m.hqTaken h).bump 504 4 else m.hqTaken h) :=
  if_neg (by rwa [Tbq.empty, decide_eq_true_eq])

theorem Mach.hqRead_empty (hempty : (m.hostq h).rd = (m.hostq h).l) : m.hqRead h =
    ((m.hostq h).lastRead, (m.setHostq h { m.hostq h with underrun := true }).raise (Reg.Q_EVENT (hqWindow h)) 2) :=
  if_pos (by rwa [Tbq.empty, decide_eq_true_eq])

theorem Mach.qRead_consumer (hside : m.hqConsumer h = true) :
    m.qRead h = (m.hqRead h).2.onPort fun p => { p with answer := { p.answer with data := leBytes 4 (m.hqRead h).1.toNat } } := by
  rw [Mach.qRead, if_pos hside]

theorem Mach.qRead_other (hside : m.hqConsumer h = false) :
    m.qRead h = m.busError false (Reg.Q_RDATA (hqWindow h) 0) 0x04 0x20 0 := by
  rw [Mach.qRead, hside]
  rfl

/-- The count of words that a read of the result queue adds to is all that it changes beside the queue. -/
theorem Mach.hqTaken_counted : ∃ o, (if h = .result then (m.hqTaken h).bump 504 4 else m.hqTaken h) = { m.hqTaken h with obs := o } := by
  split
  · refine ⟨((m.hqTaken h).bump 504 4).obs, ?_⟩
    exact (congrArg (fun x : Mach => { x with obs := ((m.hqTaken h).bump 504 4).obs }) ((m.hqTaken h).bump_eq 504 4).2 :)
  · exact ⟨_, rfl⟩

end

section
variable {s : State} {h : HostQ} (live : s.m.live = true)
include live

theorem exec_qRead_word (hside : s.m.hqConsumer h = true) (hdata : (s.m.hostq h).rd ≠ (s.m.hostq h).l) :
    ∃ t, exec (.qRead h) s = .next { s with m := t } ∧
      t.port.answer.data = s.m.bytes ((s.m.hostq h).readAt (s.m.hqGeom h)) 4 ∧
      t.hostq h = { s.m.hostq h with rd := (s.m.hostq h).rd + 4, lastRead := s.m.word ((s.m.hostq h).readAt (s.m.hqGeom h)) } ∧
      { t.setHostq h (s.m.hostq h) with port := s.m.port, obs := s.m.obs } = s.m := by
  obtain ⟨o, hcounted⟩ := s.m.hqTaken_counted h
  refine ⟨s.m.qRead h, act_live live (·.qRead h), ?_, ?_, ?_⟩ <;>
    rw [Mach.qRead_consumer _ _ hside, Mach.hqRead_word _ _ hdata, hcounted]
  · exact s.m.leBytes_word _
  · cases h <;> rfl
  · cases h <;> rfl

theorem exec_qRead_empty (hside : s.m.hqConsumer h = true) (hempty : (s.m.hostq h).rd = (s.m.hostq h).l) :
    ∃ t, exec (.qRead h) s = .next { s with m := t } ∧ t.port.answer.data = leBytes 4 (s.m.hostq h).lastRead.toNat ∧
      t.hostq h = { s.m.hostq h with underrun := true } ∧ t.rbit (Reg.Q_EVENT (hqWindow h)) 1 = true ∧
      s.m.regsBut t [Reg.Q_EVENT (hqWindow h)] ∧
      { t.setHostq h (s.m.hostq h) with port := s.m.port, regs := s.m.regs } = s.m := by
  refine ⟨s.m.qRead h, act_live live (·.qRead h), ?_⟩
  rw [Mach.qRead_consumer _ _ hside, Mach.hqRead_empty _ _ hempty]
  refine ⟨rfl, by cases h <;> rfl, ?_, ?_, by cases h <;> rfl⟩
  · rw [Mach.rbit, Mach.onPort_reg]
    exact Mach.raise_bit _ _ _ 1 (by decide) (by decide)
  · exact Mach.regsBut.setReg (fun a _ => s.m.setHostq_reg h _ a) (by simp) _

/-- R382: a read at a queue that the host does not consume is a bus error that shows at once. -/
theorem exec_qRead_refused (hside : s.m.hqConsumer h = false) :
    ∃ t, exec (.qRead h) s = .next { s with m := t } ∧ { t with regs := s.m.regs } = s.m ∧
      t.reg Reg.HIF_ERR_COUNT = s.m.reg Reg.HIF_ERR_COUNT + 1 ∧ t.rbit Reg.HIF_EVENT 0 = true ∧
      s.m.regsBut t [Reg.HIF_ERR_COUNT, Reg.HIF_ERR_ADDR, Reg.HIF_ERR_CAUSE, Reg.HIF_EVENT] := by
  refine ⟨_, act_live live (·.qRead h), ?_⟩
  rw [Mach.qRead_other _ _ hside]
  exact s.m.busError_atOnce _ _ _ _

end

/-! ## Writes (R103, R280) -/

section
variable (m : Mach) (h : HostQ)

/-- The queue as a write finds it, once a swap that can take place has taken place. -/
def Mach.hqNow (m : Mach) (h : HostQ) : Tbq := m.hqSettled h (m.hostq h)

/-- How far the open record may reach: to the end of the basin, and no further than the stage queue it is for can hold. -/
def Mach.hqLimit (m : Mach) (h : HostQ) : Nat :=
  match m.injectTarget with
  | some (_, c) => min (m.hqGeom h).size ((m.hqNow h).openAt + c.basin)
  | none => (m.hqGeom h).size

/-- The queue after a word taken, and after one for which the open record has no room. -/
def Tbq.wordTaken (q : Tbq) : Tbq := { q with f := q.f + 4, waiting := false }
def Tbq.discarded (q : Tbq) : Tbq := { q with f := q.openAt, drops := q.drops + 1, waiting := true }

theorem Mach.hqWrite_eq (v : Word) (hside : m.hqProducer h = true) : m.hqWrite h v =
    if (m.hqNow h).f + 4 ≤ m.hqLimit h then
      (false, (m.setWord ((m.hqNow h).fillAt (m.hqGeom h)) v).hqUpdate h (m.hostq h) (m.hqNow h).wordTaken 0)
    else (true, m.hqDiscard h) := by
  rw [Mach.hqWrite, hside]
  rfl

theorem Mach.qWdata_eq (v : Word) (hfree : m.blockPosted (Reg.Q_WDATA (hqWindow h)) = false) : m.qWdata h v =
    if (m.hqWrite h v).1 then (m.hqWrite h v).2.refuse (Reg.Q_WDATA (hqWindow h)) else (m.hqWrite h v).2 := by
  rw [Mach.qWdata, hfree]
  rfl

end

section
variable {s : State} {h : HostQ} (live : s.m.live = true) (hfree : s.m.blockPosted (Reg.Q_WDATA (hqWindow h)) = false) (v : Word)
include live hfree

theorem exec_qWdataWrite_taken (hside : s.m.hqProducer h = true) (hroom : (s.m.hqNow h).f + 4 ≤ s.m.hqLimit h) :
    ∃ t, exec (.qWdataWrite h v) s = .next { s with m := t } ∧
      t.bytes ((s.m.hqNow h).fillAt (s.m.hqGeom h)) 4 = leBytes 4 v.toNat ∧
      (∀ x, x < (s.m.hqNow h).fillAt (s.m.hqGeom h) ∨ (s.m.hqNow h).fillAt (s.m.hqGeom h) + 4 ≤ x → t.byte x = s.m.byte x) ∧
      t.hostq h = s.m.hqSettled h (s.m.hqNow h).wordTaken ∧
      s.m.regsBut t [Reg.Q_EVENT (hqWindow h)] ∧ { t.setHostq h (s.m.hostq h) with mem := s.m.mem, regs := s.m.regs } = s.m := by
  have hwrite : s.m.qWdata h v = (s.m.setBytes ((s.m.hqNow h).fillAt (s.m.hqGeom h)) (leBytes 4 v.toNat)).hqUpdate h (s.m.hostq h)
      (s.m.hqNow h).wordTaken 0 := by
    rw [Mach.qWdata_eq _ _ _ hfree, Mach.hqWrite_eq _ _ _ hside, if_pos hroom]
    rfl
  refine ⟨s.m.qWdata h v, act_live live (·.qWdata h v), ?_⟩
  rw [hwrite]
  generalize (s.m.hqNow h).fillAt (s.m.hqGeom h) = a
  generalize (s.m.hqNow h).wordTaken = q
  refine ⟨?_, fun x hx => ?_, ?_, fun r hr => ?_, ?_⟩
  · rw [Mach.bytes_congr fun i _ => Mach.hqUpdate_byte _ h _ q 0 (a + i)]
    exact s.m.bytes_setBytes_all a (leBytes 4 v.toNat)
  · rw [Mach.hqUpdate_byte]
    exact s.m.setBytes_byte_out _ a x (by rwa [length_leBytes])
  · rw [Mach.hqUpdate_hostq, Mach.hqSettled, Mach.hqGeom_congr (s.m.setBytes_regs _ _)]
    rfl
  · exact (Mach.hqUpdate_regsBut _ h _ q 0 r hr).trans (s.m.setBytes_reg _ a r)
  · have hrest := (s.m.setBytes a (leBytes 4 v.toNat)).hqUpdate_rest h (s.m.hostq h) q 0
    rw [Mach.setBytes_hostq] at hrest
    have hback := congrArg (fun x : Mach => { x with mem := s.m.mem, regs := s.m.regs }) hrest
    rw [s.m.setBytes_eq] at hback ⊢
    exact hback

/-- A word for which the open record has no room: the record is discarded whole, counted as a drop, and the write is refused. -/
theorem exec_qWdataWrite_full (hside : s.m.hqProducer h = true) (hfull : s.m.hqLimit h < (s.m.hqNow h).f + 4) :
    ∃ u : Mach, exec (.qWdataWrite h v) s = .next { s with m := u.refuse (Reg.Q_WDATA (hqWindow h)) } ∧
      u.hostq h = s.m.hqSettled h (s.m.hqNow h).discarded ∧ u.rbit (Reg.Q_EVENT (hqWindow h)) 2 = true ∧
      s.m.regsBut u [Reg.Q_EVENT (hqWindow h)] ∧ { u.setHostq h (s.m.hostq h) with regs := s.m.regs } = s.m := by
  have hwrite : s.m.qWdata h v = (s.m.hqDiscard h).refuse (Reg.Q_WDATA (hqWindow h)) := by
    rw [Mach.qWdata_eq _ _ _ hfree, Mach.hqWrite_eq _ _ _ hside, if_neg (Nat.not_le.mpr hfull)]
    rfl
  have hdropped : ∀ r, r ≤ 1 → ((if (s.m.hostq h).waiting then 4 else 12) + r).testBit 2 = true := by
    intro r hr
    cases (s.m.hostq h).waiting <;> interval_cases r <;> decide
  exact ⟨s.m.hqDiscard h, (act_live live (·.qWdata h v)).trans (congrArg (fun t => Host.Outcome.next { s with m := t }) hwrite),
    s.m.hqUpdate_hostq h _ _ _, s.m.hqUpdate_event h _ _ (by decide) hdropped, s.m.hqUpdate_regsBut h _ _ _, s.m.hqUpdate_rest h _ _ _⟩

theorem exec_qWdataWrite_refused (hside : s.m.hqProducer h = false) :
    ∃ t, exec (.qWdataWrite h v) s = .next { s with m := t } ∧ s.m.busErr t (Reg.Q_WDATA (hqWindow h)) 4 := by
  have hwrite : s.m.qWdata h v = s.m.refuse (Reg.Q_WDATA (hqWindow h)) := by
    rw [Mach.qWdata_eq _ _ _ hfree, Mach.hqWrite, hside]
    rfl
  exact ⟨s.m.qWdata h v, act_live live (·.qWdata h v), by rw [hwrite]; exact s.m.refuse_busErr _⟩

end

/-- Settles O22: Q_CMD by the bits that are taken and what they make of the queue, reads and writes each by its own lemma above. -/
theorem hostQueueAccess : Obligations.HostQueueAccess := by
  refine ⟨fun s h live hfree => ⟨fun hside => ⟨?_, ?_, ?_⟩, fun hside => ⟨?_, ?_, ?_⟩, fun hside hfits => ?_, fun hside => ?_, ?_⟩,
    fun s h live hfree => ⟨?_, ?_, ?_, fun v hside hroom => ?_, fun v hside hfull => ?_, fun v hside => ?_⟩⟩
  · exact exec_qCmd_consumer live hfree (v := 0x2) rfl (by decide) (.inr hside)
  · exact exec_qCmd_consumer live hfree (v := 0x4) rfl (by decide) (.inr hside)
  · exact exec_qCmd_consumer live hfree (v := 0x8) rfl (by decide) (.inr hside)
  · exact exec_qCmd_outOfPlace live hfree (v := 0x2) rfl (by decide) (by decide) hside
  · exact exec_qCmd_outOfPlace live hfree (v := 0x4) rfl (by decide) (by decide) hside
  · exact exec_qCmd_outOfPlace live hfree (v := 0x8) rfl (by decide) (by decide) hside
  · rw [← Tbq.hostFlush_eq]
    exact exec_flush_taken live hfree hside hfits
  · exact exec_flush_refused live hfree hside
  · exact exec_qCmd_consumer live hfree (v := 0x1) rfl (by decide) (.inl (by decide))
  · exact exec_qRead_word live
  · exact exec_qRead_empty live
  · exact exec_qRead_refused live
  · exact exec_qWdataWrite_taken live hfree v hside hroom
  · exact exec_qWdataWrite_full live hfree v hside hfull
  · exact exec_qWdataWrite_refused live hfree v hside

end Sys2Proof.Machine
end

section
/-! Swaps that a command finds to take (R101), and the injection queue's records on their way into a stage queue (R280, R300). -/

namespace Sys2Proof.Machine

/-! ## Stage queues -/

@[simp] theorem Mach.stage_setStage_same (m : Mach) (n : Nat) (q : Tbq) : (m.setStage n q).stage n = q := sget_sput_same _ _ _ _

theorem Mach.stage_setStage_ne (m : Mach) {n o : Nat} (h : o ≠ n) (q : Tbq) : (m.setStage n q).stage o = m.stage o :=
  sget_sput_ne _ h _ _

section
variable (m : Mach) {n : Nat} {c : StageCfg} (hcfg : m.stageCfgOf n = some c) {data : List Byte}
include hcfg

theorem Mach.stagePush_fits (hfits : ((m.stage n).settle c.geom false).fits c.geom data.length = true) : m.stagePush n data =
    ((m.setBytes (((m.stage n).settle c.geom false).fillAt c.geom) data).setStage n
      (((m.stage n).settle c.geom false).put c.geom data.length), true) := by
  simp only [Mach.stagePush, hcfg, hfits, if_true]

theorem Mach.stagePush_waits (hfull : ((m.stage n).settle c.geom false).fits c.geom data.length = false) : m.stagePush n data =
    (m.setStage n { (m.stage n).settle c.geom false with waiting := true }, false) := by
  simp only [Mach.stagePush, hcfg, hfull, Bool.false_eq_true, if_false]

end

/-! ## Swaps (R101) -/

section
variable {s : State} (live : s.m.live = true)
include live

theorem exec_basinSwap_ingress (st : Fin 256) : ∃ t, exec (.basinSwap (.ingress st)) s = .next { s with m := t } ∧
    t.stream st = { s.m.stream st with
      q := if (s.m.stream st).q.canSwap (s.m.inqGeom st) true then (s.m.stream st).q.swap else (s.m.stream st).q } ∧
    (∀ o, o ≠ st.val → t.stream o = s.m.stream o) ∧ { t with streams := s.m.streams } = s.m :=
  ⟨_, act_live live (·.basinSwap (.ingress st)), s.m.stream_setStream_same st _, fun _ ho => s.m.stream_setStream_ne ho _, rfl⟩

theorem exec_basinSwap_stage {n : Fin 128} {c : StageCfg} (hcfg : s.m.stageCfgOf n = some c) :
    ∃ t, exec (.basinSwap (.stage n)) s = .next { s with m := t } ∧
      t.stage n = (if (s.m.stage n).canSwap c.geom false then (s.m.stage n).swap else s.m.stage n) ∧
      (∀ o, o ≠ n.val → t.stage o = s.m.stage o) ∧ { t with stageQ := s.m.stageQ } = s.m := by
  have hswap : s.m.basinSwap (.stage n) = s.m.setStage n ((s.m.stage n).settle c.geom false) := by simp only [Mach.basinSwap, hcfg]
  refine ⟨s.m.basinSwap (.stage n), act_live live (·.basinSwap (.stage n)), ?_⟩
  rw [hswap]
  exact ⟨s.m.stage_setStage_same n _, fun o ho => s.m.stage_setStage_ne ho _, rfl⟩

theorem exec_basinSwap_host {h : HostQ} {r : QRef} (href : s.m.basinSwap r = s.m.hqUpdate h (s.m.hostq h) (s.m.hostq h) 0)
    (hcan : (s.m.hostq h).canSwap (s.m.hqGeom h) (s.m.hostq h).recordOpen = true) :
    ∃ t, exec (.basinSwap r) s = .next { s with m := t } ∧ t.hostq h = (s.m.hostq h).swap ∧
      s.m.regsBut t [Reg.Q_EVENT (hqWindow h)] ∧ { t.setHostq h (s.m.hostq h) with regs := s.m.regs } = s.m := by
  refine ⟨s.m.basinSwap r, act_live live (·.basinSwap r), ?_⟩
  rw [href]
  exact ⟨(s.m.hqUpdate_hostq h _ _ 0).trans (if_pos hcan), s.m.hqUpdate_regsBut h _ _ 0, s.m.hqUpdate_rest h _ _ 0⟩

end

/-! ## Forwarding (R280) -/

/-- The queue after a record of len bytes has gone; the basin is released after its last. -/
def Tbq.forwarded (q : Tbq) (len : Nat) : Tbq :=
  let q := { q with rd := q.rd + len }
  if q.nextRecord.isNone then { q with rl := q.l, rd := q.l } else q

theorem Mach.injectTarget_cfg {m : Mach} {n : Nat} {c : StageCfg} (h : m.injectTarget = some (n, c)) : m.stageCfgOf n = some c := by
  obtain ⟨k, -, hk⟩ := Option.bind_eq_some_iff.mp h
  obtain ⟨d, hd, heq⟩ := Option.map_eq_some_iff.mp hk
  obtain ⟨rfl, rfl⟩ := Prod.mk.inj heq
  exact hd

section
variable {s : State} (live : s.m.live = true) {n : Nat} {c : StageCfg} {len : Nat} (htarget : s.m.injectTarget = some (n, c))
  (hnext : s.m.injectQ.nextRecord = some len)
include htarget hnext

theorem Mach.injectForward_eq : s.m.injectForward =
    if (s.m.stagePush n (s.m.bytes (s.m.injectQ.readAt (s.m.hqGeom .inject)) len)).2 then
      (s.m.stagePush n (s.m.bytes (s.m.injectQ.readAt (s.m.hqGeom .inject)) len)).1.hqUpdate .inject s.m.injectQ (s.m.injectQ.forwarded len) 0
    else (s.m.stagePush n (s.m.bytes (s.m.injectQ.readAt (s.m.hqGeom .inject)) len)).1 := by
  simp only [Mach.injectForward, htarget, hnext]
  rfl

include live

theorem exec_injectionForward_fits (hfits : ((s.m.stage n).settle c.geom false).fits c.geom len = true) :
    ∃ t, exec .injectionForward s = .next { s with m := t } ∧
      t.stage n = ((s.m.stage n).settle c.geom false).put c.geom len ∧
      t.bytes (((s.m.stage n).settle c.geom false).fillAt c.geom) len = s.m.bytes (s.m.injectQ.readAt (s.m.hqGeom .inject)) len ∧
      (∀ x, x < ((s.m.stage n).settle c.geom false).fillAt c.geom ∨
        ((s.m.stage n).settle c.geom false).fillAt c.geom + len ≤ x → t.byte x = s.m.byte x) ∧
      t.injectQ = s.m.hqSettled .inject (s.m.injectQ.forwarded len) ∧
      s.m.regsBut t [Reg.Q_EVENT Reg.HIQ] ∧ (∀ o, o ≠ n → t.stage o = s.m.stage o) ∧
      { t with mem := s.m.mem, regs := s.m.regs, stageQ := s.m.stageQ, injectQ := s.m.injectQ } = s.m := by
  refine ⟨s.m.injectForward, act_live live Mach.injectForward, ?_⟩
  rw [Mach.injectForward_eq htarget hnext]
  have hlen : (s.m.bytes (s.m.injectQ.readAt (s.m.hqGeom .inject)) len).length = len := s.m.length_bytes _ _
  generalize s.m.bytes (s.m.injectQ.readAt (s.m.hqGeom .inject)) len = data at *
  subst hlen
  rw [s.m.stagePush_fits (Mach.injectTarget_cfg htarget) hfits, if_pos rfl]
  generalize ((s.m.stage n).settle c.geom false).fillAt c.geom = a
  generalize ((s.m.stage n).settle c.geom false).put c.geom data.length = dest
  generalize s.m.injectQ.forwarded data.length = q
  dsimp only
  refine ⟨?_, ?_, fun x hx => ?_, ?_, fun r hr => ?_, fun o ho => ?_, ?_⟩
  · rw [Mach.hqUpdate_stage, Mach.stage_setStage_same]
  · rw [Mach.bytes_congr fun i _ => (Mach.hqUpdate_byte _ .inject _ q 0 (a + i)).trans (Mach.setStage_byte _ n dest (a + i))]
    exact s.m.bytes_setBytes_all a data
  · rw [Mach.hqUpdate_byte, Mach.setStage_byte]
    exact s.m.setBytes_byte_out data a x hx
  · refine (Mach.hqUpdate_hostq _ .inject _ q 0).trans ?_
    rw [Mach.hqSettled, Mach.hqGeom_congr (t := (s.m.setBytes a data).setStage n dest) (s.m.setBytes_regs a data)]
    rfl
  · exact (Mach.hqUpdate_regsBut _ .inject _ q 0 r hr).trans (s.m.setBytes_reg data a r)
  · rw [Mach.hqUpdate_stage, Mach.stage_setStage_ne _ ho, s.m.setBytes_eq]
    rfl
  · have hrest := Mach.hqUpdate_rest ((s.m.setBytes a data).setStage n dest) .inject s.m.injectQ q 0
    have hback := congrArg (fun x : Mach =>
      { x with mem := s.m.mem, regs := s.m.regs, stageQ := s.m.stageQ, injectQ := s.m.injectQ }) hrest
    rw [s.m.setBytes_eq] at hback ⊢
    exact hback

theorem exec_injectionForward_waits (hfull : ((s.m.stage n).settle c.geom false).fits c.geom len = false) :
    ∃ t, exec .injectionForward s = .next { s with m := t } ∧
      t.stage n = { (s.m.stage n).settle c.geom false with waiting := true } ∧
      (∀ o, o ≠ n → t.stage o = s.m.stage o) ∧ { t with stageQ := s.m.stageQ } = s.m := by
  have hpush := s.m.stagePush_waits (Mach.injectTarget_cfg htarget)
    (data := s.m.bytes (s.m.injectQ.readAt (s.m.hqGeom .inject)) len) (by rwa [Mach.length_bytes])
  refine ⟨s.m.injectForward, act_live live Mach.injectForward, ?_⟩
  rw [Mach.injectForward_eq htarget hnext, hpush, if_neg Bool.false_ne_true]
  exact ⟨s.m.stage_setStage_same n _, fun o ho => s.m.stage_setStage_ne ho _, rfl⟩

end

/-- Settles O23: each queue's swap, and a record that finds room in its stage queue or waits for it, by its own lemma above. -/
theorem queueSwapForward : Obligations.QueueSwapForward := by
  intro s live
  refine ⟨exec_basinSwap_ingress live, fun n c hcfg => exec_basinSwap_stage live hcfg, fun h hcan => ?_,
    fun n c len htarget hnext => ⟨?_, ?_⟩⟩
  · cases h with
    | result => exact exec_basinSwap_host live rfl hcan
    | inject => exact exec_basinSwap_host live rfl hcan
  · exact exec_injectionForward_fits live htarget hnext
  · exact exec_injectionForward_waits live htarget hnext

end Sys2Proof.Machine
end

section
/-! Fusion groups (R112 to R130): one group changed, the fires that are planned and cancelled with an instant (R74, R116), and an
instant scheduled. -/

namespace Sys2Proof.Machine

/-! ## One group changed -/

@[simp] theorem Mach.group_setGroup_same (m : Mach) (g : Nat) (x : Group) : (m.setGroup g x).group g = x := sget_sput_same _ _ _ _

theorem Mach.group_setGroup_ne (m : Mach) {g o : Nat} (h : o ≠ g) (x : Group) : (m.setGroup g x).group o = m.group o :=
  sget_sput_ne _ h _ _

theorem Mach.group_congr {m t : Mach} (h : t.groups = m.groups) (g : Nat) : t.group g = m.group g := by
  rw [Mach.group, h]
  rfl

/-! ## Fires (R74, R116) -/

/-- The counts of skipped fires. -/
def fireStats : List Nat := (List.range 8).map Reg.SNS_FSYNC_STAT

theorem fusReg_not_fireStat {a : Nat} (ha : 0x180000 ≤ a) : a ∉ fireStats := fun h => by
  obtain ⟨n, hn, rfl⟩ := List.mem_map.mp h
  rw [List.mem_range] at hn
  simp only [Reg.SNS_FSYNC_STAT] at ha
  omega

/-- From m to t nothing but the counts of skipped fires and what the ports hold has changed. -/
structure Mach.FiresOnly (m t : Mach) : Prop where
  reg : m.regsBut t fireStats
  rest : { t with regs := m.regs, ports := m.ports } = m

theorem Mach.FiresOnly.refl (m : Mach) : m.FiresOnly m := ⟨fun _ _ => rfl, rfl⟩

theorem Mach.FiresOnly.groups {m t : Mach} (h : m.FiresOnly t) : t.groups = m.groups := (congrArg Mach.groups h.rest :)

theorem Mach.planFires_only (m : Mach) (g : Nat) (tk : Word) : m.FiresOnly (m.planFires g tk) := by
  refine List.foldlRecOn (motive := m.FiresOnly) _ _ (.refl m) fun t h n hn => ?_
  dsimp only
  split
  · split
    · exact ⟨h.reg, h.rest⟩
    · exact ⟨h.reg.setReg (List.mem_map_of_mem hn) _, h.rest⟩
  · exact h

theorem Mach.cancelFires_ports (m : Mach) (g : Nat) (tk : Word) : { m.cancelFires g tk with ports := m.ports } = m := by
  refine List.foldlRecOn (motive := fun t : Mach => { t with ports := m.ports } = m) _ _ rfl fun t h n _ => ?_
  dsimp only
  split
  · exact h
  · exact h

/-! ## Changes of one group -/

/-- From m to t nothing but registers of l, group g and what the ports hold has changed. -/
structure Mach.GroupOnly (l : List Nat) (g : Nat) (m t : Mach) : Prop where
  reg : m.regsBut t l
  others : ∀ o, o ≠ g → t.group o = m.group o
  rest : { t with regs := m.regs, groups := m.groups, ports := m.ports } = m

theorem Mach.GroupOnly.refl (l : List Nat) (g : Nat) (m : Mach) : Mach.GroupOnly l g m m := ⟨fun _ _ => rfl, fun _ _ => rfl, rfl⟩

section
variable {l : List Nat} {g : Nat} {m t : Mach} (h : Mach.GroupOnly l g m t)
include h

theorem Mach.GroupOnly.setReg {a : Nat} (ha : a ∈ l) (v : Word) : Mach.GroupOnly l g m (t.setReg a v) :=
  ⟨h.reg.setReg ha v, h.others, h.rest⟩

theorem Mach.GroupOnly.setGroup (x : Group) : Mach.GroupOnly l g m (t.setGroup g x) :=
  ⟨h.reg, fun o ho => (t.group_setGroup_ne ho x).trans (h.others o ho), h.rest⟩

theorem Mach.GroupOnly.fires {u : Mach} (k : t.FiresOnly u) (hl : fireStats ⊆ l) : Mach.GroupOnly l g m u :=
  ⟨fun r hr => (k.reg r fun hin => hr (hl hin)).trans (h.reg r hr), fun o ho => (Mach.group_congr k.groups o).trans (h.others o ho),
    (congrArg (fun x : Mach => { x with regs := m.regs, groups := m.groups, ports := m.ports }) k.rest).trans h.rest⟩

theorem Mach.GroupOnly.ports {u : Mach} (k : { u with ports := t.ports } = t) : Mach.GroupOnly l g m u := by
  have hregs : u.regs = t.regs := (congrArg Mach.regs k :)
  have hgroups : u.groups = t.groups := (congrArg Mach.groups k :)
  refine ⟨fun r hr => Eq.trans ?_ (h.reg r hr), fun o ho => (Mach.group_congr hgroups o).trans (h.others o ho),
    (congrArg (fun x : Mach => { x with regs := m.regs, groups := m.groups, ports := m.ports }) k).trans h.rest⟩
  rw [Mach.reg, hregs]
  rfl

end

/-! ## Scheduling (R116) -/

/-- The group once the instant at Tk is scheduled. -/
def Group.scheduled (x : Group) (tk : BitVec 64) : Group :=
  { x with sched := x.sched ++ [{ k := x.nextK, tk := tk, before := x.latest }], nextK := x.nextK + 1, latest := some tk }

theorem Mach.schedule_fires (m : Mach) (g : Nat) (tk : BitVec 64) :
    (m.setGroup g ((m.group g).scheduled tk)).FiresOnly (m.schedule g tk) :=
  (m.setGroup g ((m.group g).scheduled tk)).planFires_only g (tk.setWidth 32)

theorem Mach.schedule_group (m : Mach) (g : Nat) (tk : BitVec 64) : (m.schedule g tk).group g = (m.group g).scheduled tk :=
  (Mach.group_congr (m.schedule_fires g tk).groups g).trans (m.group_setGroup_same g _)

theorem Mach.GroupOnly.schedule {l : List Nat} {g : Nat} {m t : Mach} (h : Mach.GroupOnly l g m t) (hl : fireStats ⊆ l)
    (tk : BitVec 64) : Mach.GroupOnly l g m (t.schedule g tk) :=
  (h.setGroup _).fires (t.schedule_fires g tk) hl

/-- No register of the FUS block changes with an instant scheduled. -/
theorem Mach.schedule_reg (m : Mach) (g : Nat) (tk : BitVec 64) {a : Nat} (ha : 0x180000 ≤ a) : (m.schedule g tk).reg a = m.reg a :=
  (m.schedule_fires g tk).reg a (fusReg_not_fireStat ha)

end Sys2Proof.Machine
end

section
/-! Fusion groups enabled, disabled and triggered by the host (R114, R115, R130): what a write of FUS_CTRLg makes of the enable bit, the
schedule that begins or stops with it, and a write of FUS_TRIGg. -/

namespace Sys2Proof.Machine

/-! ## The registers written (Table 5-4) -/

theorem rowAt_fusCtrl : ∀ g : Fin 16, (rowAt (Reg.FUS_CTRL g)).map (fun x => (x.1.acc, x.1.mask)) = some (.rw, 0xFFC00000) := by decide

/-- FUS_TRIGg takes any word (Table 5-4). -/
theorem rowAt_fusTrig (g : Fin 16) : (rowAt (Reg.FUS_TRIG g)).map (fun x => (x.1.acc, x.1.bad)) = some (.wo, fun _ => false) := by
  fin_cases g <;> rfl

/-- The enable bit is the one bit that a write of another enable changes. -/
theorem Word.setBit_xor_below (w : Word) (on : Bool) : (w.setBit 31 on ^^^ w) &&& 0x7FC00000 = 0 := by
  refine BitVec.eq_of_getLsbD_eq fun i _ => ?_
  rw [BitVec.getLsbD_and, BitVec.getLsbD_xor]
  by_cases hi : i = 31
  · subst hi
    rw [show (0x7FC00000 : Word).getLsbD 31 = false by decide, Bool.and_false]
    rfl
  · have hsame : (w.setBit 31 on).getLsbD i = w.getLsbD i := Word.bit_setBit_ne w hi on
    simp [hsame]

section
variable (m : Mach) (g : Fin 16)

theorem Mach.fusWrite_ctrl (v : Word) : m.fusWrite (Reg.FUS_CTRL g) v = m.fusCtrl g v := by
  have hgroup : (Reg.FUS_CTRL g - 0x180000) / 0x400 = g.val := by simp only [Reg.FUS_CTRL]; omega
  have hplace : (Reg.FUS_CTRL g - 0x180000) % 0x400 = 0 := by simp only [Reg.FUS_CTRL]; omega
  unfold Mach.fusWrite
  simp only [hgroup, hplace, if_true]

theorem Mach.writeCause_fusTrig (hfree : m.blockPosted (Reg.FUS_TRIG g) = false) (v : Word) :
    m.writeCause (Reg.FUS_TRIG g) v = none := by
  obtain ⟨⟨r, j⟩, hr, hacc⟩ := Option.map_eq_some_iff.mp (rowAt_fusTrig g)
  obtain ⟨hwo, hbad⟩ := Prod.mk.inj hacc
  simp only at hwo hbad
  simp [Mach.writeCause, hr, hfree, hwo, hbad]

/-! ## A write of the enable bit alone (R130) -/

/-- FUS_CTRLg with its enable bit set or cleared. -/
def Mach.enableWord (m : Mach) (g : Nat) (on : Bool) : Word := (m.reg (Reg.FUS_CTRL g)).setBit 31 on

/-- FUS_CTRLg as such a write stores it, the enable bit itself still as it was. -/
def Mach.enableStored (m : Mach) (g : Nat) (on : Bool) : Mach :=
  (m.setReg (Reg.FUS_CTRL g) (m.enableWord g on &&& 0xFFC00000)).setRBit (Reg.FUS_CTRL g) 31 (!on)

/-- A group may be enabled (R114, R130): it has drained, it has a release queue, and FUS_T0 of a periodic group lies ahead. -/
def Mach.startMay (m : Mach) (g : Nat) : Prop := (m.group g).draining = false ∧ (m.releaseQueue g).isSome = true ∧
  (m.triggered g = true ∨ 1000000 ≤ (m.reg (Reg.FUS_T0 g) - m.time.count.setWidth 32).toInt ∧
    (m.reg (Reg.FUS_T0 g) - m.time.count.setWidth 32).toInt ≤ 2000000000)

theorem Mach.startMay_iff : m.startMay g ↔ ¬ ((m.group g).draining || (m.releaseQueue g).isNone ||
    (!m.triggered g && !m.aheadWithin (m.reg (Reg.FUS_T0 g)) 1000000 2000000000)) = true := by
  rw [Mach.startMay, ← Mach.aheadWithin_iff]
  cases (m.group g).draining <;> cases m.releaseQueue g <;> cases m.triggered g <;> simp

theorem Mach.enableWord_bit31 (on : Bool) : (m.enableWord g on).bit 31 = on := Word.bit_setBit_same _ (by decide) on

theorem Mach.enableWord_bit30 (on : Bool) : (m.enableWord g on).bit 30 = m.triggered g := Word.bit_setBit_ne _ (by decide) on

/-- What FUS_CTRLg makes of a write of its enable bit alone: nothing else of it changes, so that no other rule refuses it. -/
theorem Mach.fusCtrl_enable {on : Bool} (hold : m.rbit (Reg.FUS_CTRL g) 31 = !on) : m.fusCtrl g (m.enableWord g on) =
    if (on && ((m.group g).draining || (m.releaseQueue g).isNone ||
      (!m.triggered g && !m.aheadWithin (m.reg (Reg.FUS_T0 g)) 1000000 2000000000))) = true then m.bad
    else (false, if on then (m.enableStored g on).groupStart g else (m.enableStored g on).groupStop g) := by
  have hbit : (m.reg (Reg.FUS_CTRL g)).bit 31 = !on := hold
  have hmode : (m.reg (Reg.FUS_CTRL g)).bit 30 = m.triggered g := rfl
  have hsame : (m.enableWord g on ^^^ m.reg (Reg.FUS_CTRL g)) &&& 0x7FC00000 = 0 := Word.setBit_xor_below _ on
  unfold Mach.fusCtrl
  simp only [hsame, m.enableWord_bit31, m.enableWord_bit30, hbit, hmode, m.storeReg_rw (rowAt_fusCtrl g)]
  cases on <;> simp [Mach.enableStored]

theorem Mach.fusCtrl_starts (hoff : m.rbit (Reg.FUS_CTRL g) 31 = false) (hmay : m.startMay g) :
    m.fusCtrl g (m.enableWord g true) = (false, (m.enableStored g true).groupStart g) :=
  (m.fusCtrl_enable g (on := true) hoff).trans (if_neg ((m.startMay_iff g).mp hmay))

theorem Mach.fusCtrl_refused (hoff : m.rbit (Reg.FUS_CTRL g) 31 = false) (hno : ¬ m.startMay g) :
    m.fusCtrl g (m.enableWord g true) = m.bad :=
  (m.fusCtrl_enable g (on := true) hoff).trans (if_pos (not_not.mp fun h => hno ((m.startMay_iff g).mpr h)))

theorem Mach.fusCtrl_stops (hon : m.rbit (Reg.FUS_CTRL g) 31 = true) :
    m.fusCtrl g (m.enableWord g false) = (false, (m.enableStored g false).groupStop g) :=
  (m.fusCtrl_enable g (on := false) hon).trans (if_neg Bool.false_ne_true)

theorem Mach.enableStored_triggered (on : Bool) : (m.enableStored g on).triggered g = m.triggered g := by
  have hmask : (0xFFC00000 : Word).getLsbD 30 = true := by decide
  have hstored : (m.enableWord g on &&& 0xFFC00000).bit 30 = (m.enableWord g on).bit 30 := by
    rw [Word.bit, BitVec.getLsbD_and, hmask, Bool.and_true]
    rfl
  rw [Mach.triggered, Mach.enableStored, Mach.rbit_setRBit_ne _ (by decide), Mach.rbit, Mach.reg_setReg_same, hstored, m.enableWord_bit30]

theorem Mach.enableStored_only {l : List Nat} (hl : Reg.FUS_CTRL g ∈ l) (on : Bool) :
    Mach.GroupOnly l g m (m.enableStored g on) := ((Mach.GroupOnly.refl l g m).setReg hl _).setReg hl _

end

/-! ## The schedule starts and stops (R114, R116, R130) -/

/-- A group at the start of its schedule; the instants released before stay open (log entry 83). -/
def Group.started (x : Group) : Group := { open_ := x.open_, running := true }

/-- A group whose enable is cleared: the instants whose Tk has come remain. -/
def Group.stopped (x : Group) : Group := { x with sched := x.sched.filter Inst.due, running := false, draining := true }

section
variable (m : Mach) (g : Nat)

/-- FUS_CTRLg, FUS_NEXT_Kg and the group as its schedule starts. -/
def Mach.startShown (m : Mach) (g : Nat) : Mach :=
  ((m.setRBit (Reg.FUS_CTRL g) 31 true).setReg (Reg.FUS_NEXT_K g) 0).setGroup g (m.group g).started

theorem Mach.startShown_ctrl : (m.startShown g).reg (Reg.FUS_CTRL g) = (m.reg (Reg.FUS_CTRL g)).setBit 31 true := by
  have hne : Reg.FUS_CTRL g ≠ Reg.FUS_NEXT_K g := by simp only [Reg.FUS_CTRL, Reg.FUS_NEXT_K]; omega
  rw [Mach.startShown, Mach.setGroup_reg, Mach.reg_setReg_ne _ hne, Mach.setRBit_reg, if_pos rfl]

theorem Mach.startShown_next : (m.startShown g).reg (Reg.FUS_NEXT_K g) = 0 := by
  rw [Mach.startShown, Mach.setGroup_reg, Mach.reg_setReg_same]

theorem Mach.groupStart_eq : m.groupStart g =
    if (m.startShown g).triggered g then m.startShown g else (m.startShown g).schedule g (m.ext64 ((m.startShown g).reg (Reg.FUS_T0 g))) := rfl

/-- The enable bit is clear and the schedule has stopped. -/
def Mach.stopShown (m : Mach) (g : Nat) : Mach := (m.setRBit (Reg.FUS_CTRL g) 31 false).setGroup g (m.group g).stopped

theorem Mach.stopShown_ctrl : (m.stopShown g).reg (Reg.FUS_CTRL g) = (m.reg (Reg.FUS_CTRL g)).setBit 31 false := by
  rw [Mach.stopShown, Mach.setGroup_reg, Mach.setRBit_reg, if_pos rfl]

/-- The fires of the dropped instants are cancelled. -/
def Mach.dropFires (m : Mach) (g : Nat) (dropped : List Inst) : Mach :=
  dropped.foldl (fun m i => m.cancelFires g (i.tk.setWidth 32)) m

theorem Mach.groupStop_eq : m.groupStop g =
    ((m.stopShown g).dropFires g ((m.group g).sched.filter fun i => !i.due)).drainGroup g := rfl

theorem Mach.dropFires_ports (dropped : List Inst) : { m.dropFires g dropped with ports := m.ports } = m :=
  List.foldlRecOn (motive := fun t : Mach => { t with ports := m.ports } = m) dropped _ rfl fun t h i _ =>
    (congrArg (fun x : Mach => { x with ports := m.ports }) (t.cancelFires_ports g (i.tk.setWidth 32))).trans h

end

/-! ## The commands -/

section
variable {s : State} {g : Fin 16} (live : s.m.live = true)
include live

section
variable (hlet : s.m.writeCause (Reg.FUS_CTRL g) (s.m.enableWord g true) = none) (hoff : s.m.rbit (Reg.FUS_CTRL g) 31 = false)
include hlet hoff

theorem exec_groupEnable (hmay : s.m.startMay g) :
    exec (.groupEnable g) s = .next { s with m := (s.m.enableStored g true).groupStart g } := by
  rw [← Mach.arriveWith_taken hlet (s.m.fusCtrl_starts g hoff hmay), ← Mach.fusWrite_ctrl]
  exact act_live live fun m => m.enableWrite (Reg.FUS_CTRL g) true Mach.fusWrite

theorem exec_groupEnable_refused (hno : ¬ s.m.startMay g) :
    ∃ t, exec (.groupEnable g) s = .next { s with m := t } ∧ s.m.busErr t (Reg.FUS_CTRL g) 4 := by
  refine ⟨_, ?_, s.m.refuse_busErr _⟩
  rw [← Mach.arriveWith_bad hlet (s.m.fusCtrl_refused g hoff hno), ← Mach.fusWrite_ctrl]
  exact act_live live fun m => m.enableWrite (Reg.FUS_CTRL g) true Mach.fusWrite

end

theorem exec_groupDisable (hlet : s.m.writeCause (Reg.FUS_CTRL g) (s.m.enableWord g false) = none)
    (hon : s.m.rbit (Reg.FUS_CTRL g) 31 = true) :
    exec (.groupDisable g) s = .next { s with m := (s.m.enableStored g false).groupStop g } := by
  rw [← Mach.arriveWith_taken hlet (s.m.fusCtrl_stops g hon), ← Mach.fusWrite_ctrl]
  exact act_live live fun m => m.enableWrite (Reg.FUS_CTRL g) false Mach.fusWrite

end

/-! ## What the new schedule shows -/

section
variable (m : Mach) (g : Fin 16)

/-- The registers that enabling a group writes. -/
def startRegs (g : Nat) : List Nat := Reg.FUS_CTRL g :: Reg.FUS_NEXT_K g :: fireStats

theorem fireStats_startRegs : fireStats ⊆ startRegs g := fun _ h => List.mem_cons_of_mem _ (List.mem_cons_of_mem _ h)

/-- The group at k = 0, before its first instant is scheduled. -/
def Mach.enabledAt (m : Mach) (g : Nat) : Mach := (m.enableStored g true).startShown g

theorem Mach.enabledAt_only : Mach.GroupOnly (startRegs g) g m (m.enabledAt g) := by
  have hctrl : Reg.FUS_CTRL g ∈ startRegs g := List.mem_cons_self
  have hnext : Reg.FUS_NEXT_K g ∈ startRegs g := List.mem_cons_of_mem _ List.mem_cons_self
  exact (((m.enableStored_only g hctrl true).setReg hctrl _).setReg hnext _).setGroup _

theorem Mach.enabledAt_group : (m.enabledAt g).group g = (m.group g).started := Mach.group_setGroup_same _ _ _

theorem Mach.enabledAt_triggered : (m.enabledAt g).triggered g = m.triggered g := by
  rw [← m.enableStored_triggered g true, Mach.triggered, Mach.rbit, Mach.enabledAt, Mach.startShown_ctrl, Word.bit_setBit_ne _ (by decide)]
  rfl

theorem Mach.enabledAt_t0 : (m.enabledAt g).reg (Reg.FUS_T0 g) = m.reg (Reg.FUS_T0 g) :=
  (m.enabledAt_only g).reg _ fun h => by
    rcases List.mem_cons.mp h with h | h
    · simp only [Reg.FUS_T0, Reg.FUS_CTRL] at h; omega
    rcases List.mem_cons.mp h with h | h
    · simp only [Reg.FUS_T0, Reg.FUS_NEXT_K] at h; omega
    · exact fusReg_not_fireStat (by simp only [Reg.FUS_T0]; omega) h

theorem Mach.enabledAt_enable : (m.enabledAt g).rbit (Reg.FUS_CTRL g) 31 = true := by
  rw [Mach.rbit, Mach.enabledAt, Mach.startShown_ctrl, Word.bit_setBit_same _ (by decide)]

/-- A triggered group waits for its first trigger; a periodic group schedules instant 0 at FUS_T0g. -/
theorem Mach.groupStart_enabled : (m.enableStored g true).groupStart g =
    if m.triggered g then m.enabledAt g else (m.enabledAt g).schedule g (m.ext64 (m.reg (Reg.FUS_T0 g))) := by
  rw [Mach.groupStart_eq, ← Mach.enabledAt, m.enabledAt_triggered, m.enabledAt_t0]
  rfl

/-- The group with its schedule stopped and the fires of what was dropped cancelled, before its drain is looked at. -/
def Mach.disabledAt (m : Mach) (g : Nat) : Mach :=
  ((m.enableStored g false).stopShown g).dropFires g ((m.group g).sched.filter fun i => !i.due)

theorem Mach.groupStop_disabled : (m.enableStored g false).groupStop g = (m.disabledAt g).drainGroup g :=
  Mach.groupStop_eq _ g

theorem Mach.disabledAt_ports : { m.disabledAt g with ports := m.ports } = (m.enableStored g false).stopShown g :=
  Mach.dropFires_ports _ g _

theorem Mach.disabledAt_only : Mach.GroupOnly [Reg.FUS_CTRL g] g m (m.disabledAt g) := by
  have hctrl : Reg.FUS_CTRL g ∈ [Reg.FUS_CTRL g] := List.mem_singleton_self _
  exact (((m.enableStored_only g hctrl false).setReg hctrl _).setGroup _).ports (m.disabledAt_ports g)

theorem Mach.disabledAt_group : (m.disabledAt g).group g = (m.group g).stopped := by
  have hgroups : (m.disabledAt g).groups = ((m.enableStored g false).stopShown g).groups := (congrArg Mach.groups (m.disabledAt_ports g) :)
  exact (Mach.group_congr hgroups g).trans (Mach.group_setGroup_same _ _ _)

theorem Mach.disabledAt_enable : (m.disabledAt g).rbit (Reg.FUS_CTRL g) 31 = false := by
  have hregs : (m.disabledAt g).regs = ((m.enableStored g false).stopShown g).regs := (congrArg Mach.regs (m.disabledAt_ports g) :)
  have hreg : (m.disabledAt g).reg (Reg.FUS_CTRL g) = ((m.enableStored g false).stopShown g).reg (Reg.FUS_CTRL g) := by
    rw [Mach.reg, hregs]
    rfl
  rw [Mach.rbit, hreg, Mach.stopShown_ctrl, Word.bit_setBit_same _ (by decide)]

end

/-! ## A write of FUS_TRIGg (R115) -/

section
variable (m : Mach) (g : Fin 16) (v : Word)

/-- The host's trigger is accepted: a running group that the host triggers, the gap kept, and Tk within its range of now. -/
def Mach.trigMay (m : Mach) (g : Nat) (v : Word) : Prop := m.triggered g = true ∧ (m.group g).running = true ∧
  m.fld (Reg.FUS_CTRL g) 28 2 = 0 ∧ m.gapOk g (m.ext64 v) = true ∧
  -1000000000 ≤ (v - m.time.count.setWidth 32).toInt ∧ (v - m.time.count.setWidth 32).toInt ≤ 2000000000

theorem Mach.trigMay_iff : m.trigMay g v ↔ ¬ (!m.triggered g || !(m.group g).running || m.fld (Reg.FUS_CTRL g) 28 2 != 0 ||
    !m.gapOk g (m.ext64 v) || !m.aheadWithin v (-1000000000) 2000000000) = true := by
  rw [Mach.trigMay, ← Mach.aheadWithin_iff]
  simp only [Bool.or_eq_true, Bool.not_eq_true', bne_iff_ne, not_or, Bool.not_eq_false, not_not, and_assoc]

theorem Mach.hostTrigger_taken (hmay : m.trigMay g v) : m.hostTrigger g v = (false, m.schedule g (m.ext64 v)) :=
  if_neg ((m.trigMay_iff g v).mp hmay)

theorem Mach.hostTrigger_refused (hno : ¬ m.trigMay g v) : m.hostTrigger g v = m.bad :=
  if_pos (not_not.mp fun h => hno ((m.trigMay_iff g v).mpr h))

end

section
variable {s : State} {g : Fin 16} (live : s.m.live = true) (hfree : s.m.blockPosted (Reg.FUS_TRIG g) = false) (v : Word)
include live hfree

theorem exec_hostTrigger (hmay : s.m.trigMay g v) :
    exec (.hostTrigger g v) s = .next { s with m := s.m.schedule g (s.m.ext64 v) } := by
  rw [← Mach.arriveWith_taken (s.m.writeCause_fusTrig g hfree v) (s.m.hostTrigger_taken g v hmay)]
  exact act_live live fun m => m.arriveWith (Reg.FUS_TRIG g) v (m.hostTrigger g v)

theorem exec_hostTrigger_refused (hno : ¬ s.m.trigMay g v) :
    ∃ t, exec (.hostTrigger g v) s = .next { s with m := t } ∧ s.m.busErr t (Reg.FUS_TRIG g) 4 := by
  refine ⟨_, ?_, s.m.refuse_busErr _⟩
  rw [← Mach.arriveWith_bad (s.m.writeCause_fusTrig g hfree v) (s.m.hostTrigger_refused g v hno)]
  exact act_live live fun m => m.arriveWith (Reg.FUS_TRIG g) v (m.hostTrigger g v)

end

/-! ## The obligation -/

theorem exec_groupEnable_starts {s : State} {g : Fin 16} (live : s.m.live = true)
    (hlet : s.m.writeCause (Reg.FUS_CTRL g) (s.m.enableWord g true) = none) (hoff : s.m.rbit (Reg.FUS_CTRL g) 31 = false)
    (hmay : s.m.startMay g) :
    ∃ t, exec (.groupEnable g) s = .next { s with m := t } ∧ Mach.GroupOnly (startRegs g) g s.m t ∧
      t.rbit (Reg.FUS_CTRL g) 31 = true ∧ t.reg (Reg.FUS_NEXT_K g) = 0 ∧ (t.group g).running = true ∧ (t.group g).draining = false ∧
      (t.group g).sched = (if s.m.triggered g then [] else
        [{ k := 0, tk := s.m.ext64 (s.m.reg (Reg.FUS_T0 g)), before := none }]) := by
  refine ⟨_, exec_groupEnable live hlet hoff hmay, ?_⟩
  rw [Mach.groupStart_enabled]
  have hnext : (s.m.enabledAt g).reg (Reg.FUS_NEXT_K g) = 0 := Mach.startShown_next _ _
  split
  · rw [Mach.enabledAt_group]
    exact ⟨s.m.enabledAt_only g, s.m.enabledAt_enable g, hnext, rfl, rfl, rfl⟩
  · rw [Mach.schedule_group, Mach.enabledAt_group]
    refine ⟨(s.m.enabledAt_only g).schedule (fireStats_startRegs g) _, ?_, ?_, rfl, rfl, rfl⟩
    · exact (Mach.rbit_congr (Mach.schedule_reg _ g _ (by simp only [Reg.FUS_CTRL]; omega)) 31).trans (s.m.enabledAt_enable g)
    · exact (Mach.schedule_reg _ g _ (by simp only [Reg.FUS_NEXT_K]; omega)).trans hnext

/-- Settles O24: a write of the enable bit alone meets no other rule of FUS_CTRLg, so the group starts where it may, stops where it is
enabled, and a host's trigger schedules the next instant where it is accepted. -/
theorem groupSchedules : Obligations.GroupSchedules := by
  intro s g live hfree
  refine ⟨fun hlet hoff => ⟨fun hmay => ?_, exec_groupEnable_refused live hlet hoff⟩, fun hlet hon => ?_,
    fun v => ⟨fun hmay => ?_, exec_hostTrigger_refused live hfree v⟩⟩
  · obtain ⟨t, hexec, honly, henable, hnext, hrunning, hdraining, hsched⟩ := exec_groupEnable_starts live hlet hoff hmay
    exact ⟨t, hexec, ⟨honly.others, honly.rest⟩, henable, hnext, hrunning, hdraining, hsched, honly.reg⟩
  · have honly := s.m.disabledAt_only g
    have hexec := exec_groupDisable live hlet hon
    rw [Mach.groupStop_disabled] at hexec
    exact ⟨s.m.disabledAt g, hexec, ⟨honly.others, honly.rest⟩, s.m.disabledAt_enable g,
      s.m.disabledAt_group g, honly.reg⟩
  · have honly := (Mach.GroupOnly.refl fireStats g.val s.m).schedule (List.Subset.refl _) (s.m.ext64 v)
    exact ⟨_, exec_hostTrigger live hfree v hmay, ⟨honly.others, honly.rest⟩, s.m.schedule_group g _, honly.reg⟩

end Sys2Proof.Machine
end

section
/-! Instants that fall due (R116, R117): the first scheduled instant whose Tk short time reaches, the next one of a periodic group, and the
one that waits as it becomes pending; and the wait limit of the oldest (R119). -/

namespace Sys2Proof.Machine

/-! ## The first of a list changed -/

theorem mapFirst_none {α : Type} {p : α → Bool} (f : α → α) {l : List α} (h : ∀ a ∈ l, p a = false) : mapFirst p f l = l := by
  induction l with
  | nil => rfl
  | cons a l ih =>
    have ha : p a = false := h a List.mem_cons_self
    rw [mapFirst, ha, if_neg Bool.false_ne_true, ih fun b hb => h b (List.mem_cons_of_mem _ hb)]

theorem mapFirst_append {α : Type} {p : α → Bool} (f : α → α) (l : List α) {r : List α} (h : ∀ a ∈ r, p a = false) :
    mapFirst p f (l ++ r) = mapFirst p f l ++ r := by
  induction l with
  | nil => exact mapFirst_none f h
  | cons a l ih =>
    rw [List.cons_append, mapFirst, mapFirst, ih]
    split <;> rfl

/-! ## One instant waits (R117) -/

/-- Its Tk has come and it is not one of the 64 pending. -/
def Inst.waits (i : Inst) : Bool := i.due && !i.pending

/-- Tk has come. -/
def Inst.fallen (i : Inst) : Inst := { i with due := true }

/-- One of the 64 pending. -/
def Inst.admitted (i : Inst) : Inst := { i with pending := true }

/-- The group with its first waiting instant pending. -/
def Group.admitted (x : Group) : Group := { x with sched := mapFirst Inst.waits Inst.admitted x.sched }

/-- Where every instant that was due is pending, one more that falls due is the only one that can wait. -/
theorem admitted_none_waits {l : List Inst} (h : ∀ i ∈ l, i.due = true → i.pending = true) :
    ∀ i ∈ mapFirst Inst.waits Inst.admitted (mapFirst (fun i => !i.due) Inst.fallen l), i.waits = false := by
  have hquiet : ∀ l : List Inst, (∀ i ∈ l, i.due = true → i.pending = true) → ∀ i ∈ l, i.waits = false := fun l hl i hi => by
    cases hd : i.due with
    | false => rw [Inst.waits, hd, Bool.false_and]
    | true => rw [Inst.waits, hl i hi hd, Bool.not_true, Bool.and_false]
  induction l with
  | nil => exact fun i hi => absurd hi List.not_mem_nil
  | cons a l ih =>
    have htail : ∀ i ∈ l, i.due = true → i.pending = true := fun i hi => h i (List.mem_cons_of_mem _ hi)
    cases hd : a.due with
    | true =>
      have ha : a.waits = false := hquiet _ h a List.mem_cons_self
      rw [mapFirst, hd, Bool.not_true, if_neg Bool.false_ne_true, mapFirst, ha, if_neg Bool.false_ne_true]
      exact List.forall_mem_cons.mpr ⟨ha, ih htail⟩
    | false =>
      rw [mapFirst, hd, Bool.not_false, if_pos rfl, mapFirst]
      split
      · exact List.forall_mem_cons.mpr ⟨by rw [Inst.waits, Inst.admitted, Bool.not_true, Bool.and_false], hquiet l htail⟩
      · next hwaits =>
        rw [mapFirst_none _ (hquiet l htail)]
        exact List.forall_mem_cons.mpr ⟨by simpa using hwaits, hquiet l htail⟩

section
variable {m : Mach} {g : Nat}

/-- Nothing waits. -/
theorem Mach.admitDue_quiet (h : ∀ i ∈ (m.group g).sched, i.waits = false) (fuel : Nat) : m.admitDue g fuel = m := by
  have hany : ((m.group g).sched.any fun i => i.due && !i.pending) = false := List.any_eq_false.mpr fun i hi => by
    rw [show (i.due && !i.pending) = false from h i hi]
    exact Bool.false_ne_true
  cases fuel with
  | zero => rfl
  | succ n => rw [Mach.admitDue, hany, if_neg Bool.false_ne_true]

/-- At most one instant waits, and there is room for it. -/
theorem Mach.admitDue_room (hroom : m.pendingCount g < 64) (hone : ∀ i ∈ (m.group g).admitted.sched, i.waits = false) :
    (m.admitDue g (m.group g).sched.length).group g = (m.group g).admitted := by
  cases hany : ((m.group g).sched.any fun i => i.due && !i.pending) with
  | false =>
    have hquiet : ∀ i ∈ (m.group g).sched, i.waits = false := fun i hi =>
      Bool.eq_false_of_not_eq_true (List.any_eq_false.mp hany i hi)
    rw [Mach.admitDue_quiet hquiet, Group.admitted, mapFirst_none _ hquiet]
  | true =>
    obtain ⟨fuel, hfuel⟩ : ∃ n, (m.group g).sched.length = n + 1 := Nat.exists_eq_succ_of_ne_zero fun h => by
      rw [List.length_eq_zero_iff.mp h] at hany
      exact Bool.false_ne_true hany
    have hstep : m.admitDue g (fuel + 1) = (m.setGroup g (m.group g).admitted).admitDue g fuel := by
      rw [Mach.admitDue, if_pos hany, if_pos hroom]
      rfl
    rw [hfuel, hstep, Mach.admitDue_quiet (by rwa [Mach.group_setGroup_same]), Mach.group_setGroup_same]

end

/-! ## An instant falls due (R116) -/

/-- The group once its first instant not yet due has fallen due. -/
def Group.fallen (x : Group) : Group := { x with sched := mapFirst (fun i => !i.due) Inst.fallen x.sched }

section
variable (m : Mach) (g : Nat) (tk : BitVec 64)

/-- The instant that follows in a periodic group, where the group still runs. -/
def Mach.instantFallen (m : Mach) (g : Nat) (tk : BitVec 64) : Mach :=
  if (m.group g).running && !m.triggered g then
    (m.setGroup g (m.group g).fallen).schedule g (tk + (m.reg (Reg.FUS_PERIOD g)).setWidth 64)
  else m.setGroup g (m.group g).fallen

theorem Mach.instantDue_eq {x : Inst} (hnext : m.nextDue g = some x) (hdue : x.tk.toInt ≤ (m.time.count.toNat : Int)) :
    m.instantDue g = ((m.instantFallen g x.tk).admitDue g ((m.instantFallen g x.tk).group g).sched.length).drainGroup g := by
  rw [Mach.instantDue, hnext]
  exact if_pos hdue

theorem Mach.instantFallen_only : Mach.GroupOnly fireStats g m (m.instantFallen g tk) := by
  have hfallen := (Mach.GroupOnly.refl fireStats g m).setGroup (m.group g).fallen
  unfold Mach.instantFallen
  split
  · exact hfallen.schedule (List.Subset.refl _) _
  · exact hfallen

/-- The instants scheduled with the one that falls due. -/
def Mach.nextInstant (m : Mach) (g : Nat) (tk : BitVec 64) : List Inst :=
  if (m.group g).running && !m.triggered g then
    [{ k := (m.group g).nextK, tk := tk + (m.reg (Reg.FUS_PERIOD g)).setWidth 64, before := (m.group g).latest }]
  else []

theorem Mach.instantFallen_group : ((m.instantFallen g tk).group g).sched = (m.group g).fallen.sched ++ m.nextInstant g tk ∧
    { (m.instantFallen g tk).group g with
      sched := (m.group g).sched, nextK := (m.group g).nextK, latest := (m.group g).latest } = m.group g := by
  unfold Mach.instantFallen Mach.nextInstant
  split
  · rw [Mach.schedule_group, Mach.group_setGroup_same]
    exact ⟨rfl, rfl⟩
  · rw [Mach.group_setGroup_same, List.append_nil]
    exact ⟨rfl, rfl⟩

theorem Mach.nextInstant_quiet : ∀ i ∈ m.nextInstant g tk, i.waits = false := by
  intro i hi
  unfold Mach.nextInstant at hi
  split at hi
  · rw [List.mem_singleton.mp hi]
    rfl
  · exact absurd hi List.not_mem_nil

/-- The instant that has fallen due is pending, where fewer than 64 are and nothing else waits. -/
theorem Mach.instantFallen_admits (hroom : (m.instantFallen g tk).pendingCount g < 64)
    (hall : ∀ i ∈ (m.group g).sched, i.due = true → i.pending = true) :
    ((m.instantFallen g tk).admitDue g ((m.instantFallen g tk).group g).sched.length).group g =
      ((m.instantFallen g tk).group g).admitted := by
  refine Mach.admitDue_room hroom ?_
  rw [Group.admitted, (m.instantFallen_group g tk).1]
  dsimp only
  rw [mapFirst_append _ _ (m.nextInstant_quiet g tk)]
  exact List.forall_mem_append.mpr ⟨admitted_none_waits hall, m.nextInstant_quiet g tk⟩

end

/-- A happening in the fusion front end, which runs (R37). -/
theorem act_frontRuns {s : State} (live : s.m.live = true) (hruns : s.m.runs 150 = true) (f : Mach → Mach) :
    act s (fun m => if m.frontRuns then f m else m) = .next { s with m := f s.m } := by
  have hfront : s.m.frontRuns = true := hruns
  rw [act_live live, hfront, if_pos rfl]

section
variable {s : State} {g : Fin 16} (live : s.m.live = true)
include live

theorem exec_instantDue (hruns : s.m.runs 150 = true) {x : Inst} (hnext : s.m.nextDue g = some x)
    (hdue : x.tk.toInt ≤ (s.m.time.count.toNat : Int)) :
    exec (.instantDue g) s = .next { s with m := (((s.m.instantFallen g x.tk).admitDue g
      ((s.m.instantFallen g x.tk).group g).sched.length).drainGroup g).runJets } := by
  rw [← s.m.instantDue_eq g hnext hdue]
  exact act_frontRuns live hruns fun m => (m.instantDue g).runJets

/-! ## The wait limit (R119) -/

theorem exec_waitLimitExpiry {x : Inst} {rest : List Inst} (hsched : (s.m.group g).sched = x :: rest) (hpending : x.pending = true)
    (hover : s.m.waitOver g x = true) : exec (.waitLimitExpiry g) s =
      .next { s with m := s.m.setGroup g { s.m.group g with sched := { x with expired := true } :: rest } } := by
  refine (act_live live fun m : Mach => m.waitExpiry g).trans ?_
  rw [Mach.waitExpiry, hsched]
  simp only [hpending, hover, Bool.and_self, if_true]

end

end Sys2Proof.Machine
end

section
/-! What a release leaves (R120 to R126, R141): the counting of lost records and missed members, and a calibration boundary that is passed,
reach streams, calibration, memory and the group's own counts, and none of the registers and queues that the release has set. -/

namespace Sys2Proof.Machine

/-! ## Members chosen (Table 5-1) -/

theorem coverOf_stream {i st : Nat} {chosen handed : List RingRec} {at_ : Word} {c : Cover}
    (h : coverOf i st chosen handed at_ = some c) : c.stream = st := by
  obtain ⟨_, _, rfl⟩ := Option.map_eq_some_iff.mp h
  rfl

theorem Mach.choose_scan_stream {i st : Nat} {iv tk : Int} {recs : List RingRec} {c : Cover}
    (h : Mach.choose.scan i st iv tk recs = some c) : c.stream = st := by
  unfold Mach.choose.scan at h
  split at h
  · exact coverOf_stream h
  · cases h

theorem Mach.choose_stream {m : Mach} {g i : Nat} {x : Inst} {c : Cover} (h : m.choose g i x = some c) : c.stream = m.slotStream g i := by
  unfold Mach.choose at h
  dsimp only at h
  split at h
  · split at h
    · exact coverOf_stream h
    · cases h
  · exact Mach.choose_scan_stream h
  · exact Mach.choose_scan_stream h
  · split at h
    · exact coverOf_stream h
    · cases h

theorem Mach.slotStream_lt (m : Mach) (g i : Nat) : m.slotStream g i < 256 := Nat.mod_lt _ (by decide)

theorem Mach.covers_stream_lt {m : Mach} {g : Nat} {x : Inst} {c : Cover} (h : c ∈ m.covers g x) : c.stream < 256 := by
  obtain ⟨i, _, hc⟩ := List.mem_filterMap.mp h
  exact Mach.choose_stream hc ▸ m.slotStream_lt g i

/-! ## Changes beside a release -/

/-- The registers of streams and of calibration, and the groups' events. -/
def asideReg (r : Nat) : Prop := (0x140000 ≤ r ∧ r < 0x180000) ∨ (0x1C0000 ≤ r ∧ r < 0x200000) ∨ ∃ g, r = Reg.FUS_EVENT g

/-- From m to t nothing has changed but such registers, streams, calibration with its copies, counters, the supervisor, memory where a swap
is pending, and of the groups the miss counts and calibration mark of group g. -/
structure Mach.Aside (g : Nat) (m t : Mach) : Prop where
  reg : ∀ r, ¬ asideReg r → t.reg r = m.reg r
  others : ∀ o, o ≠ g → t.group o = m.group o
  own : { t.group g with miss := (m.group g).miss, calNext := (m.group g).calNext } = m.group g
  rest : { t with
    regs := m.regs, mem := m.mem, obs := m.obs, safety := m.safety, streams := m.streams, groups := m.groups, cal := m.cal,
    fpl := m.fpl } = m
  still : m.cal.swap = none → t.mem = m.mem ∧ t.cal.swap = none

theorem Mach.Aside.refl (g : Nat) (m : Mach) : Mach.Aside g m m := ⟨fun _ _ => rfl, fun _ _ => rfl, rfl, rfl, fun h => ⟨rfl, h⟩⟩

theorem Mach.Aside.time {g : Nat} {m t : Mach} (h : Mach.Aside g m t) : t.time = m.time := (congrArg Mach.time h.rest :)
theorem Mach.Aside.cq {g : Nat} {m t : Mach} (h : Mach.Aside g m t) : t.cq = m.cq := (congrArg Mach.cq h.rest :)
theorem Mach.Aside.stageQ {g : Nat} {m t : Mach} (h : Mach.Aside g m t) : t.stageQ = m.stageQ := (congrArg Mach.stageQ h.rest :)

/-- The group's schedule, its last instant and those open are no counts. -/
theorem Mach.Aside.group_kept {g : Nat} {m t : Mach} (h : Mach.Aside g m t) : (t.group g).sched = (m.group g).sched ∧
    (t.group g).last = (m.group g).last ∧ (t.group g).open_ = (m.group g).open_ :=
  ⟨(congrArg Group.sched h.own :), (congrArg Group.last h.own :), (congrArg Group.open_ h.own :)⟩

section
variable {g : Nat} {m t : Mach} (h : Mach.Aside g m t)
include h

theorem Mach.Aside.setReg {a : Nat} (ha : asideReg a) (v : Word) : Mach.Aside g m (t.setReg a v) :=
  ⟨fun r hr => (t.reg_setReg_ne (by rintro rfl; exact hr ha) v).trans (h.reg r hr), h.others, h.own, h.rest, h.still⟩

theorem Mach.Aside.setStream (st : Nat) (x : Stream) : Mach.Aside g m (t.setStream st x) := ⟨h.reg, h.others, h.own, h.rest, h.still⟩

theorem Mach.Aside.onSafety (f : Safety → Safety) : Mach.Aside g m (t.onSafety f) := ⟨h.reg, h.others, h.own, h.rest, h.still⟩

theorem Mach.Aside.onObs (f : Observe → Observe) : Mach.Aside g m (t.onObs f) := ⟨h.reg, h.others, h.own, h.rest, h.still⟩

theorem Mach.Aside.setGroup {x : Group} (hx : { x with miss := (m.group g).miss, calNext := (m.group g).calNext } = m.group g) :
    Mach.Aside g m (t.setGroup g x) :=
  ⟨h.reg, fun o ho => (t.group_setGroup_ne ho x).trans (h.others o ho), by rw [Mach.group_setGroup_same]; exact hx, h.rest, h.still⟩

theorem Mach.Aside.setMiss (miss : Sparse Nat) : Mach.Aside g m (t.setGroup g { t.group g with miss := miss }) := h.setGroup h.own

theorem Mach.Aside.setCalNext (on : Bool) : Mach.Aside g m (t.setGroup g { t.group g with calNext := on }) := h.setGroup h.own

theorem Mach.Aside.strDrop {st : Nat} (hst : st < 256) : Mach.Aside g m (t.strDrop st) := by
  have hdrops : asideReg (Reg.STR_DROPS st) := .inl (by simp only [Reg.STR_DROPS]; omega)
  unfold Mach.strDrop Mach.bumpStream
  split
  · exact h.setReg hdrops _
  · exact (h.setReg hdrops _).onObs _

/-- A stream becomes ABSENT (R124). -/
theorem Mach.Aside.makeAbsent {st : Nat} (hst : st < 256) : Mach.Aside g m (t.makeAbsent st) := by
  have hstatus : asideReg (Reg.STR_STATUS st) := .inl (by simp only [Reg.STR_STATUS]; omega)
  have hevent : asideReg (Reg.STR_EVENT st) := .inl (by simp only [Reg.STR_EVENT]; omega)
  unfold Mach.makeAbsent
  split
  · exact h
  · refine List.foldlRecOn (motive := Mach.Aside g m) _ _ ((h.setReg hstatus _).setReg hevent _) fun u hu o _ => ?_
    split
    · exact hu.setReg (.inr (.inr ⟨o, rfl⟩)) _
    · exact hu

/-- A member counted as covered or missed (R124). -/
theorem Mach.Aside.missSlot (i : Nat) (covered : Bool) : Mach.Aside g m (t.missSlot g i covered) := by
  unfold Mach.missSlot
  dsimp only
  split
  · exact h.setMiss _
  · split
    · split
      · exact (h.setMiss _).makeAbsent (t.slotStream_lt g i)
      · exact h.setMiss _
    · exact h

/-- Records lost before the release (R126). -/
theorem Mach.Aside.countLost {c : Cover} (hc : c.stream < 256) : Mach.Aside g m (t.countLost c) :=
  (List.foldlRecOn (motive := Mach.Aside g m) _ _ h fun _ hu _ _ => hu.strDrop hc).setStream _ _

end

/-! ## A calibration boundary passed (R141) -/

/-- From m to t nothing but memory has changed. -/
def Mach.memOnly (m t : Mach) : Prop := { t with mem := m.mem } = m

theorem Mach.memOnly.setBytes {m t : Mach} (h : m.memOnly t) (a : Nat) (l : List Byte) : m.memOnly (t.setBytes a l) := by
  rw [t.setBytes_eq]
  exact h

theorem Mach.memOnly.setWord {m t : Mach} (h : m.memOnly t) (a : Nat) (v : Word) : m.memOnly (t.setWord a v) := h.setBytes a _

/-- The configuration copy lies in memory (R369). -/
theorem Mach.copyWords_memOnly (m : Mach) : m.memOnly m.copyWords := by
  have hsame : m.memOnly m := rfl
  unfold Mach.copyWords
  split
  · exact hsame
  · split
    · exact hsame.setBytes _ _
    · refine List.foldlRecOn (motive := m.memOnly) _ _ ?_ fun u hu p _ => hu.setBytes _ _
      refine List.foldlRecOn (motive := m.memOnly) _ _ hsame fun u hu w _ => ?_
      split
      · split
        · exact hu
        · exact hu.setWord _ _
      · exact hu

/-- The swap w completes (R141). -/
def Mach.swapDone (m : Mach) (w : Swap) : Mach :=
  let u := (((m.keepMaps w).onCal fun c => { c with swap := none }).copyEntries w.set).setRBit Reg.CAL_STATUS 1 false
  ((u.setReg Reg.CAL_SWAP_LAST u.now).incReg Reg.CAL_SWAP_COUNT).raise Reg.CAL_EVENT 0x2

theorem Mach.swapCheck_cases (m : Mach) : m.swapCheck = m ∨ ∃ w, m.swapCheck = m.swapDone w := by
  unfold Mach.swapCheck
  split
  · exact .inl rfl
  · next w _ => exact (ite_eq_or_eq _ _ _).symm.imp_right fun h => ⟨w, h⟩

section
variable {g : Nat} {m t : Mach} (h : Mach.Aside g m t) (hswap : m.cal.swap ≠ none)
include h hswap

theorem Mach.Aside.onCal (f : CalState → CalState) : Mach.Aside g m (t.onCal f) :=
  ⟨h.reg, h.others, h.own, h.rest, fun hnone => absurd hnone hswap⟩

/-- Memory and the configuration copy follow the swap (R369). -/
theorem Mach.Aside.copies {u : Mach} (k : { u with mem := t.mem, fpl := t.fpl } = t) : Mach.Aside g m u := by
  have hregs : u.regs = t.regs := (congrArg Mach.regs k :)
  have hgroups : u.groups = t.groups := (congrArg Mach.groups k :)
  have hgroup : ∀ o, u.group o = t.group o := Mach.group_congr hgroups
  refine ⟨fun r hr => Eq.trans ?_ (h.reg r hr), fun o ho => (hgroup o).trans (h.others o ho), by rw [hgroup]; exact h.own, ?_,
    fun hnone => absurd hnone hswap⟩
  · rw [Mach.reg, hregs]
    rfl
  · exact (congrArg (fun x : Mach => { x with
      regs := m.regs, mem := m.mem, obs := m.obs, safety := m.safety, streams := m.streams, groups := m.groups, cal := m.cal,
      fpl := m.fpl }) k).trans h.rest

theorem Mach.Aside.copyEntries (set : Nat) : Mach.Aside g m (t.copyEntries set) :=
  h.copies hswap (congrArg (fun x : Mach => { x with fpl := t.fpl }) (Mach.copyWords_memOnly _) :)

theorem Mach.Aside.swapDone (w : Swap) : Mach.Aside g m (t.swapDone w) := by
  have hcal : ∀ a ∈ [Reg.CAL_STATUS, Reg.CAL_SWAP_LAST, Reg.CAL_SWAP_COUNT, Reg.CAL_EVENT], asideReg a := fun a ha =>
    have hrange : ∀ a ∈ [Reg.CAL_STATUS, Reg.CAL_SWAP_LAST, Reg.CAL_SWAP_COUNT, Reg.CAL_EVENT], 0x1C0000 ≤ a ∧ a < 0x200000 := by decide
    .inr (.inl (hrange a ha))
  exact ((((((h.onCal hswap _).onCal hswap _).copyEntries hswap _).setReg (hcal _ (by simp)) _).setReg (hcal _ (by simp)) _).setReg
    (hcal _ (by simp)) _).setReg (hcal _ (by simp)) _

/-- A swap that may complete. -/
theorem Mach.Aside.swapCheck : Mach.Aside g m t.swapCheck := by
  rcases t.swapCheck_cases with hsame | ⟨w, hdone⟩
  · rw [hsame]
    exact h
  · rw [hdone]
    exact h.swapDone hswap w

end

theorem Mach.Aside.swapPass {g : Nat} {m t : Mach} (h : Mach.Aside g m t) (passed : Bool) : Mach.Aside g m (t.swapPass g passed).1 := by
  unfold Mach.swapPass
  split
  · exact h
  · next w hw =>
    have hswap : m.cal.swap ≠ none := fun hnone => by rw [(h.still hnone).2] at hw; cases hw
    dsimp only
    split
    · dsimp only
      exact (h.onCal hswap _).swapCheck hswap
    · exact h

end Sys2Proof.Machine
end

section
/-! The release of an instant (R119, R120): its descriptor in the release queue, completion signal g, the group's registers, and the group. -/

namespace Sys2Proof.Machine

/-! ## The descriptor (Table 5-2) -/

theorem length_descriptor (x : Inst) (now : Word) (g flags : Nat) (m : Mach) (l : List Cover) :
    (descriptor x now g flags m l).length = 32 + 16 * l.length := by
  have hmember : ∀ c : Cover, (leBytes 1 c.stream ++ leBytes 1 c.slot ++ leBytes 1 (m.strKind c.stream) ++ leBytes 1 0 ++
      leBytes 4 c.first ++ leBytes 2 c.count ++ leBytes 2 0 ++ leBytes 4 c.at_.toNat).length = 16 := fun c => by
    simp only [List.length_append, length_leBytes]
  rw [descriptor, List.length_append, length_flatMap_const hmember]
  simp only [List.length_append, length_leBytes]
  omega

/-- The descriptor written, where the release queue has a configuration and room. -/
def Mach.putDescriptor (m : Mach) (g : Nat) (d : List Byte) : Mach :=
  match m.releaseQueue g with
  | some q => (m.stagePush q d).1
  | none => m

section
variable (m : Mach)

theorem Mach.stagePush_rest (n : Nat) (d : List Byte) : { (m.stagePush n d).1 with mem := m.mem, stageQ := m.stageQ } = m := by
  unfold Mach.stagePush
  split
  · rfl
  · dsimp only
    split
    · dsimp only
      rw [m.setBytes_eq]
      rfl
    · rfl

theorem Mach.putDescriptor_rest (g : Nat) (d : List Byte) : { m.putDescriptor g d with mem := m.mem, stageQ := m.stageQ } = m := by
  unfold Mach.putDescriptor
  split
  · exact m.stagePush_rest _ d
  · rfl

/-- A swap that can take place before a record is written has taken place once. -/
theorem Tbq.settle_settle (q : Tbq) (geom : QGeom) (isOpen : Bool) : (q.settle geom isOpen).settle geom isOpen = q.settle geom isOpen := by
  rcases q.settle_cases geom isOpen with ⟨_, hq, _, hf, _⟩ | ⟨hno, hq⟩
  · have hno : q.swap.canSwap geom isOpen = false := Bool.eq_false_of_not_eq_true fun hcan => by
      have hfilled := (Tbq.canSwap_needs hcan).2
      omega
    rw [hq, Tbq.settle, hno, if_neg Bool.false_ne_true]
  · rw [hq, hq]

theorem Mach.putDescriptor_fits {g q : Nat} {c : StageCfg} {d : List Byte} (hqueue : m.releaseQueue g = some q)
    (hcfg : m.stageCfgOf q = some c) (hroom : m.releaseRoom g d.length = true) :
    m.putDescriptor g d = (m.setBytes (((m.stage q).settle c.geom false).fillAt c.geom) d).setStage q
      (((m.stage q).settle c.geom false).put c.geom d.length) := by
  have hfits : ((m.stage q).settle c.geom false).fits c.geom d.length = true := by
    rw [Mach.releaseRoom, hqueue] at hroom
    dsimp only at hroom
    rw [hcfg] at hroom
    dsimp only at hroom
    rw [Tbq.fits, Tbq.settle_settle]
    exact hroom
  rw [Mach.putDescriptor, hqueue]
  dsimp only
  rw [m.stagePush_fits hcfg hfits]

end

/-! ## What a release sets (R120) -/

/-- Every awaited member is listed. -/
def Mach.allListed (m : Mach) (g : Nat) (cov : List Cover) : Bool := (cov.filter Cover.whole).length == (m.awaited g).length

/-- The flags of the descriptor (Table 5-2). -/
def Mach.releaseFlags (m : Mach) (g : Nat) (x : Inst) (all : Bool) : Nat :=
  (if all then 0 else 1) + (if x.forced then 2 else 0) + (if x.epoch then 4 else 0) + (if (m.group g).calNext then 8 else 0)

/-- The descriptor of the release now. -/
def Mach.releaseDescriptor (m : Mach) (g : Nat) (x : Inst) (cov : List Cover) : List Byte :=
  Sys2Proof.Machine.descriptor x m.now g (m.releaseFlags g x (m.allListed g cov)) m (cov.filter Cover.whole)

/-- Completion signal g and the registers of the last instant. -/
def Mach.releaseShown (m : Mach) (g : Nat) (x : Inst) (now : Word) : Mach :=
  let m := m.addCsig g 1
  let tk : Word := x.tk.setWidth 32
  let m := ((m.setReg (Reg.FUS_ILOG g (x.k.toNat % 64)) tk).setReg (Reg.FUS_LAST_K g) x.k).setReg (Reg.FUS_LAST_TK g) tk
  ((m.setReg (Reg.FUS_LAST_REL g) now).incReg (Reg.FUS_RELEASES g)).setReg (Reg.FUS_NEXT_K g) (x.k + 1)

/-- Forced releases and those past the wait limit counted. -/
def Mach.releaseCounted (m : Mach) (g : Nat) (forced all : Bool) : Mach :=
  let m := if forced then (m.incReg (Reg.FUS_FORCED g)).raise (Reg.FUS_EVENT g) 0x8 else m
  if all then m else (m.incReg (Reg.FUS_EXPIRED g)).raise (Reg.FUS_EVENT g) 0x1

/-- The exposure and readout offsets in force for the release (R123). -/
def Mach.releaseOffs (m : Mach) (g : Nat) : Sparse (Nat × Nat) :=
  (List.range 32).foldl (fun t i =>
    if m.slotOn g i && m.strKind (m.slotStream g i) == 1 then
      sput (fun _ => (0, 0)) (m.slotStream g i) (m.calOffs g (m.slotStream g i)) t
    else t) []

/-- The group once its oldest instant x has been released and is open. -/
def Group.released (y : Group) (x : Inst) (ageRule : Bool) (offs : Sparse (Nat × Nat)) : Group :=
  { y with
    sched := y.sched.drop 1, last := some x, lastOffs := offs
    open_ := y.open_ ++ [{ k := x.k, tk := x.tk, ageRule := ageRule, aged := x.aged, discarded := x.discarded }] }

/-- The group set. -/
def Mach.releaseTaken (m : Mach) (g : Nat) (x : Inst) : Mach :=
  m.setGroup g ((m.group g).released x (m.ageOn g) (m.releaseOffs g))

/-- The listed members counted as covered and the others awaited as missed (R124). -/
def Mach.membersCounted (m : Mach) (g : Nat) (listed : List Cover) (missed : List Nat) : Mach :=
  missed.foldl (fun m i => m.missSlot g i false) (listed.foldl (fun m c => m.missSlot g c.slot true) m)

/-- The group's boundary of a swap passed; its test jets are due (R141, R362). -/
def Mach.boundaryPassed (m : Mach) (g : Nat) : Mach :=
  let u := m.swapPass g true
  (u.1.setGroup g { u.1.group g with calNext := u.2 }).onSafety fun f => { f with jetDue := f.jetDue ++ [g] }

/-- The descriptor written and the lost records counted: what comes before the group's registers. -/
def Mach.releaseBegun (m : Mach) (g : Nat) (x : Inst) (cov : List Cover) : Mach :=
  (cov.filter fun c => !c.whole).foldl Mach.countLost (m.putDescriptor g (m.releaseDescriptor g x cov))

/-- The registers of the release, before the group is set. -/
def Mach.releaseNoted (m : Mach) (g : Nat) (x : Inst) (now : Word) (all : Bool) : Mach :=
  (m.releaseShown g x now).releaseCounted g x.forced all

/-- The registers and the group set. -/
def Mach.releaseSet (m : Mach) (g : Nat) (x : Inst) (now : Word) (all : Bool) : Mach := (m.releaseNoted g x now all).releaseTaken g x

theorem Mach.release_eq (m : Mach) (g : Nat) (x : Inst) (cov : List Cover) : m.release g x cov =
    (((m.releaseBegun g x cov).releaseSet g x m.now (m.allListed g cov)).membersCounted g (cov.filter Cover.whole)
      ((m.awaited g).filter fun i => !((cov.filter Cover.whole).any fun c => c.slot == i))).boundaryPassed g := rfl

/-! ## What the registers show -/

section
variable (m : Mach) (g : Nat) (x : Inst) (now : Word)

theorem Mach.releaseShown_shows :
    (m.releaseShown g x now).reg (Reg.FUS_LAST_K g) = x.k ∧ (m.releaseShown g x now).reg (Reg.FUS_LAST_TK g) = x.tk.setWidth 32 ∧
      (m.releaseShown g x now).reg (Reg.FUS_LAST_REL g) = now ∧ (m.releaseShown g x now).reg (Reg.FUS_NEXT_K g) = x.k + 1 ∧
      (m.releaseShown g x now).reg (Reg.FUS_ILOG g (x.k.toNat % 64)) = x.tk.setWidth 32 := by
  have hlog : ∀ o, o < 0x100 → 0x180000 + 0x400 * g + 0x100 + 4 * (x.k.toNat % 64) ≠ 0x180000 + 0x400 * g + o := by omega
  simp [Mach.releaseShown, Mach.reg_setReg, Mach.incReg_reg, hlog]

/-- Completion signal g and the count of releases go one on. -/
theorem Mach.releaseShown_counts (hg : g < 16) : (m.releaseShown g x now).csig g = m.csig g + 1 ∧
    (m.releaseShown g x now).reg (Reg.FUS_RELEASES g) = m.reg (Reg.FUS_RELEASES g) + 1 := by
  have hsignal : ∀ o, Reg.CQ_CSIG g ≠ 0x180000 + 0x400 * g + o := by simp only [Reg.CQ_CSIG]; omega
  have hlog : ∀ o, o < 0x100 → 0x180000 + 0x400 * g + o ≠ 0x180000 + 0x400 * g + 0x100 + 4 * (x.k.toNat % 64) := by omega
  have hsignalLog : Reg.CQ_CSIG g ≠ 0x180000 + 0x400 * g + 0x100 + 4 * (x.k.toNat % 64) := by simp only [Reg.CQ_CSIG]; omega
  simp [Mach.releaseShown, Mach.csig, Mach.addCsig, Mach.reg_setReg, Mach.incReg_reg, hsignal, hlog, hsignalLog, (hsignal _).symm]

/-- The registers of group g that a release does not reach with these. -/
theorem Mach.releaseShown_kept (hg : g < 16) {o : Nat} (ho : o < 0x24 ∨ 0x3C ≤ o ∧ o < 0x100) :
    (m.releaseShown g x now).reg (0x180000 + 0x400 * g + o) = m.reg (0x180000 + 0x400 * g + o) := by
  have hlog : 0x180000 + 0x400 * g + o ≠ Reg.FUS_ILOG g (x.k.toNat % 64) := by simp only [Reg.FUS_ILOG]; omega
  have hsignal : 0x180000 + 0x400 * g + o ≠ Reg.CQ_CSIG g := by simp only [Reg.CQ_CSIG]; omega
  have hout : o ≠ 0x24 ∧ o ≠ 0x28 ∧ o ≠ 0x2C ∧ o ≠ 0x30 ∧ o ≠ 0x38 := by omega
  simp [Mach.releaseShown, Mach.addCsig, Mach.reg_setReg, Mach.incReg_reg, hlog, hsignal, hout]

variable (forced all : Bool)

theorem Mach.releaseCounted_kept {r : Nat} (hr : r ∉ [Reg.FUS_FORCED g, Reg.FUS_EXPIRED g, Reg.FUS_EVENT g]) :
    (m.releaseCounted g forced all).reg r = m.reg r := by
  simp only [List.mem_cons, List.not_mem_nil, or_false, not_or] at hr
  cases forced <;> cases all <;> simp [Mach.releaseCounted, Mach.raise_reg, Mach.incReg_reg, hr]

theorem Mach.releaseCounted_counts :
    (m.releaseCounted g forced all).reg (Reg.FUS_FORCED g) = m.reg (Reg.FUS_FORCED g) + (if forced then 1 else 0) ∧
      (m.releaseCounted g forced all).reg (Reg.FUS_EXPIRED g) = m.reg (Reg.FUS_EXPIRED g) + (if all then 0 else 1) := by
  cases forced <;> cases all <;> simp [Mach.releaseCounted, Mach.raise_reg, Mach.incReg_reg]

theorem Mach.releaseCounted_rest : { m.releaseCounted g forced all with regs := m.regs } = m := by
  have hforced : { (if forced then (m.incReg (Reg.FUS_FORCED g)).raise (Reg.FUS_EVENT g) 0x8 else m) with regs := m.regs } = m := by
    split
    · exact Mach.regs_rest_setReg (Mach.regs_rest_setReg rfl _ _) _ _
    · rfl
  unfold Mach.releaseCounted
  generalize (if forced then (m.incReg (Reg.FUS_FORCED g)).raise (Reg.FUS_EVENT g) 0x8 else m) = u at *
  dsimp only
  split
  · exact hforced
  · exact Mach.regs_rest_setReg (Mach.regs_rest_setReg hforced _ _) _ _

theorem Mach.releaseShown_rest : { m.releaseShown g x now with regs := m.regs } = m := by
  have hsignal : { m.addCsig g 1 with regs := m.regs } = m := rfl
  unfold Mach.releaseShown
  generalize m.addCsig g 1 = u at *
  dsimp only
  iterate 6 refine Mach.regs_rest_setReg ?_ _ _
  exact hsignal

theorem Mach.releaseNoted_rest : { m.releaseNoted g x now all with regs := m.regs } = m :=
  Mach.regs_rest_trans (m.releaseShown_rest g x now) (Mach.releaseCounted_rest _ g x.forced all)

theorem Mach.releaseNoted_groups : (m.releaseNoted g x now all).groups = m.groups := (congrArg Mach.groups (m.releaseNoted_rest g x now all) :)

end

/-- What the registers and completion signal g show of the release of an instant. -/
def Mach.showsRelease (m : Mach) (g : Nat) (x : Inst) (now : Word) (all : Bool) (t : Mach) : Prop :=
  t.reg (Reg.FUS_LAST_K g) = x.k ∧ t.reg (Reg.FUS_LAST_TK g) = x.tk.setWidth 32 ∧ t.reg (Reg.FUS_LAST_REL g) = now ∧
    t.reg (Reg.FUS_NEXT_K g) = x.k + 1 ∧ t.reg (Reg.FUS_ILOG g (x.k.toNat % 64)) = x.tk.setWidth 32 ∧
    t.reg (Reg.FUS_RELEASES g) = m.reg (Reg.FUS_RELEASES g) + 1 ∧
    t.reg (Reg.FUS_FORCED g) = m.reg (Reg.FUS_FORCED g) + (if x.forced then 1 else 0) ∧
    t.reg (Reg.FUS_EXPIRED g) = m.reg (Reg.FUS_EXPIRED g) + (if all then 0 else 1) ∧ t.csig g = m.csig g + 1

/-- The registers that a release shows. -/
def releasedRegs (g j : Nat) : List Nat := [Reg.FUS_LAST_K g, Reg.FUS_LAST_TK g, Reg.FUS_LAST_REL g, Reg.FUS_NEXT_K g, Reg.FUS_ILOG g j,
  Reg.FUS_RELEASES g, Reg.FUS_FORCED g, Reg.FUS_EXPIRED g, Reg.CQ_CSIG g]

/-- Nothing beside a release reaches them. -/
theorem releasedRegs_not_aside {g j r : Nat} (hg : g < 16) (hj : j < 64) (hr : r ∈ releasedRegs g j) : ¬ asideReg r := by
  simp only [releasedRegs, Reg.FUS_LAST_K, Reg.FUS_LAST_TK, Reg.FUS_LAST_REL, Reg.FUS_NEXT_K, Reg.FUS_ILOG, Reg.FUS_RELEASES,
    Reg.FUS_FORCED, Reg.FUS_EXPIRED, Reg.CQ_CSIG, List.mem_cons, List.not_mem_nil, or_false] at hr
  simp only [asideReg, Reg.FUS_EVENT, not_or, not_exists]
  refine ⟨by omega, by omega, fun o => ?_⟩
  omega

theorem Mach.showsRelease.congr {m m' t t' : Mach} {g : Nat} {x : Inst} {now : Word} {all : Bool} (h : m.showsRelease g x now all t)
    (hm : ∀ r ∈ releasedRegs g (x.k.toNat % 64), m'.reg r = m.reg r) (ht : ∀ r ∈ releasedRegs g (x.k.toNat % 64), t'.reg r = t.reg r) :
    m'.showsRelease g x now all t' := by
  simp only [releasedRegs, List.forall_mem_cons] at hm ht
  obtain ⟨-, -, -, -, -, hm1, hm2, hm3, hm4, -⟩ := hm
  obtain ⟨ht1, ht2, ht3, ht4, ht5, ht6, ht7, ht8, ht9, -⟩ := ht
  simp only [Mach.showsRelease, Mach.csig] at h ⊢
  rwa [hm1, hm2, hm3, hm4, ht1, ht2, ht3, ht4, ht5, ht6, ht7, ht8, ht9]

/-! ## The registers and the group -/

section
variable (m : Mach) {g : Nat} (hg : g < 16) (x : Inst) (now : Word) (all : Bool)

/-- Changes of registers, then of groups. -/
theorem Mach.regs_groups_rest {m t u : Mach} (h : { t with regs := m.regs } = m) (k : { u with groups := t.groups } = t) :
    { u with regs := m.regs, groups := m.groups } = m := by
  have hgroups : t.groups = m.groups := (congrArg Mach.groups h :)
  rw [hgroups] at k
  exact (congrArg (fun x : Mach => { x with regs := m.regs }) k).trans h

theorem Mach.releaseTaken_rest (m : Mach) (g : Nat) (x : Inst) : { m.releaseTaken g x with groups := m.groups } = m := rfl

theorem Mach.releaseSet_rest : { m.releaseSet g x now all with regs := m.regs, groups := m.groups } = m :=
  Mach.regs_groups_rest (m.releaseNoted_rest g x now all) ((m.releaseNoted g x now all).releaseTaken_rest g x)

theorem Mach.releaseSet_others {o : Nat} (ho : o ≠ g) : (m.releaseSet g x now all).group o = m.group o :=
  (Mach.group_setGroup_ne (m.releaseNoted g x now all) ho _).trans (Mach.group_congr (m.releaseNoted_groups g x now all) o)

theorem Mach.releaseSet_reg (r : Nat) : (m.releaseSet g x now all).reg r = (m.releaseNoted g x now all).reg r :=
  Mach.setGroup_reg (m.releaseNoted g x now all) g _ r

include hg

theorem Mach.releaseSet_group : (m.releaseSet g x now all).group g =
    (m.group g).released x (m.ageOn g) ((m.releaseNoted g x now all).releaseOffs g) := by
  have hctrl : (m.releaseNoted g x now all).reg (Reg.FUS_CTRL g) = m.reg (Reg.FUS_CTRL g) :=
    (Mach.releaseCounted_kept _ g x.forced all (by simp)).trans (m.releaseShown_kept g x now hg (o := 0) (.inl (by decide)))
  have hage : (m.releaseNoted g x now all).ageOn g = m.ageOn g := Mach.rbit_congr hctrl 22
  rw [Mach.releaseSet, Mach.releaseTaken, Mach.group_setGroup_same, Mach.group_congr (m.releaseNoted_groups g x now all), hage]

theorem Mach.releaseSet_shows : m.showsRelease g x now all (m.releaseSet g x now all) := by
  obtain ⟨hk, htk, hrel, hnext, hlog⟩ := m.releaseShown_shows g x now
  obtain ⟨hsignal, hreleases⟩ := m.releaseShown_counts g x now hg
  obtain ⟨hforced, hexpired⟩ := (m.releaseShown g x now).releaseCounted_counts g x.forced all
  have hkept : ∀ r, r ∉ [Reg.FUS_FORCED g, Reg.FUS_EXPIRED g, Reg.FUS_EVENT g] →
      (m.releaseSet g x now all).reg r = (m.releaseShown g x now).reg r := fun r hr =>
    (m.releaseSet_reg x now all r).trans (Mach.releaseCounted_kept _ g x.forced all hr)
  have hout : ∀ r, (∀ o, o < 0x100 → r ≠ 0x180000 + 0x400 * g + o) →
      r ∉ [Reg.FUS_FORCED g, Reg.FUS_EXPIRED g, Reg.FUS_EVENT g] := fun r hr => by
    simpa using ⟨hr 0x40 (by decide), hr 0x3C (by decide), hr 0x8 (by decide)⟩
  refine ⟨(hkept _ (by simp)).trans hk, (hkept _ (by simp)).trans htk, (hkept _ (by simp)).trans hrel, (hkept _ (by simp)).trans hnext,
    (hkept _ (hout _ fun o ho => ?_)).trans hlog, (hkept _ (by simp)).trans hreleases, ?_, ?_, ?_⟩
  · simp only [Reg.FUS_ILOG]
    omega
  · rw [m.releaseSet_reg]
    exact hforced.trans (by rw [m.releaseShown_kept g x now hg (o := 0x40) (.inr (by decide))])
  · rw [m.releaseSet_reg]
    exact hexpired.trans (by rw [m.releaseShown_kept g x now hg (o := 0x3C) (.inr (by decide))])
  · rw [Mach.csig, hkept _ (hout _ fun o _ => by simp only [Reg.CQ_CSIG]; omega)]
    exact hsignal

end

end Sys2Proof.Machine
end

section
/-! A release, whole (R119, R120): what its descriptor, the registers and the group set come to with all that lies beside them, and the
happenings that bring instants to it. -/

namespace Sys2Proof.Machine

/-! ## What comes before and after -/

section
variable {m : Mach} {g : Nat} {x : Inst} {cov : List Cover} (hcov : ∀ c ∈ cov, c.stream < 256)

include hcov in
theorem Mach.releaseBegun_aside : Mach.Aside g (m.putDescriptor g (m.releaseDescriptor g x cov)) (m.releaseBegun g x cov) :=
  List.foldlRecOn (motive := Mach.Aside g _) _ _ (.refl g _) fun _ hu c hc => hu.countLost (hcov c (List.mem_of_mem_filter hc))

theorem Mach.Aside.membersCounted {t : Mach} (h : Mach.Aside g m t) (listed : List Cover) (missed : List Nat) :
    Mach.Aside g m (t.membersCounted g listed missed) :=
  List.foldlRecOn (motive := Mach.Aside g m) missed _
    (List.foldlRecOn (motive := Mach.Aside g m) listed _ h fun _ hu c _ => hu.missSlot c.slot true) fun _ hu i _ => hu.missSlot i false

theorem Mach.Aside.boundaryPassed {t : Mach} (h : Mach.Aside g m t) : Mach.Aside g m (t.boundaryPassed g) :=
  ((h.swapPass true).setCalNext (t.swapPass g true).2).onSafety fun f => { f with jetDue := f.jetDue ++ [g] }

/-- What follows the registers and the group of a release is beside it. -/
theorem Mach.release_aside : Mach.Aside g ((m.releaseBegun g x cov).releaseSet g x m.now (m.allListed g cov)) (m.release g x cov) := by
  rw [Mach.release_eq]
  exact ((Mach.Aside.refl g _).membersCounted _ _).boundaryPassed

/-! ## A release, whole -/

theorem Mach.putDescriptor_reg (d : List Byte) (r : Nat) : (m.putDescriptor g d).reg r = m.reg r := by
  have hregs : (m.putDescriptor g d).regs = m.regs := (congrArg Mach.regs (m.putDescriptor_rest g d) :)
  rw [Mach.reg, hregs]
  rfl

theorem Mach.putDescriptor_group (d : List Byte) (o : Nat) : (m.putDescriptor g d).group o = m.group o :=
  Mach.group_congr (congrArg Mach.groups (m.putDescriptor_rest g d) :) o

include hcov

theorem Mach.release_others {o : Nat} (ho : o ≠ g) : (m.release g x cov).group o = m.group o := by
  rw [Mach.release_aside.others o ho, Mach.releaseSet_others _ x _ _ ho, (Mach.releaseBegun_aside hcov).others o ho,
    Mach.putDescriptor_group]

theorem Mach.release_rest : (m.release g x cov).time = m.time ∧ (m.release g x cov).cq = m.cq := by
  have hset := (m.releaseBegun g x cov).releaseSet_rest (g := g) x m.now (m.allListed g cov)
  have hput := m.putDescriptor_rest g (m.releaseDescriptor g x cov)
  have hbegun := Mach.releaseBegun_aside (m := m) (g := g) (x := x) hcov
  have htime : ((m.releaseBegun g x cov).releaseSet g x m.now (m.allListed g cov)).time = (m.releaseBegun g x cov).time :=
    (congrArg Mach.time hset :)
  have hcq : ((m.releaseBegun g x cov).releaseSet g x m.now (m.allListed g cov)).cq = (m.releaseBegun g x cov).cq :=
    (congrArg Mach.cq hset :)
  exact ⟨((Mach.release_aside.time.trans htime).trans hbegun.time).trans (congrArg Mach.time hput :),
    ((Mach.release_aside.cq.trans hcq).trans hbegun.cq).trans (congrArg Mach.cq hput :)⟩

variable (hg : g < 16)
include hg

theorem Mach.release_group : ((m.release g x cov).group g).sched = (m.group g).sched.drop 1 ∧ ((m.release g x cov).group g).last = some x ∧
    ((m.release g x cov).group g).open_ = (m.group g).open_ ++
      [{ k := x.k, tk := x.tk, ageRule := m.ageOn g, aged := x.aged, discarded := x.discarded }] := by
  have hbegun := Mach.releaseBegun_aside (m := m) (g := g) (x := x) hcov
  have hctrl : ¬ asideReg (Reg.FUS_CTRL g) := by
    simp only [asideReg, Reg.FUS_CTRL, Reg.FUS_EVENT, not_or, not_exists]
    refine ⟨by omega, by omega, fun o => ?_⟩
    omega
  have hage : (m.releaseBegun g x cov).ageOn g = m.ageOn g :=
    Mach.rbit_congr ((hbegun.reg _ hctrl).trans (Mach.putDescriptor_reg _ _)) 22
  obtain ⟨hsched, hlast, hopen⟩ := (Mach.release_aside (m := m) (g := g) (x := x) (cov := cov)).group_kept
  obtain ⟨hsched0, -, hopen0⟩ := hbegun.group_kept
  rw [Mach.putDescriptor_group] at hsched0 hopen0
  rw [Mach.releaseSet_group _ hg] at hsched hlast hopen
  refine ⟨hsched.trans ?_, hlast, hopen.trans ?_⟩
  · rw [Group.released, hsched0]
  · rw [Group.released, hopen0, hage]

theorem Mach.release_shows : m.showsRelease g x m.now (m.allListed g cov) (m.release g x cov) := by
  have hshows := (m.releaseBegun g x cov).releaseSet_shows hg x m.now (m.allListed g cov)
  have haside : ∀ r ∈ releasedRegs g (x.k.toNat % 64), ¬ asideReg r := fun r hr =>
    releasedRegs_not_aside hg (Nat.mod_lt _ (by decide)) hr
  refine hshows.congr (fun r hr => ?_) fun r hr => Mach.release_aside.reg r (haside r hr)
  rw [(Mach.releaseBegun_aside hcov).reg r (haside r hr), Mach.putDescriptor_reg]

omit hg in
/-- Where no swap is pending, the descriptor is all of a release that reaches memory and the stage queues. -/
theorem Mach.release_delivers (hswap : m.cal.swap = none) {q : Nat} {c : StageCfg} (hqueue : m.releaseQueue g = some q)
    (hcfg : m.stageCfgOf q = some c) (hroom : m.releaseRoom g (32 + 16 * (cov.filter Cover.whole).length) = true) :
    (m.release g x cov).stage q =
        ((m.stage q).settle c.geom false).put c.geom (32 + 16 * (cov.filter Cover.whole).length) ∧
      (∀ o, o ≠ q → (m.release g x cov).stage o = m.stage o) ∧
      (m.release g x cov).bytes (((m.stage q).settle c.geom false).fillAt c.geom) (32 + 16 * (cov.filter Cover.whole).length) =
        m.releaseDescriptor g x cov ∧
      ∀ a, a < ((m.stage q).settle c.geom false).fillAt c.geom ∨
          ((m.stage q).settle c.geom false).fillAt c.geom + (32 + 16 * (cov.filter Cover.whole).length) ≤ a →
        (m.release g x cov).byte a = m.byte a := by
  have hlen : (m.releaseDescriptor g x cov).length = 32 + 16 * (cov.filter Cover.whole).length := length_descriptor _ _ _ _ _ _
  rw [← hlen] at hroom ⊢
  have hput := m.putDescriptor_fits hqueue hcfg hroom
  have hbegun := Mach.releaseBegun_aside (m := m) (g := g) (x := x) hcov
  have hset := (m.releaseBegun g x cov).releaseSet_rest (g := g) x m.now (m.allListed g cov)
  have hcal : (m.putDescriptor g (m.releaseDescriptor g x cov)).cal.swap = none := by
    have hsame : (m.putDescriptor g (m.releaseDescriptor g x cov)).cal = m.cal := (congrArg Mach.cal (m.putDescriptor_rest g _) :)
    rw [hsame, hswap]
  obtain ⟨hmem, hstill⟩ := hbegun.still hcal
  have hstill' : ((m.releaseBegun g x cov).releaseSet g x m.now (m.allListed g cov)).cal.swap = none :=
    (congrArg (fun u : Mach => u.cal.swap) hset :).trans hstill
  have hmems : (m.release g x cov).mem = (m.putDescriptor g (m.releaseDescriptor g x cov)).mem :=
    ((Mach.release_aside.still hstill').1.trans (congrArg Mach.mem hset :)).trans hmem
  have hstages : (m.release g x cov).stageQ = (m.putDescriptor g (m.releaseDescriptor g x cov)).stageQ :=
    (Mach.release_aside.stageQ.trans (congrArg Mach.stageQ hset :)).trans hbegun.stageQ
  generalize m.releaseDescriptor g x cov = d at *
  generalize ((m.stage q).settle c.geom false).fillAt c.geom = base at *
  generalize ((m.stage q).settle c.geom false).put c.geom d.length = dest at *
  have hstage : ∀ o, (m.release g x cov).stage o = ((m.setBytes base d).setStage q dest).stage o := fun o => by
    rw [Mach.stage, hstages, hput]
    rfl
  have hbyte : ∀ a, (m.release g x cov).byte a = (m.setBytes base d).byte a := fun a => by
    rw [Mach.byte, hmems, hput]
    rfl
  refine ⟨?_, fun o ho => ?_, ?_, fun a ha => ?_⟩
  · rw [hstage, Mach.stage_setStage_same]
  · rw [hstage, Mach.stage_setStage_ne _ ho, m.setBytes_eq]
    rfl
  · rw [Mach.bytes_congr fun i _ => hbyte (base + i), m.bytes_setBytes_all]
  · rw [hbyte, m.setBytes_byte_out d base a ha]

end

/-! ## The commands -/

theorem Mach.judge_covers {m : Mach} {g : Nat} {x : Inst} {cov : List Cover} {ready room : Bool}
    (h : m.judge g = some (x, cov, ready, room)) :
    cov = m.covers g x ∧ room = m.releaseRoom g (32 + 16 * (cov.filter Cover.whole).length) := by
  unfold Mach.judge at h
  split at h
  · split at h
    · simp only [Option.some.injEq, Prod.mk.injEq] at h
      obtain ⟨rfl, rfl, -, rfl⟩ := h
      exact ⟨rfl, rfl⟩
    · cases h
  · cases h

theorem Mach.releaseOne_eq {m : Mach} {g : Nat} {x : Inst} {cov : List Cover} (h : m.judge g = some (x, cov, true, true)) :
    m.releaseOne g = ((m.release g x cov).admitDue g ((m.release g x cov).group g).sched.length).drainGroup g := by
  rw [Mach.releaseOne, Mach.tryRelease, h]
  rfl

theorem exec_instantRelease {s : State} {g : Fin 16} (live : s.m.live = true) (hruns : s.m.runs 150 = true) {x : Inst}
    {cov : List Cover} (hjudge : s.m.judge g = some (x, cov, true, true)) :
    exec (.instantRelease g) s = .next { s with m := (((s.m.release g x cov).admitDue g
      ((s.m.release g x cov).group g).sched.length).drainGroup g).runJets } := by
  rw [← Mach.releaseOne_eq hjudge]
  exact act_frontRuns live hruns fun m => (m.releaseOne g).runJets

/-- Settles O25: the instant that falls due is the only one that can wait, the wait limit marks the oldest pending instant, and what follows
a release's descriptor, registers and group lies beside them. -/
theorem instantsRelease : Obligations.InstantsRelease := by
  intro s g live
  refine ⟨fun x hruns hnext hdue => ?_, fun x rest hsched hpending hover => ?_, fun x cov hruns hjudge => ?_⟩
  · have honly := s.m.instantFallen_only g x.tk
    obtain ⟨hsched, hkept⟩ := s.m.instantFallen_group g x.tk
    exact ⟨s.m.instantFallen g x.tk, exec_instantDue live hruns hnext hdue, hsched, hkept, honly.others, honly.reg, honly.rest,
      s.m.instantFallen_admits g x.tk⟩
  · exact ⟨_, exec_waitLimitExpiry live hsched hpending hover, fun o ho => s.m.group_setGroup_ne ho _, s.m.group_setGroup_same g _, rfl⟩
  · obtain ⟨rfl, hroom⟩ := Mach.judge_covers hjudge
    have hcov : ∀ c ∈ s.m.covers g x, c.stream < 256 := fun c hc => Mach.covers_stream_lt hc
    obtain ⟨hsched, hlast, hopen⟩ := Mach.release_group (m := s.m) (x := x) hcov g.isLt
    obtain ⟨hk, htk, hrel, hnext, hlog, hreleases, hforced, hexpired, hsignal⟩ := Mach.release_shows (m := s.m) (x := x) hcov g.isLt
    obtain ⟨htime, hcq⟩ := Mach.release_rest (m := s.m) (g := g) (x := x) hcov
    exact ⟨s.m.release g x (s.m.covers g x), exec_instantRelease live hruns hjudge, hsched, hlast, hopen,
      fun o ho => Mach.release_others hcov ho, hk, htk, hrel, hnext, hlog, hreleases, hforced, hexpired, hsignal, htime, hcq,
      fun q c hswap hqueue hcfg => Mach.release_delivers hcov hswap hqueue hcfg hroom.symm⟩

end Sys2Proof.Machine
end

section
/-! Calibration and pose (R139 to R153): a swap's end shows in CAL_SWAP_COUNT, so that a tick at which the count stands has completed
none; and a tick computed from one that lists no position. -/

namespace Sys2Proof.Machine

/-! ## The end of a swap (R141) -/

/-- The configuration copy follows the active entries and changes no register (R369). -/
theorem Mach.copyEntries_reg (m : Mach) (set r : Nat) : (m.copyEntries set).reg r = m.reg r := by
  have hregs : (m.copyEntries set).regs = m.regs := (congrArg Mach.regs (Mach.copyWords_memOnly _) :)
  rw [Mach.reg, hregs]
  rfl

/-- A swap that completes is counted. -/
theorem Mach.swapDone_swapCount (m : Mach) (w : Swap) : (m.swapDone w).reg Reg.CAL_SWAP_COUNT = m.reg Reg.CAL_SWAP_COUNT + 1 := by
  rw [Mach.swapDone, Mach.raise_reg, if_neg (by decide), Mach.incReg_reg, if_pos rfl, Mach.reg_setReg_ne _ (by decide),
    Mach.setRBit_reg, if_neg (by decide), Mach.copyEntries_reg]
  rfl

/-- Where CAL_SWAP_COUNT has not moved no swap has completed, and nothing has changed. -/
theorem Mach.swapCheck_eq_of_swapCount {m : Mach} (h : m.swapCheck.reg Reg.CAL_SWAP_COUNT = m.reg Reg.CAL_SWAP_COUNT) :
    m.swapCheck = m := by
  rcases m.swapCheck_cases with hsame | ⟨w, hdone⟩
  · exact hsame
  · rw [hdone, m.swapDone_swapCount w] at h
    exact absurd (add_eq_left.mp h) (by decide)

/-! ## A tick computed from one without a position (R147, R148) -/

/-- The pose tick answers the module it leads to. -/
theorem exec_poseTick {s : State} (live : s.m.live = true) (hruns : s.m.runs 150 = true) :
    exec .poseTick s = .next { s with m := s.m.poseTick } :=
  (act_live live _).trans (by rw [if_pos hruns])

/-- A tick that answers a module in which a swap's end has been looked for, with CAL_SWAP_COUNT where it stood, answers the module before it. -/
theorem Mach.poseTick_eq_of_exec {s : State} {u : Mach} (live : s.m.live = true) (hruns : s.m.runs 150 = true)
    (hexec : exec .poseTick s = .next { s with m := u.swapCheck })
    (hcount : s.m.poseTick.reg Reg.CAL_SWAP_COUNT = u.reg Reg.CAL_SWAP_COUNT) : s.m.poseTick = u := by
  rw [exec_poseTick live hruns] at hexec
  have hchecked : s.m.poseTick = u.swapCheck := (congrArg State.m (Host.Outcome.next.inj hexec) :)
  rw [hchecked] at hcount ⊢
  exact Mach.swapCheck_eq_of_swapCount hcount

/-- A module with tick 1 due, whose tick 0 lists no coordinate of a position: tick 1 lists none either, and its entry is 12 bytes short. -/
def bareTick : State := { State.reset with m := { State.reset.m with
  time := { State.reset.m.time with count := 1000000 }
  cal := { pose := { next := some 1, ticks := [{ n := 0, p := [] }] } } } }

theorem bareTick_live : bareTick.m.live = true := rfl

theorem bareTick_free : bareTick.m.blockPosted Reg.CAL_CTRL = false := rfl

theorem bareTick_runs : bareTick.m.runs 150 = true := rfl

theorem bareTick_due : 1 * 1000000 + bareTick.m.fld Reg.CAL_POSE_CFG 0 13 * 1000 ≤ bareTick.m.time.count.toNat := by decide +kernel

theorem bareTick_gen : bareTick.m.le (bareTick.m.poseAddr 1) 4 = 0 := by decide +kernel

/-- The short entry does not reach the second gen word's place. -/
theorem bareTick_poseTick_gen : bareTick.m.poseTick.le (bareTick.m.poseAddr 1 + 0x3C) 4 = 0 := by decide +kernel

theorem bareTick_poseTick_swapCount : bareTick.m.poseTick.reg Reg.CAL_SWAP_COUNT = bareTick.m.reg Reg.CAL_SWAP_COUNT := by decide +kernel

/-- Refutes O26: a state may hold a computed tick that does not list three coordinates. The tick after it lists no more of them, and its
entry ends before +0x3C, so that the second gen word is not one on from the slot's last. -/
theorem not_calibrationAndPose : ¬ Obligations.CalibrationAndPose := by
  rintro ⟨-, hpose⟩
  obtain ⟨u, hexec, -, -, -, -, hgen, -, -, -, hregs, -⟩ := (hpose bareTick bareTick_live bareTick_free).1 1 bareTick_runs rfl bareTick_due
  have hcount := bareTick_poseTick_swapCount.trans (hregs Reg.CAL_SWAP_COUNT (by decide)).symm
  rw [← Mach.poseTick_eq_of_exec bareTick_live bareTick_runs hexec hcount, bareTick_poseTick_gen, bareTick_gen] at hgen
  exact absurd hgen (by decide)

end Sys2Proof.Machine
end

section
/-! A command of queue q as the start stage takes it (R293), and a POINT command's start: the module in which the command is in flight, and
what a start leaves of memory while nothing is traced (R407). -/

namespace Sys2Proof.Machine

/-- The head of queue q has been read: HEAD moves on, except past a command that is taken again or repeated. -/
def Mach.headMoved (m : Mach) (q : Nat) : Mach :=
  if (m.cmdq q).retake || (m.cmdq q).redo.isSome then m else m.setReg (Reg.CQ_HEAD q) (m.headNum q + 1)

/-- The command b of queue q as it is in flight. -/
def Mach.inFlight (m : Mach) (q : Nat) (b put : List Byte) : Started :=
  { num := m.headNum q, bytes := b, quiet := (m.cmdq q).redo.isSome && (m.cmdq q).redoDone.contains (m.headNum q),
    redo := (m.cmdq q).redo.isSome, put := put, at_ := m.time.count }

/-- Queue q once its head b has been taken. -/
def Mach.takenQueue (m : Mach) (q : Nat) (b put : List Byte) : CmdQ :=
  { m.cmdq q with
    started := (m.cmdq q).started ++ [m.inFlight q b put], credit := (m.cmdq q).credit && !m.needsStep q b, stepWaited := false,
    retake := false, redo := (m.headMoved q).redoAfter q,
    redoDone := if ((m.headMoved q).redoAfter q).isNone then [] else (m.cmdq q).redoDone }

/-- The command b of queue q taken, before its record is traced. -/
def Mach.taken (m : Mach) (q : Nat) (b put : List Byte) : Mach :=
  let u := ((m.headMoved q).setCmdq q (m.takenQueue q b put)).setReg (Reg.CQ_LAST q) (BitVec.ofNat 32 (u16 b 4 * 2 ^ 16 + u16 b 6))
  { u with lastQ := sput (fun _ => 255) (u.queueCore q) q u.lastQ }

theorem Mach.take_eq (m : Mach) {b : List Byte} (hclass : cmdClass b ≠ 2) (q : Nat) (put : List Byte) : m.take q b put =
    if (m.taken q b put).tracesQueue q (cmdFlag b 2) 4 then
      (m.taken q b put).trace (0x80 + (m.taken q b put).queueCore q) 0x10 (m.cmdq q).redo.isSome.toNat (startPayload q (m.headNum q) b)
    else m.taken q b put := by
  have htime : (m.headMoved q).time = m.time := by
    unfold Mach.headMoved
    split <;> rfl
  unfold Mach.take Mach.taken Mach.takenQueue Mach.inFlight
  dsimp only
  rw [if_neg hclass, ← htime]
  rfl

/-- Nothing is traced in m, and from m to t neither memory nor a register below the CQ block has changed. -/
structure Mach.Quiet (m t : Mach) : Prop where
  off : m.traceOn = false
  mem : t.mem = m.mem
  reg : ∀ a < 0x80000, t.reg a = m.reg a

theorem Mach.Quiet.refl {m : Mach} (off : m.traceOn = false) : m.Quiet m := ⟨off, rfl, fun _ _ => rfl⟩

section
variable {m t : Mach} (h : m.Quiet t)
include h

theorem Mach.Quiet.traceOn : t.traceOn = false := (Mach.rbit_congr (h.reg _ (by decide)) 31).trans h.off

theorem Mach.Quiet.tracesQueue (q : Nat) (flag : Bool) (kind : Nat) : t.tracesQueue q flag kind = false := by
  rw [Mach.tracesQueue, h.traceOn]
  rfl

theorem Mach.Quiet.setReg {a : Nat} (ha : 0x80000 ≤ a) (v : Word) : m.Quiet (t.setReg a v) :=
  ⟨h.off, h.mem, fun b hb => (t.reg_setReg_ne (by omega) v).trans (h.reg b hb)⟩

theorem Mach.Quiet.raise {a : Nat} (ha : 0x80000 ≤ a) (bits : Nat) : m.Quiet (t.raise a bits) := h.setReg ha _

theorem Mach.Quiet.setCmdq (q : Nat) (x : CmdQ) : m.Quiet (t.setCmdq q x) := ⟨h.off, h.mem, h.reg⟩

theorem Mach.Quiet.traceDone (q : Nat) (num : Word) (b : List Byte) (outcome : Nat) (redo : Bool) :
    m.Quiet (t.traceDone q num b outcome redo) := by
  rw [Mach.traceDone, h.tracesQueue, if_neg Bool.false_ne_true]
  exact h

theorem Mach.Quiet.cmdError (q : Nat) (e : CmdErr) : m.Quiet (t.cmdError q e) := by
  unfold Mach.cmdError
  dsimp only
  refine Mach.Quiet.traceDone (Mach.Quiet.raise (Mach.Quiet.setReg (Mach.Quiet.setReg (Mach.Quiet.setCmdq ?_ _ _) ?_ _) ?_ _) ?_ _) _ _ _ _ _
  · split
    · exact h
    · exact h.setReg (by simp only [Reg.CQ_HEAD]; omega) _
  · simp only [Reg.CQ_ERR]; omega
  · simp only [Reg.CQ_ERRPOS]; omega
  · simp only [Reg.CQ_EVENT]; omega

theorem Mach.Quiet.checkHead (q : Nat) : m.Quiet (t.checkHead q) := by
  unfold Mach.checkHead
  dsimp only
  split
  · split
    · exact h.cmdError q _
    · split
      · exact (h.setCmdq q _).raise (by simp only [Reg.CQ_EVENT]; omega) _
      · exact h
  · exact h

theorem Mach.Quiet.taken (q : Nat) (b put : List Byte) : m.Quiet (t.taken q b put) := by
  have hlast {u : Mach} (k : m.Quiet u) (l : Sparse Nat) : m.Quiet { u with lastQ := l } := ⟨k.off, k.mem, k.reg⟩
  refine hlast (Mach.Quiet.setReg (Mach.Quiet.setCmdq ?_ q _) (by simp only [Reg.CQ_LAST]; omega) _) _
  unfold Mach.headMoved
  split
  · exact h
  · exact h.setReg (by simp only [Reg.CQ_HEAD]; omega) _

/-- Taking a command of any class but VECTOR, whose contexts are handed out. -/
theorem Mach.Quiet.take {b : List Byte} (hclass : cmdClass b ≠ 2) (q : Nat) (put : List Byte) : m.Quiet (t.take q b put) := by
  rw [t.take_eq hclass, (h.taken q b put).tracesQueue, if_neg Bool.false_ne_true]
  exact h.taken q b put

end

/-- Two effects of one start leave the same memory, where neither turns trace on. -/
theorem State.starts_mem {s : State} {c : Instr} {q : Nat} {u w : Mach} (hu : s.starts c q u) (hw : s.starts c q w)
    (hclass : cmdClass (s.m.headBytes q) ≠ 2) (uoff : u.traceOn = false) (woff : w.traceOn = false) : u.mem = w.mem := by
  have hsame := congrArg (fun t : State => t.m.mem) (Host.Outcome.next.inj (hu.symm.trans hw))
  exact (((Mach.Quiet.refl uoff).take hclass q []).checkHead q).mem.symm.trans
    (hsame.trans (((Mach.Quiet.refl woff).take hclass q []).checkHead q).mem)

/-- The command at the head of queue q is a POINT command of this operation, is taken now, and its unit finds no error in it. -/
def Mach.pointGoes (m : Mach) (q op : Nat) : Prop :=
  m.startable q 4 op ∧ firstErr (m.pointErrs (m.queueCore q) (m.headBytes q)) = .ok ()

/-- It is no VECTOR command, which alone is handed contexts as it is taken. -/
theorem Mach.pointGoes.notVector {m : Mach} {q op : Nat} (h : m.pointGoes q op) : cmdClass (m.headBytes q) ≠ 2 := by
  obtain ⟨⟨-, hclass, -⟩, -⟩ := h
  rw [hclass]
  decide

theorem Mach.pointGoes.op_eq {m : Mach} {q op : Nat} (h : m.pointGoes q op) : cmdOp (m.headBytes q) = op := by
  obtain ⟨⟨-, -, hop, -⟩, -⟩ := h
  exact hop

/-- A POINT command that goes has its effect. -/
theorem State.starts_point {s : State} {c : Instr} {q op : Nat} {f : Mach → Nat → List Byte → Mach} (live : s.m.live = true)
    (hexec : exec c s = act s fun m => m.startWith q 4 op (pointBody f)) (hop : knownOp 4 op = true) (hgo : s.m.pointGoes q op) :
    s.starts c q (f s.m (s.m.queueCore q) (s.m.headBytes q)) := by
  obtain ⟨hstart, hchecks⟩ := hgo
  have hbody : pointBody f s.m q (s.m.headBytes q) = .ok (f s.m (s.m.queueCore q) (s.m.headBytes q)) := by
    rw [pointBody, hchecks]
    rfl
  rw [State.starts, hexec, act_live live, s.m.startWith_ok hstart hop hbody]

end Sys2Proof.Machine
end

section
/-! VOXELISE in a module whose PNT_PT_COUNTt exceeds the 4,194,304 entries of a point table (R156): the sample that a nearer entry displaces
lies past the table's end, where the loss of its mark is written all the same (R163). -/

namespace Sys2Proof.Machine

/-- Point table 0 counts 4,194,305 entries. Entry 4,194,304, past its end, is the sample of the cell of key 0 in voxel table 0, and entry 0,
nearer to the middle of that cell, is to be binned. -/
def overfull : State := Tests.st <| Tests.headed (Tests.pointRegs ++ [(Reg.PNT_PT_COUNT 0, 0x400001)]) <|
  [(0, 4), (0x10, 3), (0x1C, 1)] ++ (List.range 8).map (fun i => (0x28 + i, 0xFF)) ++
  [(0x18000017, 2), (0x18000018, 0x8A), (0x18000019, 0xB2), (0x1800001A, 8),
    (0x2116514E, 0x40), (0x21165154, 0xFF), (0x21165155, 0xFF), (0x21165157, 1)]

theorem overfull_live : overfull.m.live = true := rfl

theorem overfull_untraced : overfull.m.traceOn = false := by decide +kernel

theorem overfull_goes : Tests.pointGoes overfull.m 3 := Tests.pointGoes_of (by decide +kernel)

/-- The flags of the sample, its mark set. -/
theorem overfull_marked : overfull.m.byte 0x18000017 = 2 := by decide +kernel

/-- They lie in neither table. -/
theorem overfull_apart : overfull.m.ptBase 0 + 2 ^ 27 ≤ 0x18000017 ∧ 0x18000017 < overfull.m.vtBase 0 := by decide +kernel

/-- VOXELISE clears the mark. -/
theorem overfull_voxelise_unmarked : (overfull.m.voxelise 0 0 0 0 1 none).byte 0x18000017 = 0 := by decide +kernel

theorem overfull_tables : (u8 (overfull.m.headBytes 0) 0x11, u8 (overfull.m.headBytes 0) 0x12) = (0, 0) := by decide +kernel

theorem overfull_epoch : u8 (overfull.m.headBytes 0) 0x31 % 16 = 0 := by decide +kernel

theorem overfull_entries : (u32 (overfull.m.headBytes 0) 0x18, u32 (overfull.m.headBytes 0) 0x1C) = (0, 1) := by decide +kernel

theorem overfull_identity : voxelRows overfull.m (overfull.m.queueCore 0) (overfull.m.headBytes 0) = none := by decide +kernel

/-- The effect of the command at the head. -/
theorem overfull_starts : overfull.starts (.voxelise 0) 0 (overfull.m.voxelise 0 0 0 0 1 none) := by
  have hstarts := State.starts_point (c := .voxelise 0) (q := 0) overfull_live rfl rfl overfull_goes
  obtain ⟨ht, hv⟩ := Prod.mk.inj overfull_tables
  obtain ⟨hfirst, hcount⟩ := Prod.mk.inj overfull_entries
  rwa [ht, hv, overfull_epoch, hfirst, hcount, overfull_identity] at hstarts

theorem overfull_voxelise_untraced : (overfull.m.voxelise 0 0 0 0 1 none).traceOn = false := by decide +kernel

/-- Refutes O27: a state may count more entries than a point table holds. The sample that VOXELISE displaces may then lie past the table's
end, and the loss of its mark changes a byte outside both tables. -/
theorem not_pointTableCommands : ¬ Obligations.PointTableCommands := by
  intro h
  obtain ⟨-, -, hvoxelise, -⟩ := h overfull 0 overfull_live
  obtain ⟨u, hstarts, hregs, hmem, -⟩ := hvoxelise overfull_goes
  have huntraced : u.traceOn = false := (Mach.rbit_congr (hregs Reg.DBG_TRACE_CTRL (by decide +kernel)) 31).trans overfull_untraced
  have hsame := State.starts_mem hstarts overfull_starts (by decide +kernel) huntraced overfull_voxelise_untraced
  have hkept : u.byte 0x18000017 = 2 :=
    (hmem _ (.inr (overfull_apart.1)) (.inl overfull_apart.2)).trans overfull_marked
  have hlost := overfull_voxelise_unmarked
  rw [Mach.byte, ← hsame] at hlost
  exact absurd (hkept.symm.trans hlost) (by decide)

end Sys2Proof.Machine
end

section
/-! Bytes read back from memory: lists of bytes that lie at an address, and several writes in a row taken as one. -/

namespace Sys2Proof.Machine

/-! ## Reads -/

theorem Mach.bytes_add (m : Mach) (a n k : Nat) : m.bytes a (n + k) = m.bytes a n ++ m.bytes (a + n) k := by
  induction n generalizing a with
  | zero => simp [Mach.bytes]
  | succ n ih =>
    rw [Nat.succ_add, Mach.bytes, Mach.bytes, ih, List.cons_append, Nat.add_assoc a 1 n, Nat.add_comm 1 n]

/-- A slice of the bytes read. -/
theorem Mach.bytes_slice (m : Mach) {n k j : Nat} (h : k + j ≤ n) (a : Nat) : ((m.bytes a n).drop k).take j = m.bytes (a + k) j := by
  obtain ⟨rest, rfl⟩ := Nat.exists_eq_add_of_le h
  rw [Nat.add_assoc, Mach.bytes_add, List.drop_left' (m.length_bytes a k), Mach.bytes_add, List.take_left' (m.length_bytes _ j)]

theorem Mach.fieldAt_bytes (m : Mach) {n off k : Nat} (h : off + k ≤ n) (a : Nat) : fieldAt (m.bytes a n) off k = m.le (a + off) k := by
  rw [fieldAt, m.bytes_slice h]
  rfl

theorem Mach.le_congr {m t : Mach} {a n : Nat} (h : ∀ i < n, t.byte (a + i) = m.byte (a + i)) : t.le a n = m.le a n := by
  rw [Mach.le, Mach.bytes_congr h]
  rfl

theorem Mach.word_congr {m t : Mach} {a : Nat} (h : ∀ i < 4, t.byte (a + i) = m.byte (a + i)) : t.word a = m.word a := by
  rw [Mach.word, Mach.le_congr h]
  rfl

theorem Mach.le_lt (m : Mach) (a n : Nat) : m.le a n < 256 ^ n := by
  have hlt := ofLe_lt (m.bytes a n)
  rwa [m.length_bytes] at hlt

/-- A word as the signed number that its four bytes spell. -/
theorem Mach.word_toInt (m : Mach) (a : Nat) : (m.word a).toInt = signed 32 (m.le a 4) := by
  have hlt : m.le a 4 < 2 ^ 32 := m.le_lt a 4
  rw [Mach.word, BitVec.toInt_eq_toNat_cond, BitVec.toNat_ofNat, Nat.mod_eq_of_lt hlt, signed]
  split <;> split <;> omega

/-! ## Bytes that lie at an address -/

/-- The bytes l lie in memory from address a on. -/
def Mach.holdsAt (m : Mach) (a : Nat) (l : List Byte) : Prop := m.bytes a l.length = l

theorem Mach.setBytes_holdsAt (m : Mach) (a : Nat) (l : List Byte) : (m.setBytes a l).holdsAt a l := m.bytes_setBytes_all a l

theorem Mach.holdsAt_append {m : Mach} {a : Nat} {l r : List Byte} :
    m.holdsAt a (l ++ r) ↔ m.holdsAt a l ∧ m.holdsAt (a + l.length) r := by
  rw [Mach.holdsAt, List.length_append, Mach.bytes_add]
  exact ⟨fun h => List.append_inj h (m.length_bytes a _), fun ⟨hl, hr⟩ => congrArg₂ (· ++ ·) hl hr⟩

section
variable {m : Mach} {a : Nat}

theorem Mach.holdsAt.congr {l : List Byte} (h : m.holdsAt a l) {t : Mach} (hsame : ∀ i < l.length, t.byte (a + i) = m.byte (a + i)) :
    t.holdsAt a l := (Mach.bytes_congr hsame).trans h

theorem Mach.holdsAt.le {n v : Nat} (h : m.holdsAt a (leBytes n v)) : m.le a n = v % 256 ^ n := by
  rw [Mach.holdsAt, length_leBytes] at h
  rw [Mach.le, h, ofLe_leBytes]

theorem Mach.holdsAt.word {v : Nat} (h : m.holdsAt a (leBytes 4 v)) : m.word a = BitVec.ofNat 32 v := by
  rw [Mach.word, h.le]
  exact BitVec.eq_of_toNat_eq (by rw [BitVec.toNat_ofNat, BitVec.toNat_ofNat]; omega)

theorem Mach.holdsAt.head {b : Byte} {l : List Byte} (h : m.holdsAt a (b :: l)) : m.byte a = b := (List.cons.inj h).1

theorem Mach.holdsAt.zeros {n : Nat} (h : m.holdsAt a (List.replicate n 0)) {i : Nat} (hi : i < n) : m.byte (a + i) = 0 := by
  obtain ⟨rest, rfl⟩ := Nat.exists_eq_add_of_lt hi
  rw [Nat.add_assoc, List.replicate_add, Mach.holdsAt_append, List.length_replicate] at h
  exact h.2.head

/-- The piece of place i, of pieces of k bytes each. -/
theorem Mach.holdsAt.piece {α : Type} {k : Nat} {f : α → List Byte} (hf : ∀ x, (f x).length = k) {l : List α}
    (h : m.holdsAt a (l.flatMap f)) {i : Nat} {x : α} (hi : l[i]? = some x) : m.holdsAt (a + k * i) (f x) := by
  induction l generalizing a i with
  | nil => cases hi
  | cons y l ih =>
    rw [List.flatMap_cons, Mach.holdsAt_append, hf] at h
    cases i with
    | zero => cases hi; exact h.1
    | succ i =>
      have hrest := ih h.2 hi
      rwa [Nat.add_assoc, Nat.add_comm k, ← Nat.mul_succ] at hrest

end

/-! ## Writes -/

theorem Mach.setBytes_append (m : Mach) (a : Nat) (l r : List Byte) : m.setBytes a (l ++ r) = (m.setBytes a l).setBytes (a + l.length) r := by
  induction l generalizing m a with
  | nil => rfl
  | cons b l ih => rw [List.cons_append, Mach.setBytes, ih, List.length_cons, Nat.add_assoc, Nat.add_comm 1]; rfl

/-- Pieces of k bytes each written one after the other. -/
theorem Mach.foldl_setBytes (m : Mach) (a : Nat) {k : Nat} {f : Nat → List Byte} (hf : ∀ i, (f i).length = k) (n : Nat) :
    (List.range n).foldl (fun t i => t.setBytes (a + k * i) (f i)) m = m.setBytes a ((List.range n).flatMap f) := by
  induction n with
  | zero => rfl
  | succ n ih =>
    rw [List.range_succ, List.foldl_append, ih, List.flatMap_append, Mach.setBytes_append, length_flatMap_range hf, Nat.mul_comm n]
    simp

theorem Mach.memOnly_setBytes (m : Mach) (a : Nat) (l : List Byte) : m.memOnly (m.setBytes a l) := Mach.memOnly.setBytes (m := m) rfl a l

theorem Mach.setBytes_onlyBytes (m : Mach) (a : Nat) (l : List Byte) : m.onlyBytes (m.setBytes a l) a l.length :=
  fun x hx => m.setBytes_byte_out l a x hx

theorem Mach.memOnly.reg {m t : Mach} (h : m.memOnly t) (r : Nat) : t.reg r = m.reg r := by
  have hregs : t.regs = m.regs := (congrArg Mach.regs h :)
  rw [Mach.reg, hregs]
  rfl

theorem Mach.memOnly.trans {m t u : Mach} (h : m.memOnly t) (k : t.memOnly u) : m.memOnly u :=
  Eq.trans (congrArg (fun x : Mach => { x with mem := m.mem }) (show { u with mem := t.mem } = t from k)) h

end Sys2Proof.Machine
end

section
/-! Cells of a voxel table (Table 7-3) read back after others are written, and LIST (R171): the row numbers in the table and the list. -/

namespace Sys2Proof.Machine

/-! ## One cell -/

theorem Mach.cell_eq (m : Mach) (v b : Nat) : m.cell v b =
    { key := m.le (m.vtBucket v b) 8, row := m.le (m.vtBucket v b + 8) 4, point := m.le (m.vtBucket v b + 12) 4,
      stamp := m.word (m.vtBucket v b + 16), dist := m.le (m.vtBucket v b + 20) 2, age := m.le (m.vtBucket v b + 22) 1,
      flags := m.le (m.vtBucket v b + 23) 1 } := by
  rw [Mach.cell, u64, u32, u32, w32, u32, u16, u8, u8]
  simp only [m.fieldAt_bytes (n := 32) (show 0 + 8 ≤ 32 by decide), m.fieldAt_bytes (n := 32) (show 8 + 4 ≤ 32 by decide),
    m.fieldAt_bytes (n := 32) (show 12 + 4 ≤ 32 by decide), m.fieldAt_bytes (n := 32) (show 16 + 4 ≤ 32 by decide),
    m.fieldAt_bytes (n := 32) (show 20 + 2 ≤ 32 by decide), m.fieldAt_bytes (n := 32) (show 22 + 1 ≤ 32 by decide),
    m.fieldAt_bytes (n := 32) (show 23 + 1 ≤ 32 by decide)]
  rfl

/-- Every field of the cell is as wide as its place in a bucket. -/
structure Cell.Fits (c : Cell) : Prop where
  key : c.key < 256 ^ 8
  row : c.row < 256 ^ 4
  point : c.point < 256 ^ 4
  dist : c.dist < 256 ^ 2
  age : c.age < 256 ^ 1
  flags : c.flags < 256 ^ 1

theorem Mach.cell_fits (m : Mach) (v b : Nat) : (m.cell v b).Fits := by
  rw [m.cell_eq]
  exact ⟨m.le_lt _ _, m.le_lt _ _, m.le_lt _ _, m.le_lt _ _, m.le_lt _ _, m.le_lt _ _⟩

theorem Cell.Fits.withRow {c : Cell} (h : c.Fits) {row : Nat} (hrow : row < 256 ^ 4) : { c with row := row }.Fits :=
  ⟨h.key, hrow, h.point, h.dist, h.age, h.flags⟩

/-- The 32 bytes of a bucket. -/
def Cell.bytes (c : Cell) : List Byte :=
  leBytes 8 c.key ++ leBytes 4 c.row ++ leBytes 4 c.point ++ leBytes 4 c.stamp.toNat ++ leBytes 2 c.dist ++ leBytes 1 c.age ++
    leBytes 1 c.flags ++ leBytes 8 0

theorem Cell.length_bytes (c : Cell) : c.bytes.length = 32 := by simp [Cell.bytes]

theorem Mach.setCell_eq (m : Mach) (v b : Nat) (c : Cell) : m.setCell v b c = m.setBytes (m.vtBucket v b) c.bytes := rfl

theorem Mach.setCell_memOnly (m : Mach) (v b : Nat) (c : Cell) : m.memOnly (m.setCell v b c) := m.memOnly_setBytes _ _

theorem Mach.memOnly.vtBase {m t : Mach} (h : m.memOnly t) (v : Nat) : t.vtBase v = m.vtBase v := by
  rw [Mach.vtBase, Mach.addr36, Mach.fld, h.reg, h.reg]
  rfl

theorem Mach.memOnly.vtBucket {m t : Mach} (h : m.memOnly t) (v b : Nat) : t.vtBucket v b = m.vtBucket v b := by
  rw [Mach.vtBucket, h.vtBase]
  rfl

/-- A bucket that holds the bytes of a cell is that cell. -/
theorem Mach.cell_of_holdsAt {m : Mach} {v b : Nat} {c : Cell} (hc : c.Fits) (h : m.holdsAt (m.vtBucket v b) c.bytes) :
    m.cell v b = c := by
  simp only [Cell.bytes, Mach.holdsAt_append, length_leBytes, List.length_append] at h
  obtain ⟨⟨⟨⟨⟨⟨⟨hkey, hrow⟩, hpoint⟩, hstamp⟩, hdist⟩, hage⟩, hflags⟩, -⟩ := h
  rw [m.cell_eq, hkey.le, hrow.le, hpoint.le, hstamp.word, hdist.le, hage.le, hflags.le, Nat.mod_eq_of_lt hc.key,
    Nat.mod_eq_of_lt hc.row, Nat.mod_eq_of_lt hc.point, Nat.mod_eq_of_lt hc.dist, Nat.mod_eq_of_lt hc.age, Nat.mod_eq_of_lt hc.flags,
    BitVec.ofNat_toNat, BitVec.setWidth_eq]

theorem Mach.cell_setCell_same (m : Mach) (v b : Nat) {c : Cell} (hc : c.Fits) : (m.setCell v b c).cell v b = c :=
  Mach.cell_of_holdsAt hc (by rw [(m.setCell_memOnly v b c).vtBucket, m.setCell_eq]; exact m.setBytes_holdsAt _ _)

/-- A cell whose 32 bytes are as they were. -/
theorem Mach.cell_congr {m t : Mach} {v b : Nat} (hbucket : t.vtBucket v b = m.vtBucket v b)
    (h : ∀ i < 32, t.byte (m.vtBucket v b + i) = m.byte (m.vtBucket v b + i)) : t.cell v b = m.cell v b := by
  rw [Mach.cell, hbucket, Mach.bytes_congr h]
  rfl

theorem Mach.cell_setCell_ne (m : Mach) (v : Nat) {b r : Nat} (hr : r ≠ b) (c : Cell) : (m.setCell v b c).cell v r = m.cell v r := by
  refine Mach.cell_congr ((m.setCell_memOnly v b c).vtBucket v r) fun i hi => m.setBytes_byte_out _ _ _ ?_
  rw [← Cell.bytes, c.length_bytes, Mach.vtBucket, Mach.vtBucket]
  omega

/-! ## Live cells -/

theorem Mach.liveCells_lt (m : Mach) {v b : Nat} (h : b ∈ m.liveCells v) : b < vtBuckets := by
  obtain ⟨p, -, hp⟩ := List.mem_filterMap.mp h
  split at hp
  · next hin =>
    cases hp
    simp only [vtBuckets]
    omega
  · cases hp

theorem Mach.listed_lt (m : Mach) {v mask b : Nat} (h : b ∈ m.listed v mask) : b < vtBuckets := m.liveCells_lt (List.mem_of_mem_filter h)

/-- Rows fit their 32 bits. -/
theorem Mach.length_listed_le (m : Mach) {v mask : Nat} (h : (m.listed v mask).Nodup) : (m.listed v mask).length ≤ vtBuckets := by
  have hsub : m.listed v mask ⊆ List.range vtBuckets := fun b hb => List.mem_range.mpr (m.listed_lt hb)
  simpa using (h.subperm hsub).length_le

/-! ## Rows given to cells -/

/-- From m to t nothing but bytes of voxel table v has changed. -/
structure Mach.TableOnly (v : Nat) (m t : Mach) : Prop where
  rest : m.memOnly t
  bytes : m.onlyBytes t (m.vtBase v) (2 ^ 26)

theorem Mach.TableOnly.setCell {v : Nat} {m t : Mach} (h : Mach.TableOnly v m t) {b : Nat} (hb : b < vtBuckets) (c : Cell) :
    Mach.TableOnly v m (t.setCell v b c) := by
  refine ⟨h.rest.trans (t.setCell_memOnly v b _), m.onlyBytes_setBytes h.bytes ?_⟩
  rw [← Cell.bytes, Cell.length_bytes, h.rest.vtBucket, Mach.vtBucket]
  simp only [vtBuckets] at hb
  omega

/-- Rows given one after the other. -/
def Mach.giveRows (m : Mach) (v : Nat) (l : List (Nat × Nat)) : Mach :=
  l.foldl (fun t p => t.setCell v p.1 { t.cell v p.1 with row := p.2 }) m

theorem Mach.TableOnly.giveRows {v : Nat} {m t : Mach} (h : Mach.TableOnly v m t) {l : List (Nat × Nat)} (hl : ∀ p ∈ l, p.1 < vtBuckets) :
    Mach.TableOnly v m (t.giveRows v l) :=
  List.foldlRecOn (motive := Mach.TableOnly v m) _ _ h fun _ hu p hp => hu.setCell (hl p hp) _

theorem Mach.giveRows_cons (m : Mach) (v : Nat) (p : Nat × Nat) (l : List (Nat × Nat)) :
    m.giveRows v (p :: l) = (m.setCell v p.1 { m.cell v p.1 with row := p.2 }).giveRows v l := by
  rw [Mach.giveRows, List.foldl_cons, Mach.giveRows]

/-- A cell that is given no row keeps its own. -/
theorem Mach.giveRows_cell_out (m : Mach) (v : Nat) {l : List (Nat × Nat)} {r : Nat} (h : r ∉ l.map Prod.fst) :
    (m.giveRows v l).cell v r = m.cell v r := by
  induction l generalizing m with
  | nil => rfl
  | cons p l ih =>
    rw [List.map_cons, List.mem_cons, not_or] at h
    rw [m.giveRows_cons, ih _ h.2, m.cell_setCell_ne v h.1]

/-- All of a cell but its row stays. -/
theorem Mach.giveRows_cell_row (m : Mach) (v : Nat) {l : List (Nat × Nat)} (hfit : ∀ p ∈ l, p.2 < 256 ^ 4) (r row : Nat) :
    { (m.giveRows v l).cell v r with row := row } = { m.cell v r with row := row } := by
  induction l generalizing m with
  | nil => rfl
  | cons p l ih =>
    rw [m.giveRows_cons, ih _ fun x hx => hfit x (List.mem_cons_of_mem _ hx)]
    by_cases hr : r = p.1
    · rw [hr, m.cell_setCell_same v p.1 ((m.cell_fits v p.1).withRow (hfit p List.mem_cons_self))]
    · rw [m.cell_setCell_ne v hr]

/-- A cell named once has the row given. -/
theorem Mach.giveRows_cell (m : Mach) (v : Nat) {l : List (Nat × Nat)} (hl : (l.map Prod.fst).Nodup) (hfit : ∀ p ∈ l, p.2 < 256 ^ 4)
    {p : Nat × Nat} (hp : p ∈ l) : (m.giveRows v l).cell v p.1 = { m.cell v p.1 with row := p.2 } := by
  induction l generalizing m with
  | nil => cases hp
  | cons o l ih =>
    rw [List.map_cons, List.nodup_cons] at hl
    rw [m.giveRows_cons]
    rcases List.mem_cons.mp hp with rfl | hrest
    · rw [Mach.giveRows_cell_out _ v hl.1, m.cell_setCell_same v p.1 ((m.cell_fits v p.1).withRow (hfit p hp))]
    · have hne : p.1 ≠ o.1 := fun e => hl.1 (e ▸ List.mem_map_of_mem hrest)
      rw [ih _ hl.2 (fun x hx => hfit x (List.mem_cons_of_mem _ hx)) hrest, m.cell_setCell_ne v hne]

/-! ## LIST (R171) -/

/-- The records of the cells listed. -/
def Mach.listRecords (m : Mach) (v mask : Nat) : List Byte := (m.listed v mask).flatMap fun b => cellRecord (m.cell v b)

/-- The voxel table once LIST has given its rows. -/
def Mach.rowsListed (m : Mach) (v mask : Nat) : Mach :=
  (m.giveRows v ((m.liveCells v).map fun b => (b, noRow))).giveRows v (m.listed v mask).zipIdx

theorem length_cellRecord (c : Cell) : (cellRecord c).length = 16 := by simp [cellRecord]

theorem Mach.length_listRecords (m : Mach) (v mask : Nat) : (m.listRecords v mask).length = 16 * (m.listed v mask).length := by
  rw [Mach.listRecords, length_flatMap_const fun _ => length_cellRecord _, Nat.mul_comm]

theorem Mach.pointList_eq (m : Mach) (v mask a : Nat) : m.pointList v mask a = (m.rowsListed v mask).setBytes a
    (leBytes 4 (m.listed v mask).length ++ List.replicate 28 0 ++ m.listRecords v mask) := by
  rw [Mach.rowsListed, Mach.giveRows, Mach.giveRows, List.foldl_map]
  rfl

section
variable (m : Mach) (v mask : Nat)

theorem Mach.rowsListed_tableOnly : Mach.TableOnly v m (m.rowsListed v mask) := by
  have hsame : Mach.TableOnly v m m := ⟨rfl, fun _ _ => rfl⟩
  refine Mach.TableOnly.giveRows (hsame.giveRows fun p hp => ?_) fun p hp => ?_
  · obtain ⟨b, hb, rfl⟩ := List.mem_map.mp hp
    exact m.liveCells_lt hb
  · exact m.listed_lt (List.fst_mem_of_mem_zipIdx hp)

/-- Each cell listed has its place in the list as its row. -/
theorem Mach.rowsListed_cell (hrows : (m.listed v mask).Nodup) {i r : Nat} (hr : (m.listed v mask)[i]? = some r) :
    (m.rowsListed v mask).cell v r = { m.cell v r with row := i } := by
  have hplace : (r, i) ∈ (m.listed v mask).zipIdx := List.mk_mem_zipIdx_iff_getElem?.mpr hr
  have hfit : ∀ p ∈ (m.listed v mask).zipIdx, p.2 < 256 ^ 4 := fun p hp =>
    lt_of_lt_of_le (List.snd_lt_of_mem_zipIdx hp) (by have := m.length_listed_le hrows; simp only [vtBuckets] at this; omega)
  have hnone : ∀ p ∈ (m.liveCells v).map fun b => (b, noRow), p.2 < 256 ^ 4 := fun p hp => by
    obtain ⟨b, -, rfl⟩ := List.mem_map.mp hp
    exact (by decide : noRow < 256 ^ 4)
  rw [Mach.rowsListed, Mach.giveRows_cell _ v (by rwa [List.zipIdx_map_fst]) hfit hplace]
  exact m.giveRows_cell_row v hnone r i

theorem Mach.pointList_memOnly (a : Nat) : m.memOnly (m.pointList v mask a) := by
  rw [m.pointList_eq]
  exact (m.rowsListed_tableOnly v mask).rest.trans (Mach.memOnly_setBytes _ _ _)

theorem Mach.length_list : (leBytes 4 (m.listed v mask).length ++ List.replicate 28 0 ++ m.listRecords v mask).length =
    32 + 16 * (m.listed v mask).length := by
  rw [List.length_append, List.length_append, m.length_listRecords, length_leBytes, List.length_replicate]

/-- LIST writes the list and the table alone. -/
theorem Mach.pointList_byte_out {a x : Nat} (hlist : x < a ∨ a + 32 + 16 * (m.listed v mask).length ≤ x)
    (htable : x < m.vtBase v ∨ m.vtBase v + 2 ^ 26 ≤ x) : (m.pointList v mask a).byte x = m.byte x := by
  rw [m.pointList_eq, Mach.setBytes_byte_out _ _ _ _ (by rw [m.length_list]; omega)]
  exact (m.rowsListed_tableOnly v mask).bytes x htable

/-- The list begins with the number of its records, padded to 32 bytes. -/
theorem Mach.pointList_head (a : Nat) :
    (m.pointList v mask a).bytes a 32 = leBytes 4 (m.listed v mask).length ++ List.replicate 28 0 := by
  rw [m.pointList_eq]
  have hlist := Mach.setBytes_holdsAt (m.rowsListed v mask) a
    (leBytes 4 (m.listed v mask).length ++ List.replicate 28 0 ++ m.listRecords v mask)
  rw [Mach.holdsAt_append] at hlist
  exact hlist.1

theorem Mach.pointList_record (a : Nat) {i r : Nat} (hr : (m.listed v mask)[i]? = some r) :
    (m.pointList v mask a).bytes (a + 32 + 16 * i) 16 = cellRecord (m.cell v r) := by
  rw [m.pointList_eq]
  have hlist := Mach.setBytes_holdsAt (m.rowsListed v mask) a
    (leBytes 4 (m.listed v mask).length ++ List.replicate 28 0 ++ m.listRecords v mask)
  rw [Mach.holdsAt_append] at hlist
  have hrecord := hlist.2.piece (fun b => length_cellRecord (m.cell v b)) hr
  rwa [List.length_append, length_leBytes, List.length_replicate] at hrecord

/-- Where the list does not reach the table, each cell listed keeps its row. -/
theorem Mach.pointList_cell {a : Nat} (hrows : (m.listed v mask).Nodup)
    (hapart : a + 32 + 16 * (m.listed v mask).length ≤ m.vtBase v ∨ m.vtBase v + 2 ^ 26 ≤ a) {i r : Nat}
    (hr : (m.listed v mask)[i]? = some r) : (m.pointList v mask a).cell v r = { m.cell v r with row := i } := by
  have hlt := m.listed_lt (List.mem_of_getElem? hr)
  simp only [vtBuckets] at hlt
  rw [← m.rowsListed_cell v mask hrows hr, m.pointList_eq]
  refine Mach.cell_congr ((Mach.memOnly_setBytes _ _ _).vtBucket v r) fun i hi => Mach.setBytes_byte_out _ _ _ _ ?_
  rw [m.length_list, (m.rowsListed_tableOnly v mask).rest.vtBucket, Mach.vtBucket]
  omega

end

end Sys2Proof.Machine
end

section
/-! NEIGH (R172) and PROBE (R173): each row of words or word that they write, read back from memory. -/

namespace Sys2Proof.Machine

/-- Offset o lies in a set where 1 to set + 1 of its coordinates are not 0. -/
theorem inSet_iff (set o : Nat) : inSet set o = true ↔
    1 ≤ (offsetOf o).1.natAbs + (offsetOf o).2.1.natAbs + (offsetOf o).2.2.natAbs ∧
      (offsetOf o).1.natAbs + (offsetOf o).2.1.natAbs + (offsetOf o).2.2.natAbs ≤ set + 1 := by
  simp [inSet]

theorem Mach.rowOf_lt (m : Mach) (v key : Nat) : m.rowOf v key < 256 ^ 4 := by
  rw [Mach.rowOf]
  split
  · exact (m.cell_fits v _).row
  · decide

section
variable (m : Mach) (v set first count a b : Nat)

/-- One word of a row of NEIGH. -/
def Mach.neighWord (r : Nat) (rec : List Byte) (o : Nat) : Nat :=
  if o = 13 then r
  else if o < 27 && inSet set o then m.neighbour v (u8 rec 10) (s32 rec 0) (s32 rec 4) (s16 rec 8) o
  else noRow

theorem Mach.neighRow_eq (r : Nat) (rec : List Byte) :
    m.neighRow v set r rec = (List.range 32).flatMap fun o => leBytes 4 (m.neighWord v set r rec o) := rfl

theorem Mach.length_neighRow (r : Nat) (rec : List Byte) : (m.neighRow v set r rec).length = 128 := by
  rw [m.neighRow_eq, length_flatMap_range fun _ => length_leBytes 4 _]

/-- The coordinates of a cell list record at an address. -/
theorem Mach.neighWord_record (r at_ o : Nat) : m.neighWord v set r (m.bytes at_ 16) o =
    if o = 13 then r
    else if o < 27 && inSet set o then
      m.neighbour v (u8 (m.bytes at_ 16) 10) (m.word at_).toInt (m.word (at_ + 4)).toInt (s16 (m.bytes at_ 16) 8) o
    else noRow := by
  rw [Mach.neighWord, s32, u32, m.fieldAt_bytes (by decide), s32, u32, m.fieldAt_bytes (by decide), m.word_toInt, m.word_toInt, Nat.add_zero]

theorem Mach.pointNeigh_eq : m.pointNeigh v set first count a b = m.setBytes b
    ((List.range count).flatMap fun i => m.neighRow v set (first + i) (m.bytes (a + 32 + 16 * (first + i)) 16)) :=
  m.foldl_setBytes b (fun _ => m.length_neighRow v set _ _) count

theorem Mach.pointNeigh_memOnly : m.memOnly (m.pointNeigh v set first count a b) := by
  rw [m.pointNeigh_eq]
  exact m.memOnly_setBytes _ _

theorem Mach.pointNeigh_onlyBytes : m.onlyBytes (m.pointNeigh v set first count a b) b (128 * count) := by
  have hwritten := m.setBytes_onlyBytes b
    ((List.range count).flatMap fun i => m.neighRow v set (first + i) (m.bytes (a + 32 + 16 * (first + i)) 16))
  rwa [← m.pointNeigh_eq, length_flatMap_range (fun _ => m.length_neighRow v set _ _), Nat.mul_comm] at hwritten

theorem Mach.pointNeigh_word {i o : Nat} (hi : i < count) (ho : o < 32) :
    (m.pointNeigh v set first count a b).word (b + 128 * i + 4 * o) =
      BitVec.ofNat 32 (m.neighWord v set (first + i) (m.bytes (a + 32 + 16 * (first + i)) 16) o) := by
  rw [m.pointNeigh_eq]
  have hrow := (m.setBytes_holdsAt b _).piece (f := fun i => m.neighRow v set (first + i) (m.bytes (a + 32 + 16 * (first + i)) 16))
    (fun _ => m.length_neighRow v set _ _) (List.getElem?_range hi)
  rw [m.neighRow_eq] at hrow
  exact (hrow.piece (fun _ => length_leBytes 4 _) (List.getElem?_range ho)).word

theorem Mach.pointProbe_eq : m.pointProbe v count a b =
    m.setBytes b ((List.range count).flatMap fun i => leBytes 4 (m.rowOf v (m.le (a + 8 * i) 8))) :=
  m.foldl_setBytes b (fun _ => length_leBytes 4 _) count

theorem Mach.pointProbe_memOnly : m.memOnly (m.pointProbe v count a b) := by
  rw [m.pointProbe_eq]
  exact m.memOnly_setBytes _ _

theorem Mach.pointProbe_onlyBytes : m.onlyBytes (m.pointProbe v count a b) b (4 * count) := by
  have hwritten := m.setBytes_onlyBytes b ((List.range count).flatMap fun i => leBytes 4 (m.rowOf v (m.le (a + 8 * i) 8)))
  rwa [← m.pointProbe_eq, length_flatMap_range (fun _ => length_leBytes 4 _), Nat.mul_comm] at hwritten

theorem Mach.pointProbe_row {i : Nat} (hi : i < count) :
    (m.pointProbe v count a b).le (b + 4 * i) 4 = m.rowOf v (m.le (a + 8 * i) 8) := by
  rw [m.pointProbe_eq]
  have hrow := (m.setBytes_holdsAt b _).piece (f := fun i => leBytes 4 (m.rowOf v (m.le (a + 8 * i) 8)))
    (fun _ => length_leBytes 4 _) (List.getElem?_range hi)
  rw [hrow.le, Nat.mod_eq_of_lt (m.rowOf_lt v _)]

end

end Sys2Proof.Machine
end

section
/-! RULES (R174, R175, Table 7-5): the pairs of each offset, their order, and the rule book read back from memory. -/

namespace Sys2Proof.Machine

/-! ## Places in a list of lists -/

/-- An element of list o lies, in all the lists one after another, behind those of the lists before it. -/
theorem getElem?_flatten_range {α : Type} (f : Nat → List α) {n o i : Nat} {x : α} (ho : o < n) (hi : (f o)[i]? = some x) :
    ((List.range n).map f).flatten[((List.range o).map fun p => (f p).length).sum + i]? = some x := by
  obtain ⟨rest, rfl⟩ := Nat.exists_eq_add_of_lt ho
  have hlen : ((List.range o).map f).flatten.length = ((List.range o).map fun p => (f p).length).sum := by
    rw [List.length_flatten, List.map_map]
    rfl
  have hhead : (f o)[i]? = ((List.range (o + rest + 1)).map f).flatten[((List.range o).map f).flatten.length + i]? := by
    rw [Nat.add_assoc, List.range_add, List.map_append, List.flatten_append, List.getElem?_append_right (Nat.le_add_right _ _),
      Nat.add_sub_cancel_left, List.range_succ_eq_map, List.map_cons, List.map_cons, List.flatten_cons, Nat.add_zero,
      List.getElem?_append_left (List.getElem?_eq_some_iff.mp hi).1]
  rw [← hlen, ← hhead, hi]

/-! ## Cells that have a row -/

section
variable (m : Mach)

theorem Mach.rowed_sorted (v : Nat) : (m.rowed v).Pairwise fun p q => p.1 ≤ q.1 := by
  have hsorted := List.pairwise_mergeSort (le := fun p q : Nat × Nat => decide (p.1 ≤ q.1))
    (fun a b c hab hbc => by simp only [decide_eq_true_eq] at *; omega) (fun a b => by simp only [Bool.or_eq_true, decide_eq_true_eq]; omega)
    (((m.liveCells v).map fun b => ((m.cell v b).row, (m.cell v b).key)).filter fun p => p.1 != noRow)
  exact hsorted.imp of_decide_eq_true

/-- Rows that are given once are strictly ascending. -/
theorem Mach.rowed_ascending {v : Nat} (h : ((m.rowed v).map Prod.fst).Nodup) : (m.rowed v).Pairwise fun p q => p.1 < q.1 :=
  ((m.rowed_sorted v).and (List.pairwise_map.mp h)).imp fun ⟨hle, hne⟩ => lt_of_le_of_ne hle hne

theorem Mach.rowed_row_ne {v : Nat} {p : Nat × Nat} (h : p ∈ m.rowed v) : p.1 ≠ noRow := by
  simpa using (List.mem_filter.mp (List.mem_mergeSort.mp h)).2

/-! ## The pairs of an offset -/

/-- The order of the pairs of an offset: by out, then by in. -/
def pairBefore (x y : Nat × Nat) : Prop := x.2 < y.2 ∨ x.2 = y.2 ∧ x.1 < y.1

theorem Mach.mem_subPairs {v set o i r : Nat} : (i, r) ∈ m.subPairs v set (m.rowed v) o ↔ i ≠ noRow ∧ r ≠ noRow ∧
    (o = 13 ∨ inSet set o = true) ∧ ∃ k, (r, k) ∈ m.rowed v ∧ i = m.neighbour v (keyEpoch k) (keyX k) (keyY k) (keyZ k) o := by
  rw [Mach.subPairs]
  split
  · next hset =>
    rw [Bool.or_eq_true, decide_eq_true_eq] at hset
    rw [List.mem_filter, List.mem_map, bne_iff_ne]
    constructor
    · rintro ⟨⟨⟨row, k⟩, hrow, hpair⟩, hin⟩
      obtain ⟨rfl, rfl⟩ := Prod.mk.inj hpair
      exact ⟨hin, m.rowed_row_ne hrow, hset, k, hrow, rfl⟩
    · rintro ⟨hin, -, -, k, hrow, rfl⟩
      exact ⟨⟨(r, k), hrow, rfl⟩, hin⟩
  · next hset =>
    rw [Bool.or_eq_true, decide_eq_true_eq] at hset
    exact iff_of_false List.not_mem_nil fun h => hset h.2.2.1

theorem Mach.subPairs_ordered {v : Nat} (h : ((m.rowed v).map Prod.fst).Nodup) (set o : Nat) :
    (m.subPairs v set (m.rowed v) o).Pairwise pairBefore := by
  rw [Mach.subPairs]
  split
  · exact (List.pairwise_map.mpr ((m.rowed_ascending h).imp .inl)).filter _
  · exact .nil

/-- The pairs of the cells at place o of their parents, before they are sorted. -/
def Mach.childPairs (w : Nat) (rows : List (Nat × Nat)) (o : Nat) : List (Nat × Nat) :=
  ((rows.filter fun p => childOf p.2 == o).map fun p =>
    (p.1, m.rowOf w (packKey (keyEpoch p.2) (keyX p.2 / 2) (keyY p.2 / 2) (keyZ p.2 / 2)))).filter fun p => p.2 != noRow

/-- The order by which downsample mode sorts. -/
def pairLe (p q : Nat × Nat) : Bool := decide (p.2 < q.2) || (p.2 == q.2 && decide (p.1 ≤ q.1))

theorem pairLe_iff (p q : Nat × Nat) : pairLe p q = true ↔ p.2 < q.2 ∨ p.2 = q.2 ∧ p.1 ≤ q.1 := by simp [pairLe]

theorem Mach.downPairs_eq (w : Nat) (rows : List (Nat × Nat)) (o : Nat) :
    m.downPairs w rows o = (m.childPairs w rows o).mergeSort pairLe := rfl

/-- Sorted pairs, no two of one in. -/
theorem mergeSort_pairLe_ordered {l : List (Nat × Nat)} (h : (l.map Prod.fst).Nodup) : (l.mergeSort pairLe).Pairwise pairBefore := by
  have hsorted := List.pairwise_mergeSort (le := pairLe)
    (fun a b c hab hbc => by rw [pairLe_iff] at *; omega)
    (fun a b => by rw [Bool.or_eq_true, pairLe_iff, pairLe_iff]; omega) l
  have hfirst := List.pairwise_map.mp (((List.mergeSort_perm l pairLe).map Prod.fst).nodup_iff.mpr h)
  exact (hsorted.and hfirst).imp fun ⟨hle, hne⟩ =>
    ((pairLe_iff _ _).mp hle).imp_right fun ⟨hout, hin⟩ => ⟨hout, lt_of_le_of_ne hin hne⟩

theorem Mach.mem_downPairs {v w o i r : Nat} : (i, r) ∈ m.downPairs w (m.rowed v) o ↔ i ≠ noRow ∧ r ≠ noRow ∧
    ∃ k, (i, k) ∈ m.rowed v ∧ o = childOf k ∧ r = m.rowOf w (packKey (keyEpoch k) (keyX k / 2) (keyY k / 2) (keyZ k / 2)) := by
  rw [m.downPairs_eq, List.mem_mergeSort, Mach.childPairs, List.mem_filter, List.mem_map, bne_iff_ne]
  constructor
  · rintro ⟨⟨⟨row, k⟩, hrow, hpair⟩, hout⟩
    obtain ⟨rfl, rfl⟩ := Prod.mk.inj hpair
    obtain ⟨hrow, hchild⟩ := List.mem_filter.mp hrow
    exact ⟨m.rowed_row_ne hrow, hout, k, hrow, (beq_iff_eq.mp hchild).symm, rfl⟩
  · rintro ⟨-, hout, k, hrow, rfl, rfl⟩
    exact ⟨⟨(i, k), List.mem_filter.mpr ⟨hrow, beq_self_eq_true _⟩, rfl⟩, hout⟩

theorem Mach.downPairs_ordered {v : Nat} (h : ((m.rowed v).map Prod.fst).Nodup) (w o : Nat) :
    (m.downPairs w (m.rowed v) o).Pairwise pairBefore := by
  refine mergeSort_pairLe_ordered (.sublist (List.filter_sublist.map _) ?_)
  rw [List.map_map]
  exact h.sublist (List.filter_sublist.map _)

/-- The pairs of offset o in either mode. -/
def Mach.rulePairs (v w set : Nat) (down : Bool) (o : Nat) : List (Nat × Nat) :=
  if down then m.downPairs w (m.rowed v) o else if o < 27 then m.subPairs v set (m.rowed v) o else []

theorem Mach.rulePairs_ordered {v : Nat} (h : ((m.rowed v).map Prod.fst).Nodup) (w set : Nat) (down : Bool) (o : Nat) :
    (m.rulePairs v w set down o).Pairwise pairBefore := by
  unfold Mach.rulePairs
  split
  · exact m.downPairs_ordered h w o
  split
  · exact m.subPairs_ordered h set o
  · exact .nil

theorem Mach.mem_rulePairs {v w set o i r : Nat} {down : Bool} : (i, r) ∈ m.rulePairs v w set down o ↔ i ≠ noRow ∧ r ≠ noRow ∧
    if down then ∃ k, (i, k) ∈ m.rowed v ∧ o = childOf k ∧
      r = m.rowOf w (packKey (keyEpoch k) (keyX k / 2) (keyY k / 2) (keyZ k / 2))
    else o < 27 ∧ (o = 13 ∨ inSet set o = true) ∧ ∃ k, (r, k) ∈ m.rowed v ∧
      i = m.neighbour v (keyEpoch k) (keyX k) (keyY k) (keyZ k) o := by
  unfold Mach.rulePairs
  cases down
  · by_cases ho : o < 27
    · simp only [Bool.false_eq_true, if_false, ho, if_true, true_and, m.mem_subPairs]
    · simp [ho]
  · simp only [if_true, m.mem_downPairs]

theorem childOf_lt (k : Nat) : childOf k < 8 := by
  unfold childOf
  omega

/-- A cell has eight places in its parent. -/
theorem Mach.downPairs_past {w o : Nat} (ho : 8 ≤ o) (rows : List (Nat × Nat)) : m.downPairs w rows o = [] := by
  have hnone : (rows.filter fun p => childOf p.2 == o) = [] := List.filter_eq_nil_iff.mpr fun p _ hp => by
    have hlt := childOf_lt p.2
    rw [beq_iff_eq.mp hp] at hlt
    omega
  rw [m.downPairs_eq, Mach.childPairs, hnone, List.map_nil, List.filter_nil, List.mergeSort_nil]

/-! ## The book in memory -/

/-- The pairs of the offsets below o. -/
def pairsBefore (P : Nat → List (Nat × Nat)) (o : Nat) : Nat := ((List.range o).map fun p => (P p).length).sum

/-- The book of the pairs P: its head, the counts, the starts and the pairs. -/
def bookBytes (P : Nat → List (Nat × Nat)) (rows outs : Nat) (down : Bool) (offsets : Nat) : List Byte :=
  leBytes 4 rows ++ leBytes 4 outs ++ leBytes 1 down.toNat ++ leBytes 1 (if down then 8 else 27) ++ leBytes 1 offsets ++ leBytes 1 0 ++
    leBytes 4 (pairsBefore P 27) ++ ((List.range 27).flatMap fun o => leBytes 4 (P o).length) ++ leBytes 4 0 ++
    ((List.range 27).flatMap fun o => leBytes 4 (pairsBefore P o)) ++ List.replicate 20 0 ++
    ((List.range 27).map P).flatten.flatMap fun p => leBytes 4 p.1 ++ leBytes 4 p.2

theorem length_pairBytes (p : Nat × Nat) : (leBytes 4 p.1 ++ leBytes 4 p.2).length = 8 := by simp

theorem length_bookBytes (P : Nat → List (Nat × Nat)) (rows outs : Nat) (down : Bool) (offsets : Nat) :
    (bookBytes P rows outs down offsets).length = 0x100 + 8 * pairsBefore P 27 := by
  have hpairs : ((List.range 27).map P).flatten.length = pairsBefore P 27 := by
    rw [List.length_flatten, List.map_map]
    rfl
  simp only [bookBytes, List.length_append, length_leBytes, List.length_replicate, length_flatMap_range fun _ => length_leBytes 4 _,
    length_flatMap_const length_pairBytes, hpairs]
  omega

theorem Mach.ruleBook_eq (v w set : Nat) (down : Bool) : m.ruleBook v w set down =
    bookBytes (m.rulePairs v w set down) (m.rowed v).length (if down then (m.rowed w).length else (m.rowed v).length) down
      (if down then 0 else [6, 18, 26].getD set 0) := by
  have hpairs : ((List.range 27).map fun o => if (if down then 8 else 27) ≤ o then [] else
      if down then m.downPairs w (m.rowed v) o else m.subPairs v set (m.rowed v) o) = (List.range 27).map (m.rulePairs v w set down) := by
    refine List.map_congr_left fun o ho => ?_
    rw [List.mem_range] at ho
    rw [Mach.rulePairs]
    cases down
    · rw [if_neg Bool.false_ne_true, if_neg (by omega), if_neg Bool.false_ne_true, if_neg Bool.false_ne_true, if_pos ho]
    · rw [if_pos rfl, if_pos rfl, if_pos rfl]
      split
      · next hpast => exact (m.downPairs_past hpast _).symm
      · rfl
  have hcounts : ((List.range 27).map (m.rulePairs v w set down)).map List.length =
      (List.range 27).map fun o => (m.rulePairs v w set down o).length := List.map_map ..
  have hstarts : ((List.range 27).map fun o => (((List.range 27).map fun o => (m.rulePairs v w set down o).length).take o).sum) =
      (List.range 27).map (pairsBefore (m.rulePairs v w set down)) := by
    refine List.map_congr_left fun o ho => ?_
    rw [← List.map_take, List.take_range, Nat.min_eq_left (List.mem_range.mp ho).le]
    rfl
  unfold Mach.ruleBook
  extract_lets rows outs n pairs counts starts
  have hp : pairs = (List.range 27).map (m.rulePairs v w set down) := hpairs
  have hc : counts = (List.range 27).map fun o => (m.rulePairs v w set down o).length := (congrArg (List.map List.length) hp).trans hcounts
  have hs : starts = (List.range 27).map (pairsBefore (m.rulePairs v w set down)) := by rw [← hstarts, ← hc]
  rw [hs, hc, hp, List.flatMap_map, List.flatMap_map]
  rfl

/-- What memory shows of a book at a (Table 7-5). -/
structure Mach.ShowsBook (u : Mach) (a : Nat) (P : Nat → List (Nat × Nat)) (rows outs : Nat) (down : Bool) (offsets : Nat) : Prop where
  rows : u.word a = BitVec.ofNat 32 rows
  outs : u.word (a + 4) = BitVec.ofNat 32 outs
  mode : u.byte (a + 8) = BitVec.ofNat 8 down.toNat
  places : u.byte (a + 9) = if down then 8 else 27
  offsets : u.byte (a + 10) = BitVec.ofNat 8 offsets
  reserved : u.byte (a + 11) = 0
  total : u.word (a + 12) = BitVec.ofNat 32 (pairsBefore P 27)
  counts : ∀ o, o < 27 → u.word (a + 0x10 + 4 * o) = BitVec.ofNat 32 (P o).length
  gap : u.word (a + 0x7C) = 0
  starts : ∀ o, o < 27 → u.word (a + 0x80 + 4 * o) = BitVec.ofNat 32 (pairsBefore P o)
  tail : ∀ x, x < 20 → u.byte (a + 0xEC + x) = 0
  pairs : ∀ o i p, o < 27 → (P o)[i]? = some p → u.word (a + 0x100 + 8 * (pairsBefore P o + i)) = BitVec.ofNat 32 p.1 ∧
    u.word (a + 0x104 + 8 * (pairsBefore P o + i)) = BitVec.ofNat 32 p.2

theorem Mach.showsBook_of_holdsAt {u : Mach} {a : Nat} {P : Nat → List (Nat × Nat)} {rows outs : Nat} {down : Bool} {offsets : Nat}
    (h : u.holdsAt a (bookBytes P rows outs down offsets)) : u.ShowsBook a P rows outs down offsets := by
  simp only [bookBytes, Mach.holdsAt_append, List.length_append, length_leBytes, List.length_replicate,
    length_flatMap_range fun _ => length_leBytes 4 _] at h
  obtain ⟨⟨⟨⟨⟨⟨⟨⟨⟨⟨⟨hrows, houts⟩, hmode⟩, hplaces⟩, hoffsets⟩, hreserved⟩, htotal⟩, hcounts⟩, hgap⟩, hstarts⟩, htail⟩, hpairs⟩ := h
  refine {
    rows := hrows.word, outs := houts.word, mode := hmode.head, places := hplaces.head.trans (by cases down <;> rfl),
    offsets := hoffsets.head, reserved := hreserved.head, total := htotal.word, gap := hgap.word, tail := fun x hx => htail.zeros hx
    counts := fun o ho => (hcounts.piece (fun _ => length_leBytes 4 _) (List.getElem?_range ho)).word
    starts := fun o ho => (hstarts.piece (fun _ => length_leBytes 4 _) (List.getElem?_range ho)).word
    pairs := fun o i p ho hi => ?_ }
  have hpair := hpairs.piece length_pairBytes (getElem?_flatten_range P ho hi)
  rw [Mach.holdsAt_append, length_leBytes] at hpair
  exact ⟨hpair.1.word, by rw [← hpair.2.word]; congr 1; simp only [pairsBefore]; omega⟩

/-- RULES writes the book of its pairs. -/
theorem Mach.ruleBook_shows (v w set : Nat) (down : Bool) (a : Nat) : (m.setBytes a (m.ruleBook v w set down)).ShowsBook a
    (m.rulePairs v w set down) (m.rowed v).length (if down then (m.rowed w).length else (m.rowed v).length) down
    (if down then 0 else [6, 18, 26].getD set 0) := by
  rw [m.ruleBook_eq]
  exact Mach.showsBook_of_holdsAt (m.setBytes_holdsAt a _)

theorem Mach.ruleBook_onlyBytes (v w set : Nat) (down : Bool) (a : Nat) : m.onlyBytes (m.setBytes a (m.ruleBook v w set down)) a
    (0x100 + 8 * pairsBefore (m.rulePairs v w set down) 27) := by
  have hwritten := m.setBytes_onlyBytes a (m.ruleBook v w set down)
  rwa [m.ruleBook_eq, length_bookBytes, ← m.ruleBook_eq] at hwritten

end

end Sys2Proof.Machine
end

section
/-! GATHER (R177): the rows copied into tiles, with zeros up to the last tile's end. -/

namespace Sys2Proof.Machine

theorem Mach.length_pPairs (m : Mach) (core : Nat) (b : List Byte) : (pPairs m core b).length = u32 b 0x1C := by
  rw [pPairs, Mach.pairsAt, List.length_map, List.length_range]

/-- Rows up to the end of the last tile of 32. -/
def tileRows (n : Nat) : Nat := (n + 31) / 32 * 32

theorem le_tileRows (n : Nat) : n ≤ tileRows n := by
  unfold tileRows
  omega

section
variable (m : Mach) (pairs : List (Nat × Nat)) (b l rb : Nat)

/-- The rows that GATHER copies. -/
def Mach.gathered : List Byte := pairs.flatMap fun p => m.bytes (b + p.1 * rb) rb

theorem Mach.length_gathered : (m.gathered pairs b rb).length = pairs.length * rb := length_flatMap_const (fun _ => m.length_bytes _ rb) pairs

theorem Mach.pointGather_eq : m.pointGather pairs b l rb =
    m.setBytes l (m.gathered pairs b rb ++ List.replicate ((tileRows pairs.length - pairs.length) * rb) 0) := rfl

theorem Mach.pointGather_memOnly : m.memOnly (m.pointGather pairs b l rb) := by
  rw [m.pointGather_eq]
  exact m.memOnly_setBytes _ _

theorem Mach.pointGather_onlyBytes : m.onlyBytes (m.pointGather pairs b l rb) l (tileRows pairs.length * rb) := by
  have hwritten := m.setBytes_onlyBytes l
    (m.gathered pairs b rb ++ List.replicate ((tileRows pairs.length - pairs.length) * rb) 0)
  rwa [← m.pointGather_eq, List.length_append, m.length_gathered, List.length_replicate, ← Nat.add_mul, Nat.add_sub_cancel' (le_tileRows _)] at hwritten

theorem Mach.pointGather_row {i : Nat} {p : Nat × Nat} (hi : pairs[i]? = some p) :
    (m.pointGather pairs b l rb).bytes (l + i * rb) rb = m.bytes (b + p.1 * rb) rb := by
  have hrows := (Mach.holdsAt_append.mp (m.setBytes_holdsAt l
    (m.gathered pairs b rb ++ List.replicate ((tileRows pairs.length - pairs.length) * rb) 0))).1
  rw [← m.pointGather_eq] at hrows
  have hrow := hrows.piece (fun p => m.length_bytes (b + p.1 * rb) rb) hi
  rwa [Mach.holdsAt, m.length_bytes, Nat.mul_comm rb i] at hrow

theorem Mach.pointGather_padding {x : Nat} (hx : l + pairs.length * rb ≤ x) (hend : x < l + tileRows pairs.length * rb) :
    (m.pointGather pairs b l rb).byte x = 0 := by
  have hpadding := (Mach.holdsAt_append.mp (m.setBytes_holdsAt l
    (m.gathered pairs b rb ++ List.replicate ((tileRows pairs.length - pairs.length) * rb) 0))).2
  rw [← m.pointGather_eq, m.length_gathered] at hpadding
  obtain ⟨i, rfl⟩ := Nat.exists_eq_add_of_le hx
  refine hpadding.zeros ?_
  rw [Nat.sub_mul]
  omega

end

end Sys2Proof.Machine
end

section
/-! SCATTER (R178): the sums that it forms in the order of the pairs, and the words that another cluster adds into as well. -/

namespace Sys2Proof.Machine

/-! ## Words added -/

theorem Mach.setWord_word (m : Mach) (a : Nat) (v : Word) : (m.setWord a v).word a = v := by
  have hword : (m.setWord a v).holdsAt a (leBytes 4 v.toNat) := m.setBytes_holdsAt a _
  rw [hword.word, BitVec.ofNat_toNat, BitVec.setWidth_eq]

theorem Mach.setWord_byte_out (m : Mach) {a x : Nat} (v : Word) (h : x < a ∨ a + 4 ≤ x) : (m.setWord a v).byte x = m.byte x :=
  m.setBytes_byte_out _ a x (by rwa [length_leBytes])

theorem Mach.setWord_word_ne (m : Mach) {a d : Nat} (v : Word) (h : a + 4 ≤ d ∨ d + 4 ≤ a) : (m.setWord d v).word a = m.word a :=
  Mach.word_congr fun i hi => m.setWord_byte_out v (by omega)

theorem Mach.addWords_succ (m : Mach) (fp : Bool) (d s n : Nat) :
    m.addWords fp d s (n + 1) = (m.setWord d (addWord fp (m.word d) (m.word s))).addWords fp (d + 4) (s + 4) n := rfl

theorem Mach.addWords_memOnly (m : Mach) (fp : Bool) (d s n : Nat) : m.memOnly (m.addWords fp d s n) := by
  induction n generalizing m d s with
  | zero => exact (rfl : { m with mem := m.mem } = m)
  | succ n ih => exact (m.memOnly_setBytes d _).trans (ih _ _ _)

theorem Mach.addWords_byte_out (m : Mach) (fp : Bool) {d s n x : Nat} (h : x < d ∨ d + 4 * n ≤ x) : (m.addWords fp d s n).byte x = m.byte x := by
  induction n generalizing m d s with
  | zero => rfl
  | succ n ih => rw [m.addWords_succ, ih _ (by omega), m.setWord_byte_out _ (by omega)]

/-- Each word of the n has its add, where the words added lie apart from them. -/
theorem Mach.addWords_word (m : Mach) (fp : Bool) {d s n w : Nat} (hapart : s + 4 * n ≤ d ∨ d + 4 * n ≤ s) (hw : w < n) :
    (m.addWords fp d s n).word (d + 4 * w) = addWord fp (m.word (d + 4 * w)) (m.word (s + 4 * w)) := by
  induction n generalizing m d s w with
  | zero => omega
  | succ n ih =>
    rw [m.addWords_succ]
    cases w with
    | zero =>
      rw [Mach.word_congr fun i hi => Mach.addWords_byte_out _ fp (by omega)]
      exact m.setWord_word d _
    | succ w =>
      have hplace : d + 4 * (w + 1) = d + 4 + 4 * w ∧ s + 4 * (w + 1) = s + 4 + 4 * w := by omega
      rw [hplace.1, hplace.2, ih _ (by omega) (by omega), m.setWord_word_ne _ (by omega), m.setWord_word_ne _ (by omega)]

/-! ## Rows added -/

/-- The rows of tiles at l that are named with their places, added one after the other into the matrix at b. -/
def Mach.addRows (m : Mach) (fp : Bool) (b l rb : Nat) (ps : List ((Nat × Nat) × Nat)) : Mach :=
  ps.foldl (fun t p => t.addWords fp (b + p.1.2 * rb) (l + p.2 * rb) (rb / 4)) m

theorem Mach.pointScatter_eq (m : Mach) (pairs : List (Nat × Nat)) (b l rb : Nat) (fp : Bool) :
    m.pointScatter pairs b l rb fp = m.addRows fp b l rb pairs.zipIdx := rfl

section
variable (m : Mach) (fp : Bool) (b l rb : Nat)

theorem Mach.addRows_cons (p : (Nat × Nat) × Nat) (ps : List ((Nat × Nat) × Nat)) : m.addRows fp b l rb (p :: ps) =
    (m.addWords fp (b + p.1.2 * rb) (l + p.2 * rb) (rb / 4)).addRows fp b l rb ps := by
  rw [Mach.addRows, List.foldl_cons, Mach.addRows]

theorem Mach.addRows_memOnly (ps : List ((Nat × Nat) × Nat)) : m.memOnly (m.addRows fp b l rb ps) :=
  List.foldlRecOn (motive := m.memOnly) _ _ (rfl : { m with mem := m.mem } = m) fun u hu _ _ => hu.trans (u.addWords_memOnly _ _ _ _)

/-- The matrix alone is written, as far as the rows named reach. -/
theorem Mach.addRows_onlyBytes {ps : List ((Nat × Nat) × Nat)} {size : Nat} (hsize : ∀ p ∈ ps, (p.1.2 + 1) * rb ≤ size) :
    m.onlyBytes (m.addRows fp b l rb ps) b size := by
  refine List.foldlRecOn (motive := fun t => m.onlyBytes t b size) _ _ (fun _ _ => rfl) fun u hu p hp x hx => ?_
  have hrow := hsize p hp
  rw [Nat.succ_mul] at hrow
  rw [u.addWords_byte_out fp (by omega), hu x hx]

/-- One word of the matrix: the words of the rows added into its own, in their order. The rows lie apart from the matrix, so that each
still holds its own word `src` when its turn comes. -/
theorem Mach.addRows_word {size n r w : Nat} (hapart : l + n * rb ≤ b ∨ b + size ≤ l) (hw : 4 * w + 4 ≤ rb) (src : Nat → Word)
    {ps : List ((Nat × Nat) × Nat)} (hsize : ∀ p ∈ ps, (p.1.2 + 1) * rb ≤ size) (hn : ∀ p ∈ ps, p.2 < n)
    (hsrc : ∀ p ∈ ps, m.word (l + p.2 * rb + 4 * w) = src p.2) :
    (m.addRows fp b l rb ps).word (b + r * rb + 4 * w) =
      (ps.filter fun p => p.1.2 == r).foldl (fun acc p => addWord fp acc (src p.2)) (m.word (b + r * rb + 4 * w)) := by
  induction ps generalizing m with
  | nil => rfl
  | cons p ps ih =>
    have hrow := hsize p List.mem_cons_self
    have hplace : (p.2 + 1) * rb ≤ n * rb := Nat.mul_le_mul_right rb (hn p List.mem_cons_self)
    rw [Nat.succ_mul] at hrow hplace
    have hkept : ∀ o ∈ ps, (m.addWords fp (b + p.1.2 * rb) (l + p.2 * rb) (rb / 4)).word (l + o.2 * rb + 4 * w) = src o.2 := fun o ho => by
      have hother : (o.2 + 1) * rb ≤ n * rb := Nat.mul_le_mul_right rb (hn o (List.mem_cons_of_mem _ ho))
      rw [Nat.succ_mul] at hother
      rw [← hsrc o (List.mem_cons_of_mem _ ho)]
      exact Mach.word_congr fun i hi => m.addWords_byte_out fp (by omega)
    rw [m.addRows_cons, ih _ (fun o ho => hsize o (List.mem_cons_of_mem _ ho)) (fun o ho => hn o (List.mem_cons_of_mem _ ho)) hkept]
    by_cases hr : p.1.2 = r
    · subst hr
      rw [List.filter_cons_of_pos (by rw [beq_self_eq_true]), List.foldl_cons, m.addWords_word fp (by omega) (by omega),
        hsrc p List.mem_cons_self]
    · have hout : (m.addWords fp (b + p.1.2 * rb) (l + p.2 * rb) (rb / 4)).word (b + r * rb + 4 * w) = m.word (b + r * rb + 4 * w) := by
        refine Mach.word_congr fun i hi => m.addWords_byte_out fp ?_
        rcases Nat.lt_or_gt_of_ne hr with hlt | hlt
        all_goals
          have hrows := Nat.mul_le_mul_right rb (Nat.succ_le_of_lt hlt)
          rw [Nat.succ_mul] at hrows
          omega
      rw [List.filter_cons_of_neg (by simpa using hr), hout]

end

/-! ## Adds of two clusters (R178) -/

/-- From m to t nothing has changed but memory, the free values taken and what the command queues hold. -/
def Mach.AddsOnly (m t : Mach) : Prop := { t with mem := m.mem, cq := m.cq, freeCtr := m.freeCtr } = m

section
variable {m t : Mach}

theorem Mach.memOnly.addsOnly (h : m.memOnly t) : m.AddsOnly t :=
  (congrArg (fun x : Mach => { x with cq := m.cq, freeCtr := m.freeCtr }) h :)

theorem Mach.AddsOnly.freeBytes (h : m.AddsOnly t) (a n : Nat) : m.AddsOnly (t.freeBytes a n) := by
  rw [Mach.freeBytes, Mach.setBytes_eq]
  exact h

theorem Mach.AddsOnly.noteLast (h : m.AddsOnly t) (q : Nat) (f : Started → Started) : m.AddsOnly (t.noteLast q f) := h

theorem Mach.AddsOnly.noteAdds (h : m.AddsOnly t) (q : Nat) (words : List Nat) : m.AddsOnly (t.noteAdds q words) :=
  (List.foldlRecOn (motive := m.AddsOnly) _ _ h fun _ hu w _ => hu.freeBytes (32 * w) 32).noteLast q _

theorem Mach.noteLast_byte (m : Mach) (q : Nat) (f : Started → Started) (x : Nat) : (m.noteLast q f).byte x = m.byte x := rfl

theorem Mach.freeBytes_onlyBytes {a n b k : Nat} (h : m.onlyBytes t a n) (hb : a ≤ b ∧ b + k ≤ a + n) : m.onlyBytes (t.freeBytes b k) a n := by
  have hcounted : m.onlyBytes { t with freeCtr := t.freeCtr + k } a n := h
  exact m.onlyBytes_setBytes hcounted (by rwa [List.length_map, List.length_range])

/-- Only the words noted can be left undefined. -/
theorem Mach.noteAdds_onlyBytes {a n : Nat} (h : m.onlyBytes t a n) (q : Nat) {words : List Nat}
    (hwords : ∀ w ∈ words, a ≤ 32 * w ∧ 32 * w + 32 ≤ a + n) : m.onlyBytes (t.noteAdds q words) a n := by
  intro x hx
  rw [Mach.noteAdds, Mach.noteLast_byte]
  exact List.foldlRecOn (motive := fun u => m.onlyBytes u a n) _ _ h
    (fun u hu w hw => Mach.freeBytes_onlyBytes hu (hwords w (List.mem_of_mem_filter hw))) x hx

/-- Where no started command adds into anything none is. -/
theorem Mach.noteAdds_byte (m : Mach) (q : Nat) (words : List Nat) (h : ∀ p ∈ m.cq, ∀ c ∈ p.2.started, c.adds = []) (x : Nat) :
    (m.noteAdds q words).byte x = m.byte x := by
  have hnone : (words.filter fun w => m.cq.any fun p => m.queueCore p.1 / 4 != m.queueCore q / 4 &&
      p.2.started.any fun c => c.adds.contains w) = [] := by
    refine List.filter_eq_nil_iff.mpr fun w _ hraced => ?_
    obtain ⟨p, hp, hadds⟩ := List.any_eq_true.mp hraced
    obtain ⟨c, hc, hw⟩ := List.any_eq_true.mp (Bool.and_eq_true_iff.mp hadds).2
    rw [h p hp c hc] at hw
    cases hw
  rw [Mach.noteAdds, Mach.noteLast_byte, hnone]
  rfl

end

/-- Aligned rows are made of the words that a SCATTER notes. -/
theorem scatterWords_within {pairs : List (Nat × Nat)} {b rb size : Nat} (hb : b % 32 = 0) (hrb : rb % 32 = 0)
    (hsize : ∀ p ∈ pairs, (p.2 + 1) * rb ≤ size) : ∀ w ∈ scatterWords pairs b rb, b ≤ 32 * w ∧ 32 * w + 32 ≤ b + size := by
  intro w hw
  obtain ⟨p, hp, hw⟩ := List.mem_flatMap.mp hw
  obtain ⟨i, hi, rfl⟩ := List.mem_map.mp hw
  have hrow := hsize p hp
  rw [List.mem_range] at hi
  rw [Nat.succ_mul] at hrow
  have hplace : p.2 * rb % 32 = 0 := by rw [Nat.mul_mod, hrb, Nat.mul_zero, Nat.zero_mod]
  omega

/-! ## The command -/

/-- Every pair's row ends within the bytes that a SCATTER is checked to reach. -/
theorem Mach.scatter_reach (m : Mach) {core : Nat} {b : List Byte} (hop : cmdOp b = 12) {p : Nat × Nat} (hp : p ∈ pPairs m core b) :
    (p.2 + 1) * u16 b 0x34 ≤ m.pointLenB core b := by
  simp only [Mach.pointLenB, hop]
  rw [List.foldl_eq_foldr]
  exact List.le_max_of_le' 0 (List.mem_map_of_mem hp) le_rfl

/-- The rows of a SCATTER with their places among its pairs. -/
theorem Mach.scatter_places (m : Mach) {core : Nat} {b : List Byte} (hop : cmdOp b = 12) : ∀ p ∈ (pPairs m core b).zipIdx,
    (p.1.2 + 1) * u16 b 0x34 ≤ m.pointLenB core b ∧ p.2 < u32 b 0x1C := fun p hp =>
  ⟨m.scatter_reach hop (List.fst_mem_of_mem_zipIdx hp), by rw [← m.length_pPairs core b]; exact List.snd_lt_of_mem_zipIdx hp⟩

section
variable (m : Mach) (q : Nat) (x : Started)

/-- The sums alone, before the words of another cluster are looked at. -/
def Mach.scattered : Mach :=
  m.pointScatter (pPairs m (m.queueCore q) x.bytes) (pAddrB (m.queueCore q) x.bytes) (pLocal (m.queueCore q) x.bytes) (u16 x.bytes 0x34)
    (128 ≤ u8 x.bytes 0x31)

theorem Mach.pointScatterRun_eq : pointScatterRun m q x = if pSpaceB x.bytes = 0 then (m.scattered q x).noteAdds q
    (scatterWords (pPairs m (m.queueCore q) x.bytes) (pAddrB (m.queueCore q) x.bytes) (u16 x.bytes 0x34)) else m.scattered q x := rfl

theorem Mach.scattered_memOnly : m.memOnly (m.scattered q x) := by
  rw [Mach.scattered, m.pointScatter_eq]
  exact m.addRows_memOnly _ _ _ _ _

theorem Mach.scattered_onlyBytes (hop : cmdOp x.bytes = 12) :
    m.onlyBytes (m.scattered q x) (pAddrB (m.queueCore q) x.bytes) (m.pointLenB (m.queueCore q) x.bytes) := by
  rw [Mach.scattered, m.pointScatter_eq]
  exact m.addRows_onlyBytes _ _ _ _ fun p hp => (m.scatter_places hop p hp).1

theorem Mach.pointScatterRun_addsOnly : m.AddsOnly (pointScatterRun m q x) := by
  rw [m.pointScatterRun_eq]
  split
  · exact (m.scattered_memOnly q x).addsOnly.noteAdds q _
  · exact (m.scattered_memOnly q x).addsOnly

theorem Mach.pointScatterRun_onlyBytes (hop : cmdOp x.bytes = 12) (haddr : u64 x.bytes 0x28 % 32 = 0) (hrow : u16 x.bytes 0x34 % 32 = 0) :
    m.onlyBytes (pointScatterRun m q x) (pAddrB (m.queueCore q) x.bytes) (m.pointLenB (m.queueCore q) x.bytes) := by
  rw [m.pointScatterRun_eq]
  split
  · next hspace =>
    have hbase : pAddrB (m.queueCore q) x.bytes % 32 = 0 := by
      rw [pAddrB, hspace, spaceBase, Nat.zero_add, haddr]
    exact Mach.noteAdds_onlyBytes (m.scattered_onlyBytes q x hop) q
      (scatterWords_within hbase hrow fun p hp => m.scatter_reach hop hp)
  · exact m.scattered_onlyBytes q x hop

theorem Mach.pointScatterRun_byte (h : pSpaceB x.bytes ≠ 0 ∨ ∀ p ∈ m.cq, ∀ c ∈ p.2.started, c.adds = []) (a : Nat) :
    (pointScatterRun m q x).byte a = (m.scattered q x).byte a := by
  have hcq : (m.scattered q x).cq = m.cq := (congrArg Mach.cq (m.scattered_memOnly q x) :)
  rw [m.pointScatterRun_eq]
  split
  · next hspace => exact Mach.noteAdds_byte _ q _ (by rw [hcq]; exact h.resolve_left (absurd hspace)) a
  · rfl

/-- Each word of the matrix has the words of its pairs added, in the order of the pairs. -/
theorem Mach.pointScatterRun_word (hop : cmdOp x.bytes = 12)
    (hadds : pSpaceB x.bytes ≠ 0 ∨ ∀ p ∈ m.cq, ∀ c ∈ p.2.started, c.adds = [])
    {core b l rb : Nat} (hcore : m.queueCore q = core) (hb : pAddrB core x.bytes = b) (hl : pLocal core x.bytes = l) (hrb : u16 x.bytes 0x34 = rb)
    (hapart : l + u32 x.bytes 0x1C * rb ≤ b ∨ b + m.pointLenB core x.bytes ≤ l) (r : Nat) {w : Nat} (hw : 4 * w + 4 ≤ rb) :
    (pointScatterRun m q x).word (b + r * rb + 4 * w) = ((pPairs m core x.bytes).zipIdx.filter fun p => p.1.2 == r).foldl
      (fun acc p => addWord (128 ≤ u8 x.bytes 0x31) acc (m.word (l + p.2 * rb + 4 * w))) (m.word (b + r * rb + 4 * w)) := by
  subst hcore hb hl hrb
  rw [Mach.word_congr fun i _ => m.pointScatterRun_byte q x hadds _, Mach.scattered, m.pointScatter_eq]
  exact m.addRows_word _ _ _ _ hapart hw (fun i => m.word (pLocal (m.queueCore q) x.bytes + i * u16 x.bytes 0x34 + 4 * w))
    (fun p hp => (m.scatter_places hop p hp).1) (fun p hp => (m.scatter_places hop p hp).2) fun _ _ => rfl

end

end Sys2Proof.Machine
end

section
/-! The list commands of a point unit (R171 to R175, R177, R178) as they start, and the statement about them. -/

namespace Sys2Proof.Machine

/-! ## SCATTER as it starts -/

/-- A record of the start stage is all that lies between a command that is taken and the module that runs it. -/
theorem Mach.taken_traceFrame (m : Mach) {b : List Byte} (hclass : cmdClass b ≠ 2) (q : Nat) (put : List Byte) :
    (m.taken q b put).TraceFrame (m.take q b put) := by
  rw [m.take_eq hclass]
  split
  · exact Mach.traceFrame_trace _ _ _ _ _
  · exact .same _

theorem Mach.headMoved_reg (m : Mach) {q a : Nat} (ha : a ≠ Reg.CQ_HEAD q) : (m.headMoved q).reg a = m.reg a := by
  unfold Mach.headMoved
  split
  · rfl
  · exact m.reg_setReg_ne ha _

/-- Taking a command moves no queue to another core. -/
theorem Mach.take_queueCore (m : Mach) {b : List Byte} (hclass : cmdClass b ≠ 2) (q : Nat) (put : List Byte) :
    (m.take q b put).queueCore q = m.queueCore q := by
  have hbound : (m.take q b put).reg (Reg.CQ_CORE q) = m.reg (Reg.CQ_CORE q) := by
    rw [(m.taken_traceFrame hclass q put).reg _ (.inr (by simp only [Reg.CQ_CORE]; omega))]
    exact (Mach.reg_setReg_ne _ (by simp only [Reg.CQ_CORE, Reg.CQ_LAST]; omega) _).trans
      (m.headMoved_reg (by simp only [Reg.CQ_CORE, Reg.CQ_HEAD]; omega))
  rw [Mach.queueCore, Mach.fld, hbound]
  rfl

/-- The command that started last is the one taken. -/
theorem Mach.take_getLast (m : Mach) {b : List Byte} (hclass : cmdClass b ≠ 2) (q : Nat) (put : List Byte) :
    ((m.take q b put).cmdq q).started.getLast? = some (m.inFlight q b put) := by
  have hqueue : (m.take q b put).cmdq q = m.takenQueue q b put := by
    rw [Mach.cmdq, (m.taken_traceFrame hclass q put).cq]
    exact sget_sput_same _ _ _ _
  rw [hqueue]
  exact List.getLast?_concat

/-- A SCATTER that goes forms its sums as it starts. -/
theorem exec_pointScatter {s : State} {q : Fin 256} (live : s.m.live = true) (hgo : s.m.pointGoes q 12) :
    exec (.pointScatter q) s = .next { s with m := (pointScatterRun (s.m.take q (s.m.headBytes q) []) q
      (s.m.inFlight q (s.m.headBytes q) [])).checkHead q } := by
  have hlast := s.m.take_getLast hgo.notVector q []
  obtain ⟨hstart, hchecks⟩ := hgo
  have hrun := s.m.startRun_ok (check := pointCheck) (run := pointScatterRun) hstart rfl hchecks hlast
  rw [← hrun]
  exact act_live live fun m => m.startRun q 4 12 pointCheck pointScatterRun

/-! ## Checks (R179) -/

theorem none_of_firstErr {l : List (Option CmdErr)} (h : firstErr l = .ok ()) {e : Option CmdErr} (he : e ∈ l) : e = none := by
  rw [firstErr] at h
  split at h
  · next hnil =>
    have hperm := List.mergeSort_perm (l.filterMap id) fun a b : CmdErr => decide (a.1 ≤ b.1)
    rw [hnil] at hperm
    exact List.filterMap_eq_nil_iff.mp hperm.symm.eq_nil e he
  · cases h

theorem not_of_errIf {c : Bool} {off cause : Nat} (h : errIf c off cause = none) : c = false := by
  cases c
  · rfl
  · cases h

/-- What the checks say of a SCATTER: its matrix and its rows are aligned to 32 bytes. -/
theorem Mach.scatter_aligned (m : Mach) {core : Nat} {b : List Byte} (hop : cmdOp b = 12) (h : firstErr (m.pointErrs core b) = .ok ()) :
    u64 b 0x28 % 32 = 0 ∧ u16 b 0x34 % 32 = 0 := by
  have haddr : errIf (((cmdOp b == 3 && !pIdentity b) || [8, 9, 10, 11, 12].contains (cmdOp b)) && (u64 b 0x28 % 32 != 0)) 0x28 0x03 =
      none := none_of_firstErr h (by simp only [Mach.pointErrs, List.mem_append, List.mem_cons, true_or, or_true])
  have hrow : errIf ((cmdOp b == 11 || cmdOp b == 12) && (u16 b 0x34 < 32 || 8192 < u16 b 0x34 || u16 b 0x34 % 32 != 0)) 0x34 0x02 =
      none := none_of_firstErr h (by simp only [Mach.pointErrs, List.mem_append, List.mem_cons, true_or, or_true])
  rw [hop] at haddr hrow
  have hmisplaced : (u64 b 0x28 % 32 != 0) = false := not_of_errIf haddr
  have hmisshapen := not_of_errIf hrow
  simp only [Bool.and_eq_false_iff, Bool.or_eq_false_iff, bne_eq_false_iff_eq] at hmisplaced hmisshapen
  exact ⟨hmisplaced, hmisshapen.elim (fun h => absurd h (by decide)) And.right⟩

/-! ## The statement -/

/-- Settles O28: each list command by its own lemmas above. -/
theorem pointListCommands : Obligations.PointListCommands := by
  intro s q live m b core go v n set aa bb l rb pairs memOnly dx dy dz near rowNear
  have hnear : ∀ o, inSet set o = true ↔ near o := fun o => inSet_iff set o
  refine ⟨fun hgo => ?_, fun hgo => ?_, fun hgo => ?_, fun hgo => ?_, fun hgo => ?_, fun hgo => ?_⟩
  · exact ⟨_, State.starts_point live rfl rfl hgo, m.pointList_memOnly v _ aa, fun x => m.pointList_byte_out v _,
      m.pointList_head v _ aa, fun i r => m.pointList_record v _ aa, fun hrows hapart i r => m.pointList_cell v _ hrows hapart⟩
  · refine ⟨_, State.starts_point live rfl rfl hgo, m.pointNeigh_memOnly v set _ n aa bb, m.pointNeigh_onlyBytes v set _ n aa bb,
      fun i o hi ho => ?_⟩
    refine (m.pointNeigh_word v set _ n aa bb hi ho).trans (congrArg (BitVec.ofNat 32) ?_)
    rw [m.neighWord_record]
    simp only [Bool.and_eq_true, decide_eq_true_eq, hnear]
    rfl
  · exact ⟨_, State.starts_point live rfl rfl hgo, m.pointProbe_memOnly v n aa bb, m.pointProbe_onlyBytes v n aa bb,
      fun i => m.pointProbe_row v n aa bb⟩
  · intro down w rows
    have hbook := m.ruleBook_shows v w set down bb
    refine ⟨_, m.rulePairs v w set down, State.starts_point live rfl rfl hgo, m.memOnly_setBytes bb _,
      fun hrows => m.rulePairs_ordered hrows w set down, fun o i r => ?_, m.ruleBook_onlyBytes v w set down bb, hbook.rows, hbook.outs,
      hbook.mode, hbook.places, hbook.offsets, hbook.reserved, hbook.total, fun o ho => ⟨hbook.counts o ho, hbook.starts o ho⟩, hbook.gap,
      hbook.tail, hbook.pairs⟩
    rw [m.mem_rulePairs, hnear]
    rfl
  · have hn : pairs.length = n := m.length_pPairs core b
    have hbytes := m.pointGather_onlyBytes pairs bb l rb
    rw [hn] at hbytes
    exact ⟨_, State.starts_point live rfl rfl hgo, m.pointGather_memOnly pairs bb l rb, hbytes, fun i p => m.pointGather_row pairs bb l rb,
      fun x hx hend => m.pointGather_padding pairs bb l rb (by rwa [hn]) (by rwa [hn])⟩
  · intro tk pairs size fp
    have hgoes : m.pointGoes q 12 := hgo
    have hcore : tk.queueCore q = core := m.take_queueCore hgoes.notVector q []
    obtain ⟨haddr, hrow⟩ := m.scatter_aligned hgoes.op_eq hgoes.2
    have hbytes := tk.pointScatterRun_onlyBytes q (m.inFlight q b []) hgoes.op_eq haddr hrow
    rw [hcore] at hbytes
    exact ⟨_, exec_pointScatter live hgo, tk.pointScatterRun_addsOnly q _, hbytes, fun hadds hapart r w _ hw =>
      tk.pointScatterRun_word q (m.inFlight q b []) hgoes.op_eq hadds hcore rfl rfl rfl hapart r hw⟩

end Sys2Proof.Machine
end

section
/-! THIN of one weight set and one vector (R187, R206, R214) up to its one check: a slot cleared, the weights in the active latch, and the two
sums that are compared. -/

namespace Sys2Proof.Machine

/-! ## A slot cleared -/

theorem length_slotBytes (f : Nat → Word) : ((List.range 1024).flatMap fun a => wordBytes (f a)).length = 4096 :=
  length_flatMap_range (k := 4) (fun a => length_leBytes 4 (f a).toNat) 1024

section
variable (m : Mach) (c n q : Nat)

theorem Mach.clearSlot_byte_in {x : Nat} (h : slotBase c n ≤ x) (hend : x < slotBase c n + 4096) : (m.clearSlot c n q).byte x = 0 := by
  obtain ⟨i, rfl⟩ := Nat.exists_eq_add_of_le h
  rw [Mach.clearSlot, Mach.setSlot_byte, Mach.mapSlot, Mach.setBytes_byte_in _ _ _ _ (by rw [length_slotBytes]; omega)]
  obtain ⟨_, -, hword⟩ := List.mem_flatMap.mp (List.getElem_mem _)
  exact (by decide : ∀ b ∈ wordBytes 0, b = (0 : Byte)) _ hword

theorem Mach.clearSlot_byte_out {x : Nat} (h : x < slotBase c n ∨ slotBase c n + 4096 ≤ x) : (m.clearSlot c n q).byte x = m.byte x := by
  rw [Mach.clearSlot, Mach.setSlot_byte, Mach.mapSlot, Mach.setBytes_byte_out _ _ _ _ (by rwa [length_slotBytes])]

theorem Mach.setBytes_latchesOf (a : Nat) (l : List Byte) : (m.setBytes a l).latchesOf c = m.latchesOf c := by
  rw [Mach.setBytes_eq]
  rfl

theorem Mach.setSlot_latchesOf (s : Slot) (d : Nat) : (m.setSlot c n s).latchesOf d = m.latchesOf d := by
  rw [Mach.latchesOf, Mach.setSlot_latches, Mach.latchesOf]

theorem Mach.clearSlot_latchesOf (d : Nat) : (m.clearSlot c n q).latchesOf d = m.latchesOf d := by
  rw [Mach.clearSlot, Mach.setSlot_latchesOf, Mach.mapSlot, Mach.setBytes_latchesOf]

end

/-! ## The module in which the vector runs -/

section
variable (m : Mach) (t : TCmd)

/-- The weight set of a THIN in the active latch, and then the slot of its first vector cleared. -/
def Mach.thinReady : Mach :=
  (m.setLatches t.core ((m.latchesOf t.core).load (m.weightSet t 0)).swap).clearSlot t.core t.s0 t.q

theorem Latches.active_load_swap (x : Latches) (w : Latch) : (x.load w).swap.active = w := by
  cases h : x.second <;> simp [Latches.load, Latches.swap, Latches.active, h]

/-- The latch holds the weights as they were before the slot was cleared. -/
theorem Mach.thinReady_active : ((m.thinReady t).latchesOf t.core).active = m.weightSet t 0 := by
  rw [Mach.thinReady, Mach.clearSlot_latchesOf, Mach.latchesOf, Mach.setLatches, sget_sput_same, Latches.active_load_swap]

theorem Mach.thinReady_byte (x : Nat) : (m.thinReady t).byte x = (m.clearSlot t.core t.s0 t.q).byte x := by
  by_cases h : slotBase t.core t.s0 ≤ x ∧ x < slotBase t.core t.s0 + 4096
  · rw [Mach.thinReady, Mach.clearSlot_byte_in _ _ _ _ h.1 h.2, Mach.clearSlot_byte_in _ _ _ _ h.1 h.2]
  · rw [Mach.thinReady, Mach.clearSlot_byte_out _ _ _ _ (by omega), Mach.clearSlot_byte_out _ _ _ _ (by omega), Mach.setLatches_byte]

end

/-! ## The check and the run -/

theorem dot_ranges (f g : Nat → Int) (n : Nat) :
    (List.zipWith (· * ·) ((List.range n).map f) ((List.range n).map g)).sum = ((List.range n).map fun d => f d * g d).sum := by
  rw [List.zipWith_map, List.zipWith_self]

theorem checkRows_int_fails {s c : Word} (h : s ≠ c) (g : Word) : (checkRows false [(s, c, g)]).1 ≠ 0 := by
  simp [checkRows, rowPasses, h]

theorem TRun.finish_of_bad {r : TRun} (h : r.bad ≠ 0) (t : TCmd) (n : Nat) (write : TRun → (Nat → Word) → TRun) : r.finish t n write = r := by
  rw [TRun.finish, if_pos h]

section
variable (m : Mach) {t : TCmd}

/-- The sum of the 1,024 dot products of a vector. -/
def Mach.thinSum (t : TCmd) : Int :=
  ((List.range 1024).map fun u => ((List.range t.depth).map fun d => (m.thinReady t).actInt t 0 d * m.wgtInt t d u).sum).sum

/-- The checksum unit's dot product with the record at chk. -/
def Mach.thinChecksum (t : TCmd) (chk : Nat) : Int :=
  ((List.range t.depth).map fun d => (m.thinReady t).actInt t 0 d * ((m.thinReady t).word (chk + 4 * d)).toInt).sum

theorem Mach.thinInt_bad {chk : Nat} (h : BitVec.ofInt 32 (m.thinSum t) ≠ BitVec.ofInt 32 (m.thinChecksum t chk)) :
    ((m.thinReady t).thinInt t 0 0 chk).bad ≠ 0 := by
  simp only [Mach.thinInt, m.thinReady_active, Mach.weightSet, List.map_map, Function.comp_def, dot_ranges, Nat.zero_mul, Nat.zero_add]
  exact checkRows_int_fails h 0

theorem TRun.thinStep_bad {slot v k : Nat} (h : (m.thinInt t v k (t.auxBase + u32 t.b 0x2C + k * t.recSize)).bad ≠ 0) :
    (TRun.thinStep { m := m } t slot v k).bad ≠ 0 := by
  rw [TRun.thinStep, if_neg (absurd rfl), TRun.accept, if_neg h]
  exact h

theorem Mach.thinRun_one (hn : t.nT = 1) (hk : t.kS = 1) (hcont : t.cont = false) :
    TRun.thinRun { m := m } t = (TRun.thinStep { m := m.thinReady t } t t.s0 0 0).finish t t.s0 fun r acc => r.outRow t 0 acc := by
  simp [TRun.thinRun, hn, hk, TRun.ready, TRun.loadSet, TRun.on, hcont, Mach.thinReady]

/-- A THIN of one weight set stops at its one vector where the two sums differ (R206, R209). -/
theorem Mach.runTensor_thin_bad (hop : t.op = 2) (hn : t.nT = 1) (hk : t.kS = 1) (hcont : t.cont = false)
    (h : BitVec.ofInt 32 (m.thinSum t) ≠ BitVec.ofInt 32 (m.thinChecksum t (t.auxBase + u32 t.b 0x2C))) : (m.runTensor t).bad ≠ 0 := by
  have hstep : (TRun.thinStep { m := m.thinReady t } t t.s0 0 0).bad ≠ 0 :=
    TRun.thinStep_bad _ (by rw [Nat.zero_mul, Nat.add_zero]; exact m.thinInt_bad h)
  have hrun : (TRun.thinRun { m := m } t).bad ≠ 0 := by
    rw [m.thinRun_one hn hk hcont, TRun.finish_of_bad hstep]
    exact hstep
  simp only [Mach.runTensor, hop]
  split <;> exact hrun

end

end Sys2Proof.Machine
end

section
/-! A THIN in a module whose Cellar runs past the 36-bit addresses into the local store of core 0 (R403). The START record (R407) of the
command lands on the weights' descriptor, which its unit has checked (R231) and is still to read. It then names weights that lie in the slots
from the command's own slot on: they are loaded (R187) before the slot is cleared (R196). -/

namespace Sys2Proof.Machine

/-- Queue 0 holds a THIN of one vector for slot 6, with TRACE set and number 0x6FFFFFE0, at the count 0x80A00: the record of its start spells a
descriptor of 262,400 rows and 1,879,048,160 columns at 0x8010. The Cellar begins 2 MiB below local store 0, its next record at the descriptor
there at 0x40. Activation (0, 0) and one byte of slot 6 are 1. -/
def strayTrace : State := Tests.st { Tests.headed
    [(Reg.CQ_HEAD 0, 0x6FFFFFE0), (Reg.CQ_DONE 0, 0x6FFFFFE0), (Reg.CQ_TAIL 0, 0x6FFFFFE1), (Reg.DBG_TRACE_CTRL, 0x80000000),
      (Reg.DBG_TRACE_KINDS, 0x10), (Reg.DBG_CELLAR_BASE_LO, 0xFFE00000), (Reg.DBG_CELLAR_BASE_HI, 0xF), (Reg.DBG_CELLAR_WR, 0x200040),
      (Reg.DBG_CELLAR_SIZE, 2)]
    ([(0, 1), (1, 4), (4, 8), (0x10, 2), (0x13, 8), (0x15, 6), (0x18, 1), (0x1A, 1), (0x1C, 1), (0x24, 0x40), (0x28, 0x80), (0x2D, 0x10)] ++
      Tests.desc 0 0x20 0 0 0 32 0 32 ++ Tests.desc 0x40 0x30 10 8 0 32 4 0 ++ Tests.desc 0x80 0xC0 0 0 0 32 4 0 ++
      [(2 ^ 36 + 0x2000, 1), (2 ^ 39 + 0x6010, 1)]) with
  time := { State.reset.m.time with count := 0x80A00 } }

theorem strayTrace_live : strayTrace.m.live = true := rfl

/-- The unit finds no error in the command. -/
theorem strayTrace_goes : Tests.tensorGoes strayTrace.m 2 := Tests.tensorGoes_of (by decide +kernel)

/-- The command is taken and its start traced. -/
def strayTaken : Mach := strayTrace.m.take 0 (strayTrace.m.headBytes 0) []

/-- The weights' descriptor under the record. -/
def strayWgt : TDesc :=
  { Tests.tile1 0x8010 10 8 with rows := 0x40100, cols := 0x6FFFFFE0, tr0 := 8, cvt := 0, count1 := 0, count2 := 0 }

def strayCmd : TCmd :=
  { core := 0, q := 0, b := strayTrace.m.headBytes 0, act := Tests.tile1 0x2000 0 0, wgt := strayWgt,
    out := { Tests.tile1 0xC000 0 0 with cols := 1024 }, golden := false }

theorem strayTaken_cmd : strayTaken.readTCmd (strayTaken.queueCore 0) 0 (strayTrace.m.headBytes 0) = strayCmd := by decide +kernel

theorem strayCmd_form : strayCmd.op = 2 ∧ strayCmd.nT = 1 ∧ strayCmd.kS = 1 ∧ strayCmd.cont = false ∧ strayCmd.drain = false ∧
    strayCmd.path = .int := by decide +kernel

theorem strayCmd_depth : strayCmd.depth = 32 := by decide +kernel

theorem strayCmd_chk : strayCmd.auxBase + u32 strayCmd.b 0x2C = 2 ^ 36 + 0x1000 := by decide +kernel

theorem strayCmd_slot : slotBase strayCmd.core strayCmd.s0 = 2 ^ 39 + 0x6000 := by decide +kernel

/-! ## Where the command reads -/

theorem Mach.le_one (m : Mach) (a : Nat) : m.le a 1 = (m.byte a).toNat := by
  simp [Mach.le, Mach.bytes, ofLe]

theorem cascadeFrom_identity (n a : Nat) : cascadeFrom (List.replicate n 255) a = a := by
  rw [cascadeFrom, List.reverse_replicate]
  induction n with
  | zero => rfl
  | succ n ih => exact ih

theorem strayCmd_activation (m : Mach) : m.actInt strayCmd 0 0 = signed 8 (m.byte (2 ^ 36 + 0x2000)).toNat := rfl

/-- The address of weight (d, u). -/
def strayPlace (d u : Nat) : Nat := 2 ^ 39 + 0x6010 + 1024 * (64 * (u / 256) + u / 32 % 8) + 32 * d + u % 32

theorem le_strayPlace (d u : Nat) : 2 ^ 39 + 0x6010 ≤ strayPlace d u := by
  unfold strayPlace
  omega

theorem strayPlace_first {d u : Nat} (hd : d < 32) : strayPlace d u = 2 ^ 39 + 0x6010 ↔ d = 0 ∧ u = 0 := by
  unfold strayPlace
  omega

theorem strayWgt_tile (tc : Nat) : strayWgt.tile 0 tc = { base := 0x8010, index := 0, tr := 8, tc := tc } := by
  simp [TDesc.tile, strayWgt, Tests.tile1]

theorem strayWgt_stored (m : Mach) {d u : Nat} (hd : d < 32) :
    m.storedElem strayWgt (2 ^ 36 + 0x8010) (256 + d) u = (m.byte (strayPlace d u)).toNat := by
  have hrow : (256 + d) / 32 = 8 ∧ (256 + d) % 32 = d := by omega
  have hband : 8 * min 8 (8200 - 8 * (8 / 8)) = 64 := rfl
  have hplace : 2 ^ 36 + 0x8010 + tileIndex 8200 58720255 8 (u / 32) * 1024 + (32 * d + u % 32) * 1 = strayPlace d u := by
    rw [tileIndex, strayPlace, hband]
    omega
  rw [← Mach.le_one, ← hplace]
  simp only [Mach.storedElem]
  rw [hrow.1, hrow.2]
  rfl

theorem strayWgt_operand (m : Mach) {d u : Nat} (hd : d < 32) (hu : u < 1024) :
    m.operand 0 strayWgt 0 (u / 32) d (u % 32) = (m.byte (strayPlace d u)).toNat := by
  have hposition : (32 * d + u % 32) / 32 = d ∧ (32 * d + u % 32) % 32 = u % 32 := by omega
  have hcol : 32 * (u / 32) + u % 32 = u := by omega
  have hinside : 256 + d < 262400 ∧ u < 1879048160 := by omega
  have hstages : strayWgt.stages = List.replicate 10 255 := rfl
  rw [← strayWgt_stored m hd]
  simp only [Mach.operand, strayWgt_tile, hstages, cascadeFrom_identity, hposition]
  simp [strayWgt, Tests.tile1, TDesc.transpose, TDesc.delivered, convertBits, fmtFloat, spaceBase, localBase, hcol, hinside]

theorem strayCmd_weight (m : Mach) {d u : Nat} (hd : d < 32) (hu : u < 1024) :
    m.wgtInt strayCmd d u = signed 8 (m.byte (strayPlace d u)).toNat := by
  have hstep : d / 32 = 0 ∧ d % 32 = d := by omega
  rw [Mach.wgtInt, hstep.1, hstep.2]
  exact congrArg (signed 8) (strayWgt_operand m hd hu)

/-! ## What it reads there before and after its slot is cleared -/

theorem sget_of_not_listed {β : Type} (dflt : Nat → β) {t : Sparse β} {k : Nat} (h : ∀ p ∈ t, p.1 ≠ k) : sget dflt t k = dflt k := by
  induction t with
  | nil => rfl
  | cons p t ih =>
    rw [sget, if_neg (h p List.mem_cons_self)]
    exact ih fun p hp => h p (List.mem_cons_of_mem _ hp)

theorem strayTaken_slotByte : strayTaken.byte (2 ^ 39 + 0x6010) = 1 := by decide +kernel

theorem strayTaken_actByte : strayTaken.byte (2 ^ 36 + 0x2000) = 1 := by decide +kernel

theorem strayTaken_chk : ∀ d < 32, strayTaken.word (2 ^ 36 + 0x1000 + 4 * d) = 0 := by decide +kernel

theorem strayTaken_listed : ∀ p ∈ strayTaken.mem, p.1 ≤ 2 ^ 39 + 0x6010 := by decide +kernel

theorem strayTaken_weight {d u : Nat} (hd : d < 32) (hu : u < 1024) :
    strayTaken.wgtInt strayCmd d u = if d = 0 ∧ u = 0 then 1 else 0 := by
  rw [strayCmd_weight _ hd hu]
  split
  · next hfirst =>
    rw [(strayPlace_first hd).mpr hfirst, strayTaken_slotByte]
    rfl
  · next hfirst =>
    have hother := mt (strayPlace_first hd).mp hfirst
    have hzero : strayTaken.byte (strayPlace d u) = 0 := sget_of_not_listed memZero fun p hp => by
      have hlisted := strayTaken_listed p hp
      have hplace := le_strayPlace d u
      omega
    rw [hzero]
    rfl

/-- The module with the command's slot cleared. -/
abbrev strayCleared : Mach := strayTaken.clearSlot strayCmd.core strayCmd.s0 strayCmd.q

theorem strayCleared_weight {d u : Nat} (hd : d < 32) (hu : u < 1024) : strayCleared.wgtInt strayCmd d u = 0 := by
  have hplace := le_strayPlace d u
  rw [strayCmd_weight _ hd hu]
  by_cases hslot : strayPlace d u < slotBase strayCmd.core strayCmd.s0 + 4096
  · rw [Mach.clearSlot_byte_in _ _ _ _ (by rw [strayCmd_slot]; omega) hslot]
    rfl
  · rw [strayCmd_slot] at hslot
    rw [Mach.clearSlot_byte_out _ _ _ _ (by rw [strayCmd_slot]; omega), ← strayCmd_weight _ hd hu, strayTaken_weight hd hu, if_neg]
    rw [← strayPlace_first hd]
    omega

theorem strayCleared_low {x : Nat} (h : x < 2 ^ 39) : strayCleared.byte x = strayTaken.byte x :=
  Mach.clearSlot_byte_out _ _ _ _ (by rw [strayCmd_slot]; omega)

theorem strayCleared_chk {d : Nat} (hd : d < 32) : strayCleared.word (2 ^ 36 + 0x1000 + 4 * d) = 0 := by
  rw [← strayTaken_chk d hd]
  exact Mach.word_congr fun i hi => strayCleared_low (by omega)

theorem strayCleared_weights {d : Nat} (hd : d < 32) : ((List.range 1024).map fun u => strayCleared.wgtInt strayCmd d u).sum = 0 := by
  refine List.sum_eq_zero fun x hx => ?_
  obtain ⟨u, hu, rfl⟩ := List.mem_map.mp hx
  exact strayCleared_weight hd (List.mem_range.mp hu)

/-! ## The two sums -/

theorem strayReady_activation : (strayTaken.thinReady strayCmd).actInt strayCmd 0 0 = 1 := by
  rw [strayCmd_activation, Mach.thinReady_byte, strayCleared_low (by omega), strayTaken_actByte]
  rfl

theorem sum_range_first {n : Nat} {f : Nat → Int} (h : ∀ i < n, f (i + 1) = 0) : ((List.range (n + 1)).map f).sum = f 0 := by
  rw [List.range_succ_eq_map, List.map_cons, List.sum_cons, List.map_map, List.sum_eq_zero, add_zero]
  intro x hx
  obtain ⟨i, hi, rfl⟩ := List.mem_map.mp hx
  exact h i (List.mem_range.mp hi)

/-- The latch holds one weight that is not 0. -/
theorem strayTaken_thinSum : strayTaken.thinSum strayCmd = 1 := by
  rw [Mach.thinSum, strayCmd_depth, sum_range_first (n := 1023), sum_range_first (n := 31), strayReady_activation,
    strayTaken_weight (by decide) (by decide)]
  · rfl
  · intro d hd
    rw [strayTaken_weight (by omega) (by decide), if_neg (by omega), mul_zero]
  · intro u hu
    refine List.sum_eq_zero fun x hx => ?_
    obtain ⟨d, hd, rfl⟩ := List.mem_map.mp hx
    rw [strayTaken_weight (List.mem_range.mp hd) (by omega), if_neg (by omega), mul_zero]

theorem strayTaken_thinChecksum : strayTaken.thinChecksum strayCmd (2 ^ 36 + 0x1000) = 0 := by
  rw [Mach.thinChecksum, strayCmd_depth]
  refine List.sum_eq_zero fun x hx => ?_
  obtain ⟨d, hd, rfl⟩ := List.mem_map.mp hx
  rw [Mach.word_congr fun i _ => strayTaken.thinReady_byte strayCmd _, strayCleared_chk (List.mem_range.mp hd)]
  exact mul_zero _

theorem strayTaken_bad : (strayTaken.runTensor strayCmd).bad ≠ 0 := by
  obtain ⟨hop, hn, hk, hcont, -, -⟩ := strayCmd_form
  refine strayTaken.runTensor_thin_bad hop hn hk hcont ?_
  rw [strayCmd_chk, strayTaken_thinSum, strayTaken_thinChecksum]
  decide

/-! ## The statement -/

/-- What the statement says of the checks of the command t that the unit reads. -/
theorem strayTaken_passes (h : Obligations.TensorCommands) {t : TCmd}
    (ht : strayTaken.readTCmd (strayTaken.queueCore 0) 0 (strayTrace.m.headBytes 0) = t)
    (hn : t.nT = 1) (hk : t.kS = 1) (hpath : t.path = .int) (hcont : t.cont = false) (hdrain : t.drain = false)
    (hrecord : ∀ d, d < t.depth → (strayTaken.clearSlot t.core t.s0 t.q).word (t.auxBase + u32 t.b 0x2C + 4 * d) =
      BitVec.ofInt 32 ((List.range 1024).map fun u => (strayTaken.clearSlot t.core t.s0 t.q).wgtInt t d u).sum) :
    (strayTaken.runTensor t).bad = 0 := by
  subst ht
  obtain ⟨-, hthin, -⟩ := h strayTrace 0 strayTrace_live
  obtain ⟨-, -, hstep⟩ := hthin strayTrace_goes
  exact (hstep hn hk hpath hcont hdrain hrecord).1

/-- Refutes O29: a state may hold a Cellar that reaches into a local store. The START record of a THIN may then name weights in the command's
own slot. The record of sums holds those that the cleared slot would give, while the latch holds what lay in the slot before, and the one step
fails its check. -/
theorem not_tensorCommands : ¬ Obligations.TensorCommands := by
  intro h
  obtain ⟨-, hn, hk, hcont, hdrain, hpath⟩ := strayCmd_form
  refine strayTaken_bad (strayTaken_passes h strayTaken_cmd hn hk hpath hcont hdrain fun d hd => ?_)
  rw [strayCmd_depth] at hd
  rw [strayCmd_chk, strayCleared_chk hd, strayCleared_weights hd]
  rfl

end Sys2Proof.Machine
end
